-- ==== Sys2Proof/Word.lean ====
section
/-!
DEFINITION. The word types of the model: bytes, little-endian byte strings (spec 00 R4, R5), and bit fields of
numbers.
-/

namespace Sys2Proof

/-- One byte. -/
abbrev Byte := BitVec 8

/-- A submission entry, 64 bytes (04 R63), least significant byte first. -/
abbrev Entry := BitVec 512

/-- The byte with the value `n` modulo 256. -/
abbrev byte (n : Nat) : Byte := BitVec.ofNat 8 n

/-- `len` little-endian bytes of `n` (00 R5). -/
def natLe : Nat → Nat → List Byte
  | _, 0 => []
  | n, len + 1 => byte n :: natLe (n / 256) len

/-- The number that a little-endian byte string spells (00 R5). -/
def leNat : List Byte → Nat
  | [] => 0
  | b :: bs => b.toNat + 256 * leNat bs

/-- Bits `hi` down to `lo` of `n` (00 R4). -/
def bitsOf (n hi lo : Nat) : Nat := n / 2 ^ lo % 2 ^ (hi + 1 - lo)

/-- Bit `i` of `n` as a truth value. -/
def bitSet (n i : Nat) : Bool := n / 2 ^ i % 2 == 1

/-- The two's-complement reading of a `w`-bit number (00 R5, 04 R78). -/
def toSigned (w n : Nat) : Int :=
  if n < 2 ^ (w - 1) then (n : Int) else (n : Int) - (2 ^ w : Nat)

/-- The `w`-bit two's-complement encoding of an integer. -/
def ofSigned (w : Nat) (i : Int) : Nat := (i % (2 ^ w : Nat)).toNat

end Sys2Proof
end

