-- ==== Sys2Proof/Machine/Lists.lean ====
section
/-!
DEFINITION. Plain helpers over lists, and byte memories in canonical form: a list of (address, byte) pairs with
strictly rising addresses and no entry equal to zero, which is what an unlisted address reads as.
-/

namespace Sys2Proof.Machine

/-- Apply `f` to the entries that satisfy `p`. -/
def updWhere {α : Type} (p : α → Bool) (f : α → α) (l : List α) : List α :=
  l.map (fun x => if p x then f x else x)

/-- Replace the first entry that satisfies `p` by `x`, or append `x` where none does. -/
def upsert {α : Type} (p : α → Bool) (x : α) : List α → List α
  | [] => [x]
  | y :: l => if p y then x :: l else y :: upsert p x l

/-- The list without the entries that satisfy `p`. -/
def dropWhere {α : Type} (p : α → Bool) (l : List α) : List α := l.filter (fun x => !p x)

/-- Entry `i`, or `dflt` beyond the end. -/
def nth {α : Type} (l : List α) (i : Nat) (dflt : α) : α := (l[i]?).getD dflt

/-- The list with entry `i` replaced; unchanged where there is none. -/
def setNth {α : Type} (l : List α) (i : Nat) (x : α) : List α := l.set i x

/-- Sum of a list of numbers. -/
def sumNat (l : List Nat) : Nat := l.foldl (· + ·) 0

/-- The numbers lo, lo+1, … lo+n-1. -/
def rangeFrom (lo n : Nat) : List Nat := (List.range n).map (· + lo)

/-- Insertion into a list sorted by `le`, stable. -/
def insertBy {α : Type} (le : α → α → Bool) (x : α) : List α → List α
  | [] => [x]
  | y :: l => if le y x then y :: insertBy le x l else x :: y :: l

/-- A stable insertion sort. -/
def sortBy {α : Type} (le : α → α → Bool) (l : List α) : List α :=
  l.foldl (fun acc x => insertBy le x acc) []

/-- The entry with the least key, the first of them on ties. -/
def minBy {α : Type} (key : α → Nat) : List α → Option α
  | [] => none
  | x :: l =>
    match minBy key l with
    | none => some x
    | some y => if key x ≤ key y then some x else some y

/-- The entry with the greatest key, the first of them on ties. -/
def maxBy {α : Type} (key : α → Nat) : List α → Option α
  | [] => none
  | x :: l =>
    match maxBy key l with
    | none => some x
    | some y => if key y ≤ key x then some x else some y

/-- Ceiling division. -/
def ceilDiv (a b : Nat) : Nat := (a + b - 1) / b

/-- `a` rounded up to a multiple of `b`. -/
def roundUp (a b : Nat) : Nat := ceilDiv a b * b

/-- A byte memory in canonical form. -/
abbrev Mem := List (Nat × Byte)

/-- The canonical form: addresses strictly rising from `lo`, and no zero byte listed. -/
def memWfFrom : Nat → Mem → Bool
  | _, [] => true
  | lo, (a, b) :: m => decide (lo ≤ a) && (b != 0) && memWfFrom (a + 1) m

/-- The canonical form of a memory. -/
def memWf (m : Mem) : Bool := memWfFrom 0 m

/-- The byte at address `a`; an unlisted address reads 0. [Log entry 5, DESIGN CHOICE.] -/
def memRead : Mem → Nat → Byte
  | [], _ => 0
  | (k, b) :: m, a => if k = a then b else memRead m a

/-- Store one byte; storing 0 removes the entry, so the form stays canonical. -/
def memWrite : Mem → Nat → Byte → Mem
  | [], a, v => if v = 0 then [] else [(a, v)]
  | (k, b) :: m, a, v =>
    if a < k then (if v = 0 then (k, b) :: m else (a, v) :: (k, b) :: m)
    else if a = k then (if v = 0 then m else (k, v) :: m)
    else (k, b) :: memWrite m a v

/-- `len` bytes from address `a`. [Log entry 5, DESIGN CHOICE.] -/
def memReadN (m : Mem) (a len : Nat) : List Byte := (rangeFrom a len).map (memRead m)

/-- Store a byte string at `a`. -/
def memWriteN (m : Mem) (a : Nat) : List Byte → Mem
  | [] => m
  | b :: bs => memWriteN (memWrite m a b) (a + 1) bs

/-- Zero `len` bytes from `a`: the entries of the range leave the list. -/
def memClear (m : Mem) (a len : Nat) : Mem :=
  m.filter (fun e => decide (e.1 < a) || decide (a + len ≤ e.1))

/-- Copy `len` bytes from `src` of `m` to `dst` of `m'` (`m'` may be `m`). -/
def memCopy (m : Mem) (src : Nat) (m' : Mem) (dst len : Nat) : Mem :=
  let moved := (m.filter (fun e => decide (src ≤ e.1) && decide (e.1 < src + len)))
  moved.foldl (fun acc e => memWrite acc (e.1 - src + dst) e.2) (memClear m' dst len)

/-- Field of `len` bytes at byte offset `off` of a byte string, little-endian; bytes beyond the end read 0. -/
def fieldAt (bs : List Byte) (off len : Nat) : Nat := leNat ((bs.drop off).take len)

/-- A byte string padded with zeros (or cut) to `len` bytes. -/
def padTo (bs : List Byte) (len : Nat) : List Byte := bs.take len ++ List.replicate (len - bs.length) 0

/-- The byte string with `x` written at `off`, extended by zeros where it is too short. -/
def putBytes (bs : List Byte) (off : Nat) (x : List Byte) : List Byte :=
  let bs' := bs ++ List.replicate (off + x.length - bs.length) 0
  bs'.take off ++ x ++ bs'.drop (off + x.length)

/-- Whether every byte of a string is zero. -/
def allZero (bs : List Byte) : Bool := bs.all (· == 0)

end Sys2Proof.Machine
end

