-- ==== Sys2Proof/Machine/Ctl.lean ====
section
/-!
DEFINITION. The control part of the device's state: the clause timer and device time (chapter 03), the Turuk rings,
verbs and events (chapter 04), counters and logs (chapter 20), partitions and contexts (chapter 15), and the catalog
records of identifiers (chapter 02).
-/

namespace Sys2Proof.Machine

/-- A CLAUSE_SET that has been accepted and waits for its effective boundary (03 R50). -/
structure ClauseSetWait where
  seq : Nat
  lenUs : Nat
  bgPct : Nat
  source : Nat
  effective : Nat
  deriving DecidableEq, Repr

/-- The settings of the clause grid (03 R35, Table 3-3) and the CLAUSE_SET that waits to change them. -/
structure Grid where
  lenUs : Nat
  bgPct : Nat
  source : Nat
  waiting : Option ClauseSetWait
  deriving DecidableEq, Repr

/-- The clause timer (03 R36-R45, Table 3-4). Times are elapsed device time in ns; `startNow` is CLAUSE_START. `mode` is GRID. `rebase`: the
next boundary re-bases the grid; `aborted`: a job was aborted in this clause. Locking: `goodTicks` in a row, the last of them at `lastSeen`;
`locking`: the boundary of the locking tick is due. Locked: `ticks` accepted and not yet taken as nominal times, the last at
`lastTick` (device time `lastTickNow`); `owed`: nominal times taken before their ticks came. -/
structure Clk where
  count : Nat
  started : Bool
  startNow : Nat
  start : Nat
  nominal : Nat
  debt : Nat
  planned : Nat
  shortened : Bool
  mode : Nat
  deferring : Bool
  rebase : Bool
  aborted : Bool
  goodTicks : Nat
  lastSeen : Option Nat
  locking : Bool
  lastTick : Nat
  lastTickNow : Nat
  ticks : List Nat
  owed : Nat
  deriving DecidableEq, Repr

/-- Device time and its steering (03 R46-R48, Table 3-5). `mode`: 0 free, 1 slewing, 2 PTP following. -/
structure Tim where
  elapsed : Nat
  now : Nat
  frac : Nat
  basePpb : Int
  slewPpb : Int
  slewLeft : Int
  slewFrac : Int
  ptp : Bool
  ptpPort : Nat
  ptpDomain : Nat
  ptpState : Nat
  acquired : Bool
  offsetNs : Int
  lastSync : Nat
  syncSeq : Nat
  syncT2 : Nat
  syncT1 : Option Nat
  delayT3 : Nat
  pathDelay : Int
  deriving DecidableEq, Repr

/-- An event record before it is posted (04 R78). `scope`: which rings receive it (04 R79). -/
inductive EvScope where
  | device
  | part (p : Nat)
  | ld (n : Nat)
  deriving DecidableEq, Repr

/-- An event as raised (04 R78, Table 4-11). -/
structure EventRec where
  clause : Nat
  time : Nat
  code : Nat
  ring : Nat
  tag : Nat
  obj : Nat
  detail : List Byte
  scope : EvScope
  deriving DecidableEq, Repr

/-- One LD's event ring and EVQ registers (04 R77, Table 4-10). `used` counts posted, unconsumed records. -/
structure Evq where
  base : Nat
  vector : Nat
  enable : Bool
  depthLog2 : Nat
  head : Nat
  tail : Nat
  phase : Bool
  used : Nat
  lost : Nat
  deriving DecidableEq, Repr

/-- A completion that is ready and not yet posted: bytes without the PHASE bit, whether IRQ was asked, and the acceptance number of its verb. -/
structure HeldCpl where
  bytes : List Byte
  irq : Bool
  seq : Nat
  deriving DecidableEq, Repr

/-- A ring (04 R53-R66). `ld` is the LD whose BAR0 shows it; 32 + p for the hold of an unbound partition p. -/
structure Ring where
  num : Nat
  ld : Nat
  part : Nat
  ctx : Nat
  sqOff : Nat
  cqOff : Nat
  depthLog2 : Nat
  prio : Nat
  vector : Nat
  sqHead : Nat
  sqTail : Nat
  cqHead : Nat
  cqTail : Nat
  phase : Bool
  done : Nat
  inFlight : Nat
  faultCause : Nat
  fault : Bool
  halted : Bool
  enabled : Bool
  admin : Bool
  stopped : Bool
  holding : Bool
  held : List HeldCpl
  deriving DecidableEq, Repr

/-- A submission waiting on ring 16 in the hub (04 R58, 17 R410). -/
structure HubEntry where
  entry : Entry
  block : List Byte
  submit : Nat
  deriving DecidableEq, Repr

/-- A SUBMIT whose verb was accepted: whether its response still waits (17 R410), since `at`. -/
structure HubWait where
  submit : Nat
  at' : Nat
  waiting : Bool
  deriving DecidableEq, Repr

/-- A held completion of ring 16, with the block that its verb left (17 R410, 15 R342). -/
structure HubHeld where
  tag : Nat
  cpl : List Byte
  block : List Byte
  deriving DecidableEq, Repr

/-- An accepted verb that has not posted its completion (04 R70). `ld`: the LD whose exchange area its offsets name
(16: the tunnel block). `started`: elapsed time at which it started (04 R74). `running`: it runs as an operation
that a later command finishes. -/
structure Verb where
  seq : Nat
  ring : Nat
  op : Nat
  entry : Entry
  block : List Byte
  blockEnd : Nat
  submit : Nat
  ld : Nat
  part : Nat
  ctx : Nat
  admin : Bool
  accClause : Nat
  accTime : Nat
  started : Option Nat
  running : Bool
  event : Bool
  deriving DecidableEq, Repr

/-- A counter of Table 20-2, named by scope, unit and number (20 R451). -/
structure Ctr where
  scope : Nat
  unit : Nat
  num : Nat
  val : Nat
  ovf : Bool
  deriving DecidableEq, Repr

/-- The Turuk interface and telemetry (chapters 04 and 20). `late`: verbs and launched jobs that have reached their limit (04 R74). -/
structure Turuk where
  rings : List Ring
  hub : List HubEntry
  hubWaits : List HubWait
  hubHeld : List HubHeld
  submitSeq : Nat
  verbs : List Verb
  late : List Nat
  nextSeq : Nat
  robin : Nat
  lastAccept : Nat
  stallSeen : Bool
  fwStall : Bool
  evqs : List Evq
  fmQueue : List (List Byte)
  fmLost : Nat
  masks : List (Nat × Nat)
  history : List (Nat × EventRec)
  histNext : Nat
  ctrs : List Ctr
  singleLd : Bool
  quiesced : Bool
  quietSince : Nat
  config : Nat
  configClause : Nat
  label : Nat
  labelClause : Nat
  deriving DecidableEq, Repr

/-- One entry of a partition's measurement log (15 R358) with its number. -/
structure MeasEntry where
  num : Nat
  bytes : List Byte
  deriving DecidableEq, Repr

/-- A partition (15 R339-R345). `hbm` and `ddr` are granule numbers (per stack: stack and granule). -/
structure Part where
  num : Nat
  bound : Option Nat
  groups : Nat
  hbm : List (Nat × Nat)
  ddr : List Nat
  slots : Nat
  lexicons : Nat
  grammars : Nat
  ports : Nat
  signed : Bool
  qps : Nat
  windows : Nat
  ownerKey : List Byte
  keyId : List Byte
  digest : List Byte
  log : List MeasEntry
  logNext : Nat
  logBase : List Byte
  phraseNext : Nat
  joining : Nat
  ending : Bool
  deriving DecidableEq, Repr

/-- A context (15 R350, R351): its share and its deficit in the round robin. -/
structure Ctx where
  id : Nat
  share : Nat
  deficit : Nat
  ending : Bool
  deriving DecidableEq, Repr

/-- A rebinding in progress (15 R354). -/
structure Rebind where
  seq : Nat
  part : Nat
  newLd : Option Nat
  point : Nat
  copied : Bool
  rings : Nat
  deriving DecidableEq, Repr

/-- Granules of one verb's release that are still being cleared (15 R346); `hbmAll` and `ddrAll` count all of it. `who`: ring and TAG of
a SCRUB; `sanitize`: the LD whose Sanitize asked for it (17 R408). `part` is 32 for granules of no partition. -/
structure Clearing where
  rel : Nat
  part : Nat
  op : Nat
  hbm : List (Nat × Nat)
  ddr : List Nat
  hbmAll : Nat
  ddrAll : Nat
  flash : List Nat
  who : Option (Nat × Nat)
  sanitize : Option Nat
  deriving DecidableEq, Repr

/-- Objects in HBM and DDR (02 R21 reference or a name of the model's) with the granule tier they are charged to:
`stack` 0-7 for HBM, 8 for DDR (09 R179, R492). -/
structure Alloc where
  part : Nat
  stack : Nat
  addr : Nat
  bytes : Nat
  obj : Nat
  sub : Nat
  deriving DecidableEq, Repr

/-- `hbmGranules` (per stack) and `ddrGranules` count the granules outside the device's fixed reservations; `exchHbm` and `exchDdr` are
those that back the exchange areas (15 R340, 17 R398). Partitions, contexts, granules and what was allocated from them. `stamps` keep for each released number the
release at which it became free (02 R20): (kind, number, release). `owners` keep who last held a number (02 R22). -/
structure Pool where
  parts : List Part
  ctxs : List Ctx
  rebinds : List Rebind
  lastLd : List (Nat × Nat)
  stamps : List (Nat × Nat × Nat)
  owners : List (Nat × Nat × Nat)
  relSeq : Nat
  clearings : List Clearing
  clearSeq : Nat
  allocs : List Alloc
  hbmGranules : List Nat
  ddrGranules : Nat
  exchHbm : List (Nat × Nat)
  exchDdr : List Nat
  deriving DecidableEq, Repr

/-- A PTP message as firmware receives it, with origin times of the time transmitter. -/
inductive PtpMsg where
  | sync (seq : Nat) (origin : Option Nat)
  | followUp (seq origin : Nat)
  | delayResp (seq received : Nat)
  deriving DecidableEq, Repr

end Sys2Proof.Machine
end

