-- ==== Sys2Proof/Config.lean ====
section
/-!
DEFINITION. What an implementation fixes and what the spec leaves open: opaque constants with no body, so that
nothing proved about the machine can rest on a value that the spec does not state. A constant applied to a draw
number gives a fresh free value for each use (the state's draw counter).
-/

namespace Sys2Proof

/-- A free number for draw `n`: any value the spec leaves open as a number. [Log entry 6, DESIGN CHOICE.] -/
opaque Config.freeNat : Nat → Nat

/-- A free byte string for draw `n` (its length is fixed where it is used). [Log entry 6, DESIGN CHOICE.] -/
opaque Config.freeBytes : Nat → List Byte

/-- A free truth value for draw `n`: a behaviour that may go either way. [Log entry 6, DESIGN CHOICE.] -/
opaque Config.freeBool : Nat → Bool

/-- Where the merge unit puts FP32 element `elem` of the finished output of query `query` and head `head` of row `row` (06 R128): the SCRATCH
name, by its index, and the byte offset in it at which the kernels find it. The spec binds no name to the merged outputs, and of the classes
bound after the merge (07 Table 7-4) only SCRATCH can carry them. [Log entry 42, DEDUCED.] -/
opaque Config.mergedAt : (kernel : List Byte) → (row query head elem : Nat) → Nat × Nat

/-- Where an input of a tree node lies in the node's stored inputs (06 R132: KERNEL_ATT defines the layout): `what` is 0 for the gate, 1 for the
key and 2 for the value; the answer is the index of the FP32 element, reduced where it is used. [Log entry 43, DESIGN CHOICE.] -/
opaque Config.treeInput : (kernel : List Byte) → (head what elem : Nat) → Nat

/-- The fraction of a NaN result of binary32 or BF16 arithmetic, reduced where it is used (00 R9 leaves the payload
open), by fraction width. [Log entry 49, DESIGN CHOICE.] -/
opaque Config.nanPayload : Nat → Nat

/-- What the tables of the vector unit give for a function on a binary32 encoding (07 R145: not given), as far as the stated bound leaves it open
(`Machine.vectorFn`): `op` is the VOP code, `mb` the fraction bits of the
result's format; 9 EXP also serves the softmax step and the merges (06 R128, R129). [Log entry 49, DESIGN CHOICE.] -/
opaque Config.vectorFn : (op mb x : Nat) → Nat

/-- A linear segment of an activation table of the near-bank units, its slope and intercept in binary32 (08 R165: 256 segments for each
function, contents not given). [Log entry 49, DESIGN CHOICE.] -/
opaque Config.nearBankLine : (fn segment : Nat) → Nat × Nat

/-- Where in its stack the device places part `sub` of object `obj` of a partition: units of 2 MiB for what 08 R168 aligns so, of 64 bytes for
other content, reduced where it is used (no placement within a stack is stated). [Log entry 117, DESIGN CHOICE.] -/
opaque Config.hbmPlace : (part obj sub : Nat) → Nat

/-- Whether a CXL.mem read meets a near-bank command group in the bank that it reads, by draw (08 R171: the bank follows from the place of the
exchange area in its stack, which is not given). [Log entry 117, DESIGN CHOICE.] -/
opaque Config.cutsGroup : Nat → Bool

/-- Which NaN rule MAX and MIN follow: true where a number wins over a NaN (07 R145 does not say). [Log entry 49, DESIGN CHOICE.] -/
opaque Config.maxPrefersNumber : Bool

/-- What QUANT makes of 32 values that include a NaN or an infinity in an MX format, or of a NaN in another (07 R145 states
none): codes of the row, and its scale last. [Log entry 49, DESIGN CHOICE.] -/
opaque Config.quantOpen : (fmt : Nat) → (row : List Nat) → List Nat

/-- The order in which VRED pairs `n` values (07 R145: a fixed pairwise order, not given). [Log entry 43, DESIGN CHOICE.] -/
opaque Config.pairOrder : (n : Nat) → List Nat

/-- Size in bytes that the device binds to a Q name (07 R140: the device sets the bound size), for `queries` queries of a
layer whose query heads hold `elems` elements. [Log entry 43, DESIGN CHOICE.] -/
opaque Config.queryBytes : (queries elems : Nat) → Nat

/-- What a byte of HBM scratch holds that this job has not written (15 Table 15-6): `key` names the region. [Log entry 5, DESIGN CHOICE; entry 29, DESIGN CHOICE; entry 42, DEDUCED.] -/
opaque Config.staleByte : (key addr : Nat) → Byte

/-- How many sealed phrases firmware puts in one work item of a kernel at a clause length, 1 to 16 once reduced (06 R127). [Log entry 43, DESIGN CHOICE.] -/
opaque Config.itemPhrases : (kernel lenUs : Nat) → Nat

/-- Whether firmware's estimate lets the next slice of a job follow in the same clause, for device job number `job` and the
slices that it has run (03 R37: the estimate has no formula). [Log entry 20, DESIGN CHOICE.] -/
opaque Config.sliceFits : (job slices : Nat) → Bool

/-- Whether firmware's estimate lets a job join those that it has already given clusters of the partition in clause `clause` (03 R37, R38: the
estimate has no formula; a job alone always fits). [Log entry 20, DESIGN CHOICE.] -/
opaque Config.jobFits : (job clause : Nat) → Bool

/-- Whether a mover job that is not the first in its order waits for a later clause for want of bandwidth (09 R182, 03 R37: the estimate has no
formula). [Log entry 20, DESIGN CHOICE.] -/
opaque Config.moverWaits : (mover clause : Nat) → Bool

/-- The node that TREE_BAD reports where the spec names none (06 R118): NODES or DEPTH wrong, or QCOUNT unlike NODES. [Log entry 43, DESIGN CHOICE.] -/
opaque Config.offendingNode : (tree : List Nat) → Nat

/-- An FP32 sum of two or more terms where the spec states no order of additions: Σ exp and renormalisations of the sampling
chain, which is bit-exact (11 R240), and the distances of memory search (12 R259). [Log entry 55, DESIGN CHOICE.] -/
opaque Config.chainSum : List Nat → Nat

/-- FP32 log of the summed exp of raw logits, in token order, plus exp(RESIDUAL) (11 R240: the order of rounding is not stated). [Log entry 55, DESIGN CHOICE.] -/
opaque Config.logSumExp : (logits : List Nat) → (residual : Nat) → Nat

/-- FP32 entropy of a distribution (11 Table 11-6: the order of rounding is not stated). [Log entry 55, DESIGN CHOICE.] -/
opaque Config.entropy : List Nat → Nat

/-- Discard entries that one discard record holds, 1 or more once reduced (13 R301: 16 KiB of entries, whose size is not given). [Log entry 62, DESIGN CHOICE.] -/
opaque Config.discardEntries : Nat

/-- Whether garbage collection relocates a block group at a boundary, by draw (13 R302: it runs in the background share, at no stated
pace). [Log entry 62, DESIGN CHOICE.] -/
opaque Config.gcRuns : Nat → Bool

/-- How many units of background work on
an index (entries linked, nodes swept) firmware does in clause `clause` (12 R274, R275: no pace is stated). [Log entry 62, DESIGN CHOICE.] -/
opaque Config.indexPace : (index clause : Nat) → Nat

/-- K of the graph search that links an insert (12 R272 gives L, W and the budget, and no K). [Log entry 68, DESIGN CHOICE.] -/
opaque Config.linkK : Nat

/-- The L2 norm in FP32 of a vector (12 R258: the order of the sum and the root's rounding are not stated). [Log entry 68, DESIGN CHOICE.] -/
opaque Config.normOf : List Nat → Nat

/-- The INDEX_TAG that the trust block's generator draws, non-zero once reduced (12 R255). [Log entry 68, DESIGN CHOICE.] -/
opaque Config.indexTag : (draw : Nat) → Nat

/-- A Zstandard compressed block that the device makes of `chunk` after the content `before` (14 R318: the encoder's choice). [Log entry 80, DESIGN CHOICE.] -/
opaque Config.zstdPack : (before chunk : List Byte) → List Byte

/-- The private exponent of the identity key whose public form is given: it never leaves the trust block (15 R356). [Log entry 81, PRESUMED.] -/
opaque Config.identityExponent : (publicKey : List Byte) → Nat

/-- Nahewick's kernel-library key: modulus and exponent (07 R156); no value is given. [Log entry 81, PRESUMED.] -/
opaque Config.libraryKey : Nat × Nat

/-- Nahewick's firmware key: modulus and exponent (15 R355); no value is given. [Log entry 81, PRESUMED.] -/
opaque Config.firmwareKey : Nat × Nat

/-- SHA-512 digest of the boot ROM (15 Table 15-5); no value is given. [Log entry 102, PRESUMED.] -/
opaque Config.romDigest : List Byte

/-- The parts of a firmware image: what its signature covers, the signature, the security version, the version word and the interface minor
version (15 R355, 22 R482: the image carries them in a layout that is not given). [Log entry 102, PRESUMED.] -/
opaque Config.fwBody : (image : List Byte) → List Byte

/-- The signature that a firmware image carries (15 R355). [Log entry 102, PRESUMED.] -/
opaque Config.fwSignature : (image : List Byte) → List Byte

/-- The security version of a firmware image, reduced to 16 bits where it is used (15 R355). [Log entry 102, PRESUMED; entry 111, DESIGN CHOICE.] -/
opaque Config.fwSecurity : (image : List Byte) → Nat

/-- The version word of a firmware image, reduced to 64 bits where it is used (22 R482). [Log entry 111, DESIGN CHOICE.] -/
opaque Config.fwVersion : (image : List Byte) → Nat

/-- The interface minor version of a firmware image (22 R482). [Log entry 111, DESIGN CHOICE.] -/
opaque Config.fwMinor : (image : List Byte) → Nat

/-- The public key, in DER, that this die derives with 4,096 bytes of PUF helper data; none where the data fails its check (15 R356). [Log entry 81, PRESUMED.] -/
opaque Config.identityKey : (helper : List Byte) → Option (List Byte)

/-- Entries of the CDAT table of LD `ld` (17 R396: CDAT table access; its contents are not given), at most 256 once reduced. [Log entry 101, PRESUMED.] -/
opaque Config.cdatEntries : (ld : Nat) → Nat

/-- Entry `n` of the CDAT table of an LD with ranges of `m1` and `m2` units. [Log entry 101, PRESUMED.] -/
opaque Config.cdatEntry : (ld m1 m2 n : Nat) → List Byte

/-- Spare lanes of a UCIe module, and of the device in all (18 R421: their number is not given). [Log entry 106, PRESUMED.] -/
opaque Config.moduleSpares : (link mod : Nat) → Nat

/-- Spare lanes of the device in all (18 R421). [Log entry 106, PRESUMED.] -/
opaque Config.laneSpares : Nat

/-- Whether row `row` of the verb accepted as `seq` needs a damaged sector of its lexicon or grammar (18 Table 18-2: which sectors an
operation needs follows from a store layout that is not given). [Log entry 107, DEDUCED.] -/
opaque Config.tableNeeded : (seq row : Nat) → Bool

end Sys2Proof
end

