-- ==== Sys2Proof/Machine/Float.lean ====
section
/-!
DEFINITION. Floating-point formats and the append unit's quantisation (spec 00 R9, 05 R83, R84, R90). Finite values are
exact dyadic numbers, ±m·2^e; every rounding is round-to-nearest-even.
-/

namespace Sys2Proof.Machine

/-- A floating-point value: NaN, an infinity, or the finite number (-1)^neg · m · 2^e. -/
inductive Fv where
  | nan
  | inf (neg : Bool)
  | fin (neg : Bool) (m : Nat) (e : Int)
  deriving DecidableEq, Repr

/-- A format: exponent and fraction widths, bias, and its top encodings: 0 IEEE infinities and NaNs, 1 a NaN at all
ones only (E4M3), 2 finite throughout (E2M1). -/
structure Fmt where
  eb : Nat
  mb : Nat
  bias : Nat
  top : Nat
  deriving DecidableEq, Repr

def fmtF32 : Fmt := { eb := 8, mb := 23, bias := 127, top := 0 }
def fmtBf16 : Fmt := { eb := 8, mb := 7, bias := 127, top := 0 }
def fmtE4m3 : Fmt := { eb := 4, mb := 3, bias := 7, top := 1 }
def fmtE5m2 : Fmt := { eb := 5, mb := 2, bias := 15, top := 0 }
def fmtE2m1 : Fmt := { eb := 2, mb := 1, bias := 1, top := 2 }

/-- Width of a format in bits. -/
def fmtBits (f : Fmt) : Nat := 1 + f.eb + f.mb

/-- The encoding without sign of the largest finite value. -/
def fmtMaxCode (f : Fmt) : Nat :=
  match f.top with
  | 0 => (2 ^ f.eb - 1) * 2 ^ f.mb - 1
  | 1 => 2 ^ (f.eb + f.mb) - 2
  | _ => 2 ^ (f.eb + f.mb) - 1

/-- The value that an encoding stands for. -/
def fvDecode (f : Fmt) (code : Nat) : Fv :=
  let neg := bitSet code (f.eb + f.mb)
  let mag := code % 2 ^ (f.eb + f.mb)
  let ex := mag / 2 ^ f.mb
  let fr := mag % 2 ^ f.mb
  if f.top = 0 && ex = 2 ^ f.eb - 1 then (if fr = 0 then .inf neg else .nan)
  else if f.top = 1 && mag = 2 ^ (f.eb + f.mb) - 1 then .nan
  else if ex = 0 then .fin neg fr (1 - (f.bias : Int) - f.mb)
  else .fin neg (fr + 2 ^ f.mb) ((ex : Int) - f.bias - f.mb)

/-- `m / 2^k` rounded to nearest, ties to even. -/
def shiftRne (m k : Nat) : Nat :=
  let q := m / 2 ^ k
  let r := m % 2 ^ k
  if 2 * r > 2 ^ k then q + 1
  else if 2 * r = 2 ^ k then (if q % 2 = 1 then q + 1 else q)
  else q

/-- The magnitude encoding of m·2^e rounded to nearest even in a format without an upper limit: the fraction's carry
runs into the exponent field by itself. -/
def magRound (f : Fmt) (m : Nat) (e : Int) : Nat :=
  if m = 0 then 0
  else
    let top : Int := (Nat.log2 m : Int) + e
    let te : Int := max top (1 - (f.bias : Int))
    let u : Int := te - f.mb
    let rm : Nat := if u ≤ e then m * 2 ^ (e - u).toNat else shiftRne m (u - e).toNat
    (te + f.bias - 1).toNat * 2 ^ f.mb + rm

/-- The sign bit of an encoding. -/
def signCode (f : Fmt) (neg : Bool) : Nat := if neg then 2 ^ (f.eb + f.mb) else 0

/-- The encoding of a NaN result: its payload is free where the format has more than one NaN. -/
def nanCode (f : Fmt) : Nat :=
  match f.top with
  | 0 => (2 ^ f.eb - 1) * 2 ^ f.mb + 1 + Config.nanPayload f.mb % (2 ^ f.mb - 1)
  | 1 => 2 ^ (f.eb + f.mb) - 1
  | _ => 0

/-- Encode a value, an overflow going to infinity where the format has one and to its largest value elsewhere. -/
def fvEncode (f : Fmt) (v : Fv) : Nat :=
  match v with
  | .nan => nanCode f
  | .inf neg => signCode f neg + (if f.top = 0 then (2 ^ f.eb - 1) * 2 ^ f.mb else fmtMaxCode f)
  | .fin neg m e =>
    let mag := magRound f m e
    signCode f neg + (if mag ≤ fmtMaxCode f then mag
      else if f.top = 0 then (2 ^ f.eb - 1) * 2 ^ f.mb else fmtMaxCode f)

/-- Encode with clamping to the largest finite value; the flag says whether it clamped (05 R90). -/
def fvClamp (f : Fmt) (v : Fv) : Nat × Bool :=
  match v with
  | .nan => (0, false)
  | .inf neg => (signCode f neg + fmtMaxCode f, true)
  | .fin neg m e =>
    let mag := magRound f m e
    if mag ≤ fmtMaxCode f then (signCode f neg + mag, false) else (signCode f neg + fmtMaxCode f, true)

/-- Whether a value is finite. [Log entry 33, DEDUCED.] -/
def fvFinite : Fv → Bool
  | .fin _ _ _ => true
  | _ => false

/-- Magnitude comparison of finite values, exact: |a| ≤ |b|. -/
def fvAbsLe (a b : Fv) : Bool :=
  match a, b with
  | .fin _ m e, .fin _ m' e' =>
    if e ≤ e' then decide (m ≤ m' * 2 ^ (e' - e).toNat) else decide (m * 2 ^ (e - e').toNat ≤ m')
  | _, .inf _ => true
  | .inf _, _ => false
  | _, _ => false

/-- The greater of two magnitudes. -/
def fvAbsMax (a b : Fv) : Fv := if fvAbsLe a b then b else a

/-- Multiply by 2^k, exactly. -/
def fvScale (v : Fv) (k : Int) : Fv :=
  match v with
  | .fin neg m e => .fin neg m (e + k)
  | x => x

/-- floor(log2 |v|) of a finite non-zero value. -/
def fvLog2 (v : Fv) : Int :=
  match v with
  | .fin _ m e => (Nat.log2 m : Int) + e
  | _ => 0

/-- Whether a value is a zero. -/
def fvIsZero : Fv → Bool
  | .fin _ 0 _ => true
  | _ => false

/-- Storage format codes of Table 5-3: 1 MXFP8, 2 MXFP4, 3 BF16. -/
def storeFmt (code : Nat) : Fmt :=
  match code with
  | 1 => fmtE4m3
  | 2 => fmtE2m1
  | _ => fmtBf16

/-- A stored row: element encodings and, for MX formats, one scale byte per block of 32. -/
structure KvRow where
  elems : List Nat
  scales : List Nat
  deriving DecidableEq, Repr

/-- A row as the append unit stores it: the stored row, the elements it clamped, and whether a non-finite value was repaired (05 R90, R92). -/
structure NewRow where
  row : KvRow
  sat : Nat
  clamped : Bool
  deriving DecidableEq, Repr

/-- The elements clamped in a list of rows. -/
def satOf (l : List NewRow) : Nat := sumNat (l.map (·.sat))

/-- A row that holds nothing. -/
def noRow : NewRow := { row := { elems := [], scales := [] }, sat := 0, clamped := false }

/-- The largest magnitude of a block. -/
def blockAmax (vs : List Fv) : Fv := vs.foldl fvAbsMax (.fin false 0 0)

/-- Quantise one block of 32 (05 R90): elements, scale and elements clamped. -/
def quantBlock (fmtCode : Nat) (vs : List Fv) : List Nat × Nat × Nat :=
  let f := storeFmt fmtCode
  let emax : Int := if fmtCode = 1 then 8 else 2
  let amax := blockAmax vs
  if fvIsZero amax then (vs.map (fun _ => 0), 0, 0)
  else
    let x := max (fvLog2 amax - emax) (-127)
    let qs := vs.map (fun v => fvClamp f (fvScale v (-x)))
    (qs.map (·.1), (x + 127).toNat, (qs.filter (·.2)).length)

/-- Cut a list into pieces of `n`; `fuel` bounds the pieces. -/
def chunksOf {α : Type} (n : Nat) : Nat → List α → List (List α)
  | 0, _ => []
  | _, [] => []
  | k + 1, l => l.take n :: chunksOf n k (l.drop n)

/-- Quantise one row (05 R90): the stored row and the elements clamped. -/
def quantRow (fmtCode : Nat) (vs : List Fv) : NewRow :=
  if fmtCode = 3 then
    let qs := vs.map (fvClamp fmtBf16)
    { row := { elems := qs.map (·.1), scales := [] }, sat := (qs.filter (·.2)).length, clamped := false }
  else
    let bs := (chunksOf 32 vs.length vs).map (quantBlock fmtCode)
    { row := { elems := bs.flatMap (·.1), scales := bs.map (·.2.1) }, sat := sumNat (bs.map (·.2.2)), clamped := false }

/-- A non-finite element of a job's row as the append unit stores it (05 R92): an infinity clamps, NaN becomes 0. [Log entry 33, DEDUCED.] -/
def fvRepair (v : Fv) (fmtCode : Nat) : Fv :=
  match v with
  | .nan => .fin false 0 0
  | .inf neg =>
    match fvDecode (storeFmt fmtCode) (fmtMaxCode (storeFmt fmtCode)) with
    | .fin _ m e => .fin neg m e
    | x => x
  | x => x

/-- One row of a job's values through the append unit. The count of elements clamped takes in both those that the quantiser clamps and the
infinities that the repair clamps, in the event and in SATURATED alike; a NaN, stored as 0, is not counted. [Log entry 33, DEDUCED.] -/
def appendUnit (fmt : Nat) (vs : List Fv) : NewRow :=
  let r := quantRow fmt (vs.map (fun v => fvRepair v fmt))
  { r with
    sat := r.sat + (vs.filter (fun v => match v with | .inf _ => true | _ => false)).length
    clamped := vs.any (fun v => !fvFinite v) }

/-- The dequantised value of element `i` of a stored row. -/
def rowValue (fmtCode : Nat) (r : KvRow) (i : Nat) : Fv :=
  let v := fvDecode (storeFmt fmtCode) (nth r.elems i 0)
  if fmtCode = 3 then v else fvScale v (((nth r.scales (i / 32) 0 : Nat) : Int) - 127)

/-- Size in KiB of a phrase with rows of `e` elements (05 R85). -/
def phraseKib (fmtCode e : Nat) : Nat :=
  let el := match fmtCode with
    | 1 => 64 * e
    | 2 => 32 * e
    | _ => 128 * e
  let sc := if fmtCode = 3 then 0 else 2 * e
  ceilDiv (256 + el + sc) 1024

end Sys2Proof.Machine
end

