-- ==== Sys2Proof/Machine/Kv.lean ====
section
/-!
DEFINITION. The session part of the device's state: phrases and session records (chapters 02, 05, 06, 09), the session
block of chapters 10 and 11, park images, mover work, and the long verbs that span clause boundaries.
-/

namespace Sys2Proof.Machine

/-- A phrase: header fields of Table 5-3 and its rows. A sealed phrase has `id` above 0 and lists its copies of record:
`hbm` the stack, `ddr`, `flash` the first LPN (09 R178); `refs` and `holds` are its counts (02 R30). `poisonHbm` and
`poisonDdr` list the poisoned sectors of those copies (18 R415). `freeAt`: the clause from which it may be freed
(02 R33). -/
structure Phrase where
  part : Nat
  ctx : Nat
  id : Nat
  fmt : Nat
  kind : Nat
  layer : Nat
  firstPos : Nat
  count : Nat
  model : Nat
  version : Nat
  dimA : Nat
  dimB : Nat
  saturated : Nat
  clamped : Bool
  replaced : Bool
  sealed : Bool
  draft : Bool
  creator : Nat
  rows : List KvRow
  refs : Nat
  holds : Nat
  hbm : Option Nat
  ddr : Bool
  flash : Option Nat
  imageHolds : Nat
  poisonHbm : List Nat
  poisonDdr : List Nat
  hardHbm : List Nat
  hardDdr : List Nat
  deriving DecidableEq, Repr

/-- The recurrent state of a layer (06 R130): two buffers, the stored length, and the shadow's starting length while
it is valid. `updates` counts the updates of the current buffer (18 R413). [Log entry 31, DESIGN CHOICE.] -/
structure RecSt where
  cur : Mem
  shadow : Mem
  len : Nat
  shadowLen : Option Nat
  updates : Nat
  treeIn : List (List Byte)
  poisoned : Bool
  deriving DecidableEq, Repr

/-- One layer of a session: sealed phrase lists per kind, FIRST_POS of the tails, the open tails (stem first, then
direct), the draft phrases (05 R98) with, for each, the elements clamped in each node's row and whether a value of it was repaired, and the
recurrent state of a recurrent layer. [Log entry 31, DESIGN CHOICE.] -/
structure LayerSt where
  stem : List Nat
  direct : List Nat
  tailFirst : Nat
  tails : List Phrase
  draftFirst : Nat
  draft : List Phrase
  draftMarks : List (List (Nat × Bool))
  recur : Option RecSt
  deriving DecidableEq, Repr

/-- An open candidate tree (06 R124, R125). -/
structure Tree where
  seq : Nat
  nodes : Nat
  depth : Nat
  parent : List Nat
  token : List Nat
  deriving DecidableEq, Repr

/-- One text ring record that waits for room (10 R217): its 32 header bytes, SEQ and PHASE still 0, and its payload. -/
structure TextRec where
  kind : Nat
  body : List Byte
  deriving DecidableEq, Repr

/-- The detokenizer, tokenizer and stop state of the session block (10 Table 10-7). `stopHold` pairs a byte with its token
position, plus 2^32 where the byte is a replacement and 2^33 where it is raw. `headClause` and `sigClause` are the clauses of
the last head read and signal, `sigOwed` a signal held to the next clause (10 R217). -/
structure TokSt where
  detok : Nat
  closing : Bool
  lex : Option Nat
  lexDigest : List Byte
  showSpecial : Bool
  rawBytes : Bool
  includeStop : Bool
  ringNamed : Bool
  stopCount : Nat
  stopMax : Nat
  offset : Nat
  seq : Nat
  lastPos : Option Nat
  dropped : Nat
  ringAddr : Nat
  ringLog2 : Nat
  ringPhase : Bool
  vector : Nat
  headAddr : Nat
  written : Nat
  headRead : Nat
  pendingRecs : List TextRec
  utfHold : List Byte
  utfPos : Nat
  stopHold : List (Byte × Nat)
  stops : List (List Byte)
  blockedRaised : Bool
  headClause : Option Nat
  sigClause : Option Nat
  sigOwed : Bool
  tkOpen : Bool
  tkPolicy : Nat
  tkUtf : List Byte
  tkClass : Nat
  tkHold : List Byte
  tkOffset : Nat
  tkLex : Nat
  deriving DecidableEq, Repr

/-- The grammar and sampler state of the session block (11 Table 11-12). -/
structure SynSt where
  mode : Nat
  grammar : Option Nat
  gramDigest : List Byte
  state : Nat
  stack : List Nat
  finished : Bool
  bindPos : Nat
  sinceSet : Nat
  params : List Byte
  setPos : Nat
  deriving DecidableEq, Repr

/-- A range of session content marked for rederivation (18 R419): kind 0 phrase range (layer, first position, count,
storage kind), 1 recurrent layer, 2 token log, 3 session block. -/
structure Rederive where
  kind : Nat
  layer : Nat
  store : Nat
  first : Nat
  count : Nat
  deriving DecidableEq, Repr

/-- The image reference of a retained park image and whether it is durable (09 R191). `lost`: 0 where the image stands, else the cause of its
EV_IMAGE_LOST (09 R201), after which nothing is retained. -/
structure ImageRef where
  ref : Nat
  durable : Bool
  lost : Nat
  deriving DecidableEq, Repr

/-- A catalog entry and the session that it holds (02 R25-R28, 09 Table 9-4). `prior` is the state before a PARK in
progress, `parkSeq` its acceptance number. [Log entry 31, DESIGN CHOICE.] -/
structure Sess where
  idx : Nat
  gen : Nat
  retired : Bool
  state : Nat
  ctx : Nat
  slot : Option Nat
  model : Nat
  log : List Nat
  layers : List LayerSt
  tree : Option Tree
  image : Option ImageRef
  home : Nat
  tok : TokSt
  syn : SynSt
  marks : List Rederive
  prior : Nat
  parkSeq : Nat
  openSeq : Nat
  deriving DecidableEq, Repr

/-- A park image (09 R190): the data that it holds. `written`: its pages have been formed, and `check` is IMAGE_CHECK; a flash image then
stands in its flash pages too. -/
structure ParkImage where
  part : Nat
  ref : Nat
  ctx : Nat
  handle : Nat
  log : List Nat
  model : Nat
  modelDigest : List Byte
  tok : TokSt
  syn : SynSt
  lens : List Nat
  phrases : List (Nat × Nat × Nat × Nat × Nat)
  layers : List LayerSt
  bytes : Nat
  check : Nat
  durable : Bool
  written : Bool
  poisoned : Bool
  clause : Nat
  time : Nat
  flags : Nat
  deriving DecidableEq, Repr

/-- A layer record of a loaded model (06 Table 6-2). -/
structure LayerRec where
  kind : Nat
  norm : Nat
  posMode : Nat
  inflect : Nat
  sL : Nat
  sP : Nat
  h : Nat
  stemFmt : Nat
  directFmt : Nat
  dD : Nat
  pD : Nat
  qh : Nat
  dqk : Nat
  dv : Nat
  absorbMax : Nat
  scale : Nat
  eps : Nat
  kIn : Nat
  kAtt : Nat
  kOut : Nat
  rh : Nat
  rk : Nat
  rv : Nat
  thin : Nat
  thinMax : Nat
  weightsOff : Nat
  weightsKib : Nat
  deriving DecidableEq, Repr

/-- A pinned range (09 R199): `ready` is the clause from which it serves reads. -/
structure Pin where
  layer : Nat
  offKib : Nat
  lenKib : Nat
  ready : Option Nat
  seq : Nat
  deriving DecidableEq, Repr

/-- A loaded model (06 R110, R111). `weights`: each layer's section, layer k at key k * 2^40. -/
structure Model where
  id : Nat
  part : Nat
  hidden : Nat
  layers : List LayerRec
  digest : List Byte
  weights : Mem
  pins : List Pin
  poison : List (Nat × Nat)
  damaged : List (Nat × Nat)
  deriving DecidableEq, Repr

/-- A copy that the movers carry (09 R182). -/
inductive MoveWhat where
  | phrase (part id tier : Nat)
  | image (ref : Nat)
  | revive (seq : Nat)
  | pin (model layer offKib : Nat)
  | join (part : Nat)
  | shard (ckpt n : Nat)
  | drain (seq n : Nat)
  | restore (seq n : Nat)
  | rings (part : Nat)
  | snapshot (seq : Nat)
  deriving DecidableEq, Repr

/-- A mover job in its queue (09 R182): `order` 0 copy before write, 1 a flash read that it shares with a flash work item (09 R183), 2 the
rest by priority. `promo`: it belongs to a verb's PHRASE_PLACE or PROMOTE, not to the verb itself. `run`: the LPNs that it will write, as
(partition, first, pages). `clause`: the boundary at which it was dispatched. `state`: 0 waiting or under way, 1 done, 2 its source failed. -/
structure Mover where
  id : Nat
  seq : Nat
  order : Nat
  prio : Nat
  promo : Bool
  run : Option (Nat × Nat × Nat)
  clause : Option Nat
  what : MoveWhat
  state : Nat
  deriving DecidableEq, Repr

/-- The parameters of a MOVE or of a promotion (09 R197, R198): the phrases still to place, the tally so far. `short`: phrases of `waiting`
that have failed already, with a copy that did not fit. `bySess`: the MOVE names a session. -/
structure MoveOp where
  seq : Nat
  ring : Nat
  tag : Nat
  promote : Bool
  handle : Nat
  part : Nat
  mask : Nat
  keepFlash : Bool
  todo : List Nat
  waiting : List Nat
  short : List Nat
  bySess : Bool
  named : Nat
  done : Nat
  failed : Nat
  reason : Nat
  bytes : Nat
  deriving DecidableEq, Repr

/-- A PARK in progress (09 R196): stage 0 waits for its snapshot, 1 its phrase copies and its image are being made, 2 the image's pages are
written. `image`: the session's state at the snapshot; `waitFlash`: phrases that still need a flash copy; `made`: phrases given one. -/
structure ParkOp where
  seq : Nat
  handle : Nat
  place : Nat
  durable : Bool
  keep : Bool
  phrasePlace : Nat
  stage : Nat
  ref : Nat
  copied : Nat
  waitFlash : List Nat
  made : List Nat
  image : Option ParkImage
  status : Nat
  deriving DecidableEq, Repr

/-- A REVIVE in progress (09 R197): stage 0 waits for its first boundary, 1 reading, 2 read and verified. -/
structure ReviveOp where
  seq : Nat
  handle : Nat
  fromImage : Bool
  release : Bool
  promote : Nat
  model : Nat
  ref : Nat
  check : Nat
  ctx : Nat
  slot : Nat
  idx : Nat
  stage : Nat
  status : Nat
  deriving DecidableEq, Repr

/-- A long verb that takes effect at a boundary. -/
inductive Op where
  | fork (seq handle len : Nat)
  | forked (seq child slot refs : Nat)
  | append (seq : Nat)
  | rollback (seq handle mode : Nat)
  | truncate (seq handle len : Nat)
  | commit (seq : Nat)
  | close (seq handle : Nat)
  | discard (seq handle : Nat)
  | park (p : ParkOp)
  | revive (r : ReviveOp)
  | move (m : MoveOp)
  | resize (seq : Nat)
  | discardLpns (seq : Nat)
  | closeText (seq handle emitted dropped : Nat)
  | bitmap (seq : Nat)
  | ckpt (seq : Nat) (handles : List Nat)
  | restore (seq : Nat)
  | rebind (seq : Nat)
  | quiesce (seq : Nat)
  | resume (seq : Nat)
  deriving DecidableEq, Repr

/-- What flash pages hold that a later mount finds again: park images and phrase copies, by the granule page of their
first page (09 R192, R197). -/
structure Stored where
  images : List (Nat × ParkImage)
  phrases : List (Nat × Phrase)
  deriving DecidableEq, Repr

/-- Sessions, phrases, models, images, mover work and boundary operations. `droppings`: copies of phrases that are no longer of record and
whose storage running jobs still read (09 R178), as (partition, phrase, tier, first LPN). `releases`: (partition, phrase, the last clause whose jobs were
dispatched before the release, acceptance number of the verb that released). -/
structure Kv where
  cat : List Sess
  catSeq : Nat
  phrases : List Phrase
  models : List Model
  images : List ParkImage
  movers : List Mover
  moverNext : Nat
  ops : List Op
  droppings : List (Nat × Nat × Nat × Nat)
  releases : List (Nat × Nat × Nat × Nat)
  slotHold : List (Nat × Nat)
  ddrNext : Nat
  deriving DecidableEq, Repr

end Sys2Proof.Machine
end

