-- ==== Sys2Proof/Machine/NetTypes.lean ====
section
/-!
DEFINITION. The Ethernet part of the device's state (chapter 16): ports, sub-ports with their egress queues, shapers, gates and
meters, queue pairs and exchange windows.
-/

namespace Sys2Proof.Machine

/-- A dyadic rational m / 2^e, in which the rate control of R378 is exact. -/
structure Dy where
  m : Nat
  e : Nat
  deriving DecidableEq, Repr

/-- What a RoCEv2 packet carries (16 Table 16-2). -/
inductive PktKind where
  | write
  | send
  | readReq
  | readResp
  | ack
  | nakSeq
  | nakInvalid
  | nakAccess
  | rnr (timerNs : Nat)
  | cnp
  deriving DecidableEq, Repr

/-- A RoCEv2 packet that the device sends, by its fields. `len`: frame bytes from destination address through FCS. `resent`: it has
been sent before. [Log entry 70, PRESUMED.] -/
structure Packet where
  kind : PktKind
  dst : Nat
  psn : Nat
  first : Bool
  last : Bool
  ackReq : Bool
  imm : Option Nat
  va : Nat
  rkey : Nat
  dmaLen : Nat
  msn : Nat
  payload : List Byte
  dscp : Nat
  pcp : Nat
  len : Nat
  resent : Bool
  deriving DecidableEq, Repr

/-- A frame that the device sends (16 R366, R376, R377; 03 R48): `ptp` by its message type and sequence number. -/
inductive Frame where
  | rdma (p : Packet)
  | pfc (cls quanta : Nat)
  | arpReply (mac ip : Nat)
  | neighborAdv (mac ip : Nat)
  | ptp (domain type seq : Nat)
  deriving DecidableEq, Repr

/-- What a received RoCEv2 packet shows before its payload: the sub-port it came in on, its frame's length and checks, its
class marks, and its BTH. -/
structure RxHead where
  sub : Nat
  len : Nat
  fcsOk : Bool
  icrcOk : Bool
  tagged : Bool
  pcp : Nat
  dscp : Nat
  ce : Bool
  qpn : Nat
  psn : Nat
  first : Bool
  last : Bool
  ackReq : Bool
  deriving DecidableEq, Repr

/-- The settings of the CLASSES action (16 Table 16-6). -/
structure ClassCfg where
  trustPcp : Bool
  pfcMask : Nat
  xoffKib : Nat
  xonKib : Nat
  cnpUs : Nat
  tIncUs : Nat
  rAi : Nat
  rateMin : Nat
  gShift : Nat
  cnpClass : Nat
  dscpMap : List Nat
  pcpMap : List Nat
  classPcp : List Nat
  deriving DecidableEq, Repr

/-- The values that SHAPER_SET writes (16 Table 16-9). -/
structure ShaperCfg where
  cir : Nat
  cbs : Nat
  pir : Nat
  pbs : Nat
  overhead : Int
  deriving DecidableEq, Repr

/-- A two-bucket shaper (16 R380, R381): buckets `c` and `p` in 1/1,024 byte; `new` waits for the next refill. -/
structure Shaper where
  cfg : ShaperCfg
  c : Int
  p : Int
  new : Option ShaperCfg
  deriving DecidableEq, Repr

/-- A frame in an egress queue since elapsed time `at'`. -/
structure Queued where
  pkt : Packet
  at' : Nat
  deriving DecidableEq, Repr

/-- The egress queue of a partition and class on a sub-port (16 R379, R391) with its histograms (R385). Partition 32 stands for the
device's own queue pairs. -/
structure EQueue where
  part : Nat
  cls : Nat
  frames : List Queued
  deficit : Int
  quantum : Nat
  newQuantum : Option Nat
  shaper : Shaper
  txFrames : Nat
  txBytes : Nat
  drops : Nat
  samples : Nat
  depthHist : List Nat
  delayHist : List Nat
  deriving DecidableEq, Repr

/-- An ingress meter (16 R384): `mode` 0 off, 1 RFC 2698, 2 RFC 4115. Buckets in 1/8,000 byte, filled up to elapsed time `last`. -/
structure Meter where
  part : Nat
  cls : Nat
  mode : Nat
  aware : Bool
  cir : Nat
  cbs : Nat
  pir : Nat
  pbs : Nat
  yellow : Nat
  red : Nat
  tc : Nat
  tp : Nat
  last : Nat
  deriving DecidableEq, Repr

/-- A POLICER_SET that waits for its refill. -/
structure MeterWait where
  seq : Nat
  meter : Meter
  deriving DecidableEq, Repr

/-- A gate list that waits for its BASE_TIME (16 R383), with the ring and TAG of its verb. -/
structure PendGate where
  base : Nat
  entries : List (Nat × Nat)
  ring : Nat
  tag : Nat
  deriving DecidableEq, Repr

/-- The entries gathered for a gate list (16 R390): the length given with START, and (index, mask, ns). -/
structure Gather where
  total : Nat
  entries : List (Nat × Nat × Nat)
  deriving DecidableEq, Repr

/-- A sampling selection (16 R385, R392). -/
structure Probe where
  part : Nat
  mask : Nat
  period : Nat
  next : Nat
  deriving DecidableEq, Repr

/-- A sub-port (16 R363, R366, R376-R385), numbered port * 4 + sub-port. `ingress`: (class, colour, bytes) of packets in the buffer,
oldest first. Per-class lists pair a class with a time. `turn`: the partition last served in each class. -/
structure SubPort where
  id : Nat
  up : Bool
  mac : Nat
  vlan : Nat
  ipv4 : Nat
  ipv6 : Nat
  cls : ClassCfg
  newCls : Option ClassCfg
  ingress : List (Nat × Nat × Nat)
  xoff : List (Nat × Nat)
  pauseUntil : List (Nat × Nat)
  pauseSince : List (Nat × Nat)
  pauseHeld : List Nat
  pausedNs : List Nat
  ctl : List Frame
  busyUntil : Nat
  queues : List EQueue
  partShapers : List (Nat × Shaper)
  turn : List (Nat × Nat)
  meters : List Meter
  gates : List (Nat × Nat)
  gateIdx : Nat
  gateStart : Nat
  gatedSince : List (Nat × Nat)
  gatedNs : List Nat
  pendGate : Option PendGate
  gather : Option Gather
  probe : Option Probe
  deriving DecidableEq, Repr

/-- A port EP0-EP3 (16 R363, R365, R386): `state` 0 DISABLED, 1 TRAINING, 2 UP, 3 UP_DEGRADED, 4 DOWN. `half`: the lane half that a
degraded port keeps. -/
structure EPort where
  num : Nat
  configured : Bool
  split : Nat
  media : Nat
  autoneg : Bool
  degrade : Bool
  state : Nat
  half : Option Nat
  badLanes : List Nat
  deriving DecidableEq, Repr

/-- What an RDMA READ of the device is for: bytes `off` on of a RESTORE's source. -/
inductive ReadWhy where
  | restore (seq off : Nat)
  deriving DecidableEq, Repr

/-- An RDMA READ that the device has issued (16 R368): its PSNs and the data so far. -/
structure ReadOut where
  psn : Nat
  count : Nat
  len : Nat
  got : List Byte
  why : ReadWhy
  deriving DecidableEq, Repr

/-- A queue pair (16 R369, R378, R387). `part`: none for a buddy QP. `unacked`: packets sent and not acknowledged, oldest first;
`outq`: packets that wait for the pacer. `cur`: the inbound message in progress (next address, R_Key, bytes left). -/
structure Qp where
  qpn : Nat
  part : Option Nat
  ctx : Nat
  sub : Nat
  cls : Nat
  pmtu : Nat
  dscp : Nat
  maxRate : Nat
  newMax : Option Nat
  state : Nat
  timeout : Nat
  retryCfg : Nat
  rnrCfg : Nat
  retry : Nat
  rnrLeft : Nat
  remoteQpn : Nat
  remoteMac : Nat
  remoteIp : Nat
  sport : Nat
  startPsn : Nat
  nextPsn : Nat
  unacked : List Packet
  outq : List Packet
  rnrUntil : Option Nat
  ackStart : Option Nat
  reads : List ReadOut
  rate : Dy
  target : Dy
  alpha : Dy
  quiet : Nat
  cnpSeen : Bool
  readyAt : Nat
  tIncAt : Nat
  expPsn : Nat
  msn : Nat
  nakSent : Bool
  ackDue : Nat
  ackSince : Option Nat
  cur : Option (Nat × Nat × Nat)
  lastCnp : Option Nat
  deriving DecidableEq, Repr

/-- An exchange window (16 R371-R375). `closing`: the WINDOW_CLOSE that waits for its jobs; `done`: jobs completed since.
`returned`: launched jobs whose outputs have been returned (R374). -/
structure Window where
  id : Nat
  part : Nat
  ctx : Nat
  qpn : Nat
  size : Nat
  va : Nat
  rkey : Nat
  cq : Bool
  ret : Bool
  readOk : Bool
  prio : Nat
  ring : Nat
  raddr : Nat
  rrkey : Nat
  closed : Bool
  closing : Option Nat
  done : Nat
  returned : List Nat
  deriving DecidableEq, Repr

/-- The ports and what runs over them. `incarnations`: that of each QP table entry assigned so far (02 R20). `refillAt`: device time of the
next shaper refill. `shaperWaits`: SHAPER_SETs that wait for it. -/
structure Net where
  ports : List EPort
  subs : List SubPort
  qps : List Qp
  windows : List Window
  incarnations : List (Nat × Nat)
  refillAt : Nat
  shaperWaits : List Nat
  meterWaits : List (Nat × MeterWait)
  deriving DecidableEq, Repr

end Sys2Proof.Machine
end

