-- ==== Sys2Proof/Machine/Hw.lean ====
section
/-!
DEFINITION. The attachment and platform part of the device's state: CXL logical devices (chapter 17), boot, pins and
power (chapters 19, 21), and what the device has driven outward.
-/

namespace Sys2Proof.Machine

/-- An HDM decoder of an LD (17 R400). -/
structure Hdm where
  base : Nat
  size : Nat
  committed : Bool
  deriving DecidableEq, Repr

/-- One MSI-X table entry (17 R403): message address, data, and the mask bit. -/
structure MsixEntry where
  vec : Nat
  addr : Nat
  data : Nat
  masked : Bool
  deriving DecidableEq, Repr

/-- A CXL event log record kept for Get Event Records (17 R402, R407): a handle and its content. -/
structure CxlRecord where
  handle : Nat
  kind : Nat
  dpa : Nat
  clause : Nat
  time : Nat
  deriving DecidableEq, Repr

/-- One logical device 0-15 (17 R398-R408). `m1`, `m2`: range sizes in 256 MiB units. -/
structure CxlLd where
  m1 : Nat
  m2 : Nat
  newM : Option (Nat × Nat)
  hdm : List Hdm
  command : Nat
  bar0 : Nat
  bar2 : Nat
  msixEnable : Bool
  msixMaskAll : Bool
  msix : List MsixEntry
  pending : List Nat
  failLog : List CxlRecord
  warnLog : List CxlRecord
  nextHandle : Nat
  intPolicy : List Nat
  lifeWarn : Option Nat
  tempWarn : Option Int
  healthBad : Bool
  sanitizing : Bool
  refetches : Nat
  bwAlloc : Nat
  bwLimit : Nat
  bound : Bool
  deriving DecidableEq, Repr

/-- QoS control of the FM-owned LD (17 Table 17-5), in the fields of CXL 2.0: control bits (0 egress-port congestion, 1 temporary
throughput reduction), egress moderate and severe percentages, backpressure sample interval, request and completion basis, completion
collection interval. -/
structure Qos where
  control : Nat
  moderate : Nat
  severe : Nat
  interval : Nat
  basis : Nat
  collection : Nat
  deriving DecidableEq, Repr

/-- One requester's SPDM exchange (15 R358): LD 0-15, 16 the FM-owned LD, 17 MCTP. `stage`: 0 nothing, 1 version, 2 capabilities, 3 algorithms
agreed; `vca`, `certs` and `meas` are the messages exchanged since, for the transcripts that signatures cover. -/
structure Spdm where
  who : Nat
  stage : Nat
  vca : List Byte
  certs : List Byte
  meas : List Byte
  deriving DecidableEq, Repr

/-- The CXL attachment: link, LDs and the FM-owned LD's QoS settings (17 R396-R410). `width`: lanes, 0 when down. -/
structure Cxl where
  width : Nat
  lds : List CxlLd
  qos : Qos
  spdm : List Spdm
  deriving DecidableEq, Repr

/-- A bus-mastered CXL.io read that is outstanding (17 R405): `why` names its use. Writes are posted. -/
inductive BusWhy where
  | textHead (handle : Nat)
  | restoreRead (seq : Nat)
  deriving DecidableEq, Repr

/-- An outstanding bus-mastered request (17 R405). -/
structure BusReq where
  id : Nat
  ld : Nat
  read : Bool
  addr : Nat
  len : Nat
  issued : Nat
  why : BusWhy
  deriving DecidableEq, Repr

/-- An answer to a mailbox, FM API or DOE request: to LD `ld` (16: the FM-owned LD), with the opcode that it answers, the number of the
tunnel submission it belongs to (0 for others), and the return code. -/
structure Reply where
  ld : Nat
  op : Nat
  id : Nat
  code : Nat
  bytes : List Byte
  deriving DecidableEq, Repr

/-- What the device has driven outward, oldest first. Nothing inside the device reads it back. `pins`: changes of TICK_OUT (0) and
THERMTRIP_N (1), with the elapsed time and the new level. -/
structure Outs where
  msix : List (Nat × Nat)
  hostWrites : List (Nat × Nat × List Byte)
  frames : List (Nat × Frame)
  replies : List Reply
  memReads : List (Nat × Nat × List Byte × Bool)
  pins : List (Nat × Nat × Bool)
  deriving DecidableEq, Repr

/-- A DDR5 module in a slot of a channel (09 Table 9-2): `kind` 1 RDIMM, 2 3DS RDIMM, anything else one that is not supported; `gib` its size. -/
structure Dimm where
  channel : Nat
  slot : Nat
  kind : Nat
  gib : Nat
  deriving DecidableEq, Repr

/-- The NAND that training finds (13 R284): `luns` on a channel, and those, as (channel, LUN), that do not answer. -/
structure NandFound where
  luns : Nat
  silent : List (Nat × Nat)
  deriving DecidableEq, Repr

/-- What a mount finds in the metadata area (13 R299): whether there is a format record, and a checkpoint record. -/
structure MountRecords where
  format : Bool
  checkpoint : Bool
  deriving DecidableEq, Repr

/-- A defect that a test, training or the array itself shows (18 Table 18-4): KIND, UNIT, LOCATION, SPARE. -/
structure Defect where
  kind : Nat
  unit : Nat
  loc : Nat
  spare : Nat
  deriving DecidableEq, Repr

/-- A report entry (18 R425): the defect, its FLAGS and the clause. -/
structure RepEntry where
  defect : Defect
  flags : Nat
  clause : Nat
  deriving DecidableEq, Repr

/-- A SELFTEST or CALIBRATE under way (18 R430): its verb, opcode, scope and unit, the physical cores still to test, what it has
done, and when it started. `wait`: it is held until the next QUIESCE completes. -/
structure TestOp where
  seq : Nat
  op : Nat
  scope : Nat
  unit : Nat
  left : List (Nat × Nat)
  done : Nat
  failed : Nat
  entries : Nat
  start : Nat
  wait : Bool
  deriving DecidableEq, Repr

/-- Repair (18 R421-R430). `map`: header and entries of the map in effect; `gathered`: the header and the indexed entries of a map
being loaded; `due`: new entries that take effect at the next boundary; `lanes`: (link, module, lane, spare used or 255); `hard`: hard
sectors by (KIND, UNIT, LOCATION); `rolling`: the next core that rolling self-test takes in a cluster; `noSlots`, `noUnits`: session-table
slots and lexicon units withheld; `pcs`: pseudo-channels that are out since power-up, by stack and LOCATION. -/
structure Repair where
  map : List Byte
  mapEntries : List Defect
  gathered : Option (List Byte)
  parts : List (Nat × Defect)
  due : List Defect
  report : List RepEntry
  lanes : List (Nat × Nat × Nat × Nat)
  hard : List (Nat × Nat × Nat × Nat)
  tests : List TestOp
  rolling : List (Nat × Nat)
  noSlots : List Nat
  noUnits : Nat
  pcs : List (Nat × Nat)
  deriving DecidableEq, Repr

/-- Boot, pins and power (chapter 19) and the boot path (19 R438, R439). `slots` hold the boot bundle, `transfer` the part being
transferred, `claimed` its requester. `opLimit`: NAND programs issued before a power failure have lower numbers (19 R444). `bootDone`: stage 7
has ended. `identity`: STATE of IDENTITY_GET (15 R357). -/
structure Boot where
  stage : Nat
  inReset : Bool
  pwrgdSeen : Bool
  pwrgd : Bool
  perstLow : Bool
  pwrfailLow : Bool
  powerFail : Bool
  opLimit : Nat
  bootDone : Bool
  slots : List (Nat × List Byte)
  transfer : Option (Nat × List Byte)
  claimed : Option Nat
  fwDigest : List Byte
  fwSecurity : Nat
  fwVersion : Nat
  mapDigest : List Byte
  ifMajor : Nat
  ifMinor : Nat
  serial : Nat
  identity : Nat
  publicKey : List Byte
  chain : List Byte
  ddrChannels : Nat
  ddrDpc : Nat
  ddrMts : Nat
  deriving DecidableEq, Repr

/-- One temperature sensor with its history (20 R458): current reading and peak in 0.125 °C. -/
structure Sensor where
  current : Int
  second : Option Int
  peak : Int
  peakTime : Nat
  bins : List Nat
  deriving DecidableEq, Repr

/-- A request of a sensor for a throttle level; `below`: since when it has stayed 5 °C below the level's value (21 R469). -/
structure TempReq where
  sensor : Nat
  level : Nat
  below : Option Nat
  deriving DecidableEq, Repr

/-- Throttling and the temperature history (20 R458, 21 R469-R471). `power`: the last ten samples in W, newest first, taken at `powerAt`;
`above`, `under`: since when their average is above 1,800 W and below 1,700 W. `since0`: when the level last rose from 0. `quota`: the bank quota
Q of each HBM channel (08 R170), `quotaSeen`: the time up to which NB_THROTTLED_US has counted. -/
structure Therm where
  sensors : List Sensor
  seen : Bool
  seconds : Nat
  level : Nat
  reqs : List TempReq
  byPower : Nat
  byPin : Bool
  power : List Nat
  powerAt : Option Nat
  above : Option Nat
  under : Option Nat
  since0 : Nat
  quota : Nat
  quotaSeen : Nat
  trip : Bool
  deriving DecidableEq, Repr

/-- The registers of an LD's configuration space that the model holds. -/
inductive CfgReg where
  | command
  | bar0
  | bar2
  | msixControl
  deriving DecidableEq, Repr

/-- Where patrol scrub finds a sector in error. `hard`: its read-back after the rewrite fails too, in that pseudo-channel or rank (18 R418). -/
inductive BadSector where
  | exch (ld off : Nat)
  | phrase (part id tier sector : Nat) (hard : Option Defect)
  | image (part ref : Nat)
  | range (handle : Nat) (mark : Rederive)
  | weight (model layer sector : Nat)
  | kernel (id sector : Nat)
  | lexicon (id off : Nat)
  | grammar (id off : Nat)
  | pinned (model : Nat)
  | kernelCache (kernel : Nat)
  | searchCodes (index : Nat)
  | searchTables (index : Nat)
  | mapSegment (seg : Nat)
  | noObject (hard : Option Defect)
  deriving DecidableEq, Repr

end Sys2Proof.Machine
end

