-- ==== Sys2Proof/Syntax.lean ====
section
/-!
DEFINITION. The commands: one constructor per row of the opcode table, in its order. `seq` is the acceptance number of a verb, `core` a core
(0 to 4,095, channel cores from 4,096), `dt` the nanoseconds that have passed since the command before, `ld` a logical device, `who` a
requester (LD 0 to 15, 16 the FM-owned LD, 17 MCTP).
-/

namespace Sys2Proof

open Sys2Proof.Machine

/-- A command to the block. -/
inductive Instr where
  | clauseBoundary (dt : Nat) (temps : List Int) (bad : List BadSector) (tests : List (Nat × List Defect))
  | jobOverrunAbort (job : Nat) (dt : Nat)
  | tickInEdge (dt : Nat) (highNs : Nat)
  | tickLossTimeout (dt : Nat)
  | slewEnd (dt : Nat)
  | ptpMessageReceive (sub : Nat) (domain : Nat) (m : PtpMsg)
  | ptpSyncTimeout (dt : Nat)
  | clauseSet (seq : Nat)
  | timeSet (seq : Nat)
  | doorbellSqUpdate (ld : Nat) (off : Nat) (width : Nat) (value : Nat)
  | doorbellCqUpdate (ld : Nat) (off : Nat) (width : Nat) (value : Nat)
  | doorbellRestart (ld : Nat) (off : Nat) (width : Nat) (value : Nat)
  | ringFetch
  | evqEnableWrite (ld : Nat) (off : Nat) (width : Nat) (value : Nat)
  | evqHeadWrite (ld : Nat) (off : Nat) (width : Nat) (value : Nat)
  | stallSeenClear (off : Nat) (width : Nat) (value : Nat)
  | registerWrite (ld : Nat) (off : Nat) (width : Nat) (value : Nat)
  | fwStallTimeout (dt : Nat)
  | verbLimitTimeout (seq : Nat) (dt : Nat)
  | sessFork (seq : Nat)
  | append (seq : Nat)
  | rollback (seq : Nat)
  | truncate (seq : Nat)
  | modelLoad (seq : Nat)
  | modelUnload (seq : Nat)
  | attend (seq : Nat)
  | jobSliceEnd (slice : Nat)
  | partialRecordArrival (place : Nat)
  | kernelLoad (seq : Nat)
  | kernelUnload (seq : Nat)
  | nop (core : Nat)
  | tload (core : Nat) (bad : List Nat)
  | tstore (core : Nat) (bad : List Nat)
  | gather (core : Nat) (bad : List Nat)
  | scatter (core : Nat) (bad : List Nat)
  | fill (core : Nat)
  | mm (core : Nat)
  | accRead (core : Nat)
  | accWrite (core : Nat)
  | quant (core : Nat)
  | dequant (core : Nat)
  | vop (core : Nat)
  | vred (core : Nat)
  | rotate (core : Nat)
  | smxPart (core : Nat)
  | smxMerge (core : Nat)
  | partEmit (core : Nat)
  | appendRows (core : Nat)
  | nbIssue (core : Nat)
  | nbOperationComplete (core : Nat) (id : Nat) (bad : List Nat)
  | movementComplete (core : Nat) (id : Nat)
  | semWait (core : Nat)
  | semSignal (core : Nat)
  | barCl (core : Nat)
  | barDev (core : Nat)
  | bcast (core : Nat)
  | flag (core : Nat)
  | flagWait (core : Nat)
  | loopBegin (core : Nat)
  | loopEnd (core : Nat)
  | skip (core : Nat)
  | endDesc (core : Nat)
  | zeroFillComplete (rel : Nat) (ddr : Bool)
  | pinTiles (seq : Nat)
  | sessOpen (seq : Nat)
  | sessClose (seq : Nat)
  | discard (seq : Nat)
  | sessQuery (seq : Nat)
  | park (seq : Nat)
  | revive (seq : Nat)
  | move (seq : Nat)
  | moverCopyComplete (id : Nat) (ok : Bool)
  | lexLoad (seq : Nat)
  | lexUnload (seq : Nat)
  | tokenize (seq : Nat)
  | detokOpen (seq : Nat)
  | stopSet (seq : Nat)
  | detokFlush (seq : Nat)
  | textHeadReadDone (id : Nat) (value : Nat)
  | gramLoad (seq : Nat)
  | gramUnload (seq : Nat)
  | gramBind (seq : Nat)
  | samplerSet (seq : Nat)
  | sample (seq : Nat)
  | maskGet (seq : Nat)
  | commit (seq : Nat)
  | idxCreate (seq : Nat)
  | idxDrop (seq : Nat)
  | idxInsert (seq : Nat)
  | idxDelete (seq : Nat)
  | idxSearch (seq : Nat)
  | idxMerge (seq : Nat)
  | bitmapLoad (seq : Nat)
  | idxRepair (seq : Nat)
  | idxStats (seq : Nat)
  | mergeComplete (id : Nat)
  | repairPassEnd (id : Nat)
  | attachComplete (id : Nat)
  | flMount (seq : Nat)
  | flFormat (seq : Nat)
  | flHealth (seq : Nat)
  | flDiscard (seq : Nat)
  | flSanitize (seq : Nat)
  | flAssign (seq : Nat)
  | formatComplete (ok : Bool) (bad : List (Nat × Nat × Nat))
  | flSanitizeDone (ok : Bool)
  | nandReadComplete (id : Nat) (ok : Bool) (bits : Nat) (found : Nat) (bad : List Nat)
  | nandProgramComplete (id : Nat) (ok : Bool) (damaged : List Nat)
  | nandEraseComplete (id : Nat) (ok : Bool)
  | nandOpTimeout (id : Nat) (dt : Nat)
  | mapCheckpoint
  | mountComplete (recs : MountRecords) (bad : List Nat) (absent : List (Nat × Nat))
  | ckptBegin (seq : Nat)
  | ckptStatus (seq : Nat)
  | ckptDrain (seq : Nat)
  | restore (seq : Nat)
  | buddyPair (seq : Nat)
  | buddyUnpair (seq : Nat)
  | ckptStaged (ctx : Nat) (step : Nat)
  | hello (h : RxHead) (m : List Byte)
  | helloAck (h : RxHead) (m : List Byte)
  | heartbeat (h : RxHead) (m : List Byte)
  | openMsg (h : RxHead) (m : List Byte)
  | grant (h : RxHead) (m : List Byte)
  | sealMsg (h : RxHead) (m : List Byte)
  | sealed (h : RxHead) (m : List Byte)
  | release (h : RxHead) (m : List Byte)
  | released (h : RxHead) (m : List Byte)
  | find (h : RxHead) (m : List Byte)
  | found (h : RxHead) (m : List Byte)
  | shardWriteImmediate (h : RxHead) (va : Nat) (rkey : Nat) (dmaLen : Nat) (imm : Nat) (payload : List Byte)
  | buddyHeartbeatTimer (dt : Nat)
  | buddyRequestResend (req : Nat) (dt : Nat)
  | buddyLossTimeout (dt : Nat)
  | partCreate (seq : Nat)
  | partDestroy (seq : Nat)
  | partResize (seq : Nat)
  | partBind (seq : Nat)
  | rebindSwitch (part : Nat)
  | ctxCreate (seq : Nat)
  | ctxDestroy (seq : Nat)
  | scrub (seq : Nat)
  | identityGet (seq : Nat)
  | portSet (seq : Nat)
  | qpCreate (seq : Nat)
  | qpModify (seq : Nat)
  | qpDestroy (seq : Nat)
  | windowOpen (seq : Nat)
  | windowClose (seq : Nat)
  | shaperSet (seq : Nat)
  | policerSet (seq : Nat)
  | gateListSet (seq : Nat)
  | queueStats (seq : Nat)
  | latencyProbeSet (seq : Nat)
  | rdmaWriteReceive (h : RxHead) (va : Nat) (rkey : Nat) (dmaLen : Nat) (payload : List Byte)
  | writeWithImmediate (h : RxHead) (va : Nat) (rkey : Nat) (dmaLen : Nat) (imm : Nat) (payload : List Byte)
  | rdmaReadRequest (h : RxHead) (va : Nat) (rkey : Nat) (len : Nat)
  | rdmaReadResponse (h : RxHead) (payload : List Byte)
  | sendReceive (h : RxHead) (payload : List Byte)
  | ackReceive (h : RxHead)
  | nakReceive (h : RxHead) (code : Nat) (timerNs : Nat)
  | cnpReceive (h : RxHead)
  | pfcFrameReceive (sub : Nat) (len : Nat) (quanta : List (Nat × Nat))
  | arpRequest (sub : Nat) (len : Nat) (mac : Nat) (ip : Nat) (target : Nat)
  | neighborSolicitation (sub : Nat) (len : Nat) (mac : Nat) (ip : Nat) (target : Nat)
  | otherFrameReceive (sub : Nat) (len : Nat) (fcsOk : Bool)
  | egressFrameStart (sub : Nat) (dt : Nat)
  | ackTimeout (qpn : Nat) (dt : Nat)
  | rnrRetryExpiry (qpn : Nat) (dt : Nat)
  | ackCoalesceExpiry (qpn : Nat) (dt : Nat)
  | tIncExpiry (qpn : Nat) (dt : Nat)
  | shaperRefill (dt : Nat)
  | gateEntryExpiry (sub : Nat) (dt : Nat)
  | gateListTakeover (sub : Nat) (dt : Nat)
  | latencyProbeSample (sub : Nat) (dt : Nat)
  | pfcPauseExpiry (sub : Nat) (cls : Nat) (dt : Nat)
  | pfcXoffRefresh (sub : Nat) (cls : Nat) (dt : Nat)
  | pauseHeldTimeout (sub : Nat) (cls : Nat) (dt : Nat)
  | portTrainingComplete (port : Nat) (up : Nat) (dt : Nat)
  | ethLaneFailure (port : Nat) (lane : Nat) (corrected : Nat) (uncorrectable : Nat)
  | cxlMemRead (ld : Nat) (hpa : Nat) (bad : Bool)
  | cxlMemWrite (ld : Nat) (hpa : Nat) (bytes : List Byte)
  | cxlLinkDown
  | cxlLinkUp (width : Nat) (root : Bool) (bound : Nat)
  | cxlHotReset (only : Option Nat)
  | cxlFlr (ld : Nat)
  | cxlLaneFailure
  | busMasterErrorResponse (id : Nat)
  | busMasterTimeout (id : Nat) (dt : Nat)
  | identifyMemoryDevice (ld : Nat)
  | getHealthInfo (ld : Nat)
  | getAlertConfiguration (ld : Nat)
  | setAlertConfiguration (ld : Nat) (valid : Nat) (enable : Nat) (life : Nat) (temp : Int)
  | getEventRecords (ld : Nat) (log : Nat)
  | clearEventRecords (ld : Nat) (log : Nat) (all : Bool) (handles : List Nat)
  | getEventInterruptPolicy (ld : Nat)
  | setEventInterruptPolicy (ld : Nat) (policy : List Nat)
  | getSupportedLogs (ld : Nat)
  | getLog (ld : Nat) (uuid : List Byte) (first : Nat) (len : Nat)
  | getPoisonList (ld : Nat) (start : Nat) (len : Nat)
  | sanitize (ld : Nat)
  | mailboxSanitizeDone (ld : Nat)
  | getFwInfo (who : Nat)
  | transferFw (who : Nat) (action : Nat) (slot : Nat) (first : Nat) (data : List Byte)
  | activateFw (who : Nat) (slot : Nat)
  | getLdInfo
  | getLdAllocations (start : Nat) (count : Nat)
  | setLdAllocations (start : Nat) (ranges : List (Nat × Nat))
  | getQosControl
  | setQosControl (qos : Qos)
  | getQosStatus
  | getQosAllocatedBw (start : Nat) (count : Nat)
  | setQosAllocatedBw (start : Nat) (fractions : List Nat)
  | getQosBwLimit (start : Nat) (count : Nat)
  | setQosBwLimit (start : Nat) (fractions : List Nat)
  | tunnelSubmit (entry : Entry) (block : List Byte)
  | tunnelCollect (tag : Nat)
  | tunnelEvents (want : Nat)
  | tunnelSubmitExpiry (submit : Nat) (dt : Nat)
  | doeDiscovery (who : Nat) (index : Nat)
  | cdatTableAccess (who : Nat) (handle : Nat)
  | getVersion (who : Nat) (req : List Byte)
  | getCapabilities (who : Nat) (req : List Byte)
  | negotiateAlgorithms (who : Nat) (req : List Byte)
  | getDigests (who : Nat) (req : List Byte)
  | getCertificate (who : Nat) (req : List Byte)
  | challenge (who : Nat) (req : List Byte)
  | getMeasurements (who : Nat) (req : List Byte)
  | repairLoad (seq : Nat)
  | repairReport (seq : Nat)
  | selftest (seq : Nat)
  | calibrate (seq : Nat)
  | quiesce (seq : Nat)
  | resume (seq : Nat)
  | refetchComplete (id : Nat) (ok : Bool) (hard : List (Nat × Defect)) (pages : Nat)
  | selftestTestComplete (cluster : Nat) (pos : Nat) (pass : Bool) (dt : Nat)
  | ucieLaneFailure (link : Nat) (mod : Nat) (lane : Nat)
  | pwrgdAssert (ns : Nat)
  | pwrgdDeassert (ns : Nat)
  | perstNAssert (ns : Nat)
  | perstNDeassert
  | pwrfailNAssert (ns : Nat)
  | railUndervoltage (ns : Nat)
  | identityDerived
  | firmwareStarted
  | bootSelftestDone (defects : List Defect) (logicFail : Bool) (noSlots : List Nat) (noUnits : Nat)
  | trainingDone (modules : List Dimm) (mts : Nat) (granules : Nat) (nand : NandFound) (failed : List Defect)
  | throtNAssert (ns : Nat)
  | throtNRelease
  | powerSample (dt : Nat) (watts : Nat)
  | throttleRequestExpiry (dt : Nat)
  | thermalTrip (sensor : Nat) (temp : Int)
  | thermalHistoryTick (dt : Nat)
  | countersRead (seq : Nat)
  | logRead (seq : Nat)
  | eventMask (seq : Nat)
  | thermalHistory (seq : Nat)
  | deviceInfo (seq : Nat)
  | configSet (seq : Nat)
  | configGet (seq : Nat)
  | unitDescriptorComplete (core : Nat) (unit : Nat)
  | ingressBufferDrain (sub : Nat)
  | qpPacerRelease (qpn : Nat) (dt : Nat)
  | msixTableWrite (ld : Nat) (vec : Nat) (addr : Nat) (data : Nat) (masked : Bool)
  | hdmDecoderCommit (ld : Nat) (idx : Nat) (base : Nat) (size : Nat)
  | configSpaceWrite (ld : Nat) (reg : CfgReg) (value : Nat)
  | pwrfailNDeassert
  | busMasterReadComplete (id : Nat) (bytes : List Byte)
  deriving DecidableEq, Repr

end Sys2Proof
end

