-- ==== Sys2Proof/Decode.lean ====
section
/-!
DEFINITION. Decoding of table words: the opcode table gives none of its rows any bits, so no word spells a command.
-/

namespace Sys2Proof

/-- The command that a word of `nbits` bits spells: none, since no row of the table has bits. [Log entry 7, DESIGN CHOICE.] -/
def decodeTableWord (_nbits _w : Nat) : Option Instr := none

end Sys2Proof
end

