-- ==== Sys2Proof/Machine/Approx.lean ====
section
/-!
DEFINITION. The functions that the vector unit and the near-bank units take from tables (06 R121, R129; 07 R145; 08 R165). The tables are not
given, only how far a result may lie from the true value. A result here is a free constant where that constant keeps the stated bound, and
the true value rounded to binary32 where it does not, so every result keeps the bound and nothing else is fixed. The true value is worked
out in fixed point with 512 fraction bits.
-/

namespace Sys2Proof.Machine

/-! ### Fixed point -/

/-- Fraction bits. -/
def fxBits : Nat := 512

def fxOne : Int := 2 ^ fxBits

/-- A finite value in fixed point. -/
def fxOf (v : Fv) : Int :=
  match v with
  | .fin neg m e =>
    let k := e + fxBits
    let a : Nat := if 0 ≤ k then m * 2 ^ k.toNat else m / 2 ^ (-k).toNat
    if neg then -(a : Int) else a
  | _ => 0

/-- A fixed-point number as a value. -/
def fxValue (t : Int) : Fv := .fin (decide (t < 0)) t.natAbs (-(fxBits : Int))

def fxMul (a b : Int) : Int := a * b / fxOne
def fxDiv (a b : Int) : Int := a * fxOne / b

/-- The sum of a series: each term is made from the one before and its index, and counts with its weight. -/
def fxSeries (next : Int → Nat → Int) (weight : Int → Nat → Int) : Nat → Nat → Int → Int → Int
  | 0, _, _, s => s
  | k + 1, n, t, s => fxSeries next weight k (n + 1) (next t n) (s + weight t n)

/-- Integer square root by Newton's steps from above. -/
def isqrt (n : Nat) : Nat → Nat → Nat
  | 0, x => x
  | k + 1, x => let y := (x + n / x) / 2; if y < x then isqrt n k y else x

def natSqrt (n : Nat) : Nat := if n = 0 then 0 else isqrt n 64 (2 ^ (Nat.log2 n / 2 + 1))

/-- e^x for |x| up to 110; beyond it a number out of the range of binary32 on that side. -/
def fxExp (x : Int) : Int :=
  if 110 * fxOne < x then 2 ^ (fxBits + 150)
  else if x < -110 * fxOne then 0
  else fxSeries (fun t n => fxMul t x / (n + 1)) (fun t _ => t) 640 0 fxOne 0

/-- The logarithm of a number from 1 to 2. -/
def fxLogUnit (y : Int) : Int :=
  let z := fxDiv (y - fxOne) (y + fxOne)
  fxSeries (fun t _ => fxMul t (fxMul z z)) (fun t n => 2 * t / (2 * n + 1)) 180 0 z 0

/-- The logarithm of a positive number. -/
def fxLog (x : Int) : Int :=
  let k : Int := (Nat.log2 x.natAbs : Int) - fxBits
  let y := if 0 ≤ k then x / 2 ^ k.toNat else x * 2 ^ (-k).toNat
  fxLogUnit y + k * fxLogUnit (2 * fxOne)

/-- The arc tangent of 1/n. -/
def fxAtanInv (n : Int) : Int := fxSeries (fun t _ => -(t / (n * n))) (fun t i => t / (2 * i + 1)) 240 0 (fxOne / n) 0

def fxPi : Int := 16 * fxAtanInv 5 - 4 * fxAtanInv 239

/-- The remainder of a division by 2π, from -π to π. -/
def fxTurn (x : Int) : Int := (x + fxPi) % (2 * fxPi) - fxPi

def fxSin (x : Int) : Int :=
  let r := fxTurn x
  fxSeries (fun t n => -(fxMul (fxMul t r) r) / ((2 * n + 2) * (2 * n + 3))) (fun t _ => t) 90 0 r 0

def fxCos (x : Int) : Int :=
  let r := fxTurn x
  fxSeries (fun t n => -(fxMul (fxMul t r) r) / ((2 * n + 1) * (2 * n + 2))) (fun t _ => t) 90 0 fxOne 0

/-- sigmoid(x). -/
def fxSigmoid (x : Int) : Int :=
  let e := fxExp (-(x.natAbs : Int))
  let low := fxDiv e (fxOne + e)
  if 0 ≤ x then fxOne - low else low

/-- The normal distribution function Φ(x). -/
def fxPhi (x : Int) : Int :=
  if 16 * fxOne < x then fxOne
  else if x < -16 * fxOne then 0
  else
    let root : Int := natSqrt (2 * fxPi * fxOne).natAbs
    fxOne / 2 + fxDiv (fxSeries (fun t n => -(fxMul (fxMul t x) x) / (2 * (n + 1))) (fun t n => t / (2 * n + 1)) 720 0 x 0) root

def fxTanh (x : Int) : Int :=
  let e := fxExp (-2 * (x.natAbs : Int))
  let a := fxDiv (fxOne - e) (fxOne + e)
  if 0 ≤ x then a else -a

def fxSoftplus (x : Int) : Int := (if 0 ≤ x then x else 0) + fxLogUnit (fxOne + fxExp (-(x.natAbs : Int)))

/-! ### Bounds -/

/-- An encoding of binary32 or BF16 in fixed point beside a true value: an infinity stands for the first number that has no finite encoding,
or for the true value where that is greater. -/
def fxCode (f : Fmt) (c : Nat) (t : Int) : Option Int :=
  match fvDecode f c with
  | .nan => none
  | .inf neg =>
    let top : Int := 2 ^ (fxBits + 128)
    some (if neg then min t (-top) else max t top)
  | v => some (fxOf v)

/-- Two units in the last place of a true value, in binary32 or BF16. -/
def fxTwoUlp (f : Fmt) (t : Int) : Int := 2 ^ ((Nat.max (Nat.log2 t.natAbs) (fxBits - 126)) + 1 - f.mb)

/-- The free encoding `c` where it lies within `bound` of the true value `t`, else `t` rounded. -/
def fxWithin (f : Fmt) (bound t : Int) (c : Nat) : Nat :=
  match fxCode f (c % 2 ^ fmtBits f) t with
  | some y => if decide (y - t ≤ bound) && decide (t - y ≤ bound) then c % 2 ^ fmtBits f else fvEncode f (fxValue t)
  | none => fvEncode f (fxValue t)

/-- The true value of a vector function of Table 7-8's VOP codes 9 to 19 at a finite operand where it has one. -/
def vectorTrue (op : Nat) (x : Int) : Option Int :=
  match op with
  | 9 => some (fxExp x)
  | 10 => if 0 < x then some (fxLog x) else none
  | 11 => if 0 < x then some (natSqrt (2 ^ (3 * fxBits) / x.natAbs)) else none
  | 12 => if x = 0 then none else some (fxDiv fxOne x)
  | 13 => some (fxSigmoid x)
  | 14 => some (fxMul x (fxSigmoid x))
  | 15 => some (fxMul x (fxPhi x))
  | 16 => some (fxTanh x)
  | 17 => some (fxSin x)
  | 18 => some (fxCos x)
  | 19 => some (fxSoftplus x)
  | _ => none

/-- A vector function on an encoding of binary32 or BF16 (07 R145): within 2 ulp of its true value in that format, SIN and COS within 2^-21
(06 R121). On an operand that is not finite, or at which the function has no value, the result is free. [Log entry 49, DESIGN CHOICE.] -/
def vectorFn (f : Fmt) (op x : Nat) : Nat :=
  let c := Config.vectorFn op f.mb x % 2 ^ fmtBits f
  match fvDecode f x with
  | .fin n m e =>
    match vectorTrue op (fxOf (.fin n m e)) with
    | some t =>
      let sine := op = 17 || op = 18
      fxWithin f (if sine then Nat.max (2 ^ (fxBits - 21)) (fxTwoUlp f t / 4).natAbs else fxTwoUlp f t) t c
    | none => c
  | _ => c

/-! ### Activation tables of the near-bank units (08 R165) -/

/-- The domain of a table, as integers (08 Table 8-2). -/
def nbDomain (fn : Nat) : Int × Int := if fn = 5 then (0, 32) else (-16, 16)

/-- The true function that a table follows. -/
def nearBankTrue (fn : Nat) (x : Int) : Int :=
  match fn with
  | 1 => fxMul x (fxSigmoid x)
  | 2 => fxMul x (fxPhi x)
  | 3 => fxSigmoid x
  | 4 => fxSoftplus x
  | _ => fxExp (-x)

/-- The segment of width 0.125 in which an operand lies. -/
def nbSegment (fn : Nat) (x : Int) : Nat := ((x - (nbDomain fn).1 * fxOne) * 8 / fxOne).toNat

/-- A table's result inside its domain: the line of the operand's segment, where it keeps within 2^-9 of the true function. [Log entry 49, DESIGN CHOICE.] -/
def nearBankIn (fn : Nat) (v : Fv) : Nat :=
  let x := fxOf v
  let s := Config.nearBankLine fn (nbSegment fn x)
  let y := fxMul (fxOf (fvDecode fmtF32 s.1)) x + fxOf (fvDecode fmtF32 s.2)
  fxWithin fmtF32 (2 ^ (fxBits - 9)) (nearBankTrue fn x) (fvEncode fmtF32 (fxValue y))

end Sys2Proof.Machine
end

