-- ==== Sys2Proof/Machine/Arith.lean ====
section
/-!
DEFINITION. Arithmetic of the cores and near-bank units (00 R9, 07 R139, R145, 08 R164): exact sums and products of dyadic
values with one rounding at the end, tiles and their formats.
-/

namespace Sys2Proof.Machine

/-! ### Exact operations -/

/-- The exact sum of two values; an exact zero is negative only where both are. -/
def fvAdd (a b : Fv) : Fv :=
  match a, b with
  | .nan, _ => .nan
  | _, .nan => .nan
  | .inf x, .inf y => if x == y then .inf x else .nan
  | .inf x, _ => .inf x
  | _, .inf y => .inf y
  | .fin x m e, .fin y n f =>
    let k := min e f
    let i : Int := (if x then -1 else 1) * ((m * 2 ^ (e - k).toNat : Nat) : Int)
    let j : Int := (if y then -1 else 1) * ((n * 2 ^ (f - k).toNat : Nat) : Int)
    let s := i + j
    if s = 0 then .fin (x && y) 0 k else .fin (decide (s < 0)) s.natAbs k

/-- The exact product. -/
def fvMul (a b : Fv) : Fv :=
  match a, b with
  | .nan, _ => .nan
  | _, .nan => .nan
  | .inf x, .inf y => .inf (x != y)
  | .inf x, .fin y n _ => if n = 0 then .nan else .inf (x != y)
  | .fin x m _, .inf y => if m = 0 then .nan else .inf (x != y)
  | .fin x m e, .fin y n f => .fin (x != y) (m * n) (e + f)

/-- The negation. -/
def fvNeg (a : Fv) : Fv :=
  match a with
  | .nan => .nan
  | .inf x => .inf (!x)
  | .fin x m e => .fin (!x) m e

/-- The absolute value. -/
def fvAbs (a : Fv) : Fv :=
  match a with
  | .nan => .nan
  | .inf _ => .inf false
  | .fin _ m e => .fin false m e

/-- a < b on values; false where either is a NaN. -/
def fvLt (a b : Fv) : Bool :=
  match a, b with
  | .nan, _ => false
  | _, .nan => false
  | .inf x, .inf y => x && !y
  | .inf x, _ => x
  | _, .inf y => !y
  | .fin x m e, .fin y n f =>
    let k := min e f
    let i : Int := (if x then -1 else 1) * ((m * 2 ^ (e - k).toNat : Nat) : Int)
    let j : Int := (if y then -1 else 1) * ((n * 2 ^ (f - k).toNat : Nat) : Int)
    decide (i < j)

/-- Whether a value is a NaN. -/
def fvIsNan : Fv → Bool
  | .nan => true
  | _ => false

/-- A quotient with enough bits, and a sticky bit, for one rounding to binary32. -/
def fvDiv (a b : Fv) : Fv :=
  match a, b with
  | .nan, _ => .nan
  | _, .nan => .nan
  | .inf _, .inf _ => .nan
  | .inf x, .fin y _ _ => .inf (x != y)
  | .fin x _ _, .inf y => .fin (x != y) 0 0
  | .fin x m e, .fin y n f =>
    if n = 0 then (if m = 0 then .nan else .inf (x != y))
    else
      let q := m * 2 ^ 80 / n
      let sticky := if m * 2 ^ 80 % n = 0 then 0 else 1
      .fin (x != y) (2 * q + sticky) (e - f - 81)

/-- The greater value under the device's NaN rule. -/
def fvMax (a b : Fv) : Fv :=
  if fvIsNan a || fvIsNan b then
    (if Config.maxPrefersNumber then (if fvIsNan a then b else a) else .nan)
  else if fvLt a b then b else a

/-- The lesser value under the device's NaN rule. -/
def fvMin (a b : Fv) : Fv :=
  if fvIsNan a || fvIsNan b then
    (if Config.maxPrefersNumber then (if fvIsNan a then b else a) else .nan)
  else if fvLt b a then b else a

/-- An integer as a value. -/
def fvOfInt (i : Int) : Fv := .fin (decide (i < 0)) i.natAbs 0

/-! ### Binary32 codes -/

def f32 (c : Nat) : Fv := fvDecode fmtF32 c

def enc32 (v : Fv) : Nat := fvEncode fmtF32 v

def f32Add (a b : Nat) : Nat := enc32 (fvAdd (f32 a) (f32 b))

def f32Mul (a b : Nat) : Nat := enc32 (fvMul (f32 a) (f32 b))

/-- a × b + c with one rounding. -/
def f32Fma (a b c : Nat) : Nat := enc32 (fvAdd (fvMul (f32 a) (f32 b)) (f32 c))

def f32Div (a b : Nat) : Nat := enc32 (fvDiv (f32 a) (f32 b))

def f32Sub (a b : Nat) : Nat := enc32 (fvAdd (f32 a) (fvNeg (f32 b)))

def f32Max (a b : Nat) : Nat := enc32 (fvMax (f32 a) (f32 b))

def f32Lt (a b : Nat) : Bool := fvLt (f32 a) (f32 b)

/-- Encoding of minus infinity. -/
def f32NegInf : Nat := 0xFF800000

/-- Encoding of 1. -/
def f32One : Nat := 0x3F800000

/-- exp on binary32 (06 R129); exp(-inf) is 0 (06 R127). -/
def f32Exp (x : Nat) : Nat := if x = f32NegInf then 0 else vectorFn fmtF32 9 x

/-- One level of a pairwise sum. -/
def pairLevel : List Nat → List Nat
  | a :: b :: l => f32Add a b :: pairLevel l
  | l => l

/-- A pairwise sum over the list as it stands; `fuel` bounds the levels. -/
def pairSum : Nat → List Nat → Nat
  | 0, l => l.headD 0
  | _, [] => 0
  | _, [a] => a
  | k + 1, l => pairSum k (pairLevel l)

/-- A list in the order that the device pairs it; a proper order only. -/
def pairArrange (l : List Nat) : List Nat :=
  let o := Config.pairOrder l.length
  if o.length = l.length && (List.range l.length).all (fun i => o.contains i) then o.map (fun i => nth l i 0) else l

/-- VRED's SUM (07 R145). -/
def vredSum (l : List Nat) : Nat := pairSum l.length (pairArrange l)

/-! ### Tile formats (07 Table 7-2) -/

/-- Whether a format code is an MX format. -/
def isMx (c : Nat) : Bool := c == 1 || c == 2 || c == 8

/-- Whether a format code is defined. -/
def tileFmtOk (c : Nat) : Bool := decide (1 ≤ c) && decide (c ≤ 9)

/-- Element bits. -/
def tileBits (c : Nat) : Nat :=
  match c with
  | 2 => 4
  | 3 => 16
  | 7 => 32
  | 9 => 32
  | _ => 8

/-- Bytes of a tile's elements. -/
def tileElemBytes (c : Nat) : Nat := 128 * tileBits c

/-- Bytes of a tile in a store. -/
def tileBytes (c : Nat) : Nat := tileElemBytes c + (if isMx c then 64 else 0)

/-- The floating-point format of an element. -/
def tileFmt (c : Nat) : Fmt :=
  match c with
  | 2 => fmtE2m1
  | 3 => fmtBf16
  | 5 => fmtE5m2
  | 7 => fmtF32
  | 8 => fmtE5m2
  | _ => fmtE4m3

/-- The element codes of a byte string of elements. -/
def elemCodes (c : Nat) (bs : List Byte) : List Nat :=
  match tileBits c with
  | 4 => bs.flatMap (fun b => [b.toNat % 16, b.toNat / 16])
  | 8 => bs.map (·.toNat)
  | w => (chunksOf (w / 8) bs.length bs).map leNat

/-- The bytes of element codes. -/
def codesBytes (c : Nat) (l : List Nat) : List Byte :=
  match tileBits c with
  | 4 => (chunksOf 2 l.length l).map (fun p => byte (nth p 0 0 % 16 + 16 * (nth p 1 0 % 16)))
  | w => l.flatMap (fun x => natLe x (w / 8))

/-- An MX scale byte as a value (05 R83). -/
def mxScale (s : Nat) : Fv := if s = 255 then .nan else .fin false 1 ((s : Int) - 127)

/-- The value of one element code of a format, with integers widened. -/
def elemValue (c code : Nat) : Fv :=
  match c with
  | 6 => fvOfInt (toSigned 8 code)
  | 9 => fvOfInt (toSigned 32 code)
  | _ => fvDecode (tileFmt c) code

/-- The 1,024 values of a tile in a store (07 R139). -/
def tileValues (c : Nat) (bs : List Byte) : List Fv :=
  let es := elemCodes c (bs.take (tileElemBytes c))
  if isMx c then
    let sc := bs.drop (tileElemBytes c)
    (List.range 1024).map (fun i => fvMul (elemValue c (nth es i 0)) (mxScale (nth sc (i / 32) 0).toNat))
  else es.map (elemValue c)

/-- One row of 32 values as an MX row: codes, scale, elements clamped (05 R90 for the codes of R145). -/
def mxRow (c : Nat) (vs : List Fv) : List Nat × Nat × Nat :=
  let f := tileFmt c
  let emax : Int := match c with
    | 1 => 8
    | 8 => 15
    | _ => 2
  let amax := blockAmax vs
  if fvIsZero amax then (vs.map (fun _ => 0), 0, 0)
  else
    let x := max (fvLog2 amax - emax) (-127)
    let qs := vs.map (fun v => fvClamp f (fvScale v (-x)))
    (qs.map (·.1), (x + 127).toNat, (qs.filter (·.2)).length)

/-- A row of an MX tile; one with a non-finite value is open. -/
def mxRowAny (c : Nat) (vs : List Fv) : List Nat × Nat × Nat :=
  if vs.all fvFinite then mxRow c vs
  else
    let o := Config.quantOpen c (vs.map enc32)
    ((List.range 32).map (fun i => nth o i 0 % 2 ^ tileBits c), nth o 32 0 % 256, 0)

/-- One value in a format without scales, clamped; a NaN is open. -/
def clampAny (c : Nat) (v : Fv) : Nat × Bool :=
  if fvIsNan v then (nth (Config.quantOpen c [enc32 v]) 0 0 % 2 ^ tileBits c, false) else fvClamp (tileFmt c) v

/-- A tile of 1,024 values in a format: its bytes in a store and the elements clamped. -/
def tileEncode (c : Nat) (vs : List Fv) : List Byte × Nat :=
  if isMx c then
    let rows := (chunksOf 32 32 vs).map (mxRowAny c)
    (codesBytes c (rows.flatMap (·.1)) ++ padTo (rows.map (fun r => byte r.2.1)) 64, sumNat (rows.map (·.2.2)))
  else if c = 7 then (codesBytes 7 (vs.map enc32), 0)
  else
    let qs := vs.map (clampAny c)
    (codesBytes c (qs.map (·.1)), (qs.filter (·.2)).length)

/-! ### MM (07 R145) -/

/-- Element (i, j) of a tile. -/
def at2 {α : Type} (l : List α) (i j : Nat) (dflt : α) : α := nth l (32 * i + j) dflt

/-- The exact sum of the 32 products of one block for element (i, j). -/
def dot32 (nn : Bool) (a b : List Fv) (i j : Nat) : Fv :=
  (List.range 32).foldl (fun s k =>
    fvAdd s (fvMul (at2 a i k .nan) (if nn then at2 b k j .nan else at2 b j k .nan))) (.fin false 0 0)

/-- One block of floating-point products added to an accumulator: one rounding per element. -/
def mmBlock (nn : Bool) (acc : List Nat) (a b : List Fv) : List Nat :=
  (List.range 1024).map (fun n => enc32 (fvAdd (f32 (nth acc n 0)) (dot32 nn a b (n / 32) (n % 32))))

/-- An INT32 sum that saturates at ±(2^31 - 1). -/
def satI32 (i : Int) : Nat × Bool :=
  if 2147483647 < i then (2147483647, true)
  else if i < -2147483647 then (ofSigned 32 (-2147483647), true)
  else (ofSigned 32 i, false)

/-- One block of INT8 products: the codes of both tiles, the accumulator, and whether an element saturated. -/
def mmInt (nn : Bool) (acc a b : List Nat) : List Nat × Bool :=
  let r := (List.range 1024).map (fun n =>
    let i := n / 32
    let j := n % 32
    let s := (List.range 32).foldl (fun (s : Int) k =>
      s + toSigned 8 (at2 a i k 0) * toSigned 8 (if nn then at2 b k j 0 else at2 b j k 0)) 0
    satI32 (toSigned 32 (nth acc n 0) + s))
  (r.map (·.1), r.any (·.2))

/-! ### Merges of partial results (06 R127, R128) -/

/-- A triple M, S, O of binary32 codes. -/
structure Triple where
  m : Nat
  s : Nat
  o : List Nat
  deriving DecidableEq, Repr

/-- The merge of R128. -/
def mergeTriple (a b : Triple) : Triple :=
  if a.m = f32NegInf then b
  else if b.m = f32NegInf then a
  else
    let m := f32Max a.m b.m
    let ea := f32Exp (f32Sub a.m m)
    let eb := f32Exp (f32Sub b.m m)
    { m := m
      s := f32Add (f32Mul a.s ea) (f32Mul b.s eb)
      o := (List.range (Nat.max a.o.length b.o.length)).map (fun i =>
        f32Add (f32Mul (nth a.o i 0) ea) (f32Mul (nth b.o i 0) eb)) }

/-- The sine and cosine rotation of one pair (06 R121): angle float32(p) × θ. -/
def rotatePair (x y pos theta : Nat) : Nat × Nat :=
  let a := f32Mul (enc32 (fvOfInt pos)) theta
  let c := vectorFn fmtF32 18 a
  let s := vectorFn fmtF32 17 a
  (f32Sub (f32Mul x c) (f32Mul y s), f32Add (f32Mul x s) (f32Mul y c))

end Sys2Proof.Machine
end

