-- ==== Sys2Proof/Machine/Sha.lean ====
section
/-!
DEFINITION. SHA-512 of FIPS 180-4 (spec 00 Table 0-5; 15 R358) and CRC-32C (13 R293), over byte strings. The constants of SHA-512 are
computed, as FIPS 180-4 defines them, from the roots of primes.
-/

namespace Sys2Proof.Machine

/-! ### The constants: the first 64 bits of the fractional parts of roots of primes -/

/-- The largest number whose `k`-th power is at most `n`, found from bit `b` down on top of `r`. -/
def rootFrom (k n : Nat) : Nat → Nat → Nat
  | 0, r => r
  | b + 1, r => rootFrom k n b (if (r + 2 ^ b) ^ k ≤ n then r + 2 ^ b else r)

/-- The first 64 bits of the fractional part of the `k`-th root of a number below 2^10. -/
def rootFraction (k p : Nat) : Nat := rootFrom k (p * 2 ^ (64 * k)) 70 0 % 2 ^ 64

/-- Whether a number below 529 is prime. -/
def smallPrime (n : Nat) : Bool := decide (1 < n) && [2, 3, 5, 7, 11, 13, 17, 19].all (fun q => n == q || n % q != 0)

/-- The first 80 primes. -/
def shaPrimes : List Nat := (List.range 410).filter smallPrime

/-- The constants of the rounds, from cube roots. -/
def shaConsts : List Nat := shaPrimes.map (rootFraction 3)

/-- The initial hash value, from square roots. -/
def shaFirst : List Nat := (shaPrimes.take 8).map (rootFraction 2)

/-! ### The functions -/

/-- The exclusive or of a 64-bit word's right rotations. -/
def shaTurns (x : Nat) (by' : List Nat) : Nat := by'.foldl (fun acc n => acc ^^^ (x / 2 ^ n + x % 2 ^ n * 2 ^ (64 - n))) 0

/-- The working variables: a to d, and e to h. -/
structure ShaVars where
  upper : List Nat
  lower : List Nat
  deriving DecidableEq, Repr

/-- One round with constant plus schedule word `kw`. The choice is g where e is clear and f where it is set; the majority is what two of a, b
and c agree on. -/
def shaTurn (v : ShaVars) (kw : Nat) : ShaVars :=
  match v.lower, v.upper with
  | [e, f, g, h], [a, b, c, d] =>
    let pick := g ^^^ (e &&& (f ^^^ g))
    let most := (a &&& (b ||| c)) ||| (b &&& c)
    let t := kw + h + pick + shaTurns e [14, 18, 41]
    { upper := [(t + most + shaTurns a [28, 34, 39]) % 2 ^ 64, a, b, c], lower := [(d + t) % 2 ^ 64, e, f, g] }
  | _, _ => v

/-- The 16 words of the message schedule that the next round sees, moved on by one. -/
def shaSlide (win : List Nat) : List Nat :=
  let at' := fun i => nth win i 0
  let near := shaTurns (at' 1) [1, 8] ^^^ (at' 1 / 2 ^ 7)
  let far := shaTurns (at' 14) [19, 61] ^^^ (at' 14 / 2 ^ 6)
  win.drop 1 ++ [(at' 0 + near + at' 9 + far) % 2 ^ 64]

/-- A big-endian number, as FIPS 180-4 orders bytes. -/
def natBe (bs : List Byte) : Nat := leNat bs.reverse

/-- `len` big-endian bytes of a number. -/
def beBytes (n len : Nat) : List Byte := (natLe n len).reverse

/-- One block of 128 bytes. -/
def shaBlock (hash : List Nat) (blk : List Byte) : List Nat :=
  let words := (List.range 16).map (fun i => natBe ((blk.drop (8 * i)).take 8))
  let go := fun (x : ShaVars × List Nat) k => (shaTurn x.1 (k + nth x.2 0 0), shaSlide x.2)
  let v := (shaConsts.foldl go (ShaVars.mk (hash.take 4) (hash.drop 4), words)).1
  (hash.zip (v.upper ++ v.lower)).map (fun x => (x.1 + x.2) % 2 ^ 64)

/-- What follows a message of `n` bytes: a set bit, zeros to 16 bytes short of a block's end, and its length in bits. -/
def shaPadding (n : Nat) : List Byte := padTo [0x80] (roundUp (n + 17) 128 - n - 16) ++ beBytes (8 * n) 16

/-- Hash `n` blocks. -/
def shaRun : Nat → List Nat → List Byte → List Nat
  | 0, hash, _ => hash
  | n + 1, hash, bs => shaRun n (shaBlock hash (bs.take 128)) (bs.drop 128)

/-- The SHA-512 digest, 64 bytes. [Log entry 81, PRESUMED.] -/
def sha512 (m : List Byte) : List Byte :=
  (shaRun (ceilDiv (m.length + 17) 128) shaFirst (m ++ shaPadding m.length)).flatMap (fun x => beBytes x 8)

/-- One bit step of CRC-32C, reflected polynomial 0x82F63B78. -/
def crcStep (c : Nat) : Nat := if c % 2 = 1 then (c / 2) ^^^ 0x82F63B78 else c / 2

/-- CRC-32C of a byte string. [Log entry 81, PRESUMED.] -/
def crc32c (bs : List Byte) : Nat :=
  let c := bs.foldl (fun acc b =>
    let x := acc ^^^ b.toNat
    crcStep (crcStep (crcStep (crcStep (crcStep (crcStep (crcStep (crcStep x)))))))) 0xFFFFFFFF
  c ^^^ 0xFFFFFFFF

end Sys2Proof.Machine
end

