-- ==== Sys2Proof/Machine/Rsa.lean ====
section
/-!
DEFINITION. The signatures of the spec: RSASSA-PSS with a 4,096-bit key, SHA-512, MGF1 with SHA-512 and a 64-byte salt
(07 R155, 15 R355), and the DER form of an RSA public key (15 R343).
-/

namespace Sys2Proof.Machine

/-- b^e mod n over the low `bits` bits of `e`, by repeated squaring. -/
def modPow : Nat → Nat → Nat → Nat → Nat
  | 0, _, _, n => 1 % n
  | bits + 1, b, e, n =>
    let r := modPow bits (b * b % n) (e / 2) n
    if e % 2 = 1 then r * b % n else r

/-- MGF1 with SHA-512: `len` mask bytes of a seed. -/
def mgf1 (seed : List Byte) (len : Nat) : List Byte :=
  ((List.range (ceilDiv len 64)).flatMap (fun i => sha512 (seed ++ beBytes i 4))).take len

/-- Byte-wise exclusive or. -/
def xorBytes (a b : List Byte) : List Byte := (a.zip b).map (fun x => x.1 ^^^ x.2)

/-- EMSA-PSS verification of an encoded message of 512 bytes for a 4,096-bit modulus: emBits is 4,095. -/
def pssCheck (hash : List Byte) (em : List Byte) : Bool :=
  let db := em.take 447
  let h := (em.drop 447).take 64
  let trailer := (em.drop 511).headD 0
  let clear := fun (l : List Byte) => (l.headD 0 &&& 0x7F) :: l.drop 1
  let d := clear (xorBytes db (mgf1 h 447))
  let ps := d.take 382
  let one := (d.drop 382).headD 0
  let salt := d.drop 383
  trailer == 0xBC && decide ((db.headD 0).toNat < 128) && allZero ps && one == 0x01 &&
    sha512 (List.replicate 8 0 ++ hash ++ salt) == h

/-- RSASSA-PSS verification of `msg` under a key (modulus, exponent). [Log entry 81, PRESUMED.] -/
def rsaVerify (key : Nat × Nat) (msg sig : List Byte) : Bool :=
  let s := natBe sig
  if sig.length ≠ 512 || key.1 ≤ s || key.1 = 0 then false
  else pssCheck (sha512 msg) (beBytes (modPow 4096 s key.2 key.1) 512)

/-- One DER element: tag, content and the rest; none unless the length is definite and minimal. -/
def derElem : List Byte → Option (Nat × List Byte × List Byte)
  | t :: l :: rest =>
    let n := l.toNat
    if n < 128 then (if n ≤ rest.length then some (t.toNat, rest.take n, rest.drop n) else none)
    else
      let k := n - 128
      let len := natBe (rest.take k)
      let body := rest.drop k
      if k = 0 || 3 < k || rest.length < k || len < 128 || len < 256 ^ (k - 1) || body.length < len then none
      else some (t.toNat, body.take len, body.drop len)
  | _ => none

/-- A DER INTEGER that is positive and minimal. -/
def derPositive (c : List Byte) : Option Nat :=
  match c with
  | [] => none
  | b :: rest =>
    if 128 ≤ b.toNat then none
    else if b = 0 && (match rest with | [] => false | x :: _ => decide (x.toNat < 128)) then none
    else if natBe c = 0 then none else some (natBe c)

/-- Whether a byte string is a sequence of well-formed DER elements; `fuel` bounds them. -/
def derAll : Nat → List Byte → Bool
  | _, [] => true
  | 0, _ => false
  | k + 1, bs =>
    match derElem bs with
    | some (_, _, rest) => derAll k rest
    | none => false

/-- The object identifiers of rsaEncryption and id-RSASSA-PSS. -/
def oidRsa : List Byte := [0x2A, 0x86, 0x48, 0x86, 0xF7, 0x0D, 0x01, 0x01, 0x01]
def oidPss : List Byte := [0x2A, 0x86, 0x48, 0x86, 0xF7, 0x0D, 0x01, 0x01, 0x0A]

/-- Parameters of the algorithm identifier: NULL for rsaEncryption; for RSASSA-PSS nothing or one SEQUENCE. -/
def algParams (oid rest : List Byte) : Bool :=
  if oid = oidRsa then rest == [0x05, 0x00]
  else if oid = oidPss then rest.isEmpty || (match derElem rest with
    | some (0x30, c, []) => derAll c.length c
    | _ => false)
  else false

/-- A DER SubjectPublicKeyInfo of an RSA key whose modulus has exactly 4,096 bits and whose exponent is odd and above 1
(15 R343): modulus and exponent. [Log entry 81, PRESUMED.] -/
def parseKey (bs : List Byte) : Option (Nat × Nat) := do
  let (t0, c0, r0) ← derElem bs
  let (t1, alg, r1) ← derElem c0
  let (t2, oid, par) ← derElem alg
  let (t3, bits, r3) ← derElem r1
  let (t4, c4, r4) ← derElem (bits.drop 1)
  let (t5, n, r5) ← derElem c4
  let (t6, e, r6) ← derElem r5
  let nn ← derPositive n
  let ee ← derPositive e
  if t0 = 0x30 && r0.isEmpty && t1 = 0x30 && t2 = 0x06 && algParams oid par && t3 = 0x03 && r3.isEmpty &&
      bits.headD 1 = 0 && t4 = 0x30 && r4.isEmpty && t5 = 0x02 && t6 = 0x02 && r6.isEmpty &&
      decide (2 ^ 4095 ≤ nn) && decide (nn < 2 ^ 4096) && ee % 2 = 1 && decide (1 < ee) then some (nn, ee)
  else none

/-- How an image's signature block verifies (07 R155, R156): 0 not at all, 1 under the owner key, 2 under the library key.
`key` is the owner key's DER form, empty for none. -/
def imageSigned (key body block : List Byte) : Nat :=
  let alg := fieldAt block 0 2
  let sig := (block.drop 64).take 512
  if alg ≠ 1 || !allZero ((block.drop 2).take 6) || !allZero ((block.drop 40).take 24) then 0
  else
    let id := (block.drop 8).take 32
    match (if key.isEmpty then none else parseKey key) with
    | some k =>
      if id = (sha512 key).take 32 && rsaVerify k body sig then 1
      else if rsaVerify Config.libraryKey body sig then 2 else 0
    | none => if rsaVerify Config.libraryKey body sig then 2 else 0

end Sys2Proof.Machine
end

