-- ==== Sys2Proof/Machine/CkptTypes.lean ====
section
/-!
DEFINITION. Checkpoints, buddy mirroring and restores in progress (chapter 14).
-/

namespace Sys2Proof.Machine

/-- A shard (14 R316, Table 14-2) with its raw content. `sess`: the source handle, 0 for KIND 1 and 2. `holds`: the phrases that it
copies, held until it is staged (14 R314). -/
structure Shard where
  kind : Nat
  part : Nat
  last : Bool
  object : Nat
  sess : Nat
  layerFirst : Nat
  layerCount : Nat
  posFirst : Nat
  posCount : Nat
  headFirst : Nat
  headCount : Nat
  raw : List Byte
  modelDigest : List Byte
  holds : List Nat
  staged : Bool
  deriving DecidableEq, Repr

/-- A verb that EV_DEFERRED_DONE answers. -/
structure Waiter where
  ring : Nat
  tag : Nat
  op : Nat
  deriving DecidableEq, Repr

/-- A host copy in progress (14 R326): the verb that it answers, and where it goes. -/
structure HostDrain where
  who : Waiter
  ld : Nat
  addr : Nat
  bytes : Nat
  deriving DecidableEq, Repr

/-- A retained checkpoint (14 R315, R323). `state` is that of Table 14-4. `refs`: referenced phrases, held while it is retained. `salt`
is the PSS salt and `signature` the signature drawn. `mirror`: 0 not asked for, 1 OPEN sent, 2 shards being written, 3 SEAL sent,
4 ended. `region`: first LPN of the flash region. `writtenFlash`: shards in it, `sealedFlash`: its manifest too. `hosts`: host copies asked for and not yet written. -/
structure Ckpt where
  ctx : Nat
  step : Nat
  lpart : Nat
  state : Nat
  mirrored : Bool
  durable : Bool
  hosted : Bool
  signed : Bool
  full : Bool
  mirrorFailed : Bool
  clause : Nat
  time : Nat
  sessions : Nat
  omitted : Nat
  damaged : Nat
  jobs : Nat
  shards : List Shard
  refs : List Nat
  signature : List Byte
  mirror : Nat
  mirrorOff : Nat
  mirrorSent : List Nat
  region : Option Nat
  regionPages : Nat
  writtenFlash : List Nat
  sealedFlash : Bool
  drainWaits : List Waiter
  hosts : List HostDrain
  freed : Bool
  deriving DecidableEq, Repr

/-- A buddy port (14 R327): one sub-port with its QP. `connecting`: the BUDDY_PAIR that waits for HELLO_ACK. -/
structure BuddyPort where
  sub : Nat
  qpn : Nat
  tclass : Nat
  connected : Bool
  connecting : Option Nat
  deriving DecidableEq, Repr

/-- A mirror held for the partner (14 R329, R330). `arrived`: entries whose immediate has come. `sealWait`: a SEAL that waits
for shards to arrive: its sub-port, SEQ and digest. -/
structure HeldMirror where
  serial : Nat
  ctx : Nat
  lpart : Nat
  step : Nat
  off : Nat
  bytes : Nat
  isSealed : Bool
  arrived : List Nat
  sealWait : Option (Nat × Nat × List Byte)
  deriving DecidableEq, Repr

/-- A control request that has not been answered (14 R328): its 64 bytes, when it was last sent, and how often it was resent. -/
structure CtlReq where
  seq : Nat
  msg : List Byte
  sub : Nat
  at' : Nat
  resent : Nat
  deriving DecidableEq, Repr

/-- The buddy part of the device (14 R327-R330). `area`: GiB reserved, none before the first PREPARE. The area's bytes lie in the
exchange memory at a key of the model's own. `granules`: the DDR granules of the area. -/
structure Buddy where
  area : Option Nat
  granules : List Nat
  rkey : Nat
  peer : Option Nat
  peerRkey : Nat
  ports : List BuddyPort
  held : List HeldMirror
  reqs : List CtlReq
  nextSeq : Nat
  lastRx : Nat
  beatAt : Nat
  lost : Bool
  deriving DecidableEq, Repr

/-- A RESTORE in progress (14 R332): its parameter block and the region's bytes read so far. `stage`: 0 to start, 1 reading the manifest's
header, 2 its entries, 3 the shards, 4 read, 5 finding the mirror. `status`: a failure so far. `bad`: unreadable ranges, (offset, bytes, status of Table 14-9's map). -/
structure RestoreOp where
  seq : Nat
  ctx : Nat
  prm : List Byte
  stage : Nat
  data : List Byte
  bad : List (Nat × Nat × Nat)
  base : Nat
  size : Nat
  status : Nat
  deriving DecidableEq, Repr

end Sys2Proof.Machine
end

