-- ==== Sys2Proof/Machine/CoreTypes.lean ====
section
/-!
DEFINITION. The core array's part of the state: kernels (07 R154), cores with their stores, accumulators, flags and
counters (07 R136, R137), slices and semaphores (07 R142, R151), and jobs with their rows and work items (06 R117, R127).
-/

namespace Sys2Proof.Machine

/-- A name of a kernel (07 Table 7-10); `size` and `base` in 64-byte units. -/
structure KName where
  cls : Nat
  fmt : Nat
  flags : Nat
  size : Nat
  base : Nat
  deriving DecidableEq, Repr

/-- A loaded kernel (07 R154). `descs` are its descriptors, least significant byte first. -/
structure Kernel where
  id : Nat
  part : Nat
  digest : List Byte
  descs : List Nat
  names : List KName
  sems : Nat
  gangLog2 : Nat
  caps : Nat
  tsBytes : Nat
  csBytes : Nat
  semScopes : Nat
  bytes : Nat
  poison : List Nat
  damaged : List Nat
  deriving DecidableEq, Repr

/-- One copy of a movement descriptor: name and byte offset of source and destination, and the length. -/
structure Piece where
  srcName : Nat
  srcOff : Nat
  dstName : Nat
  dstOff : Nat
  len : Nat
  deriving DecidableEq, Repr


/-- A region as (space, instance, address, length); an instance tells equal addresses of two stores apart. -/
structure Region where
  space : Nat
  inst : Nat
  addr : Nat
  len : Nat
  deriving DecidableEq, Repr

/-- A MAC (unit 0) or vector (unit 1) descriptor that has issued and not completed (07 R146, R147): the tile-store
granules and accumulators that it writes, and its DONE_FLAG where enabled. -/
structure UnitOp where
  unit : Nat
  granules : List Nat
  accs : List Nat
  done : Option Nat
  deriving DecidableEq, Repr

/-- A partial record on its way to the merge unit (06 Table 6-10). `run` tells which run of its work item made it (06 R128). -/
structure PartRec where
  job : Nat
  row : Nat
  item : Nat
  run : Nat
  check : Nat
  queries : Nat
  heads : Nat
  vdim : Nat
  kind : Nat
  firstQuery : Nat
  firstHead : Nat
  phrases : Nat
  poisoned : Bool
  entries : List Triple
  deriving DecidableEq, Repr

/-- A movement descriptor that has issued and not completed (07 R136, R148). `record`: the partial record that PART_EMIT sends.
`args`: the operands of a near-bank operation as they stood at issue, name and byte offset (08 R167). `bad`: its source met poison. `racy`: the
regions of it that were touched out of order, where what results is unspecified (07 R147, 08 R172). -/
structure Mvt where
  id : Nat
  desc : Nat
  pieces : List Piece
  record : Option PartRec
  args : List (Nat × Nat)
  bad : Bool
  racy : List Region
  deriving DecidableEq, Repr

/-- A SEM_SIGNAL or BCAST that waits for earlier movement of its core (07 R148); `pc` is its descriptor. -/
structure Deferred where
  pc : Nat
  bcast : Bool
  arg : Nat
  count : Nat
  waits : List Nat
  done : Option Nat
  deriving DecidableEq, Repr

/-- An iteration of a loop (07 R149): counter, index, count, and the descriptor after LOOP_BEGIN. -/
structure LoopSt where
  counter : Nat
  index : Nat
  count : Nat
  body : Nat
  deriving DecidableEq, Repr

/-- A core in a slice (07 R136, R137): logical core 0-4095, or 4096 + n for channel core FCn. `wait`: 0 none, 1 a
semaphore, 2 BAR_CL gang, 3 BAR_CL cluster, 4 BAR_DEV. `idx` are the iteration indices of L0-L3. `queue`: the descriptor queue, the up to 64
descriptors from `pc` on. `run`: which run of its work item it makes. -/
structure Core where
  num : Nat
  slice : Nat
  job : Nat
  row : Nat
  item : Nat
  run : Nat
  kernel : Nat
  prm : List Byte
  gang : Nat
  gangRank : Nat
  rank : Nat
  pc : Nat
  queue : List Nat
  ended : Bool
  ts : Mem
  acc : List (Nat × List Nat)
  flags : Nat
  idx : List Nat
  loops : List LoopSt
  units : List UnitOp
  mvts : List Mvt
  nextMvt : Nat
  sig : Option Deferred
  wait : Nat
  deriving DecidableEq, Repr

/-- A bound semaphore instance (07 R151): scope 0 gang, 1 cluster, 2 job, with its gang, cluster or 0. -/
structure Sem where
  scope : Nat
  key : Nat
  num : Nat
  count : Nat
  waiters : List (Nat × Nat)
  deriving DecidableEq, Repr

/-- A slice of a job (03 R37, 07 R142). `sems`: its semaphores of gang and cluster scope. `cs`: cluster-store working regions by instance: gang g of the job at key g, cluster
c at key 65536 + c. `barriers`: BAR_DEV that its cores have passed in this phase. -/
structure Slice where
  id : Nat
  job : Nat
  channel : Bool
  clusters : List Nat
  cores : List Nat
  cs : List (Nat × Mem)
  sems : List Sem
  barriers : Nat
  deriving DecidableEq, Repr

/-- A work item (06 R127). `tier`: 0 HBM, 1 DDR, 2 flash, 3 tail, 4 draft. `state`: 0 waiting, 1 on cores, 2 its cores
ended. `got`: (query, head) pairs whose records have merged. `refetch`: it waits for a refetch (18 R417). `run`: how often it was issued anew.
`bars`: the device-wide barriers of an ABSORB job that its cores have reached, and `resume` the descriptor after the last of them, from which they
go on in a later slice (06 R120). -/
structure WItem where
  num : Nat
  kind : Nat
  tier : Nat
  channel : Nat
  phrases : List Nat
  tailIdx : Nat
  pos0 : Nat
  positions : Nat
  check : Nat
  done : Bool
  state : Nat
  tries : Nat
  got : List (Nat × Nat)
  refetch : Bool
  run : Nat
  bars : Nat
  resume : Nat
  deriving DecidableEq, Repr

/-- A row of an attention job (06 Table 6-7) with its snapshot (06 R117): `handle` its session, `layer` the layer's state
at dispatch. `news`: rows that the job passed to the append unit, (storage kind, query index, row).
`recNext`: the other recurrent buffer, `nextBad` its poisoned sectors. `nodes`: tree inputs. `acc`: merge accumulators (kind, query, head, triple). -/
structure JobRow where
  idx : Nat
  slotWord : Nat
  qcount : Nat
  flags : Nat
  cached : Nat
  aux : Nat
  first : Nat
  status : Nat
  detail : Nat
  handle : Nat
  layer : Option LayerSt
  tree : Option Tree
  thin : Bool
  items : List WItem
  q : Mem
  qCopy : Option Mem
  news : List (Nat × Nat × NewRow)
  recNext : Mem
  nextBad : List Nat
  recWrites : Bool
  nodes : List (Nat × List Byte)
  acc : List (Nat × Nat × Nat × Triple)
  out : Mem
  deriving DecidableEq, Repr

/-- How a window launched a job (16 R373): window, launching QP, immediate value, and the key and length of the exchange
memory that the window shows. -/
structure Launch where
  window : Nat
  qp : Nat
  imm : Nat
  base : Nat
  size : Nat
  deriving DecidableEq, Repr

/-- A foreground job (03 R37). `kind`: 0 attention, 1 sampling, 2 search, 3 tokenising, 4 index merge or repair.
`state`: 0 queued, 1 its slice runs, 2 between slices, 3 its last slice ended, 4 waits for flash items, 5 stopped, 6 a
window's job whose result is still to be returned. `given`: the clusters of its clause. `result`: completion fields.
`begun`: the boundary at which it could first be dispatched. `phase`: 0 IN, 1 ATT, 2 OUT. `units`: (row, item) still to run in this phase.
`scratchBad`: poisoned sectors of its scratch, by name. `sems`: its semaphores of job scope (07 R151). Kind 5 is the job of an APPEND from
hidden rows (05 R100). -/
structure Job where
  num : Nat
  seq : Nat
  kind : Nat
  launch : Option Launch
  prio : Nat
  deferrals : Nat
  begun : Option Nat
  part : Nat
  ctx : Nat
  model : Nat
  layer : Nat
  desc : List Byte
  sessions : List Nat
  state : Nat
  phase : Nat
  absorb : Bool
  rows : List JobRow
  units : List (Nat × Nat)
  scratch : List (Nat × Mem)
  scratchBad : List (Nat × Nat)
  sems : List Sem
  dispClause : Nat
  saturated : Nat
  status : Nat
  given : List Nat
  result : List (Nat × Nat × Nat)
  deriving DecidableEq, Repr

/-- A refetch in progress (18 R417): the poisoned copy of a phrase, the tier it is read from, and the sectors. Kinds: 0 a
phrase copy, 1 a pinned tile, 2 a search table, 3 a flash map segment, 4 a kernel in a kernel cache. -/
structure Refetch where
  id : Nat
  kind : Nat
  part : Nat
  obj : Nat
  tier : Nat
  src : Nat
  sectors : List Nat
  deriving DecidableEq, Repr

/-- A core that has been taken out for its test (18 R428): cluster and physical position, or cluster 256 and a channel core; `why`: the cause
that EV_CORE_RETIRED gives if it fails (1 self-test, 3 after R41); `verb`: the SELFTEST that asked. -/
structure HeldCore where
  cluster : Nat
  pos : Nat
  why : Nat
  verb : Option Nat
  since : Nat
  deriving DecidableEq, Repr

/-- A near-bank unit that has been used (08 R162): its stack, channel and bank, the 1 KiB block latch and the parameter latch. -/
structure NbUnit where
  stack : Nat
  channel : Nat
  bank : Nat
  latch : List Byte
  params : List Byte
  deriving DecidableEq, Repr

/-- The core array (chapter 07) and what runs on it. `spare`:
for each cluster the physical position of each logical one (07 R135); `retired`: (cluster, physical position). `out`:
clusters out of service. `fcOut`: channel cores out of service. `held`: cores under test. `kcache`: the kernels in the kernel cache of each
cluster, the newest last (07 R136, R159). `nb`: the near-bank units. -/
structure CoreArray where
  kernels : List Kernel
  cores : List Core
  slices : List Slice
  jobs : List Job
  nextJob : Nat
  nextSlice : Nat
  records : List PartRec
  refetches : List Refetch
  nextRefetch : Nat
  spare : List (Nat × List Nat)
  retired : List (Nat × Nat)
  out : List Nat
  fcOut : List Nat
  held : List HeldCore
  tsErrors : List (Nat × Nat × Nat)
  served : List (Nat × Nat)
  kcache : List (Nat × List Nat)
  nb : List NbUnit
  deriving DecidableEq, Repr

/-- A job row with nothing in it. -/
def noJobRow : JobRow :=
  { idx := 0, slotWord := 0, qcount := 0, flags := 0, cached := 0, aux := 0, first := 0, status := 0, detail := 0, handle := 0, layer := none
    tree := none, thin := false, items := [], q := [], qCopy := none, news := [], recNext := [], nextBad := [], recWrites := false, nodes := []
    acc := [], out := [] }

/-- An attention job with nothing in it. -/
def noJob : Job :=
  { num := 0, seq := 0, kind := 0, launch := none, prio := 0, deferrals := 0, begun := none, part := 0, ctx := 0, model := 0, layer := 0
    desc := [], sessions := [], state := 0, phase := 0, absorb := false, rows := [], units := [], scratch := [], scratchBad := [], sems := []
    dispClause := 0, saturated := 0, status := 0, given := [], result := [] }

/-- A work item with nothing in it. -/
def noItem : WItem :=
  { num := 0, kind := 0, tier := 0, channel := 0, phrases := [], tailIdx := 0, pos0 := 0, positions := 0, check := 0, done := false, state := 0
    tries := 0, got := [], refetch := false, run := 0, bars := 0, resume := 0 }

end Sys2Proof.Machine
end

