-- ==== Sys2Proof/Machine/FlashTypes.lean ====
section
/-!
DEFINITION. The flash part of the device's state (chapter 13): media population, pages, block groups, NAND operations in
progress, slots and the health log. Pages that a power failure keeps are those programmed.
-/

namespace Sys2Proof.Machine

/-- A page of the media or of the write buffer (13 R293). `st`: 0 being programmed, 1 programmed, 2 its program failed, 3 in the
write buffer for want of a place in set `set`. `fresh`: from a write, neither relocated nor rebuilt (13 R298). `hot`: moved by wear
levelling (13 R303). `want`: durability requested (13 R294). `bad`: its codewords that have failed all seven reads (13 R291).
`gone`: 0 live, 1 superseded, 2 discarded and not yet in a programmed discard record, 3 discarded and recorded (13 R301). [Log entry 31, DESIGN CHOICE.] -/
structure FPage where
  seq : Nat
  gpage : Nat
  ver : Nat
  kind : Nat
  fresh : Bool
  reloc : Bool
  hot : Bool
  set : Nat
  bg : Nat
  stripe : Nat
  lane : Nat
  st : Nat
  want : Bool
  durable : Bool
  lost : Bool
  bad : List Nat
  gone : Nat
  data : List Byte
  obj : Nat
  deriving DecidableEq, Repr

/-- A parity page of a stripe (13 R294): `covered` has a bit for each lane whose data page it covers; `st` 1: programmed. -/
structure Parity where
  bg : Nat
  stripe : Nat
  covered : Nat
  full : Bool
  st : Nat
  deriving DecidableEq, Repr

/-- A block group (13 R294): its set, the block that it has on each of the set's 16 LUNs (none where the LUN is out of service or the
block has been erased), the lane of its parity LUN, its data blocks when it was opened, pages placed so far. `st`: 0 open, 1 closed
to writes, 2 being verified, 3 verified, 4 its valid pages being relocated, 5 being erased, 6 verification found failing blocks,
whose lanes are `failing`. `hot`: it takes what wear levelling moves (13 R303). -/
structure BlkGroup where
  id : Nat
  set : Nat
  parityLane : Nat
  blocks : List (Option Nat)
  width : Nat
  hot : Bool
  failing : List Nat
  placed : Nat
  st : Nat
  early : Bool
  deriving DecidableEq, Repr

/-- What a NAND operation is for. -/
inductive NandWhat where
  | read (gpage codeword reads : Nat) (why : Nat)
  | data (seq : Nat)
  | parity (bg stripe covered : Nat) (full : Bool)
  | verify (bg : Nat)
  | erase (bg lane : Nat)
  | map (kind : Nat) (gs : List Nat)
  deriving DecidableEq, Repr

/-- A NAND operation issued and not finished (13 R307). `level`: the read levels of a read, an entry of the profile's retry table
(13 R290); 0 otherwise. -/
structure NandOp where
  id : Nat
  channel : Nat
  lun : Nat
  block : Nat
  level : Nat
  what : NandWhat
  issued : Nat
  retried : Bool
  deriving DecidableEq, Repr

/-- The health log (13 Table 13-5), LOG_VERSION, MEDIA_STATE and SPARE_LEFT apart. -/
structure Health where
  wearAvg : Nat
  wearMax : Nat
  lunsRetired : Nat
  blocksRetired : Nat
  dataPages : Nat
  nandPages : Nat
  readRetries : Nat
  softDecodes : Nat
  uncorrectable : Nat
  programFails : Nat
  eraseFails : Nat
  lpnsLost : Nat
  mounts : Nat
  unsafeOff : Nat
  mismatch : Nat
  corrected : List Nat
  channelTemp : List (Nat × Nat × Nat)
  deriving DecidableEq, Repr

/-- A deferred flash verb (13 R309): `kind` 1 format, 2 sanitize device, 3 sanitize granule, 4 release and erase. -/
structure FlashJob where
  ring : Nat
  tag : Nat
  op : Nat
  kind : Nat
  granule : Nat
  part : Nat
  sparePct : Nat
  deriving DecidableEq, Repr

/-- What a map checkpoint holds (13 R298): the write sequence when it was begun, the map as (granule page, write sequence of the page
that it maps to), the block groups open then and the first of those opened later; and the health log written with it. -/
structure MapCkpt where
  seq : Nat
  map : List (Nat × Nat)
  opened : List Nat
  next : Nat
  health : Health
  deriving DecidableEq, Repr

/-- The flash (chapter 13). `state` is MEDIA_STATE. The population: LUNs per channel, blocks per LUN, pages per block, rated cycles.
`assigned`: (partition, slot, granule). `eraseBase`: erases that every block has had, those of `erases` apart. `dirty`: map segments
changed since the last checkpoint began. `ckpt`: the newest checkpoint; `draft`: the one being written. `discRecs`: discard records
programmed since `ckpt`, each with its write sequence. `calibrated`: (channel, LUN, block, level). -/
structure Flash where
  state : Nat
  formatted : Bool
  sparePct : Nat
  granules : Nat
  lunsPerCh : Nat
  blocksPerLun : Nat
  pagesPerBlock : Nat
  ratedCycles : Nat
  spareTotal : Nat
  spareUsed : Nat
  spareLowRaised : Bool
  deadLuns : List (Nat × Nat)
  deadBlocks : List (Nat × Nat × Nat)
  erases : List (Nat × Nat × Nat × Nat)
  eraseBase : Nat
  assigned : List (Nat × Nat × Nat)
  erasing : List Nat
  pages : List FPage
  parities : List Parity
  groups : List BlkGroup
  nextGroup : Nat
  nextSet : Nat
  writeSeq : Nat
  ops : List NandOp
  nextOp : Nat
  discards : List Nat
  sinceCkptPages : Nat
  sinceCkptClauses : Nat
  dirty : List Nat
  ckpt : MapCkpt
  draft : Option MapCkpt
  discRecs : List (Nat × List Nat)
  health : Health
  saved : Health
  jobs : List FlashJob
  mounting : Option (Option Nat)
  unmounting : Option Nat
  replayed : Nat
  calibrated : List (Nat × Nat × Nat × Nat)
  relocate : List Nat
  deriving DecidableEq, Repr

end Sys2Proof.Machine
end

