-- ==== Sys2Proof/Machine/IdxTypes.lean ====
section
/-!
DEFINITION. Memory indexes and searches (chapter 12) in the device's state.
-/

namespace Sys2Proof.Machine

/-- A side-list entry (12 R257). -/
structure SideEnt where
  item : Nat
  node : Nat
  del : Bool
  merged : Bool
  cancelled : Bool
  vscale : Nat
  attrs : List Byte
  vec : List Byte
  deriving DecidableEq, Repr

/-- A named bitmap (12 R276): the nodes that it allows. -/
structure NamedMap where
  num : Nat
  allow : List Nat
  bytes : Nat
  deriving DecidableEq, Repr

/-- A running merge (1), repair pass (2) or attach (3) (12 R274, R275, R277), with the verb that started it. `sweep`: the next node
of a pass; `pass`: a pass has begun; `old`: the parity that it frees; `linking`: the side-list entry whose records a merge has written, and their
LPNs. -/
structure IdxJob where
  kind : Nat
  ring : Nat
  tag : Nat
  op : Nat
  cut : Nat
  done : Nat
  total : Nat
  merged : Nat
  pass : Bool
  old : Nat
  sweep : Nat
  stop : Bool
  linking : Option (Nat × List Nat)
  deriving DecidableEq, Repr

/-- A node that a writer makes LIVE or DEAD at its completion boundary. -/
structure IdxChange where
  node : Nat
  item : Nat
  dead : Bool
  pq : List Byte
  side : Option SideEnt
  deriving DecidableEq, Repr

/-- A writer that waits for its records to be durable (12 R271, R273, R277): `kind` 1 insert, 2 delete, 3 create. `results` and
`offset`: its result bytes; `fields`: completion fields; `status` its status. -/
structure IdxWriter where
  seq : Nat
  kind : Nat
  lpns : List Nat
  changes : List IdxChange
  results : List Byte
  offset : Nat
  status : Nat
  fields : List (Nat × Nat × Nat)
  entry : Option Nat
  deriving DecidableEq, Repr

/-- An index (12 R253-R257). `state`: 0 READY, 1 ATTACHING, 2 DROPPING, 3 DAMAGED, 4 being created. `nodes`: the node state table
(1 LIVE, 2 DEAD with parity 0, 3 DEAD with parity 1; unlisted FREE). `items`: the item map. `pq`: PQ codes. `dropSeq`: the IDX_DROP that has
marked it as dropping (02 R24); STATE then reads 2. -/
structure Index where
  id : Nat
  part : Nat
  ctx : Nat
  params : List Byte
  codebook : List Byte
  tag : Nat
  lpn : Nat
  pages : Nat
  rs : Nat
  ddr : Nat
  epoch : Nat
  parity : Nat
  state : Nat
  entry : Option Nat
  nodes : List (Nat × Nat)
  items : List (Nat × Nat)
  pq : List (Nat × List Byte)
  side : List SideEnt
  maps : List NamedMap
  job : Option IdxJob
  writer : Option IdxWriter
  lostSeen : List (Nat × Nat)
  dropSeq : Option Nat
  deriving DecidableEq, Repr

/-- A record that a query is reading: NAND operations outstanding, and what they gave. -/
structure RdSt where
  node : Nat
  ops : List Nat
  lost : Bool
  zero : Bool
  deriving DecidableEq, Repr

/-- A found node: distance, node, item. -/
structure Found where
  dist : Nat
  node : Nat
  item : Nat
  deriving DecidableEq, Repr

/-- One query of a batch (12 R260-R268). `allow`: the nodes that a bitmap or list allows; `scan`: nodes still to read on the scan
path. `status` and `reason` are those of Table 12-7 once `done`. -/
structure SearchQ where
  idx : Nat
  vec : List Nat
  allow : Option (List Nat)
  pred : List Byte
  scanPath : Bool
  scan : List Nat
  cand : List (Nat × Nat)
  window : Nat
  visited : List Nat
  found : List Found
  side : List Found
  sideCount : Nat
  visits : Nat
  lost : Nat
  reading : List RdSt
  ended : Bool
  done : Bool
  status : Nat
  reason : Nat
  foundN : Nat
  deriving DecidableEq, Repr

/-- A search job (12 R260). `sent`: the reads of its present step have been issued. -/
structure Search where
  job : Nat
  index : Nat
  k : Nat
  l : Nat
  w : Nat
  budget : Nat
  scanMax : Nat
  jobSeq : Nat
  begun : Bool
  sent : Bool
  clause : Nat
  queries : List SearchQ
  deriving DecidableEq, Repr

end Sys2Proof.Machine
end

