-- ==== Sys2Proof/Machine/TokTypes.lean ====
section
/-!
DEFINITION. Loaded lexicons (chapter 10) and grammars (chapter 11): the load image is kept as its bytes, from which the tables
are read.
-/

namespace Sys2Proof.Machine

/-- `damaged`: sectors of the store that are poisoned (18 Table 18-2). A loaded lexicon (10 R202): `units` of 64 KiB in the store (10 R205). -/
structure Lexicon where
  id : Nat
  part : Nat
  digest : List Byte
  units : Nat
  img : List Byte
  damaged : List Nat
  deriving DecidableEq, Repr

/-- A loaded grammar (11 R225, R229). -/
structure Grammar where
  id : Nat
  part : Nat
  digest : List Byte
  img : List Byte
  damaged : List Nat
  deriving DecidableEq, Repr

end Sys2Proof.Machine
end

