-- ==== Sys2Proof/Machine/Dev.lean ====
section
/-!
DEFINITION. The whole device but for the grid settings and the queue of commands: one record per block of the spec.
-/

namespace Sys2Proof.Machine

/-- The device. `exch` holds the exchange areas, LD n's offset o at key n * 2^36 + o (17 R398); `poison` the poisoned
64-byte sectors of it, by key / 64 (17 R402). `draws` counts the free values taken (the model's own). `regions`: flash
regions held by created or attached indexes, (partition, first LPN, pages) (12 R281);
`ckptRuns` those of checkpoint regions not released (13 R309). `stored` is what flash pages hold. `gcache` is the grammar cache, (grammar, 4 KiB line),
least recently used first (11 R234). -/
structure Dev where
  clk : Clk
  tim : Tim
  tur : Turuk
  pool : Pool
  cxl : Cxl
  boot : Boot
  rep : Repair
  therm : Therm
  exch : Mem
  poison : List Nat
  bus : List BusReq
  busNext : Nat
  outs : Outs
  kv : Kv
  arr : CoreArray
  stored : Stored
  lexicons : List Lexicon
  grammars : List Grammar
  gcache : List (Nat × Nat)
  indexes : List Index
  searches : List Search
  net : Net
  ckpts : List Ckpt
  buddy : Buddy
  restores : List RestoreOp
  ckptRuns : List (Nat × Nat × Nat)
  flash : Flash
  regions : List (Nat × Nat × Nat)
  draws : Nat
  deriving DecidableEq, Repr

end Sys2Proof.Machine
end

