-- ==== Sys2Proof/Machine/Ops.lean ====
section
/-!
DEFINITION. The shared operations: time, counters, events, MSI-X, exchange memory, rings and completions.
-/

namespace Sys2Proof.Machine

/-! ### Free values -/

/-- Take a free number: the value is opaque, the draw counter advances. [Log entry 6, DESIGN CHOICE.] -/
def drawNat (d : Dev) : Nat × Dev := (Config.freeNat d.draws, { d with draws := d.draws + 1 })

/-- Take a free truth value. -/
def drawBool (d : Dev) : Bool × Dev := (Config.freeBool d.draws, { d with draws := d.draws + 1 })

/-- Take `n` free bytes. [Log entry 6, DESIGN CHOICE.] -/
def drawBytes (d : Dev) (n : Nat) : List Byte × Dev :=
  (padTo (Config.freeBytes d.draws) n, { d with draws := d.draws + 1 })

/-! ### Status codes (04 Table 4-9) -/

def stOk : Nat := 0x0000
def stPartial : Nat := 0x0001
def stDeferred : Nat := 0x0002
def stBusy : Nat := 0x0010
def stRange : Nat := 0x0011
def stNospace : Nat := 0x0012
def stLimit : Nat := 0x0013
def stStale : Nat := 0x0014
def stDenied : Nat := 0x0015
def stState : Nat := 0x0016
def stTimeout : Nat := 0x0017
def stDamaged : Nat := 0x0018
def stStepMismatch : Nat := 0x0019
def stDigest : Nat := 0x001A
def stUnsupported : Nat := 0x001B
def stAborted : Nat := 0x001C
def stMaskEmpty : Nat := 0x001D
def stMedia : Nat := 0x001E

/-! ### Time (03 R46, R47) -/

/-- The rate of device time now, in ppb: base plus slew part (03 R47). -/
def ratePpb (t : Tim) : Int := t.basePpb + t.slewPpb

/-- Let `dt` ns of the reference clock pass at one rate (03 R46, R47). -/
def tickTim (t : Tim) (dt : Nat) : Tim :=
  let num : Int := (dt : Int) * (1000000000 + ratePpb t) + t.frac
  let whole := (num / 1000000000).toNat
  let snum : Int := (dt : Int) * t.slewPpb + t.slewFrac
  { t with
    elapsed := t.elapsed + whole
    now := (t.now + whole) % 2 ^ 64
    frac := (num % 1000000000).toNat
    slewLeft := t.slewLeft - snum / 1000000000
    slewFrac := snum % 1000000000 }

/-- Nanoseconds of the reference clock until the slew has absorbed its offset. -/
def slewNeed (t : Tim) : Nat :=
  (t.slewLeft * 1000000000 - t.slewFrac).natAbs / t.slewPpb.natAbs +
    (if (t.slewLeft * 1000000000 - t.slewFrac).natAbs % t.slewPpb.natAbs = 0 then 0 else 1)

/-- The slew part returns to 0; what is not absorbed is dropped (03 R47). -/
def endSlew (t : Tim) : Tim := { t with slewPpb := 0, slewLeft := 0, slewFrac := 0 }

/-- Let `dt` ns of the reference clock pass: device time advances at its rate, and a slew ends when its offset has been absorbed
(03 R46, R47). [Log entry 2, DESIGN CHOICE.] -/
def advanceTim (t : Tim) (dt : Nat) : Tim :=
  if t.slewPpb = 0 || dt < slewNeed t then tickTim t dt
  else tickTim (endSlew (tickTim t (slewNeed t))) (dt - slewNeed t)

/-- Let time pass for the device. [Log entry 2, DESIGN CHOICE; entry 8, DESIGN CHOICE.] -/
def advance (d : Dev) (dt : Nat) : Dev := { d with tim := advanceTim d.tim dt }

/-! ### Counters (20 R449-R451) -/

/-- The greatest value of a SAT48 counter. -/
def sat48 : Nat := 2 ^ 48 - 1

/-- Sum that stays at 2^48 - 1 (20 R449). -/
def satAdd (a b : Nat) : Nat := Nat.min (a + b) sat48

/-- The counter of a scope, unit and number; 0 when it has never counted. -/
def ctrGet (d : Dev) (scope unit num : Nat) : Ctr :=
  (d.tur.ctrs.find? (fun c => c.scope == scope && c.unit == unit && c.num == num)).getD
    { scope := scope, unit := unit, num := num, val := 0, ovf := false }

/-- Store a counter. -/
def ctrPut (d : Dev) (c : Ctr) : Dev :=
  { d with tur.ctrs := upsert (fun x => x.scope == c.scope && x.unit == c.unit && x.num == c.num) c d.tur.ctrs }

/-- Whether a counter of Table 20-2 is a WRAP64 counter: RX_BYTES and TX_BYTES of a sub-port. -/
def ctrWraps (scope num : Nat) : Bool := scope == 5 && (num == 3 || num == 4)

/-- Whether a counter of Table 20-2 is a gauge. -/
def ctrGauge (scope num : Nat) : Bool := scope == 0 && (num == 5 || num == 13)

/-- The highest counter number of a scope (20 Table 20-2). -/
def ctrLast (scope : Nat) : Nat :=
  match scope with
  | 0 => 13
  | 1 => 5
  | 2 => 7
  | 3 => 6
  | 4 => 5
  | 5 => 23
  | _ => 0

/-! ### Object references (02 R21) -/

/-- An object reference of Table 2-3. -/
def objRef (type ctx id : Nat) : Nat := type * 2 ^ 59 + ctx % 2048 * 2 ^ 48 + id % 2 ^ 48

/-- The reference of the device. -/
def objDevice : Nat := objRef 0x1F 0 0

/-- The reference of a partition. -/
def objPart (p : Nat) : Nat := objRef 0x10 (p * 64) 0

/-- The reference of a partition-scoped object. -/
def objIn (type p id : Nat) : Nat := objRef type (p * 64) id

/-! ### Partitions, contexts and rings -/

def findPart (d : Dev) (p : Nat) : Option Part := d.pool.parts.find? (fun x => x.num == p)

def findCtx (d : Dev) (c : Nat) : Option Ctx := d.pool.ctxs.find? (fun x => x.id == c)

def findRing (d : Dev) (r : Nat) : Option Ring := d.tur.rings.find? (fun x => x.num == r)

def updRing (d : Dev) (r : Nat) (f : Ring → Ring) : Dev :=
  { d with tur.rings := updWhere (fun x => x.num == r) f d.tur.rings }

def updPart (d : Dev) (p : Nat) (f : Part → Part) : Dev :=
  { d with pool.parts := updWhere (fun x => x.num == p) f d.pool.parts }

/-- The partition of a context ID (02 R19). -/
def ctxPart (c : Nat) : Nat := c / 64

/-- The LD bound to a partition: 16, the FM-owned LD, when it is unbound or does not exist (04 R79). -/
def partLd (d : Dev) (p : Nat) : Nat :=
  match findPart d p with
  | some x => x.bound.getD 16
  | none => 16

/-- Record that LD `n` holds partition `p` (02 R22). [Log entry 11, DESIGN CHOICE.] -/
def setLastLd (d : Dev) (p n : Nat) : Dev :=
  { d with pool.lastLd := upsert (fun x => x.1 == p) (p, n) d.pool.lastLd }

def lastLdOf (d : Dev) (p : Nat) : Option Nat := (d.pool.lastLd.find? (fun x => x.1 == p)).map (·.2)

/-! ### The longest-free rule (02 R20)

A number's stamp is the release at which it became free; a number never used has stamp 0. Numbers released by one
command carry one stamp, which is "the same instant". -/

/-- The stamp of a number of a kind. -/
def stampOf (d : Dev) (kind n : Nat) : Nat :=
  match d.pool.stamps.find? (fun x => x.1 == kind && x.2.1 == n) with
  | some x => x.2.2
  | none => 0

/-- Stamp a number as released now. [Log entry 9, DESIGN CHOICE; entry 11, DESIGN CHOICE.] -/
def stampFree (d : Dev) (kind n : Nat) : Dev :=
  { d with pool.stamps := upsert (fun x => x.1 == kind && x.2.1 == n) (kind, n, d.pool.relSeq) d.pool.stamps }

/-- The next release instant. [Log entry 9, DESIGN CHOICE.] -/
def nextRelease (d : Dev) : Dev := { d with pool.relSeq := d.pool.relSeq + 1 }

/-- The first number of `lo ≤ n < lo + count` that no entry of `used` and no stamp names. -/
def firstNeverUsed (used stamped : List Nat) : Nat → Nat → Option Nat
  | _, 0 => none
  | lo, count + 1 =>
    if used.contains lo || stamped.contains lo then firstNeverUsed used stamped (lo + 1) count else some lo

/-- The free number that has been free the longest, the lowest on ties (02 R20): a number never used has been free
since power-up, before every released one. `used` holds the numbers in use and those that may not be taken. [Log entry 9, DESIGN CHOICE.] -/
def longestFree (d : Dev) (kind : Nat) (used : List Nat) (lo count : Nat) : Option Nat :=
  let st := (d.pool.stamps.filter (fun x => x.1 == kind)).map (·.2)
  match firstNeverUsed used (st.map (·.1)) lo count with
  | some n => some n
  | none =>
    let cand := st.filter (fun x => !used.contains x.1 && decide (lo ≤ x.1) && decide (x.1 < lo + count))
    (minBy (fun x => x.2 * 2 ^ 32 + x.1) cand).map (·.1)

/-- Who last held a number of a kind (02 R22): the context ID, or partition * 64. -/
def ownerOf (d : Dev) (kind n : Nat) : Option Nat :=
  (d.pool.owners.find? (fun x => x.1 == kind && x.2.1 == n)).map (·.2.2)

/-- Record who holds a number (02 R22). [Log entry 11, DESIGN CHOICE.] -/
def setOwner (d : Dev) (kind n who : Nat) : Dev :=
  { d with pool.owners := upsert (fun x => x.1 == kind && x.2.1 == n) (kind, n, who) d.pool.owners }

/-! ### Exchange memory (04 R69, 17 R398-R402) -/

/-- The key of offset `off` of LD `ld`'s exchange area. -/
def exKey (ld off : Nat) : Nat := ld * 2 ^ 36 + off

def findLd (d : Dev) (n : Nat) : Option CxlLd := d.cxl.lds[n]?

def updLd (d : Dev) (n : Nat) (f : CxlLd → CxlLd) : Dev :=
  match d.cxl.lds[n]? with
  | some x => { d with cxl.lds := d.cxl.lds.set n (f x) }
  | none => d

/-- Bytes of LD `n`'s exchange area (17 R398). -/
def exSize (d : Dev) (n : Nat) : Nat :=
  match d.cxl.lds[n]? with
  | some x => (x.m1 + x.m2) * 2 ^ 28
  | none => 0

/-- Sectors of 64 bytes that `len` bytes at key `k` touch. -/
def sectorsOf (k len : Nat) : List Nat :=
  if len = 0 then [] else rangeFrom (k / 64) ((k + len - 1) / 64 - k / 64 + 1)

/-- Whether a range of the exchange memory touches a poisoned sector. -/
def exPoisoned (d : Dev) (k len : Nat) : Bool :=
  decide (0 < len) && d.poison.any (fun q => decide (k / 64 ≤ q) && decide (q ≤ (k + len - 1) / 64))

/-- Whether a range covers part of a poisoned sector only (04 R75). -/
def exPartPoisoned (d : Dev) (k len : Nat) : Bool :=
  decide (0 < len) && d.poison.any (fun q =>
    decide (k / 64 ≤ q) && decide (q ≤ (k + len - 1) / 64) &&
    !(decide (k ≤ q * 64) && decide (q * 64 + 64 ≤ k + len)))

/-- A write to exchange memory: a sector covered whole loses its poison (18 R415). -/
def exWrite (d : Dev) (k : Nat) (bs : List Byte) : Dev :=
  { d with
    exch := memWriteN d.exch k bs
    poison := d.poison.filter (fun q => !(decide (k ≤ q * 64) && decide (q * 64 + 64 ≤ k + bs.length))) }

/-- Zero-fill a range of exchange memory; whole sectors lose their poison. -/
def exZero (d : Dev) (k len : Nat) : Dev :=
  { d with
    exch := memClear d.exch k len
    poison := d.poison.filter (fun q => !(decide (k ≤ q * 64) && decide (q * 64 + 64 ≤ k + len))) }

/-! ### MSI-X (17 R403) -/

/-- Whether vector `v` of an LD is masked: an entry never written is masked, as PCI Express leaves it at reset. [Log entry 3, PRESUMED.] -/
def msixMasked (x : CxlLd) (v : Nat) : Bool :=
  match x.msix.find? (fun e => e.vec == v) with
  | some e => e.masked
  | none => true

/-- Signal MSI-X vector `v` of LD `n`: sent, or held pending while masked; a number that the LD lacks (16 or above,
0xFFFF, or not below 256) signals nothing (15 R354, 17 R403). -/
def signalMsix (d : Dev) (n v : Nat) : Dev :=
  if v < 256 then
    match d.cxl.lds[n]? with
    | none => d
    | some x =>
      if x.msixEnable && !x.msixMaskAll && !msixMasked x v then
        { d with outs.msix := d.outs.msix ++ [(n, v)] }
      else if x.msixEnable then
        updLd d n (fun y => { y with pending := upsert (· == v) v y.pending })
      else d
  else d

/-! ### Events (04 R77-R79, 20 R453-R457) -/

/-- The 64 bytes of an event record (04 Table 4-11) with FLAGS byte `flags` and bytes 28-31 holding `low`. -/
def eventBytes (e : EventRec) (flags low : Nat) : List Byte :=
  natLe e.clause 8 ++ natLe e.time 8 ++ natLe e.code 2 ++ [0] ++ [byte flags] ++ natLe e.ring 2 ++ [0, 0] ++
    natLe e.tag 4 ++ natLe low 4 ++ natLe e.obj 8 ++ padTo e.detail 24

/-- Codes that EVENT_MASK cannot suppress: EV_EVENTS_LOST, EV_DEFERRED_DONE, EV_RING_FAULT, EV_POWER_FAIL (20 R454). -/
def unmaskable (code : Nat) : Bool := code == 0x0121 || code == 0x0122 || code == 0x0120 || code == 0x0160

/-- Whether an event code is suppressed for an LD (16: the FM-owned LD). -/
def suppressed (d : Dev) (ld code : Nat) : Bool := !unmaskable code && d.tur.masks.contains (ld, code)

/-- The EV_EVENTS_LOST record that stands in for the event `e` (04 R79): its OBJECT is the device and its RING 0xFFFF, none. [Log entry 122, DESIGN CHOICE.] -/
def lostRecord (e : EventRec) (lost : Nat) : EventRec :=
  { e with code := 0x0121, ring := 0xFFFF, tag := 0, obj := objDevice, detail := natLe lost 8 }

/-- Write one record at the tail of LD `n`'s event ring and signal its vector (04 R77, R78). -/
def evqPut (d : Dev) (n : Nat) (q : Evq) (e : EventRec) (lost : Nat) : Dev :=
  let depth := 2 ^ q.depthLog2
  let d1 := exWrite d (exKey n (q.base * 64 + q.tail * 64)) (eventBytes e (if q.phase then 1 else 0) 0)
  let q' := { q with
    tail := (q.tail + 1) % depth
    phase := if q.tail + 1 = depth then !q.phase else q.phase
    used := q.used + 1
    lost := lost }
  signalMsix { d1 with tur.evqs := setNth d1.tur.evqs n q' } n q.vector

/-- Post an event to LD `n`'s event ring under the rules of R79. [Log entry 25, DEDUCED.] -/
def evqPost (d : Dev) (n : Nat) (e : EventRec) : Dev :=
  if suppressed d n e.code then d else
  match d.tur.evqs[n]? with
  | none => d
  | some q =>
    let depth := 2 ^ q.depthLog2
    if !q.enable then { d with tur.evqs := setNth d.tur.evqs n { q with lost := satAdd q.lost 1 } }
    else if q.used + 2 ≤ depth then evqPut d n q e q.lost
    else if q.used + 1 = depth then evqPut d n q (lostRecord e (satAdd q.lost 1)) (satAdd q.lost 1)
    else { d with tur.evqs := setNth d.tur.evqs n { q with lost := satAdd q.lost 1 } }

/-- Queue an event for the FM-owned LD: 1,024 records under the rules of R79 (17 R410). -/
def fmPost (d : Dev) (e : EventRec) : Dev :=
  if suppressed d 16 e.code then d else
  let used := d.tur.fmQueue.length
  if used + 2 ≤ 1024 then { d with tur.fmQueue := d.tur.fmQueue ++ [eventBytes e 0 0] }
  else if used + 1 = 1024 then
    { d with
      tur.fmQueue := d.tur.fmQueue ++ [eventBytes (lostRecord e (satAdd d.tur.fmLost 1)) 0 0]
      tur.fmLost := satAdd d.tur.fmLost 1 }
  else { d with tur.fmLost := satAdd d.tur.fmLost 1 }

/-- Raise an event: it enters the history (20 R455), then every ring that R79 names. -/
def raiseRec (d : Dev) (e : EventRec) : Dev :=
  let h := d.tur.history ++ [(d.tur.histNext, e)]
  let d0 := { d with
    tur.history := h.drop (h.length - 4096)
    tur.histNext := d.tur.histNext + 1 }
  match e.scope with
  | .device => fmPost ((List.range 16).foldl (fun acc n => evqPost acc n e) d0) e
  | .part p => if partLd d0 p < 16 then evqPost d0 (partLd d0 p) e else fmPost d0 e
  | .ld n => evqPost d0 n e

/-- Raise an event of no verb. `vals` are (width, value) pairs packed from byte 40 (04 R78). -/
def raise (d : Dev) (code obj : Nat) (scope : EvScope) (vals : List (Nat × Nat)) : Dev :=
  raiseRec d {
    clause := d.clk.count, time := d.tim.now, code := code, ring := 0xFFFF, tag := 0, obj := obj,
    detail := vals.flatMap (fun x => natLe x.2 x.1), scope := scope }

/-- An event of the whole device. -/
def raiseDev (d : Dev) (code : Nat) (vals : List (Nat × Nat)) : Dev := raise d code objDevice .device vals

/-- Whether LD `n`'s event ring takes an event as it is: enabled, not suppressed, and with room besides the record of R79. -/
def evqTakes (d : Dev) (n code : Nat) : Bool :=
  !suppressed d n code && (match d.tur.evqs[n]? with | some q => q.enable && decide (q.used + 2 ≤ 2 ^ q.depthLog2) | none => false)

/-- Whether the FM-owned LD's queue takes an event as it is. -/
def fmTakes (d : Dev) (code : Nat) : Bool := !suppressed d 16 code && decide (d.tur.fmQueue.length + 2 ≤ 1024)

/-- Whether at least one of the rings that R79 names takes an event: it is posted (04 R64). -/
def eventPosted (d : Dev) (code : Nat) (scope : EvScope) : Bool :=
  match scope with
  | .device => (List.range 16).any (fun n => evqTakes d n code) || fmTakes d code
  | .part p => if partLd d p < 16 then evqTakes d (partLd d p) code else fmTakes d code
  | .ld n => evqTakes d n code

/-- Raise an event that carries the ring and TAG of a verb; where it is posted, the verb's completion shows EVENT (04 R64). -/
def raiseFor (d : Dev) (v : Verb) (code obj : Nat) (scope : EvScope) (vals : List (Nat × Nat)) : Dev :=
  let d1 := raiseRec d {
    clause := d.clk.count, time := d.tim.now, code := code, ring := v.ring,
    tag := v.entry.toNat / 2 ^ 32 % 2 ^ 32, obj := obj,
    detail := vals.flatMap (fun x => natLe x.2 x.1), scope := scope }
  { d1 with tur.verbs := updWhere (fun x => x.seq == v.seq) (fun x => { x with event := x.event || eventPosted d code scope }) d1.tur.verbs }

/-- Where EV_COUNTER_SAT of a counter goes (20 R453). -/
def ctrScope (d : Dev) (scope unit : Nat) : EvScope :=
  match scope with
  | 1 => .ld unit
  | 2 => .part unit
  | 4 =>
    match ownerOf d 0x0A unit with
    | some w => .part (ctxPart w)
    | none => .device
  | _ => .device

/-- The object that EV_COUNTER_SAT names. -/
def ctrObj (d : Dev) (scope unit : Nat) : Nat :=
  match scope with
  | 2 => objPart unit
  | 4 =>
    match ownerOf d 0x0A unit with
    | some w => objIn 0x0A (ctxPart w) unit
    | none => objDevice
  | _ => objDevice

/-- Count `n` on a counter: a SAT48 counter stays at its limit, sets OVF and raises EV_COUNTER_SAT the first time
(20 R449); a WRAP64 counter wraps; a gauge adds. -/
def bump (d : Dev) (scope unit num n : Nat) : Dev :=
  let c := ctrGet d scope unit num
  if ctrWraps scope num then ctrPut d { c with val := (c.val + n) % 2 ^ 64 }
  else if ctrGauge scope num then ctrPut d { c with val := c.val + n }
  else if c.val + n ≤ sat48 then ctrPut d { c with val := c.val + n }
  else
    let d1 := ctrPut d { c with val := sat48, ovf := true }
    if c.ovf then d1
    else raise d1 0x0B10 (ctrObj d1 scope unit) (ctrScope d1 scope unit) [(1, scope), (1, 0), (2, unit), (2, num)]

/-- Let NB_THROTTLED_US of every stack count up to now, in whole microseconds, while the bank quota is below 16 (08 R176). -/
def noteThrottle (d : Dev) : Dev :=
  let us := (d.tim.elapsed - d.therm.quotaSeen) / 1000
  if 16 ≤ d.therm.quota then { d with therm.quotaSeen := d.tim.elapsed }
  else (List.range 8).foldl (fun a st => bump a 3 st 6 us) { d with therm.quotaSeen := d.therm.quotaSeen + 1000 * us }

/-! ### Fields of a submission -/

/-- Field of `len` bytes at offset `off` of a verb's submission entry (04 R63). -/
def fld (v : Verb) (off len : Nat) : Nat := v.entry.toNat / 2 ^ (8 * off) % 2 ^ (8 * len)

/-- Field of an entry. -/
def entryFld (e : Entry) (off len : Nat) : Nat := e.toNat / 2 ^ (8 * off) % 2 ^ (8 * len)

/-- The completion of a verb that failed a check: status, ERR_BYTE and the fields of bytes 8-31 (04 R64). -/
structure Fail where
  status : Nat
  err : Nat
  fields : List (Nat × Nat × Nat)
  deriving DecidableEq, Repr

/-- A failure of check 4: ST_RANGE with the offset of the offending field. -/
def failRange {α : Type} (off : Nat) : Except Fail α := .error { status := stRange, err := off, fields := [] }

/-- A failure of check 5 with the offset of the identifier's field. -/
def failId {α : Type} (status off : Nat) : Except Fail α := .error { status := status, err := off, fields := [] }

/-- A failure of check 6 or 7: ERR_BYTE is 0xFF. -/
def failSt {α : Type} (status : Nat) : Except Fail α := .error { status := status, err := 0xFF, fields := [] }

/-- A failure of check 7 that reports fields. -/
def failWith {α : Type} (status : Nat) (fields : List (Nat × Nat × Nat)) : Except Fail α :=
  .error { status := status, err := 0xFF, fields := fields }

/-- Require a condition, or fail check 4 at `off`. -/
def needRange (off : Nat) (ok : Bool) : Except Fail Unit := if ok then .ok () else failRange off

/-- Require a condition, or fail with a status of check 6 or 7. -/
def need (status : Nat) (ok : Bool) : Except Fail Unit := if ok then .ok () else failSt status

/-- The lowest offset among failed field checks: pairs of (offset, whether the field is good). -/
def lowestBad (l : List (Nat × Bool)) : Option Nat :=
  (minBy (fun x => x.1) (l.filter (fun x => !x.2))).map (·.1)

/-- The reserved byte ranges of a submission, as checks: (first byte, length). A nonzero range fails at its lowest
nonzero byte (04 R64, 00 R7). -/
def reservedChecks (v : Verb) (rs : List (Nat × Nat)) : List (Nat × Bool) :=
  rs.flatMap (fun r => (rangeFrom r.1 r.2).map (fun i => (i, fld v i 1 == 0)))

/-- Check 4 of Table 4-8 (04 R75): FLAGS bits 7-2 and the common reserved bytes, then the verb's own fields; the
lowest offending offset is ERR_BYTE. The CONTEXT field at 12-15 is checked apart where R73 gives it a meaning. -/
def check4 (v : Verb) (ctx73 : Bool) (rs : List (Nat × Nat)) (fs : List (Nat × Bool)) : Except Fail Unit :=
  let common := [(2, decide (fld v 2 1 < 4))] ++
    (if ctx73 && v.admin then
      [(12, fld v 12 2 / 2 ^ 11 % 16 == 0 && fld v 12 2 / 2 ^ 15 == 1)] ++ reservedChecks v [(14, 2)]
    else reservedChecks v [(12, 4)])
  match lowestBad (common ++ reservedChecks v rs ++ fs) with
  | some off => failRange off
  | none => .ok ()

/-! ### Arguments and outputs of verbs -/

/-- The bytes that a verb's offsets may reach: the LD's exchange area, or on ring 16 the tunnel block (15 R342). -/
def argLimit (d : Dev) (v : Verb) : Nat := if v.ring = 16 then v.block.length else exSize d v.ld

/-- Whether `len` bytes at `off` lie inside what the verb's offsets may reach (04 R75 check 4). -/
def argIn (d : Dev) (v : Verb) (off len : Nat) : Bool := decide (off + len ≤ argLimit d v)

/-- Whether an output of `len` bytes at `off` may be written: on ring 16 the response block holds up to 4,096. -/
def outIn (d : Dev) (v : Verb) (off len : Nat) : Bool :=
  if v.ring = 16 then decide (off + len ≤ 4096) else decide (off + len ≤ exSize d v.ld)

/-- Read arguments; a poisoned sector gives ST_DAMAGED (04 R75). -/
def argRead (d : Dev) (v : Verb) (off len : Nat) : Except Fail (List Byte) :=
  if v.ring = 16 then .ok (padTo (v.block.drop off) len)
  else if exPoisoned d (exKey v.ld off) len then failSt stDamaged
  else .ok (memReadN d.exch (exKey v.ld off) len)

/-- A structure that a field points to, where it can be read. -/
def argPeek (d : Dev) (v : Verb) (off len : Nat) : Option (List Byte) :=
  if argIn d v off len then (match argRead d v off len with | .ok bs => some bs | .error _ => none) else none

/-- Whether a structure that a field points to is well formed, as far as it can be read: its faults belong to check 4, at the field that
points to it (04 R64, R75). -/
def structOk (d : Dev) (v : Verb) (off len : Nat) (ok : List Byte → Bool) : Bool :=
  match argPeek d v off len with | some bs => ok bs | none => true

/-- Whether the checks of a structure find no fault of check 4; their other failures come later (04 R64, R75). -/
def inRange {α : Type} (r : Except Fail α) : Bool := match r with | .error f => f.status != stRange | .ok _ => true

/-- Whether an output would cover only part of a poisoned sector (04 R75). -/
def outPartial (d : Dev) (v : Verb) (off len : Nat) : Bool :=
  if v.ring = 16 then false else exPartPoisoned d (exKey v.ld off) len

/-- Write a verb's output (its poison check made before): into the exchange area, or on ring 16 into the block. -/
def outWrite (d : Dev) (v : Verb) (off : Nat) (bs : List Byte) : Dev :=
  if v.ring = 16 then
    let put := fun (x : Verb) => { x with
      block := (putBytes x.block off bs).take 4096
      blockEnd := Nat.min 4096 (Nat.max x.blockEnd (off + bs.length)) }
    { d with tur.verbs := updWhere (fun x => x.seq == v.seq) put d.tur.verbs }
  else exWrite d (exKey v.ld off) bs

/-! ### Completions (04 R57, R64, R65, 17 R410) -/

/-- The bytes of a completion without its PHASE bit: TAG, STATUS, FLAGS, ERR_BYTE and the verb's fields. [Log entry 29, DESIGN CHOICE.] -/
def cplBytes (v : Verb) (status err : Nat) (fields : List (Nat × Nat × Nat)) : List Byte :=
  let head := natLe (fld v 4 4) 4 ++ natLe status 2 ++ [if v.event then 0x40 else 0] ++ [byte err]
  let body := fields.foldl (fun acc f => putBytes acc (f.1 - 8) (natLe f.2.2 f.2.1)) (List.replicate 24 0)
  head ++ body.take 24

/-- The completion with the PHASE bit of byte 6 set as given (04 R65). -/
def withPhase (bs : List Byte) (ph : Bool) : List Byte :=
  bs.take 6 ++ [(bs[6]?).getD 0 ||| (if ph then 0x80 else 0)] ++ bs.drop 7

/-- A completion ring is full when CQ_TAIL + 1 equals CQ_HEAD modulo its depth (04 R56). [Log entry 22, DEDUCED.] -/
def cqFull (r : Ring) : Bool := (r.cqTail + 1) % 2 ^ r.depthLog2 == r.cqHead

/-- Post one completion to a ring with room (04 R65, R66), and signal its vector when IRQ was set. -/
def postCpl (d : Dev) (r : Ring) (h : HeldCpl) : Dev :=
  let d1 := exWrite d (exKey r.ld (r.cqOff + 32 * r.cqTail)) (withPhase h.bytes r.phase)
  let d2 := updRing d1 r.num (fun x => { x with
    cqTail := (x.cqTail + 1) % 2 ^ x.depthLog2
    phase := if x.cqTail + 1 = 2 ^ x.depthLog2 then !x.phase else x.phase
    done := (x.done + 1) % 2 ^ 64
    inFlight := x.inFlight - 1 })
  if h.irq then signalMsix d2 r.ld r.vector else d2

/-- A faulted ring whose accepted verbs have all posted becomes HALTED (04 R62). -/
def settleRing (d : Dev) (n : Nat) : Dev :=
  updRing d n (fun r => if r.fault && r.inFlight == 0 then { r with halted := true } else r)

/-- Post the held completions of a ring while there is room and no hold (04 R57, 15 R354). -/
def drainHeld : Nat → Dev → Nat → Dev
  | 0, d, _ => d
  | k + 1, d, n =>
    match findRing d n with
    | none => d
    | some r =>
      match r.held with
      | [] => d
      | h :: _ =>
        if r.holding || cqFull r then d
        else drainHeld k (postCpl (updRing d n (fun x => { x with held := x.held.drop 1 })) r h) n

/-- The TURUK_TUNNEL response (17 Table 17-6). -/
def tunnelReply (state blockBytes records : Nat) (cpl rest : List Byte) : List Byte :=
  [byte state, 0, 0, 0] ++ natLe blockBytes 4 ++ natLe records 4 ++ natLe 0 4 ++
    padTo cpl 32 ++ List.replicate 32 0 ++ rest

/-- Finish a verb of ring 16: the completion goes to its SUBMIT while that waits, else it is held (17 R410). -/
def finishHub (d : Dev) (v : Verb) (bytes : List Byte) : Dev :=
  let blk := padTo v.block (Nat.max v.block.length v.blockEnd)
  let h := HubHeld.mk (fld v 4 4) (withPhase bytes true) blk
  match d.tur.hubWaits.find? (fun w => w.submit == v.submit) with
  | some w =>
    let d1 := { d with tur.hubWaits := dropWhere (fun x => x.submit == v.submit) d.tur.hubWaits }
    if w.waiting then
      let r := Reply.mk 16 0xC100 v.submit 0 (tunnelReply 0 blk.length 0 (withPhase bytes true) blk)
      { d1 with outs.replies := d1.outs.replies ++ [r] }
    else { d1 with tur.hubHeld := d1.tur.hubHeld ++ [h] }
  | none => { d with tur.hubHeld := d.tur.hubHeld ++ [h] }

/-- The verb of an acceptance number, as it stands. -/
def findVerb (d : Dev) (seq : Nat) : Option Verb := d.tur.verbs.find? (fun x => x.seq == seq)

/-- Finish a verb: its completion is posted, or held while its ring holds completions; the verb leaves the list of
verbs in flight (04 R57, R64). [Log entry 22, DEDUCED.] -/
def finish (d : Dev) (v0 : Verb) (status err : Nat) (fields : List (Nat × Nat × Nat)) : Dev :=
  let v := (findVerb d v0.seq).getD v0
  let bytes := cplBytes v status err fields
  let d1 := { d with tur.verbs := dropWhere (fun x => x.seq == v.seq) d.tur.verbs }
  if v.ring = 16 then finishHub d1 v bytes
  else
    let d2 := updRing d1 v.ring (fun r => { r with held := r.held ++ [HeldCpl.mk bytes (bitSet (fld v 2 1) 1) v.seq] })
    settleRing (drainHeld 65536 d2 v.ring) v.ring

/-- Finish with ST_OK. -/
def finishOk (d : Dev) (v : Verb) (fields : List (Nat × Nat × Nat)) : Dev := finish d v stOk 0xFF fields

/-- Finish a verb as a failed check says. -/
def finishFail (d : Dev) (v : Verb) (f : Fail) : Dev := finish d v f.status f.err f.fields

/-- EV_DEFERRED_DONE (04 Table 4-12): status, opcode and a 16-byte result, with the verb's ring and TAG. -/
def deferredDone (d : Dev) (ring tag op status obj : Nat) (scope : EvScope) (result : List Byte) : Dev :=
  raiseRec d {
    clause := d.clk.count, time := d.tim.now, code := 0x0122, ring := ring, tag := tag, obj := obj,
    detail := natLe status 2 ++ natLe op 2 ++ padTo result 16, scope := scope }

/-- Completion fields of an APPEND that stored nothing. -/
def noBadRow : List (Nat × Nat × Nat) := [(24, 4, 0xFFFFFFFF), (28, 2, 0xFFFF)]

end Sys2Proof.Machine
end

