-- ==== Sys2Proof/Machine/Order.lean ====
section
/-!
DEFINITION. Verbs: opcodes and rights (04 R72, Table 4-7; 22 Table 22-8), identifier checks (02 R22, R73), the waits
that bound how verbs overlap (02 R23, 04 R71, R74), and running an accepted verb.
-/

namespace Sys2Proof.Machine

/-- The opcodes of the Turuk verbs are exactly those of Table 22-8 (22 R490). -/
def verbDefined (op : Nat) : Bool :=
  let n := op % 256
  match op / 256 with
  | 1 => decide (1 ≤ n) && decide (n ≤ 0x0C)
  | 2 => decide (1 ≤ n) && decide (n ≤ 7)
  | 3 => decide (1 ≤ n) && decide (n ≤ 5)
  | 4 => decide (1 ≤ n) && decide (n ≤ 0x0D)
  | 5 => decide (1 ≤ n) && decide (n ≤ 6)
  | 6 => decide (1 ≤ n) && decide (n ≤ 6)
  | 7 => decide (1 ≤ n) && decide (n ≤ 9)
  | 8 => decide (1 ≤ n) && decide (n ≤ 6)
  | 9 => decide (1 ≤ n) && decide (n ≤ 6)
  | 0xA => decide (1 ≤ n) && decide (n ≤ 0x0A)
  | 0xB => decide (1 ≤ n) && decide (n ≤ 5)
  | _ => false

/-- The verbs of the first row of Table 4-7: any admin ring. -/
def verbAdmin (op : Nat) : Bool :=
  [0x0101, 0x0103, 0x010C, 0x0105, 0x0803, 0x0B01, 0x0B02, 0x0B03, 0x0B05, 0x0A07, 0x0A08, 0x0A0A, 0x0205,
    0x0206].contains op

/-- The verbs of the third row of Table 4-7: a context ring, or an admin ring that names the context. -/
def verbCtx (op : Nat) : Bool :=
  (decide (0x0300 ≤ op) && decide (op < 0x0800)) ||
    [0x0804, 0x0901, 0x0902, 0x0903, 0x0904, 0x0A02, 0x0A03, 0x0A04, 0x0A05, 0x0A06].contains op

/-- Whether a ring holds every right of ring 16: ring 16, and the admin ring of LD 0 as a single LD (04 R59, R72). The SCRUBs that Sanitize
runs (17 R408) come from no ring: 0xFFFF. -/
def fmRights (d : Dev) (ring : Nat) : Bool := ring == 16 || ring == 0xFFFF || (ring == 0 && d.tur.singleLd)

/-- Check 3 of Table 4-8: whether the ring may submit the verb (04 R72, Table 4-7). -/
def ringMay (d : Dev) (ring op : Nat) : Bool :=
  if verbCtx op then true
  else if verbAdmin op then decide (ring ≤ 16)
  else fmRights d ring

/-- The verbs that ring 16 accepts from stage 3 until READY (19 R440). -/
def bootVerb (op : Nat) : Bool := [0x0101, 0x0103, 0x010C, 0x0104, 0x0105].contains op

/-- The verbs whose work runs as foreground jobs (03 R36, 18 R429). -/
def jobVerb (op : Nat) : Bool := [0x0405, 0x0605, 0x0705, 0x0503].contains op

/-- Verbs with FENCE set (04 Table 4-4). -/
def fenced (v : Verb) : Bool := bitSet (fld v 2 1) 0

/-- The verbs that name a session handle at bytes 16-19. -/
def opNamesSession (op : Nat) : Bool :=
  [0x0402, 0x0403, 0x0404, 0x0406, 0x0407, 0x0408, 0x0409, 0x040B, 0x040C, 0x040D, 0x0503, 0x0504, 0x0505, 0x0506,
    0x0603, 0x0604, 0x0606].contains op

/-- The session handle that a verb names; 0 for none. -/
def verbSession (v : Verb) : Nat :=
  if opNamesSession v.op then fld v 16 4
  else if v.op = 0x040A && fld v 16 8 / 2 ^ 59 == 1 then fld v 16 8 % 2 ^ 32
  else 0

/-- The index that a verb of chapter 12 names at byte 16, IDX_SEARCH apart. -/
def verbIndex (v : Verb) : Option Nat :=
  if [0x0702, 0x0703, 0x0704, 0x0706, 0x0708, 0x0709].contains v.op then some (fld v 16 1 % 64)
  else if v.op = 0x0707 then some (fld v 16 1 % 64)
  else none

/-- The partition-scoped objects, other than sessions and indexes, that a verb names: (Table 2-4 type, identifier). -/
def verbObjects (v : Verb) : List (Nat × Nat) :=
  match v.op with
  | 0x0302 => [(6, fld v 16 1)]
  | 0x0304 => [(7, fld v 16 2 % 4096)]
  | 0x0305 => [(6, fld v 16 1)]
  | 0x0401 => [(6, fld v 16 1)]
  | 0x0409 => [(6, fld v 22 1)]
  | 0x0502 => [(8, fld v 16 1 % 8)]
  | 0x0503 => [(8, fld v 20 1 % 8)]
  | 0x0504 => [(8, fld v 20 1 % 8)]
  | 0x0602 => [(9, fld v 16 1 % 64)]
  | 0x0603 => [(9, fld v 20 1 % 64)]
  | 0x0A03 => [(13, fld v 16 4)]
  | 0x0A04 => [(13, fld v 16 4)]
  | 0x0A05 => [(13, fld v 16 4)]
  | 0x0A06 => [(14, fld v 16 2)]
  | _ => []

/-- The kernels that the image of a MODEL_LOAD names, as far as it can be read: bytes 32-37 of each layer record whose KIND runs kernels
(06 Table 6-1, Table 6-2). -/
def imageKernels (d : Dev) (v : Verb) : List Nat :=
  match argRead d v (fld v 16 8) 256 with
  | .error _ => []
  | .ok hd =>
    (List.range (Nat.min (fieldAt hd 4 2) 1024)).flatMap (fun i =>
      match argRead d v (fld v 16 8 + fieldAt hd 24 8 + 64 * i) 64 with
      | .error _ => []
      | .ok r => if fieldAt r 0 1 < 2 then [fieldAt r 32 2, fieldAt r 34 2, fieldAt r 36 2] else [])

/-- The context in which a verb acts, where one is named: the ring's own, the owner of the session or index that it
names, or its CONTEXT field (02 R17, 04 R73). -/
def verbContext (d : Dev) (v : Verb) : Option Nat :=
  if v.admin then
    if verbSession v ≠ 0 then ownerOf d 1 (verbSession v % 2 ^ 24)
    else
      match verbIndex v with
      | some i => ownerOf d 10 i
      | none =>
        if bitSet (fld v 12 2) 15 then some (fld v 12 2 % 2048)
        else if v.op = 0x0401 then some (fld v 18 2 % 2048)
        else if v.op = 0x0206 then some (fld v 16 2 % 2048)
        else if v.op = 0x0901 || v.op = 0x0902 || v.op = 0x0903 then some (fld v 24 2 % 2048)
        else
          match verbObjects v with
          | x :: _ => ownerOf d x.1 (if x.1 = 13 then x.2 % 16384 else x.2)
          | [] => none
  else some v.ctx

/-- The partition that a PART_*, CTX_* or SCRUB verb names. -/
def verbPart (v : Verb) : Option Nat :=
  match v.op with
  | 0x0202 => some (fld v 16 1)
  | 0x0203 => some (fld v 46 1)
  | 0x0204 => some (fld v 16 1)
  | 0x0205 => some (fld v 16 1)
  | 0x0207 => if fld v 16 1 = 1 then some (fld v 17 1) else none
  | _ => none

/-- Everything that a verb names, as (Table 2-4 type, identifier) pairs. -/
def verbNames (d : Dev) (v : Verb) : List (Nat × Nat) :=
  verbObjects v ++
    (if v.op = 0x0301 then (imageKernels d v).map (fun k => (7, k)) else []) ++
    (if verbSession v ≠ 0 then [(1, verbSession v)] else []) ++
    (match verbIndex v with | some i => [(10, i)] | none => []) ++
    (match verbContext d v with | some c => [(15, c), (16, ctxPart c)] | none => []) ++
    (match verbPart v with | some p => [(16, p)] | none => [])

/-- What a verb ends (02 R23). -/
def verbEnds (v : Verb) : List (Nat × Nat) :=
  match v.op with
  | 0x0402 => [(1, fld v 16 4)]
  | 0x040B => [(1, fld v 16 4)]
  | 0x0302 => [(6, fld v 16 1)]
  | 0x0304 => [(7, fld v 16 2 % 4096)]
  | 0x0502 => [(8, fld v 16 1 % 8)]
  | 0x0602 => [(9, fld v 16 1 % 64)]
  | 0x0702 => [(10, fld v 16 1 % 64)]
  | 0x0A04 => [(13, fld v 16 4)]
  | 0x0A06 => [(14, fld v 16 2)]
  | 0x0206 => [(15, fld v 16 2 % 2048)]
  | 0x0202 => [(16, fld v 16 1)]
  | 0x0207 => if fld v 16 1 = 1 then [(16, fld v 17 1)] else []
  | _ => []

/-- The verbs that write a session (05 R95, 09 R186). -/
def verbWritesSession (op : Nat) : Bool :=
  [0x0404, 0x0406, 0x0407, 0x040D, 0x0503, 0x0504, 0x0505, 0x0506, 0x0603, 0x0604, 0x0402,
    0x040B].contains op

/-- The verbs that end a session (02 R23). -/
def endsSession (op : Nat) : Bool := op == 0x0402 || op == 0x040B

/-- Whether a writer names a session that is PARKING by a PARK accepted before it, or REVIVING: it is refused (09 R185, R186) and waits
for no earlier writer. -/
def turnedAway (d : Dev) (v : Verb) : Bool :=
  verbWritesSession v.op && !endsSession v.op && d.kv.cat.any (fun s =>
    s.idx == verbSession v % 2 ^ 24 && s.gen == verbSession v / 2 ^ 24 && !s.retired &&
      ((s.state == 5 && decide (s.parkSeq < v.seq)) || s.state == 6))

/-- The verbs that write an index, one at a time in acceptance order (12 R270). -/
def verbWritesIndex (op : Nat) : Bool := [0x0703, 0x0704, 0x0707].contains op

/-- The setting or object, other than a session or an index, that a verb changes and that verbs change in acceptance order (04 R71): a
number for its kind, and which one. COUNTERS_READ and THERMAL_HISTORY change what they read where they clear it. [Log entry 112, DEDUCED.] -/
def verbChanges (v : Verb) : Option (Nat × Nat) :=
  match v.op with
  | 0x010B => some (1, 0)
  | 0x0305 => some (2, fld v 16 1)
  | 0x0A01 => some (3, fld v 16 1 / 4)
  | 0x0A03 => some (4, fld v 16 4)
  | 0x0A07 => some (5, fld v 16 3)
  | 0x0A08 => some (6, fld v 16 3)
  | 0x0A09 => some (7, fld v 16 1)
  | 0x0B01 => if fld v 17 1 = 0 then none else some (8, fld v 16 1 * 2 ^ 16 + fld v 18 2)
  | 0x0B03 => some (9, 0)
  | 0x0B04 => some (10, fld v 16 1)
  | 0x0B05 => if fld v 17 1 = 0 then none else some (11, 0)
  | _ => none

/-- The verbs of which one is served at a time, in acceptance order: CONFIG_SET, and TOKENIZE (10 R212). -/
def servedInOrder (op : Nat) : Bool := op == 0x0102 || op == 0x0503

/-- The verbs that change session reference counts or checkpoint holds of phrases (02 R30-R33). -/
def changesCounts (op : Nat) : Bool :=
  [0x0402, 0x0403, 0x0404, 0x0407, 0x0409, 0x040B, 0x040D, 0x0901, 0x0903, 0x0904].contains op

/-- The verbs that end every object of a context or partition (02 R34, 15 R349). [Log entry 91, DEDUCED.] -/
def endsScope (op : Nat) : Bool := op == 0x0206 || op == 0x0202 || op == 0x0207

/-- Whether the later verb `v` waits for the earlier verb `w` (04 R71, R74; 02 R23; 05 R95; 12 R270; 15 R353;
22 R488). The count changes of one partition are taken up in acceptance order (02 R32). SESS_QUERY waits for none of them but a fence (09 R186). [Log entry 14, DEDUCED; entry 15, DEDUCED; entry 112, DEDUCED.] -/
def waitsFor (d : Dev) (v w : Verb) : Bool :=
  (fenced v && v.ring == w.ring) ||
  (v.op != 0x040C && (
    (verbEnds v).any (fun x => (verbNames d w).contains x) ||
    (verbEnds w).any (fun x => (verbNames d v).contains x) ||
    ((verbChanges v).isSome && verbChanges v == verbChanges w) ||
    (changesCounts v.op && changesCounts w.op && !w.running && !turnedAway d v && (verbContext d v).isSome &&
      (verbContext d v).map ctxPart == (verbContext d w).map ctxPart) ||
    (!turnedAway d v && verbWritesSession v.op && verbWritesSession w.op && verbSession v != 0 && verbSession v == verbSession w) ||
    (verbWritesIndex v.op && verbWritesIndex w.op && verbIndex v == verbIndex w) ||
    (endsScope v.op && w.admin && verbCtx w.op && (verbContext d w).isNone) ||
    ((v.op / 256 == 2) && (w.op / 256 == 2) && (verbPart v).isSome && verbPart v == verbPart w) ||
    (v.op == w.op && servedInOrder v.op)))

/-- Whether a job is a writer of its sessions (05 R95): a commit, or an attention job of a layer that stores (a layer of KIND 2 stores
nothing, 06 R110). [Log entry 40, DEDUCED.] -/
def jobWrites (d : Dev) (j : Job) : Bool :=
  j.kind == 1 || (j.kind == 0 &&
    match (d.kv.models.find? (fun m => m.id == j.model)).bind (fun m => m.layers[j.layer]?) with
    | some l => l.kind != 2
    | none => true)

/-- Whether a verb waits for a job that was accepted before it: it writes or ends a session of the job (05 R95, 02 R23). Until an
ATTEND or SAMPLE has been taken up its sessions are not known, and every such verb of its LD waits. IDX_DROP waits in the same way
for the searches accepted before it (12 R278), and a verb that ends a context or partition for its jobs. -/
def waitsForJob (d : Dev) (v : Verb) : Bool :=
  ((verbWritesSession v.op && verbSession v != 0 && !turnedAway d v) && (
    d.arr.jobs.any (fun j => decide (j.seq < v.seq) && decide (j.kind < 2) && j.sessions.contains (verbSession v) &&
      (endsSession v.op || jobWrites d j)) ||
    d.tur.verbs.any (fun w => decide (w.seq < v.seq) && (w.op == 0x0405 || w.op == 0x0605) && !w.running && w.ld == v.ld))) ||
  (v.op == 0x0702 && (
    d.arr.jobs.any (fun j => decide (j.seq < v.seq) && j.kind == 2 && j.model == fld v 16 1 % 64) ||
    d.tur.verbs.any (fun w => decide (w.seq < v.seq) && w.op == 0x0705 && !w.running && w.ld == v.ld))) ||
  (v.op == 0x0206 && d.arr.jobs.any (fun j => decide (j.seq < v.seq) && j.ctx == fld v 16 2 % 2048)) ||
  ((v.op == 0x0202 || v.op == 0x0207) && d.arr.jobs.any (fun j => decide (j.seq < v.seq) && some j.part == verbPart v))

/-- Whether a DISCARD or SESS_CLOSE waits for a PARK or REVIVE in progress that was accepted before it (09 R186). -/
def waitsForParking (d : Dev) (v : Verb) : Bool :=
  endsSession v.op && d.kv.cat.any (fun s => s.idx == verbSession v % 2 ^ 24 && s.gen == verbSession v / 2 ^ 24 && !s.retired &&
    ((s.state == 5 && decide (s.parkSeq < v.seq)) ||
      (s.state == 6 && d.kv.ops.any (fun o => match o with
        | .revive r => decide (r.seq < v.seq) && r.handle == verbSession v
        | _ => false))))

/-- Whether every wait of R74 that applies to a verb has ended. [Log entry 7, DESIGN CHOICE; entry 14, DEDUCED.] -/
def mayStart (d : Dev) (v : Verb) : Bool :=
  !waitsForParking d v &&
  d.tur.verbs.all (fun w => !(decide (w.seq < v.seq) && waitsFor d v w)) && !waitsForJob d v &&
    !(fenced v && d.tur.rings.any (fun r => r.num == v.ring && r.held.any (fun h => decide (h.seq < v.seq))))

/-- Whether firmware runs verbs: READY, or the boot stages in which ring 16 is open, and no power failure acted on
(19 R440, R444). [Log entry 24, DEDUCED.] -/
def serving (d : Dev) : Bool :=
  !d.boot.powerFail && ((decide (3 ≤ d.boot.stage) && decide (d.boot.stage ≤ 8)) || d.boot.stage == 10)

/-- Mark a verb as started now (04 R74). -/
def startVerb (d : Dev) (v : Verb) : Dev :=
  let mark := fun (x : Verb) => { x with started := some (x.started.getD d.tim.elapsed) }
  { d with tur.verbs := updWhere (fun x => x.seq == v.seq) mark d.tur.verbs }

/-- The verbs whose time starts at the boundary of their snapshot, start or first dispatch (04 R74). -/
def startsAtBoundary (op : Nat) : Bool := [0x0403, 0x0405, 0x0408, 0x0409, 0x0605, 0x0705, 0x0901].contains op

/-- Start the time of every accepted verb whose waits have ended and that begins at no boundary (04 R74). It is taken stock of when verbs are
accepted, at a boundary, when a verb runs and when a limit is looked at. [Log entry 21, DEDUCED.] -/
def markStarted (d : Dev) : Dev :=
  let go := fun (v : Verb) => v.started.isNone && !startsAtBoundary v.op && mayStart d v
  { d with tur.verbs := updWhere go (fun v => { v with started := some d.tim.elapsed }) d.tur.verbs }

/-- Mark a verb as running an operation that a later command finishes. -/
def keepRunning (d : Dev) (v : Verb) : Dev :=
  { d with tur.verbs := updWhere (fun x => x.seq == v.seq) (fun x => { x with running := true }) d.tur.verbs }

/-- Run the verb of acceptance number `seq`, which must be an accepted verb of opcode `op` that is not yet running
and has nothing to wait for; otherwise nothing happens. A check that fails completes the verb with its status and no
effect (04 R75). [Log entry 7, DESIGN CHOICE.] -/
def runVerb (op seq : Nat) (body : Verb → Dev → Except Fail Dev) (d : Dev) : Dev :=
  match findVerb d seq with
  | none => d
  | some v =>
    if v.op == op && !v.running && serving d && mayStart d v then
      match body v (startVerb d v) with
      | .ok d' => d'
      | .error f => finishFail (startVerb d v) v f
    else d

/-- The priority of the ring that submitted a verb (03 R37). -/
def verbPrio (d : Dev) (v : Verb) : Nat := match findRing d v.ring with | some r => r.prio | none => 0

/-- The priority of the ring of an accepted verb. -/
def seqPrio (d : Dev) (seq : Nat) : Nat := match findVerb d seq with | some v => verbPrio d v | none => 0

/-! ### Identifier checks (02 R22, Table 2-5) -/

/-- Check 2 and 3 for a partition number: none when the ring may reach it and it exists. -/
def partError (d : Dev) (v : Verb) (p : Nat) : Option Nat :=
  let live := (findPart d p).isSome
  if fmRights d v.ring then (if live then none else some stStale)
  else if v.admin then
    match findPart d p with
    | some x => if x.bound == some v.ring then none else some stDenied
    | none => if lastLdOf d p == some v.ring then some stStale else some stDenied
  else if p = v.part then (if live then none else some stStale)
  else some stDenied

/-- Check a partition number named at `off`. -/
def checkPart (d : Dev) (v : Verb) (p off : Nat) : Except Fail Part :=
  match partError d v p with
  | some st => failId st off
  | none =>
    match findPart d p with
    | some x => .ok x
    | none => failId stStale off

/-- The error of a context that a ring names: a context ring reaches only its own among those that have been held (02 R17, R22). -/
def ctxError (d : Dev) (v : Verb) (c : Nat) : Option Nat :=
  match partError d v (ctxPart c) with
  | some st => some st
  | none =>
    let live := (findCtx d c).isSome
    let held := live || d.pool.stamps.any (fun x => x.1 == 0x0F && x.2.1 == c)
    if !v.admin && c ≠ v.ctx && held then some stDenied else if live then none else some stStale

/-- Check a context named at `off`. [Log entry 10, DEDUCED.] -/
def checkCtx (d : Dev) (v : Verb) (c off : Nat) : Except Fail Unit :=
  match ctxError d v c with
  | some st => failId st off
  | none => .ok ()

/-- The context in which a verb of R73 creates its object: the ring's own, or CONTEXT at bytes 12-13. [Log entry 10, DEDUCED.] -/
def checkCtx73 (d : Dev) (v : Verb) : Except Fail Nat :=
  if v.admin then
    match checkCtx d v (fld v 12 2 % 2048) 12 with
    | .ok _ => .ok (fld v 12 2 % 2048)
    | .error f => .error f
  else .ok v.ctx

/-- Check 2 for a number of partition scope: its record of who last held it (02 R22) must be reachable. A number
never held passes check 2 and fails check 3. -/
def ownerError (d : Dev) (v : Verb) (kind n : Nat) : Option Nat :=
  match ownerOf d kind n with
  | none => some stStale
  | some w =>
    match partError d v (ctxPart w) with
    | some st => some st
    | none => none

/-- Check a partition-scoped number named at `off`; `live` says whether the entry is held now. -/
def checkOwned (d : Dev) (v : Verb) (kind n off : Nat) (live : Bool) : Except Fail Unit :=
  match ownerError d v kind n with
  | some st => failId st off
  | none => if live then .ok () else failId stStale off

/-- The same for an object that must belong to the reference partition `p` as well (02 R17). -/
def checkOwnedIn (d : Dev) (v : Verb) (p kind n off : Nat) (live : Bool) : Except Fail Unit :=
  match ownerError d v kind n with
  | some st => failId st off
  | none =>
    if ownerOf d kind n != some (p * 64) && (ownerOf d kind n).map ctxPart != some p then failId stDenied off
    else if live then .ok () else failId stStale off

end Sys2Proof.Machine
end

