-- ==== Sys2Proof/Machine/SessOps.lean ====
section
/-!
DEFINITION. Shared operations on sessions, phrases, models and the memory they are charged to (chapters 02, 05, 06, 09).
-/

namespace Sys2Proof.Machine

/-! ### Grants and allocation (09 R179, R492; 15 R341) -/

/-- Name of an allocation: a kind of Table 2-4 with an identifier. -/
def allocKey (kind id : Nat) : Nat := kind * 2 ^ 56 + id

/-- Bytes that a partition uses in a stack (8: DDR). -/
def usedIn (d : Dev) (p st : Nat) : Nat :=
  sumNat ((d.pool.allocs.filter (fun a => a.part == p && a.stack == st)).map (·.bytes))

/-- Bytes of a partition's grant in a stack. -/
def grantIn (d : Dev) (p st : Nat) : Nat :=
  match findPart d p with
  | none => 0
  | some x => if st = 8 then x.ddr.length * 2 ^ 32 else (x.hbm.filter (fun g => g.1 == st)).length * 2 ^ 30

/-- Free bytes of a partition in a stack. -/
def freeIn (d : Dev) (p st : Nat) : Nat := grantIn d p st - usedIn d p st

/-- The stack with the most free bytes of a partition, the lowest-numbered on ties (09 R492). -/
def mostFree (d : Dev) (p : Nat) : Nat := (maxBy (fun st => freeIn d p st) (List.range 8)).getD 0

/-- Whether a partition holds granules in a stack. -/
def holdsStack (d : Dev) (p st : Nat) : Bool := decide (0 < grantIn d p st)

/-- The stack for a session object: the home stack, else the next of the grant in ascending order with wrap that has
room for it whole (09 R492). -/
def placeHome (d : Dev) (p home bytes : Nat) : Option Nat :=
  ((List.range 8).map (fun i => (home + i) % 8)).find? (fun st => holdsStack d p st && decide (bytes ≤ freeIn d p st))

/-- The stack for any other object: the one with the most free bytes (09 R492). -/
def placeMost (d : Dev) (p bytes : Nat) : Option Nat :=
  if decide (bytes ≤ freeIn d p (mostFree d p)) && holdsStack d p (mostFree d p) then some (mostFree d p) else none

/-- Pseudo-channels of a stack that are out of service. -/
def pcsOut (d : Dev) (st : Nat) : Nat := (d.rep.pcs.filter (fun x => x.1 == st)).length

/-- Banks in service in a stack: 32 for each of its 64 pseudo-channels that is (08 R162, 18 R422). -/
def banksIn (d : Dev) (st : Nat) : Nat := 2048 - 32 * pcsOut d st

/-- Whether part of an object begins on a boundary of as many KiB as the stack has banks, 2 MiB with all of them (08 R168, 18 R422): a recurrent buffer of a session, and a SCRATCH name of a job. -/
def onBoundary (obj sub : Nat) : Bool :=
  (obj / 2 ^ 56 == 1 && decide (2 ≤ sub) && decide (sub < 100000)) || obj / 2 ^ 56 == 0x30

/-- The stack-local address of part of an object (08 R163): a stack holds 64 GiB. [Log entry 117, DESIGN CHOICE.] -/
def placeAddr (d : Dev) (st p obj sub : Nat) : Nat :=
  let unit := if onBoundary obj sub then 1024 * banksIn d st else 64
  unit * (Config.hbmPlace p obj sub % (2 ^ 36 / unit))

/-- Charge an object to a stack. -/
def allocAt (d : Dev) (p st bytes obj sub : Nat) : Dev :=
  { d with pool.allocs := d.pool.allocs ++ [{ part := p, stack := st, addr := placeAddr d st p obj sub, bytes := bytes, obj := obj, sub := sub }] }

/-- Charge a session object by the rule of R492. -/
def allocHome (d : Dev) (p home bytes obj sub : Nat) : Option Dev :=
  (placeHome d p home bytes).map (fun st => allocAt d p st bytes obj sub)

/-- Charge another object by the rule of R492. -/
def allocMost (d : Dev) (p bytes obj sub : Nat) : Option Dev :=
  (placeMost d p bytes).map (fun st => allocAt d p st bytes obj sub)

/-- Charge an object to the partition's DDR grant. -/
def allocDdr (d : Dev) (p bytes obj sub : Nat) : Option Dev :=
  if bytes ≤ freeIn d p 8 then some (allocAt d p 8 bytes obj sub) else none

/-- Release the charge of one part of an object. -/
def freeAlloc (d : Dev) (obj sub : Nat) : Dev :=
  { d with pool.allocs := dropWhere (fun a => a.obj == obj && a.sub == sub) d.pool.allocs }

/-- Release every charge of an object. -/
def freeAllocs (d : Dev) (obj : Nat) : Dev :=
  { d with pool.allocs := dropWhere (fun a => a.obj == obj) d.pool.allocs }

/-- The stack in which part of an object lies. -/
def stackOf (d : Dev) (obj sub : Nat) : Option Nat :=
  (d.pool.allocs.find? (fun a => a.obj == obj && a.sub == sub && decide (a.stack < 8))).map (·.stack)

/-! ### Models -/

def findModel (d : Dev) (m : Nat) : Option Model := d.kv.models.find? (fun x => x.id == m)

def updModel (d : Dev) (m : Nat) (f : Model → Model) : Dev :=
  { d with kv.models := updWhere (fun x => x.id == m) f d.kv.models }

/-- Elements of a row of a kind in a layer (05 R83). -/
def rowElems (l : LayerRec) (kind : Nat) : Nat := if kind = 0 then l.sL + l.sP else 2 * l.h * l.dD

/-- Storage format of a kind in a layer. -/
def kindFmt (l : LayerRec) (kind : Nat) : Nat := if kind = 0 then l.stemFmt else l.directFmt

/-- Storage kinds of a layer: stem, and direct where it has direct heads (05 R82). -/
def layerKinds (l : LayerRec) : List Nat := if l.kind ≠ 0 then [] else if l.h = 0 then [0] else [0, 1]

/-- Bytes of a phrase of a kind in a layer. -/
def phraseBytes (l : LayerRec) (kind : Nat) : Nat := phraseKib (kindFmt l kind) (rowElems l kind) * 1024

/-- Bytes of one recurrent buffer of a layer (06 R130). -/
def recBytes (l : LayerRec) : Nat := l.rh * l.rk * l.rv * 4

/-- Layer record `i` of a model. -/
def layerRec (m : Model) (i : Nat) : Option LayerRec := m.layers[i]?

/-! ### Sessions and their catalog entries (02 R25-R28) -/

/-- The handle of a catalog entry (02 Table 2-2). -/
def handleOf (s : Sess) : Nat := s.gen * 2 ^ 24 + s.idx

/-- The session that a handle names, while its entry is not FREE. -/
def findSess (d : Dev) (h : Nat) : Option Sess :=
  d.kv.cat.find? (fun s => s.idx == h % 2 ^ 24 && s.gen == h / 2 ^ 24 && s.state != 0 && !s.retired)

def updSess (d : Dev) (h : Nat) (f : Sess → Sess) : Dev :=
  { d with kv.cat := updWhere (fun s => s.idx == h % 2 ^ 24 && s.gen == h / 2 ^ 24) f d.kv.cat }

/-- Object reference of a session. -/
def objSess (s : Sess) : Nat := objRef 1 s.ctx (handleOf s)

/-- Identifier checks of a session named at `off` (02 R22): only its own context on a context ring. [Log entry 13, DEDUCED.] -/
def checkSess (d : Dev) (v : Verb) (h off : Nat) : Except Fail Sess :=
  if h = 0 then failId stRange off
  else
    match ownerOf d 1 (h % 2 ^ 24) with
    | none => failId stStale off
    | some w =>
      if !v.admin && w ≠ v.ctx then failId stDenied off
      else
        match partError d v (ctxPart w) with
        | some st => failId st off
        | none =>
          match findSess d h with
          | some s => .ok s
          | none => failId stStale off

/-- Check 3 of a session that an object reference names with its context, whether or not the ring could reach another holder (02 R22). -/
def checkHeld (d : Dev) (c h off : Nat) : Except Fail Sess :=
  match findSess d h with
  | some s => if s.ctx = c then .ok s else failId stStale off
  | none => failId stStale off

/-- Whether a session is ACTIVE or IDLE for a verb or job of acceptance number `seq`: a PARK accepted later has set PARKING
before its snapshot, which waits for the writers accepted before it (09 R187). [Log entry 15, DEDUCED; entry 41, DEDUCED.] -/
def liveFor (s : Sess) (seq : Nat) : Bool := s.state == 1 || s.state == 2 || (s.state == 5 && decide (seq < s.parkSeq))

/-- Check 4 of Table 2-5 for the verbs that need an ACTIVE or IDLE session (09 R186). -/
def needLive (s : Sess) (v : Verb) (off : Nat) : Except Fail Unit :=
  if liveFor s v.seq then .ok () else failId stState off

/-- The empty detokenizer and tokenizer state (09 R193, 10 R223). -/
def tokZero : TokSt :=
  { detok := 0, closing := false, lex := none, lexDigest := [], showSpecial := false, rawBytes := false,
    includeStop := false, ringNamed := false, stopCount := 0, stopMax := 0, offset := 0, seq := 0, lastPos := none,
    dropped := 0, ringAddr := 0, ringLog2 := 0, ringPhase := false, vector := 0, headAddr := 0, written := 0,
    headRead := 0, pendingRecs := [], utfHold := [], utfPos := 0, stopHold := [], stops := [],
    blockedRaised := false, headClause := none, sigClause := none, sigOwed := false, tkOpen := false, tkPolicy := 0,
    tkUtf := [], tkClass := 0, tkHold := [], tkOffset := 0, tkLex := 0 }

/-- The empty grammar and sampler state. -/
def synZero : SynSt :=
  { mode := 0, grammar := none, gramDigest := [], state := 0, stack := [], finished := false, bindPos := 0, sinceSet := 0,
    params := [], setPos := 0 }

/-- A layer's state in a new session (09 R193): no phrases, recurrent buffers zero. -/
def layerZero (l : LayerRec) : LayerSt :=
  let recur := if l.kind = 1 then
      some { cur := [], shadow := [], len := 0, shadowLen := none, updates := 0, treeIn := [], poisoned := false }
    else none
  { stem := [], direct := [], tailFirst := 0, tails := [], draftFirst := 0, draft := [], draftMarks := [], recur := recur }

/-- Bytes of the session objects that a slot brings besides tails: the block and both buffers of each recurrent layer
(09 R193); sub 0 is the block, 2 + 2k and 3 + 2k the buffers of layer k, which lie in one stack (08 R168). -/
def allocSlot (d : Dev) (p home obj : Nat) (ls : List LayerRec) : Option Dev :=
  let blk := allocHome d p home 16384 obj 0
  ((List.range ls.length).zip ls).foldl (fun acc x =>
    match acc with
    | none => none
    | some d' =>
      if x.2.kind = 1 then
        (placeHome d' p home (2 * recBytes x.2)).map (fun st =>
          allocAt (allocAt d' p st (recBytes x.2) obj (2 + 2 * x.1)) p st (recBytes x.2) obj (3 + 2 * x.1))
      else some d') blk

/-- Set the charge of a session's token log to its length: 4 bytes an entry, sub 1. None: no room. [Log entry 36, DEDUCED.] -/
def chargeLog (d : Dev) (p home obj len : Nat) : Option Dev :=
  let d0 := freeAlloc d obj 1
  if len = 0 then some d0 else allocHome d0 p home (4 * len) obj 1

/-- Slots bound to the sessions of a partition. -/
def slotsUsed (d : Dev) (p : Nat) : Nat :=
  (d.kv.cat.filter (fun s => s.slot.isSome && ctxPart s.ctx == p)).length

/-- The slot that a verb takes (02 R28): free the longest among those that may be bound now. -/
def pickSlot (d : Dev) (p : Nat) : Option Nat :=
  match findPart d p with
  | none => none
  | some x =>
    if slotsUsed d p < x.slots then
      let bound := d.kv.cat.filterMap (·.slot)
      let held := (d.kv.slotHold.filter (fun h => decide (d.clk.count ≤ h.2))).map (·.1)
      longestFree d 0x20 (bound ++ held ++ d.rep.noSlots) 0 262144
    else none

/-- Release a session's slot: not bound again before the following clause (02 R28). -/
def releaseSlot (d : Dev) (s : Sess) : Dev :=
  match s.slot with
  | none => d
  | some n =>
    let d1 := stampFree d 0x20 n
    { d1 with kv.slotHold := upsert (fun x => x.1 == n) (n, d1.clk.count) d1.kv.slotHold }

/-- The catalog entry that SESS_OPEN, SESS_FORK or REVIVE takes (02 R25). -/
def pickEntry (d : Dev) : Option Nat :=
  longestFree d 1 ((d.kv.cat.filter (fun s => s.state != 0 || s.retired)).map (·.idx)) 0 16777216

/-- The generation of a catalog entry. -/
def entryGen (d : Dev) (i : Nat) : Nat :=
  match d.kv.cat.find? (fun s => s.idx == i) with
  | some s => s.gen
  | none => 0

/-- Store a session in its catalog entry and record its owner (02 R22). -/
def putEntry (d : Dev) (s : Sess) : Dev :=
  setOwner { d with kv.cat := upsert (fun x => x.idx == s.idx) s d.kv.cat } 1 s.idx s.ctx

/-- A new session of a context in state `st`. -/
def newSess (idx gen st ctx slot model home : Nat) (ls : List LayerRec) : Sess :=
  { idx := idx, gen := gen, retired := false, state := st, ctx := ctx, slot := some slot, model := model, log := [],
    layers := ls.map layerZero, tree := none, image := none, home := home, tok := tokZero, syn := synZero,
    marks := [], prior := 0, parkSeq := 0, openSeq := 0 }

/-! ### Phrases (05 R88-R94, 02 R30-R33) -/

def findPhrase (d : Dev) (p id : Nat) : Option Phrase := d.kv.phrases.find? (fun x => x.part == p && x.id == id)

def updPhrase (d : Dev) (p id : Nat) (f : Phrase → Phrase) : Dev :=
  { d with kv.phrases := updWhere (fun x => x.part == p && x.id == id) f d.kv.phrases }

/-- Name of a phrase's charge; its copies are sub 0 (HBM) and 1 (DDR). -/
def phraseKey (p id : Nat) : Nat := allocKey 2 (p * 2 ^ 32 + id)

/-- The next phrase ID of a partition that is not live (02 R20). -/
def nextPhraseId (live : List Nat) : Nat → Nat → Option Nat
  | 0, _ => none
  | k + 1, n =>
    let n' := if n = 2 ^ 32 - 1 then 1 else n + 1
    if live.contains n then nextPhraseId live k n' else some n

/-- Take a phrase ID: the counter advances by one at each allocation (02 R20). -/
def takePhraseId (d : Dev) (p : Nat) : Option (Nat × Dev) :=
  match findPart d p with
  | none => none
  | some x =>
    let live := (d.kv.phrases.filter (fun y => y.part == p)).map (·.id)
    match nextPhraseId live (live.length + 1) x.phraseNext with
    | none => none
    | some n => some (n, updPart d p (fun y => { y with phraseNext := if n = 2 ^ 32 - 1 then 1 else n + 1 }))

/-- An empty tail (05 R93). -/
def newTail (p ctx creator model layer kind first : Nat) (l : LayerRec) : Phrase :=
  { part := p, ctx := ctx, id := 0, fmt := kindFmt l kind, kind := kind, layer := layer, firstPos := first, count := 0,
    model := model, version := 1, dimA := if kind = 0 then l.sL else l.dD, dimB := if kind = 0 then l.sP else l.h,
    saturated := 0, clamped := false, replaced := false, sealed := false, draft := false, creator := creator,
    rows := [], refs := 0, holds := 0, hbm := none, ddr := false, flash := none, imageHolds := 0, poisonHbm := [],
    poisonDdr := [], hardHbm := [], hardDdr := [] }

/-- A phrase that holds nothing, for the place of one that does not exist. -/
def noPhrase : Phrase :=
  { part := 0, ctx := 0, id := 0, fmt := 0, kind := 0, layer := 0, firstPos := 0, count := 0, model := 0, version := 0,
    dimA := 0, dimB := 0, saturated := 0, clamped := false, replaced := false, sealed := false, draft := false,
    creator := 0, rows := [], refs := 0, holds := 0, hbm := none, ddr := false, flash := none, imageHolds := 0,
    poisonHbm := [], poisonDdr := [], hardHbm := [], hardDdr := [] }

/-- Sub name of a session's tail charge. -/
def tailSub (layer kind : Nat) : Nat := 100000 + layer * 4 + kind

/-- Sub name of a session's draft charge. -/
def draftSub (layer kind : Nat) : Nat := 200000 + layer * 4 + kind

/-- Stored length of a layer (05 R91, 06 R130). -/
def storedLen (l : LayerSt) : Nat :=
  match l.recur with
  | some r => r.len
  | none => l.tailFirst + (match l.tails with | t :: _ => t.count | [] => 0)

/-- The least stored length over the stem and recurrent layers of a session's model. -/
def minStored (m : Model) (s : Sess) : Nat :=
  let ls := ((m.layers.zip s.layers).filter (fun x => decide (x.1.kind < 2))).map (fun x => storedLen x.2)
  match ls with
  | [] => 0
  | x :: r => r.foldl Nat.min x

/-- Seal one full tail (05 R93): a new ID, a reference count of 1, and its HBM charge taken over by the phrase. -/
def sealTail (d : Dev) (p obj : Nat) (t : Phrase) : Option (Nat × Dev) :=
  match takePhraseId d p with
  | none => none
  | some (id, d1) =>
    let st := (stackOf d1 obj (tailSub t.layer t.kind)).getD 0
    let move := fun (a : Alloc) =>
      if a.obj == obj && a.sub == tailSub t.layer t.kind then { a with obj := phraseKey p id, sub := 0 } else a
    let ph := { t with id := id, sealed := true, refs := 1, holds := 0, hbm := some st }
    some (id, { d1 with pool.allocs := d1.pool.allocs.map move, kv.phrases := d1.kv.phrases ++ [ph] })

/-- Seal every full tail of a layer in kind order. -/
def sealTails (d : Dev) (p obj : Nat) : List Phrase → Option (List (Nat × Nat) × Dev)
  | [] => some ([], d)
  | t :: ts =>
    match sealTail d p obj t with
    | none => none
    | some (id, d1) =>
      match sealTails d1 p obj ts with
      | none => none
      | some (l, d2) => some ((t.kind, id) :: l, d2)

/-- Open new tails of a layer, charged to the home stack (05 R93, R96). -/
def openTails (d : Dev) (s : Sess) (layer : Nat) (l : LayerRec) (st : LayerSt) : Option (LayerSt × Dev) :=
  let p := ctxPart s.ctx
  let obj := allocKey 1 (handleOf s)
  (layerKinds l).foldl (fun acc k =>
    match acc with
    | none => none
    | some (x, d') =>
      (allocHome d' p s.home (phraseBytes l k) obj (tailSub layer k)).map (fun d'' =>
        ({ x with tails := x.tails ++ [newTail p s.ctx (handleOf s) s.model layer k x.tailFirst l] }, d'')))
    (some ({ st with tails := [] }, d))

/-- Store rows in a phrase, once per writing job or verb (05 R89): `rows` is what the phrase then holds, `new` the rows written, whose clamped
elements and repairs its header counts (05 R88, R92). -/
def writeRows (t : Phrase) (rows : List KvRow) (new : List NewRow) : Phrase :=
  { t with
    rows := rows
    count := rows.length
    version := t.version + 1
    saturated := t.saturated + satOf new
    clamped := t.clamped || new.any (·.clamped) }

/-- Add `k` rows to each tail of a layer. -/
def growTails (ts : List Phrase) (rows : List (List NewRow)) (k : Nat) : List Phrase :=
  (List.range ts.length).map (fun i =>
    let t := nth ts i noPhrase
    let new := (nth rows i []).take k
    { writeRows t (t.rows.take t.count ++ new.map (·.row)) new with count := t.count + k })

/-- Append rows, one list for each storage kind in order, to a layer's tails, sealing and opening tails as they fill (05 R91, R93). `none`: the
grant has no room and nothing is written (05 R96). `n` is the rows left; `fuel` bounds the tails. Answers the new layer state, the
phrases sealed, and the device. -/
def appendRows (s : Sess) (layer : Nat) (l : LayerRec) :
    Nat → Dev → LayerSt → List (List NewRow) → Nat → Option (LayerSt × Nat × Dev)
  | 0, d, st, _, _ => some (st, 0, d)
  | fuel + 1, d, st, rows, n =>
    if n = 0 then some (st, 0, d)
    else
      match (if st.tails.isEmpty then openTails d s layer l st else some (st, d)) with
      | none => none
      | some (st1, d1) =>
        let cnt := match st1.tails with | t :: _ => t.count | [] => 0
        let k := Nat.min (64 - cnt) n
        let ts := growTails st1.tails rows k
        let rest := rows.map (fun r => r.drop k)
        if cnt + k = 64 then
          match sealTails d1 (ctxPart s.ctx) (allocKey 1 (handleOf s)) ts with
          | none => none
          | some (ids, d2) =>
            let add := fun kd => (ids.filter (fun x => x.1 == kd)).map (·.2)
            let st2 := { st1 with
              stem := st1.stem ++ add 0
              direct := st1.direct ++ add 1
              tailFirst := st1.tailFirst + 64
              tails := [] }
            match appendRows s layer l fuel d2 st2 rest (n - k) with
            | none => none
            | some (st3, m, d3) => some (st3, m + ids.length, d3)
        else some ({ st1 with tails := ts }, 0, d1)

/-- The sealed phrases of a session's lists (layer order, stem before direct). -/
def sessPhrases (s : Sess) : List Nat := s.layers.flatMap (fun l => l.stem ++ l.direct)

/-- Release one session reference on a phrase: it may be freed at a boundary once its counts are zero (02 R33). -/
def releasePhrase (d : Dev) (p id : Nat) : Dev :=
  let d1 := updPhrase d p id (fun x => { x with refs := x.refs - 1 })
  { d1 with kv.releases := d1.kv.releases ++ [(p, id, d1.clk.count, 0)] }

/-- Release references on a list of phrases. -/
def releasePhrases (d : Dev) (p : Nat) (ids : List Nat) : Dev := ids.foldl (fun acc i => releasePhrase acc p i) d

/-- Whether every sealed phrase of a session has an HBM copy of record. -/
def allHbm (d : Dev) (s : Sess) : Bool :=
  (sessPhrases s).all (fun i =>
    match findPhrase d (ctxPart s.ctx) i with
    | some x => x.hbm.isSome
    | none => true)

/-- The residency state of a session: ACTIVE or IDLE (09 R184). -/
def residency (d : Dev) (s : Sess) : Nat := if allHbm d s then 1 else 2

/-- Whether no copy of a phrase can be read: each copy of record is poisoned somewhere. Flash copies are read through
their pages, whose losses the flash chapter keeps (`flashLost`). -/
def phraseUnreadable (x : Phrase) (flashLost : Bool) : Bool :=
  (x.hbm.isNone || !x.poisonHbm.isEmpty) && (!x.ddr || !x.poisonDdr.isEmpty) && (x.flash.isNone || flashLost)

/-- Release everything that a session holds in HBM but its phrase references: the block, log, tails, draft and
recurrent buffers. -/
def freeSlotObjects (d : Dev) (s : Sess) : Dev := freeAllocs d (allocKey 1 (handleOf s))

/-- What a session that gives up its content leaves in its entry. -/
def emptied (s : Sess) (st : Nat) : Sess :=
  { s with state := st, slot := none, log := [], layers := [], tree := none, image := none, tok := tokZero,
           syn := synZero, marks := [] }

/-- Free the entry of a session (02 R26): at generation 255 it is retired and RETIRED_SLOTS rises. -/
def freeEntry (d : Dev) (s : Sess) : Dev :=
  let put := fun (e : Sess) => { d with kv.cat := upsert (fun x => x.idx == s.idx) e d.kv.cat }
  if s.gen = 255 then bump (put { emptied s 0 with retired := true }) 0 0 5 1
  else stampFree (put (emptied s 0)) 1 s.idx

/-- Whether a job that was accepted before `seq` and writes the session is unfinished (09 R187). [Log entry 40, DEDUCED.] -/
def jobWritesBefore (d : Dev) (h seq : Nat) : Bool :=
  d.arr.jobs.any (fun j => decide (j.seq < seq) && jobWrites d j && j.sessions.contains h)

/-- Whether an ATTEND or SAMPLE accepted before `seq`, whose sessions are not known until it is taken up, may name the session. -/
def untakenBefore (d : Dev) (h seq : Nat) : Bool :=
  d.tur.verbs.any (fun w => decide (w.seq < seq) && (w.op == 0x0405 || w.op == 0x0605) && !w.running &&
    (match findSess d h with | some s => w.admin || w.part == ctxPart s.ctx | none => false))

/-- Whether a writer of the session accepted before `seq` is unfinished (05 R95, 09 R187). [Log entry 40, DEDUCED.] -/
def writersBefore (d : Dev) (h seq : Nat) : Bool :=
  d.tur.verbs.any (fun w => decide (w.seq < seq) && verbWritesSession w.op && verbSession w == h) ||
    jobWritesBefore d h seq || untakenBefore d h seq

end Sys2Proof.Machine
end

