-- ==== Sys2Proof/Machine/KernelLoad.lean ====
section
/-!
DEFINITION. Kernel images (07 R143, R145, R154-R158): the static checks of KERNEL_LOAD, the policy of R156 and the
measurement record of R358; KERNEL_LOAD and KERNEL_UNLOAD.
-/

namespace Sys2Proof.Machine

/-! ### Descriptors (07 R143-R145) -/

/-- Field of `len` bytes at `off` of a descriptor. -/
def df (x off len : Nat) : Nat := x / 2 ^ (8 * off) % 2 ^ (8 * len)

/-- NAME of the operand reference at `off` (07 R144). -/
def orefName (x off : Nat) : Nat := df x off 8 / 2 ^ 52

/-- SEL of an operand reference. -/
def orefSel (x off : Nat) : Nat := df x off 8 / 2 ^ 49 % 8

/-- STRIDE of an operand reference, signed, in 64-byte units. -/
def orefStride (x off : Nat) : Int := toSigned 21 (df x off 8 / 2 ^ 28 % 2 ^ 21)

/-- OFFSET of an operand reference, in 64-byte units. -/
def orefOffset (x off : Nat) : Nat := df x off 8 % 2 ^ 28

/-- The NAME value of no operand. -/
def noName : Nat := 0xFFF

/-- An operand of an opcode: its offset, whether it may be absent, the classes it may have (none listed: any), and
whether the descriptor writes it. -/
structure Operand where
  off : Nat
  opt : Bool
  classes : List Nat
  write : Bool
  deriving DecidableEq, Repr

def opd (off : Nat) (classes : List Nat) (write : Bool) : Operand :=
  { off := off, opt := false, classes := classes, write := write }

def opdOpt (off : Nat) (classes : List Nat) (write : Bool) : Operand :=
  { off := off, opt := true, classes := classes, write := write }

/-- Classes that a kernel may write through an ordinary descriptor (07 Table 7-3). -/
def writableClasses : List Nat := [0, 1, 5, 6, 12, 13]

/-- Whether VOP operation `op` uses operand B, and C. -/
def vopUsesB (op : Nat) : Bool := [1, 2, 3, 4, 5, 6, 20, 21].contains op
def vopUsesC (op : Nat) : Bool := [4, 21].contains op

/-- The operand references of a descriptor (07 Table 7-8). A store operand without a stated class takes any class. [Log entry 48, DEDUCED.] -/
def operandsOf (x : Nat) : List Operand :=
  let hdr := bitSet (df x 35 1) 1
  let split := bitSet (df x 35 1) 0
  match df x 0 1 with
  | 0x10 =>
    [opd 8 [] false, opd 16 [0, 1] true] ++ (if split then [opd 24 [] false] else []) ++ (if hdr then [opd 40 [0, 1] true] else [])
  | 0x11 => [opd 8 [0, 1] false, opd 16 writableClasses true] ++ (if split then [opd 24 writableClasses true] else [])
  | 0x12 => [opd 8 [] false, opd 16 [0, 1] true, opd 24 [0] false]
  | 0x13 => [opd 8 [0] false, opd 16 writableClasses true, opd 24 [0] false]
  | 0x14 => [opd 8 [0, 1] true]
  | 0x20 => [opd 8 [] false, opd 16 [] false]
  | 0x22 => [opd 8 [0] true]
  | 0x23 => [opd 8 [0] false]
  | 0x30 => (if bitSet (df x 26 1) 0 then [] else [opd 8 [] false]) ++ [opd 16 writableClasses true, opdOpt 32 [0] true]
  | 0x31 => [opd 8 [] false, opd 16 writableClasses true]
  | 0x40 => (if bitSet (df x 46 1) 1 then [] else [opd 8 writableClasses true]) ++
      (if bitSet (df x 46 1) 0 then [] else [opd 16 [] false]) ++
      [if vopUsesB (df x 40 1) && df x 42 1 ≠ 4 then opd 24 [] false else opdOpt 24 [] false,
        if vopUsesC (df x 40 1) && df x 43 1 ≠ 4 then opd 32 [] false else opdOpt 32 [] false]
  | 0x42 => [opd 8 writableClasses true] ++ (if bitSet (df x 29 1) 0 then [] else [opd 16 [] false])
  | 0x43 => [opd 8 writableClasses true, opd 16 [] false, opd 24 [] false, opd 32 [] false]
  | 0x50 => [opd 8 [0] true, opd 16 writableClasses true, opd 24 writableClasses true]
  | 0x51 => [opd 8 [0] true, opd 16 [] false]
  | 0x52 => [opd 8 [10] false, opd 16 [] false, opd 24 [] false, opdOpt 32 [0] false, opd 40 [] false]
  | 0x58 => [opd 8 [0] false]
  | 0x5C => [opd 8 [0] false]
  | _ => []

/-- The bytes that an opcode's operands use beyond the header, as (first, count) ranges. -/
def usedBytes (op : Nat) : List (Nat × Nat) :=
  match op with
  | 0x10 => [(8, 30), (40, 8)]
  | 0x11 => [(8, 28)]
  | 0x12 => [(8, 28)]
  | 0x13 => [(8, 28)]
  | 0x14 => [(8, 14)]
  | 0x20 => [(8, 23)]
  | 0x22 => [(8, 11), (20, 4)]
  | 0x23 => [(8, 10)]
  | 0x30 => [(8, 19), (28, 14)]
  | 0x31 => [(8, 18), (28, 4), (40, 2)]
  | 0x40 => [(8, 39), (48, 4)]
  | 0x42 => [(8, 22)]
  | 0x43 => [(8, 33), (42, 2)]
  | 0x50 => [(8, 45)]
  | 0x51 => [(8, 20)]
  | 0x52 => [(8, 52)]
  | 0x58 => [(8, 16)]
  | 0x5C => [(8, 8)]
  | 0x60 => [(8, 1), (12, 2)]
  | 0x61 => [(8, 1), (12, 2)]
  | 0x62 => [(8, 1)]
  | 0x64 => [(8, 2)]
  | 0x65 => [(8, 16)]
  | 0x66 => [(8, 9)]
  | 0x70 => [(8, 2), (12, 4)]
  | 0x71 => [(8, 1)]
  | 0x72 => [(8, 2)]
  | _ => []

/-- The opcodes of Table 7-8. -/
def opcodes : List Nat :=
  [0x00, 0x10, 0x11, 0x12, 0x13, 0x14, 0x20, 0x22, 0x23, 0x30, 0x31, 0x40, 0x42, 0x43, 0x50, 0x51, 0x52, 0x58, 0x5C,
    0x60, 0x61, 0x62, 0x63, 0x64, 0x65, 0x66, 0x70, 0x71, 0x72, 0x7F]

/-- Width in bytes of the PRM field that starts at an offset (07 Table 7-5); 0 where no 16- or 32-bit field starts. -/
def prmWidth (off : Nat) : Nat :=
  if [0, 4, 8, 24, 28, 32, 40].contains off then 4
  else if [12, 14, 16, 18, 20, 22, 36, 44, 46, 50].contains off then 2
  else 0

/-- Whether a format is a MAC operand. -/
def macFmt (c : Nat) : Bool := [1, 2, 3, 4, 5, 6, 8].contains c

/-- An accumulator number in one byte: bits 7-4 zero. -/
def accOk (n : Nat) : Bool := decide (n < 16)

/-- A count within a range. -/
def inR (n lo hi : Nat) : Bool := decide (lo ≤ n) && decide (n ≤ hi)

/-- The scalar operand fields of a descriptor within their ranges (07 Table 7-8). -/
def scalarsOk (x sems : Nat) : Bool :=
  let b := fun o => df x o 1
  let w := fun o => df x o 2
  match b 0 with
  | 0x10 =>
    let hdr := bitSet (b 35) 1
    let split := bitSet (b 35) 0
    decide (b 35 < 4) && (hdr || inR (w 32) 1 256) && tileFmtOk (b 34) && (!split || isMx (b 34)) &&
      (split || orefName x 24 == noName) && (hdr || orefName x 40 == noName || df x 40 8 == 0)
  | 0x11 => inR (w 32) 1 256 && tileFmtOk (b 34) && decide (b 35 < 2) &&
      (if bitSet (b 35) 0 then isMx (b 34) else orefName x 24 == noName)
  | 0x12 => inR (w 32) 1 1024 && inR (w 34) 1 64
  | 0x13 => inR (w 32) 1 1024 && inR (w 34) 1 64
  | 0x14 => inR (w 20) 1 4096
  | 0x20 => accOk (b 24) && macFmt (b 25) && macFmt (b 26) && ((b 25 == 6) == (b 26 == 6)) && decide (b 27 < 4) &&
      inR (w 28) 1 64 && b 30 / 4 % 32 == 0
  | 0x22 => accOk (b 16) && [3, 7, 9].contains (b 17) && decide (b 18 < 2)
  | 0x23 => accOk (b 16) && [7, 9].contains (b 17)
  | 0x30 => [3, 7].contains (b 24) && [1, 2, 3, 4, 5, 8].contains (b 25) && decide (b 26 < 2) && inR (w 40) 1 64 &&
      (!bitSet (b 26) 0 || decide (df x 8 8 < 16))
  | 0x31 => tileFmtOk (b 24) && [3, 7].contains (b 25) && inR (w 40) 1 64
  | 0x40 => decide (b 40 ≤ 21) && [3, 7].contains (b 41) && decide (b 42 ≤ 4) && decide (b 43 ≤ 4) && inR (w 44) 1 64 &&
      decide (b 46 < 4) && (!bitSet (b 46) 0 || decide (df x 16 8 < 16)) && (!bitSet (b 46) 1 || decide (df x 8 8 < 16))
  | 0x42 => decide (b 24 < 4) && decide (b 25 < 2) && inR (w 26) 1 64 && decide (b 29 < 2) &&
      (if bitSet (b 29) 0 then [7, 9].contains (b 28) && decide (df x 16 8 < 16) else [3, 7].contains (b 28))
  | 0x43 => inR (b 40) 1 2 && inR (w 42) 2 256 && w 42 % 2 == 0
  | 0x50 => accOk (b 32) && accOk (b 33) && decide (b 34 ≤ 15) && decide (b 35 ≤ 3) && [3, 4].contains (b 36) &&
      decide (b 37 ≤ 8) && inR (w 38) 1 32 && decide (b 52 ≤ 1)
  | 0x51 => inR (w 24) 1 1024 && inR (w 26) 32 1024
  | 0x52 => decide (b 54 ≤ 1) && accOk (b 55)
  | 0x58 => decide (b 16 ≤ 1) && [3, 7].contains (b 17) && inR (w 18) 1 32
  | 0x60 => decide (b 8 < sems) && inR (w 12) 1 65535
  | 0x61 => decide (b 8 < sems) && inR (w 12) 1 65535
  | 0x62 => decide (b 8 ≤ 1)
  | 0x64 => inR (b 8) 48 55 && decide (b 9 ≤ 2)
  | 0x65 => decide (df x 8 8 < 2 ^ 56) && decide (df x 16 8 < 2 ^ 56)
  | 0x66 => decide (b 16 ≤ 1)
  | 0x70 => decide (b 8 ≤ 3) && decide (b 9 ≤ 1) &&
      (if b 9 = 0 then decide (df x 12 4 ≤ 65536) else decide (0 < prmWidth (df x 12 4)))
  | 0x71 => decide (b 8 ≤ 3)
  | 0x72 => inR (w 8) 1 1023
  | _ => true

/-- The common header of a descriptor (07 Table 7-6): reserved bits, DONE_FLAG below 56. -/
def headerOk (x : Nat) : Bool :=
  decide (df x 1 1 < 2) && df x 4 4 == 0 && decide (df x 3 1 < 56) && opcodes.contains (df x 0 1)

/-- Bytes of a descriptor that no field uses are zero. -/
def unusedZero (x : Nat) : Bool :=
  (rangeFrom 8 56).all (fun i =>
    (usedBytes (df x 0 1)).any (fun r => decide (r.1 ≤ i) && decide (i < r.1 + r.2)) || df x i 1 == 0)

/-- One operand reference against the name table: name, class, write right, SEL, and the static offset of a TS or CS
name. -/
def operandOk (names : List KName) (ts cs x : Nat) (o : Operand) : Bool :=
  if orefName x o.off = noName then o.opt
  else
    match names[orefName x o.off]? with
    | none => false
    | some n =>
      let at0 := (n.base + orefOffset x o.off) * 64
      decide (orefSel x o.off < 7) && (o.classes.isEmpty || o.classes.contains n.cls) &&
        (!o.write || (writableClasses.contains n.cls && bitSet n.flags 0)) &&
        (n.cls != 0 || decide (at0 < ts)) && (n.cls != 1 || decide (at0 < cs)) &&
        (o.write || !(n.cls == 5 || n.cls == 10 || n.cls == 12) || o.classes.contains n.cls)

/-- Whether a descriptor passes the checks that concern it alone (07 R157). -/
def descOk (names : List KName) (ts cs sems caps : Nat) (x : Nat) : Bool :=
  headerOk x && unusedZero x && scalarsOk x sems && (operandsOf x).all (operandOk names ts cs x) &&
    (df x 0 1 != 0x63 || bitSet caps 1) && (df x 0 1 != 0x5C || bitSet caps 2) && (df x 0 1 != 0x58 || bitSet caps 3) &&
    !((df x 0 1 == 0x70 || df x 0 1 == 0x71) && bitSet (df x 2 1) 7)

/-- The loop stack before each descriptor: the open LOOP_BEGINs as (index, counter), innermost first. The second part is
the first descriptor that breaks the nesting, for a loop left open its LOOP_BEGIN. -/
def loopScan : Nat → List (Nat × Nat) → List Nat → List (List (Nat × Nat)) × Option Nat
  | _, st, [] => ([], (st.getLast?).map (·.1))
  | i, st, x :: xs =>
    if df x 0 1 = 0x70 then
      if st.any (fun s => s.2 == df x 8 1) then ([st], some i)
      else
        let r := loopScan (i + 1) ((i, df x 8 1) :: st) xs
        (st :: r.1, r.2)
    else if df x 0 1 = 0x71 then
      match st with
      | s :: rest =>
        if s.2 = df x 8 1 then
          let r := loopScan (i + 1) rest xs
          (st :: r.1, r.2)
        else ([st], some i)
      | [] => ([st], some i)
    else
      let r := loopScan (i + 1) st xs
      (st :: r.1, r.2)

/-- Whether the SKIP at `i` stays in its loop body and does not skip the last descriptor (07 R149, R157). -/
def skipOk (depths : List (List (Nat × Nat))) (i n total : Nat) : Bool :=
  let here := nth depths i []
  decide (i + n + 1 < total) && nth depths (i + n + 1) [] == here &&
    (rangeFrom (i + 1) (n + 1)).all (fun j => decide (here.length ≤ (nth depths j []).length))

/-! ### NB descriptors that a programme reaches statically (08 R166) -/

/-- Whether an operation of Table 8-1 reads a row vector. -/
def nbUsesV (op : Nat) : Bool := op == 2 || op == 3 || op == 4

/-- Whether the fields of an NB descriptor are in range (08 Table 8-3). -/
def nbOk (x : Nat) : Bool :=
  let b := fun o => df x o 1
  decide (b 0 ≤ 5) && (b 1 == 3 || b 1 == 7) && decide (b 2 ≤ 5) && decide (b 3 < 4) && inR (df x 4 2) 1 16 &&
    df x 6 2 == 0 && inR (df x 8 4) 1 1024 && inR (df x 12 4) 1 4096 &&
    (b 2 != 0 || (b 0 != 5 && !(bitSet (b 3) 0 && b 0 != 0))) && ((b 0 == 0) == (orefName x 16 == noName)) &&
    nbUsesV (b 0) == (orefName x 48 != noName) && [16, 24, 32, 40, 48, 56].all (fun o => orefName x o == noName || orefSel x o != 7)

/-- The classes that Table 8-3 allows: of an operand by its offset in the descriptor. -/
def nbClasses (off : Nat) : List Nat :=
  match off with
  | 16 => [11, 12, 13]
  | 24 => [12, 13]
  | _ => [0]

/-- The static address in the tile store, in 64-byte lines, of an operand that no loop or rank moves. -/
def staticLine (names : List KName) (x off : Nat) : Option Nat :=
  match names[orefName x off]? with
  | some n => if n.cls = 0 && orefSel x off = 0 then some (n.base + orefOffset x off) else none
  | none => none

/-- What a 64-byte line of the tile store holds after one more descriptor of a straight run, where that is known before the kernel runs: an
unwritten line reads zeros (07 R137), FILL writes a pattern, and anything else that may write the tile store leaves it unknown. -/
def lineAfter (names : List KName) (line : Nat) (was : Option Nat) (x : Nat) : Option Nat :=
  let op := df x 0 1
  let tsWrite := (operandsOf x).any (fun o => o.write && (match names[orefName x o.off]? with | some n => n.cls == 0 | none => false))
  if op = 0x72 then none
  else if !tsWrite then was
  else if op = 0x14 && !bitSet (df x 2 1) 7 then
    match staticLine names x 8 with
    | some a => if a ≤ line && line < a + df x 20 2 then some (sumNat ((List.range 16).map (fun i => df x 16 4 * 2 ^ (32 * i)))) else was
    | none => none
  else none

/-- Whether the NB_ISSUE at `i` names a descriptor whose content is known before the kernel runs and passes no check of 08 R166. [Log entry 48, DEDUCED.] -/
def nbStaticBad (names : List KName) (ds : List Nat) (i : Nat) : Bool :=
  let x := nth ds i 0
  if df x 0 1 ≠ 0x5C then false
  else match staticLine names x 8 with
    | none => false
    | some line =>
      match (ds.take i).foldl (lineAfter names line) (some 0) with
      | none => false
      | some y => !nbOk y || [16, 24, 32, 40, 48, 56].any (fun o => orefName y o != noName &&
          (match names[orefName y o]? with | some n => !(nbClasses o).contains n.cls | none => true))

/-- The first descriptor of a programme that fails a check. -/
def badDesc (names : List KName) (ts cs sems caps : Nat) (ds : List Nat) : Option Nat :=
  let scan := loopScan 0 [] ds
  let idx := (List.range ds.length).zip ds
  let bad := (idx.filter (fun p => !descOk names ts cs sems caps p.2 ||
    (df p.2 0 1 == 0x72 && !skipOk scan.1 p.1 (df p.2 8 2) ds.length) || nbStaticBad names ds p.1)).map (·.1)
  let last := match ds.getLast? with
    | some x => if df x 0 1 = 0x7F && !bitSet (df x 2 1) 7 then [] else [ds.length - 1]
    | none => [0]
  let all := bad ++ scan.2.toList ++ last
  match all with
  | [] => none
  | a :: r => some (r.foldl Nat.min a)

/-! ### The image (07 R154) -/

/-- One name entry of Table 7-10. -/
def nameOf (bs : List Byte) (i : Nat) : KName :=
  { cls := fieldAt bs (16 * i) 1, fmt := fieldAt bs (16 * i + 1) 1, flags := fieldAt bs (16 * i + 2) 1,
    size := fieldAt bs (16 * i + 4) 4, base := fieldAt bs (16 * i + 8) 4 }

/-- Whether a name entry is well formed. -/
def nameOk (bs : List Byte) (i ts cs : Nat) : Bool :=
  let n := nameOf bs i
  decide (n.cls ≤ 13) && decide (n.fmt ≤ 9) && decide (n.flags < (if n.cls = 1 then 4 else 2)) &&
    fieldAt bs (16 * i + 3) 1 == 0 && fieldAt bs (16 * i + 12) 4 == 0 &&
    ([0, 1, 13].contains n.cls || n.size == 0) && ([0, 1, 3].contains n.cls || n.base == 0) &&
    (n.cls != 0 || decide ((n.base + n.size) * 64 ≤ ts)) && (n.cls != 1 || decide ((n.base + n.size) * 64 ≤ cs)) &&
    (n.cls != 13 || decide (n.size ≤ 1048576)) &&
    (!bitSet n.flags 0 || writableClasses.contains n.cls || n.cls == 10)

/-- Whether the header and the name table of an image pass (07 Table 7-9, Table 7-10). -/
def kernelHeadOk (bs : List Byte) : Bool :=
  let nd := fieldAt bs 4 2
  let nn := fieldAt bs 6 2
  let nt := fieldAt bs 20 4
  let pr := fieldAt bs 24 4
  let sg := fieldAt bs 28 4
  let n := fieldAt bs 32 4
  let fin := if sg = 0 then n else sg
  decide (256 ≤ bs.length) && fieldAt bs 0 4 == 1 && inR nd 1 1024 && inR nn 1 1024 && decide (fieldAt bs 8 1 ≤ 64) &&
    decide (fieldAt bs 9 1 ≤ 4) && decide (fieldAt bs 10 1 < 16) && fieldAt bs 11 1 == 0 &&
    decide (fieldAt bs 12 4 ≤ 262144) && decide (fieldAt bs 16 4 ≤ 3932160) && nt % 64 == 0 && pr % 64 == 0 &&
    n == bs.length && decide (n ≤ 131072) && (sg == 0 || sg + 576 == n) &&
    decide (256 ≤ nt) && decide (nt + 16 * nn ≤ fin) && decide (256 ≤ pr) && decide (pr + 64 * nd ≤ fin) &&
    allZero ((bs.drop 40).take 24) && allZero ((bs.drop 128).take 128) &&
    (List.range 16).all (fun s => fieldAt bs 36 4 / 4 ^ s % 4 != 3) &&
    (List.range nn).all (fun i => nameOk (bs.drop nt) i (fieldAt bs 12 4) (fieldAt bs 16 4))

/-- The descriptors of an image whose header passed. -/
def kernelDescs (bs : List Byte) : List Nat :=
  (List.range (fieldAt bs 4 2)).map (fun i => leNat ((bs.drop (fieldAt bs 24 4 + 64 * i)).take 64))

/-- The kernel that an image makes. -/
def kernelOf (bs : List Byte) (id part : Nat) : Kernel :=
  { id := id, part := part, digest := sha512 bs, descs := kernelDescs bs,
    names := (List.range (fieldAt bs 6 2)).map (nameOf (bs.drop (fieldAt bs 20 4))), sems := fieldAt bs 8 1,
    gangLog2 := fieldAt bs 9 1, caps := fieldAt bs 10 1, tsBytes := fieldAt bs 12 4, csBytes := fieldAt bs 16 4,
    semScopes := fieldAt bs 36 4, bytes := bs.length, poison := [], damaged := [] }

/-! ### Policy and measurement (07 R156, 15 R358) -/

/-- An 80-byte entry of a partition's measurement record. -/
def measBytes (kind id result : Nat) (digest : List Byte) : List Byte :=
  [byte kind, 0] ++ natLe id 2 ++ [byte result] ++ List.replicate 11 0 ++ padTo digest 64

/-- Extend a partition's record M and its log, which keeps the newest 65,536 entries (20 R456). -/
def measure (d : Dev) (p kind id result : Nat) (digest : List Byte) : Dev :=
  let e := measBytes kind id result digest
  updPart d p (fun x =>
    let l := x.log ++ [MeasEntry.mk x.logNext e]
    let cut := l.take (l.length - 65536)
    { x with
      digest := sha512 (x.digest ++ e)
      logBase := cut.foldl (fun m c => sha512 (m ++ c.bytes)) x.logBase
      log := l.drop (l.length - 65536)
      logNext := x.logNext + 1 })

/-- The policy's result for an image: none where it must be refused (07 R156). -/
def policyResult (x : Part) (signed : Nat) : Option Nat :=
  if x.signed then (if signed = 0 then none else some signed) else some 0

def findKernel (d : Dev) (k : Nat) : Option Kernel := d.arr.kernels.find? (fun x => x.id == k)

/-- Name of a kernel's charge. -/
def kernelKey (k : Nat) : Nat := allocKey 7 k

/-! ### The verbs -/

/-- KERNEL_LOAD (07 R157). [Log entry 52, DEDUCED.] -/
def kernelLoadBody (v : Verb) (d : Dev) : Except Fail Dev := do
  let off := fld v 16 8
  let n := fld v 24 8
  check4 v true [(32, 32)]
    [(16, off % 4096 == 0 && argIn d v off n), (24, decide (n ≤ 131072) && argIn d v 0 n),
     (24, structOk d v off n (fun bs => fieldAt bs 32 4 == n))]
  let bs ← argRead d v off n
  let c ← checkCtx73 d v
  let p := ctxPart c
  if 4096 ≤ d.arr.kernels.length then failSt stLimit else
  match longestFree d 7 (d.arr.kernels.map (·.id)) 0 4096, allocMost d p n 0 0, findPart d p with
  | some id, some _, some x =>
    if !kernelHeadOk bs then failWith stRange [(10, 2, 0xFFFF)]
    else
      let k := kernelOf bs id p
      match badDesc k.names k.tsBytes k.csBytes k.sems k.caps k.descs with
      | some i => failWith stRange [(10, 2, i)]
      | none =>
        let sg := fieldAt bs 28 4
        let key := if x.keyId.isEmpty then [] else x.ownerKey
        let signed := if sg = 0 || !x.signed then 0 else imageSigned key (bs.take sg) (bs.drop sg)
        match policyResult x signed with
        | none => failWith stDigest [(10, 2, 0xFFFF)]
        | some r =>
          match allocMost d p n (kernelKey id) 0 with
          | none => failSt stNospace
          | some d1 =>
            let d2 := setOwner { d1 with arr.kernels := d1.arr.kernels ++ [k] } 7 id (p * 64)
            .ok (finishOk (measure d2 p 3 id r k.digest) v
              [(8, 2, id), (10, 2, 0xFFFF), (16, 16, leNat (k.digest.take 16))])
  | _, none, _ => failSt stNospace
  | _, _, _ => failSt stLimit

/-- Whether a loaded model's programme references a kernel (02 R24). -/
def kernelUsed (d : Dev) (k : Nat) : Bool :=
  d.kv.models.any (fun m => m.layers.any (fun l => decide (l.kind < 2) && (l.kIn == k || l.kAtt == k || l.kOut == k)))

/-- KERNEL_UNLOAD (07 R158). -/
def kernelUnloadBody (v : Verb) (d : Dev) : Except Fail Dev := do
  let k := fld v 16 2
  check4 v false [(18, 46)] [(16, decide (k < 4096))]
  checkOwned d v 7 k 16 (findKernel d k).isSome
  if kernelUsed d k then failSt stBusy
  else
    let d1 := freeAllocs (nextRelease d) (kernelKey k)
    let d2 := { d1 with
      arr.kernels := dropWhere (fun (x : Kernel) => x.id == k) d1.arr.kernels
      arr.kcache := d1.arr.kcache.map (fun x => (x.1, x.2.filter (fun n => n != k))) }
    .ok (finishOk (stampFree d2 7 k) v [])

end Sys2Proof.Machine
end

