-- ==== Sys2Proof/Machine/Bus.lean ====
section
/-!
DEFINITION. Bus-mastered CXL.io requests (17 R405, R406).
-/

namespace Sys2Proof.Machine

/-- Whether an LD may master the bus: bound to a host and Bus Master Enable set (17 R406). [Log entry 103, DEDUCED.] -/
def busOk (d : Dev) (n : Nat) : Bool :=
  match d.cxl.lds[n]? with
  | some x => x.bound && bitSet x.command 2 && decide (0 < d.cxl.width)
  | none => false

/-- Count a failed request. [Log entry 103, DEDUCED.] -/
def busFailed (d : Dev) (n : Nat) : Dev := if n < 16 then bump d 1 n 5 1 else d

/-- The requests of a write: at most 512 bytes each, split at multiples of 512, in issue order (17 R405). [Log entry 103, DEDUCED.] -/
def payloads (addr : Nat) (bs : List Byte) : List (Nat × List Byte) :=
  let lead := 512 - addr % 512
  (addr, bs.take lead) :: (List.range (ceilDiv (bs.length - lead) 512)).map (fun i => (addr + lead + 512 * i, (bs.drop (lead + 512 * i)).take 512))

/-- A posted write of LD `n`; none where the request fails. [Log entry 103, DEDUCED.] -/
def busWrite (d : Dev) (n addr : Nat) (bs : List Byte) : Option Dev :=
  if busOk d n then some { d with outs.hostWrites := d.outs.hostWrites ++ (payloads addr bs).map (fun x => (n, x.1, x.2)) } else none

/-- A read of LD `n`: it stays outstanding until its data, an error or its timeout; none where it fails at once. -/
def busRead (d : Dev) (n addr len : Nat) (why : BusWhy) : Option Dev :=
  if busOk d n then
    let r : BusReq := { id := d.busNext, ld := n, read := true, addr := addr, len := len, issued := d.tim.elapsed, why := why }
    some { d with bus := d.bus ++ [r], busNext := d.busNext + 1 }
  else none

end Sys2Proof.Machine
end

