-- ==== Sys2Proof/Machine/TextEnc.lean ====
section
/-!
DEFINITION. Text: UTF-8 units (10 R208), lexicon images and their tables (10 R202-R205), and the encoder (10 R209-R211).
-/

namespace Sys2Proof.Machine

/-! ### UTF-8 (10 R208) -/

/-- Ranges of the continuation bytes that may follow a lead byte; none for a byte that starts no character. -/
def utfFollow (b : Nat) : Option (List (Nat × Nat)) :=
  let c := (0x80, 0xBF)
  if b < 0x80 then some []
  else if inB b 0xC2 0xDF then some [c]
  else if b = 0xE0 then some [(0xA0, 0xBF), c]
  else if b = 0xED then some [(0x80, 0x9F), c]
  else if inB b 0xE1 0xEF then some [c, c]
  else if b = 0xF0 then some [(0x90, 0xBF), c, c]
  else if inB b 0xF1 0xF3 then some [c, c, c]
  else if b = 0xF4 then some [(0x80, 0x8F), c, c]
  else none
where
  inB (n lo hi : Nat) : Bool := decide (lo ≤ n) && decide (n ≤ hi)

/-- Match continuation bytes: how many fit, and 0 all, 1 a byte does not fit, 2 the text ends first. -/
def utfTail : List (Nat × Nat) → List Byte → Nat × Nat
  | [], _ => (0, 0)
  | _ :: _, [] => (0, 2)
  | r :: rs, b :: bs =>
    if r.1 ≤ b.toNat && b.toNat ≤ r.2 then
      let t := utfTail rs bs
      (t.1 + 1, t.2)
    else (0, 1)

/-- The first unit of a byte string: 0 a character, 1 an invalid unit (a maximal subpart), 2 an incomplete character; and its
length. -/
def utfFirst : List Byte → Nat × Nat
  | [] => (2, 0)
  | b :: bs =>
    match utfFollow b.toNat with
    | none => (1, 1)
    | some rs =>
      let t := utfTail rs bs
      (t.2, t.1 + 1)

/-- The units of a byte string; `fuel` is its length. -/
def utfUnits : Nat → List Byte → List (Nat × List Byte)
  | 0, _ => []
  | _, [] => []
  | k + 1, bs =>
    let u := utfFirst bs
    (u.1, bs.take u.2) :: utfUnits k (bs.drop u.2)

/-- Whether a byte string is valid UTF-8. -/
def utfValid (bs : List Byte) : Bool := (utfUnits bs.length bs).all (fun u => u.1 == 0)

/-- U+FFFD. -/
def utfFffd : List Byte := [0xEF, 0xBF, 0xBD]

/-- The code point of a character. -/
def codePoint (bs : List Byte) : Nat :=
  match bs.map BitVec.toNat with
  | [a] => a
  | [a, b] => a % 32 * 64 + b % 64
  | [a, b, c] => a % 16 * 4096 + b % 64 * 64 + c % 64
  | [a, b, c, e] => a % 8 * 262144 + b % 64 * 4096 + c % 64 * 64 + e % 64
  | _ => 0

/-! ### Lexicon images (10 Tables 10-1, 10-2) -/

/-- An entry: token number, kind (0 ORDINARY, 1 SPECIAL, 2 BYTE), string. -/
structure LexEntry where
  tok : Nat
  kind : Nat
  str : List Byte
  deriving DecidableEq, Repr

/-- The entry words of an image. -/
def lexWords (b : List Byte) : List Nat :=
  (List.range (fieldAt b 4 4)).map (fun i => fieldAt b (fieldAt b 16 8 + 8 * i) 8)

/-- Entries with their strings, which lie back to back in the pool. -/
def lexWalk (b : List Byte) : List Nat → Nat → List LexEntry
  | [], _ => []
  | w :: ws, at' =>
    let n := bitsOf w 31 24
    { tok := bitsOf w 18 0, kind := bitsOf w 33 32, str := (b.drop at').take n } :: lexWalk b ws (at' + n)

/-- The entries of an image. -/
def lexEntries (b : List Byte) : List LexEntry := lexWalk b (lexWords b) (fieldAt b 24 8)

/-- The class ranges of an image: first and last code point, class. -/
def lexRanges (b : List Byte) : List (Nat × Nat × Nat) :=
  (List.range (fieldAt b 8 4)).map (fun i =>
    let w := fieldAt b (fieldAt b 40 8 + 8 * i) 8
    (bitsOf w 20 0, bitsOf w 41 21, bitsOf w 45 42))

/-- SPLIT[a][b] of an image (10 R203). -/
def lexSplit (b : List Byte) (x y : Nat) : Bool :=
  bitSet (fieldAt b (fieldAt b 40 8 + 8 * fieldAt b 8 4 + 2 * x) 2) y

/-- The class of a character (10 R209). -/
def lexClass (b : List Byte) (ch : List Byte) : Nat :=
  match (lexRanges b).find? (fun r => decide (r.1 ≤ codePoint ch) && decide (codePoint ch ≤ r.2.1)) with
  | some r => r.2.2
  | none => 0

/-- The UNK token of an image. -/
def lexUnk (b : List Byte) : Option Nat := if bitSet (fieldAt b 12 4) 31 then some (fieldAt b 12 4 % 2 ^ 19) else none

/-- The ORDINARY strings with their tokens, and the BYTE tokens with their byte. -/
def lexOrds (b : List Byte) : List (List Byte × Nat) := ((lexEntries b).filter (fun e => e.kind == 0)).map (fun e => (e.str, e.tok))
def lexBytes (b : List Byte) : List (Byte × Nat) :=
  (lexEntries b).filterMap (fun e => if e.kind = 2 then e.str.head?.map (fun c => (c, e.tok)) else none)

/-- No two entries of a list are equal. -/
def allDistinct {α : Type} [BEq α] : List α → Bool
  | [] => true
  | x :: l => !l.contains x && allDistinct l

/-- Ranges sorted by FIRST, apart, and within Unicode. -/
def rangesSorted : Nat → List (Nat × Nat × Nat) → Bool
  | _, [] => true
  | lo, r :: rs => decide (lo ≤ r.1) && decide (r.1 ≤ r.2.1) && decide (r.2.1 ≤ 0x10FFFF) && rangesSorted (r.2.1 + 1) rs

/-- The token of a single byte: its BYTE token, else its 1-byte ORDINARY token (10 R208). -/
def byteToken (b : List Byte) (c : Byte) : Option Nat :=
  match (lexBytes b).find? (fun x => x.1 == c) with
  | some x => some x.2
  | none => ((lexOrds b).find? (fun x => x.1 == [c])).map (·.2)

/-- Whether every byte value has a BYTE or 1-byte ORDINARY token. -/
def lexAllBytes (b : List Byte) : Bool := (List.range 256).all (fun i => (byteToken b (byte i)).isSome)

/-- Whether a lexicon image may be loaded (10 R204). -/
def lexOk (b : List Byte) : Bool :=
  let n := fieldAt b 4 4
  let rg := fieldAt b 8 4
  let et := fieldAt b 16 8
  let pool := fieldAt b 24 8
  let pb := fieldAt b 32 8
  let ct := fieldAt b 40 8
  let unk := fieldAt b 12 4
  decide (64 ≤ b.length) && fieldAt b 0 4 == 1 && decide (1 ≤ n) && decide (n ≤ 524288) && decide (rg ≤ 4096) &&
    bitsOf unk 30 19 == 0 && (bitSet unk 31 || unk == 0) && et % 8 == 0 && ct % 8 == 0 && allZero ((b.drop 56).take 8) &&
    decide (et + 8 * n ≤ b.length) && decide (pool + pb ≤ b.length) && decide (ct + 8 * rg + 32 ≤ b.length) &&
    (lexWords b).all (fun w => decide (w < 2 ^ 34) && bitsOf w 23 19 == 0 && decide (bitsOf w 33 32 ≤ 2) &&
      decide (1 ≤ bitsOf w 31 24) && decide (bitsOf w 31 24 ≤ 128) && (bitsOf w 33 32 != 2 || bitsOf w 31 24 == 1)) &&
    sumNat ((lexWords b).map (fun w => bitsOf w 31 24)) == pb &&
    (List.range rg).all (fun i => decide (fieldAt b (ct + 8 * i) 8 < 2 ^ 46)) && rangesSorted 0 (lexRanges b) &&
    allDistinct ((lexEntries b).map (·.tok)) && allDistinct ((lexOrds b).map (·.1)) && allDistinct ((lexBytes b).map (·.1)) &&
    (match lexUnk b with
    | some t => (lexEntries b).any (fun e => e.kind == 1 && e.tok == t)
    | none => lexAllBytes b)

/-- The smallest power of two not below `n`. -/
def powerAbove : Nat → Nat → Nat → Nat
  | 0, p, _ => p
  | k + 1, p, n => if n ≤ p then p else powerAbove k (2 * p) n

/-- Distinct non-empty prefixes of a list of strings. -/
def prefixCount (ss : List (List Byte)) : Nat :=
  (ss.flatMap (fun s => (rangeFrom 1 s.length).map (fun n => s.take n))).eraseDups.length

/-- Store units of 64 KiB that a lexicon takes (10 R205). -/
def lexUnits (b : List Byte) : Nat :=
  ceilDiv (8 * powerAbove 24 1 (2 * fieldAt b 4 4) + fieldAt b 32 8 + 16 * prefixCount ((lexOrds b).map (·.1)) +
    8 * fieldAt b 8 4 + 288) 65536

/-! ### The encoder (10 R209-R211) -/

/-- The longest ORDINARY string that is a prefix of the text. -/
def longestMatch (ords : List (List Byte × Nat)) (r : List Byte) : Option (Nat × Nat) :=
  (maxBy (fun x => x.1) ((ords.filter (fun s => s.1.isPrefixOf r)).map (fun s => (s.1.length, s.2))))

/-- Whether the trie walk over the whole text ends at a node with children. -/
def walkOpen (ords : List (List Byte × Nat)) (r : List Byte) : Bool :=
  ords.any (fun s => r.isPrefixOf s.1 && decide (r.length < s.1.length))

/-- Bytes from a position to the end of the character that holds it. -/
def charRest : List Byte → Nat
  | [] => 0
  | _ :: bs => 1 + (bs.takeWhile (fun b => decide (0x80 ≤ b.toNat) && decide (b.toNat < 0xC0))).length

/-- The tokens of bytes that no ORDINARY string matches (10 R210 step 2). -/
def fallback (img : List Byte) (bs : List Byte) : List Nat :=
  let own := bs.map (fun c => ((lexBytes img).find? (fun x => x.1 == c)).map (·.2))
  match lexUnk img with
  | some u => if own.any Option.isNone then [u] else own.filterMap id
  | none => bs.filterMap (byteToken img)

/-- Encode a piece: its tokens, and the match hold where more text may follow (`final` false). -/
def encodePiece (img : List Byte) (ords : List (List Byte × Nat)) (final : Bool) : Nat → List Byte → List Nat × List Byte
  | 0, r => ([], r)
  | _, [] => ([], [])
  | k + 1, r =>
    if !final && walkOpen ords r then ([], r)
    else
      let (ts, n) := match longestMatch ords r with
        | some m => ([m.2], Nat.max 1 m.1)
        | none => (fallback img (r.take (charRest r)), charRest r)
      let rest := encodePiece img ords final k (r.drop n)
      (ts ++ rest.1, rest.2)

/-- A stream between chunks: UTF-8 hold, match hold (the current piece's end), class of the last character. -/
structure EncState where
  utf : List Byte
  hold : List Byte
  cls : Nat
  toks : List Nat
  replaced : Nat
  deriving DecidableEq, Repr

/-- Flush the current piece whole. -/
def endPiece (img : List Byte) (e : EncState) : EncState :=
  let r := encodePiece img (lexOrds img) true (e.hold.length + 1) e.hold
  { e with toks := e.toks ++ r.1, hold := [] }

/-- Take one character. -/
def takeChar (img : List Byte) (e : EncState) (ch : List Byte) : EncState :=
  let c := lexClass img ch
  let e1 := if !e.hold.isEmpty && lexSplit img e.cls c then endPiece img e else e
  { e1 with hold := e1.hold ++ ch, cls := c }

/-- Take one unit under a policy: 0 REPLACE, 1 BYTES. -/
def takeUnit (img : List Byte) (policy : Nat) (e : EncState) (u : Nat × List Byte) : EncState :=
  if u.1 = 0 then takeChar img e u.2
  else if policy = 1 then
    let e1 := endPiece img e
    { e1 with toks := e1.toks ++ u.2.filterMap (byteToken img), replaced := e1.replaced + 1 }
  else { takeChar img e utfFffd with replaced := e.replaced + 1 }

/-- Encode bytes that follow a stream's holds; `fin`: the chunk is flagged END. A trailing incomplete character is held, or is one
invalid unit at the end. -/
def encodeChunk (img : List Byte) (policy : Nat) (fin : Bool) (e0 : EncState) (bs : List Byte) : EncState :=
  let all := e0.utf ++ bs
  let us := (utfUnits all.length all).map (fun u => if u.1 = 2 && fin then (1, u.2) else u)
  let e1 := (us.filter (fun u => u.1 != 2)).foldl (takeUnit img policy) { e0 with utf := [], toks := [], replaced := 0 }
  let held := (us.filter (fun u => u.1 == 2)).flatMap (·.2)
  let r := encodePiece img (lexOrds img) fin (e1.hold.length + 1) e1.hold
  { e1 with utf := held, toks := e1.toks ++ r.1, hold := r.2 }

/-- Offset, in the bytes after the stream's UTF-8 hold, of the first invalid unit of a chunk; it may lie before 0, in the
hold. -/
def firstInvalid (fin : Bool) (utf bs : List Byte) : Option Int :=
  let all := utf ++ bs
  let us := utfUnits all.length all
  let go := us.foldl (fun (acc : Nat × Option Nat) u =>
    (acc.1 + u.2.length, if acc.2.isNone && (u.1 == 1 || (u.1 == 2 && fin)) then some acc.1 else acc.2)) (0, none)
  go.2.map (fun n => (n : Int) - utf.length)

/-- The most bytes of a chunk whose tokens fit a capacity, taking the chunk as one that more may follow (10 R212). [Log entry 54, DESIGN CHOICE.] -/
def fitBytes (img : List Byte) (policy : Nat) (e : EncState) (bs : List Byte) (cap : Nat) : Nat → Nat
  | 0 => 0
  | n + 1 => if (encodeChunk img policy false e (bs.take (n + 1))).toks.length ≤ cap then n + 1 else fitBytes img policy e bs cap n

end Sys2Proof.Machine
end

