-- ==== Sys2Proof/Machine/TokOps.lean ====
section
/-!
DEFINITION. The detokenizer and the text ring (10 R213-R218, R222), and the session block's token and syntax state as other
verbs change it (11 R250).
-/

namespace Sys2Proof.Machine

/-! ### The two holds (10 R214, R215) -/

/-- One operation on a detokenizer: its state, the run of bytes emitted and not yet in a record with the stream offset of its
first, the records made, the position after the last token processed, and the finish: (reason, position). -/
structure DetAcc where
  t : TokSt
  run : List (Byte × Nat)
  runOff : Nat
  recs : List TextRec
  endPos : Nat
  fin : Option (Nat × Nat)
  emitted : Nat
  deriving DecidableEq, Repr

/-- Start an operation. -/
def detStart (t : TokSt) : DetAcc :=
  { t := t, run := [], runOff := t.offset, recs := [], endPos := (t.lastPos.map (· + 1)).getD 0, fin := none, emitted := 0 }

/-- Emit bytes into the current run. [Log entry 53, DEDUCED.] -/
def emitBytes (a : DetAcc) (bs : List (Byte × Nat)) : DetAcc :=
  { a with run := a.run ++ bs, t := { a.t with offset := a.t.offset + bs.length }, emitted := a.emitted + bs.length }

/-- A record's header with SEQ and PHASE still 0 (10 Table 10-4). -/
def recHeader (type flags len handle offset first endPos : Nat) : List Byte :=
  [byte type, byte flags] ++ natLe len 2 ++ natLe handle 4 ++ natLe offset 8 ++ natLe first 4 ++ natLe endPos 4 ++
    natLe 0 4 ++ natLe 0 4

/-- The TEXT records of a run, at most 4,064 bytes each. `fuel` bounds their number. [Log entry 53, DEDUCED.] -/
def textRecs (handle : Nat) : Nat → List (Byte × Nat) → Nat → List TextRec
  | 0, _, _ => []
  | _, [], _ => []
  | k + 1, run, off =>
    let c := run.take 4064
    let flags := (if c.any (fun x => bitSet x.2 32) then 1 else 0) + (if c.any (fun x => bitSet x.2 33) then 2 else 0)
    let first := (c.head?.map (·.2)).getD 0 % 2 ^ 32
    { kind := 1, body := recHeader 1 flags c.length handle off first 0 ++ c.map (·.1) } ::
      textRecs handle k (run.drop 4064) (off + c.length)

/-- Close the current run into records. [Log entry 53, DEDUCED.] -/
def flushRun (handle : Nat) (a : DetAcc) : DetAcc :=
  { a with recs := a.recs ++ textRecs handle (a.run.length + 1) a.run a.runOff, run := [], runOff := a.t.offset }

/-- A FINISH record (10 R217). -/
def finishRec (handle offset reason stop stopPos stopOff dropped : Nat) : TextRec :=
  { kind := 2
    body := recHeader 2 0 32 handle offset 0 0 ++ [byte reason, byte stop, 0, 0] ++ natLe stopPos 4 ++ natLe stopOff 8 ++
      natLe dropped 4 ++ List.replicate 12 0 }

/-- The stop string complete at the end of the pending text: the longest, the lowest index among equals. -/
def stopEnding (stops : List (List Byte)) (hold : List Byte) : Option (Nat × Nat) :=
  let hit := ((List.range stops.length).zip stops).filter (fun s => !s.2.isEmpty && s.2.isSuffixOf hold)
  (maxBy (fun s => s.2) (hit.map (fun s => (s.1, s.2.length))))

/-- Length of the longest suffix of the pending text that is a proper prefix of a stop string. -/
def stopPrefix (stops : List (List Byte)) (hold : List Byte) : Nat :=
  let ok := fun r => stops.any (fun s => decide (r < s.length) && (hold.drop (hold.length - r)).isPrefixOf s)
  ((List.range (hold.length + 1)).filter ok).foldl Nat.max 0

/-- The stop stage for one byte; `left` is how many bytes of the token follow. -/
def stopByte (handle : Nat) (left pos : Nat) (a : DetAcc) (b : Byte × Nat) : DetAcc :=
  if a.fin.isSome then a
  else
    let hold := a.t.stopHold ++ [b]
    let bytes := hold.map (·.1)
    match stopEnding a.t.stops bytes with
    | some (k, n) =>
      let s := hold.length - n
      let a1 := emitBytes a (hold.take s)
      let off := a1.t.offset
      let a2 := if a.t.includeStop then emitBytes a1 (hold.drop s) else a1
      let a3 := flushRun handle a2
      let r := finishRec handle a3.t.offset 1 k (((hold.drop s).head?.map (·.2)).getD 0 % 2 ^ 32) off left
      { a3 with
        recs := a3.recs ++ [r]
        fin := some (1, pos)
        t := { a3.t with stopHold := [], utfHold := [], detok := 2 } }
    | none =>
      let r := stopPrefix a.t.stops bytes
      let a1 := emitBytes a (hold.take (hold.length - r))
      { a1 with t := { a1.t with stopHold := hold.drop (hold.length - r) } }

/-- Pass the bytes of a character or invalid unit to the stop stage. -/
def stopChar (handle left pos : Nat) (a : DetAcc) (ch : List Byte) (chPos flag : Nat) : DetAcc :=
  ch.foldl (fun x b => stopByte handle left pos x (b, chPos % 2 ^ 32 + flag)) a

/-- An invalid unit under the stream's policy (10 R214). -/
def badUnit (handle left pos : Nat) (a : DetAcc) (u : List Byte) (uPos : Nat) : DetAcc :=
  if a.t.rawBytes then stopChar handle left pos a u uPos (2 ^ 33) else stopChar handle left pos a utfFffd uPos (2 ^ 32)

/-- The UTF-8 stage for one byte. -/
def feedByte (handle left pos : Nat) (a : DetAcc) (b : Byte) : DetAcc :=
  if a.fin.isSome then a
  else
    let h := a.t.utfHold
    let at' := if h.isEmpty then pos else a.t.utfPos
    let bs := h ++ [b]
    let u := utfFirst bs
    if u.1 = 2 then { a with t := { a.t with utfHold := bs, utfPos := at' } }
    else if u.1 = 0 then stopChar handle left pos { a with t := { a.t with utfHold := [] } } bs at' 0
    else if h.isEmpty then badUnit handle left pos a [b] pos
    else
      let a1 := badUnit handle left pos { a with t := { a.t with utfHold := [] } } h at'
      if a1.fin.isSome then a1
      else
        let v := utfFirst [b]
        if v.1 = 2 then { a1 with t := { a1.t with utfHold := [b], utfPos := pos } }
        else if v.1 = 0 then stopChar handle left pos a1 [b] pos 0
        else badUnit handle left pos a1 [b] pos

/-- The bytes that a token contributes (10 R214). -/
def tokenBytes (img : List Byte) (special : Bool) (tok : Nat) : List Byte :=
  match (lexEntries img).find? (fun e => e.tok == tok % 2 ^ 19) with
  | some e => if e.kind = 1 && !special then [] else e.str
  | none => []

/-- `detok_commit` of R214 for one token. -/
def detokToken (img : List Byte) (handle : Nat) (a : DetAcc) (x : Nat × Nat) : DetAcc :=
  let bs := tokenBytes img a.t.showSpecial x.1
  if a.t.detok = 2 then { a with t := { a.t with dropped := a.t.dropped + bs.length } }
  else
    let a0 := { a with endPos := x.2 + 1, t := { a.t with lastPos := some x.2 } }
    ((List.range bs.length).zip bs).foldl (fun y b => feedByte handle (bs.length - b.1 - 1) x.2 y b.2) a0

/-- The UTF-8 hold becomes one invalid unit under the policy, which passes through the stop stage (10 R221). -/
def flushUtf (handle : Nat) (a : DetAcc) : DetAcc :=
  let h := a.t.utfHold
  if h.isEmpty then a else badUnit handle 0 (a.endPos - 1) { a with t := { a.t with utfHold := [] } } h a.t.utfPos

/-- The stop hold is emitted whole and a FINISH record follows (10 R221). -/
def flushStop (handle reason : Nat) (a : DetAcc) : DetAcc :=
  let b := flushRun handle (emitBytes a a.t.stopHold)
  { b with t := { b.t with stopHold := [] }, recs := b.recs ++ [finishRec handle b.t.offset reason 255 0 0 0] }

/-- The flush of a commit's finish (11 R245): a detokenizer that a stop string stopped, on the way too, posts no second FINISH. -/
def detokFlush (handle reason : Nat) (a : DetAcc) : DetAcc :=
  let b := flushUtf handle a
  if b.fin.isSome then b else flushStop handle reason b

/-- FLUSH and CLOSE of DETOK_FLUSH (10 R221): the FINISH of REASON 2 follows whatever the UTF-8 hold completed, and STOPPED is cleared (10 R216). -/
def detokFlushVerb (handle : Nat) (a : DetAcc) : DetAcc :=
  let b := flushStop handle 2 (flushUtf handle a)
  { b with t := { b.t with detok := 1 } }

/-- Close an operation: its last run becomes records, and every record takes END_POS. -/
def detEnd (handle : Nat) (a0 : DetAcc) : DetAcc :=
  let a := flushRun handle a0
  { a with recs := a.recs.map (fun r => { r with body := putBytes r.body 20 (natLe a.endPos 4) }) }

/-! ### The pending queue and the text ring (10 R217, R218) -/

/-- Bytes that a record takes in the ring and in the queue. -/
def recSize (r : TextRec) : Nat := roundUp r.body.length 64

/-- Bytes waiting in a session's pending queue. -/
def pendingSize (t : TokSt) : Nat := sumNat (t.pendingRecs.map recSize)

/-- Whether the queue takes an operation's records. -/
def recsFit (t : TokSt) (rs : List TextRec) : Bool := decide (pendingSize t + sumNat (rs.map recSize) ≤ 8192)

def updTok (d : Dev) (h : Nat) (f : TokSt → TokSt) : Dev := updSess d h (fun s => { s with tok := f s.tok })

/-- EV_TEXT_BLOCKED, once until the queue has emptied. -/
def textBlocked (d : Dev) (s : Sess) : Dev :=
  if s.tok.blockedRaised then d
  else updTok (raise d 0x0510 (objSess s) (.part (ctxPart s.ctx)) [(4, pendingSize s.tok)]) (handleOf s)
    (fun t => { t with blockedRaised := true })

/-- No ring: the pending records stay (10 R218, R222). -/
def noRing (t : TokSt) : TokSt := { t with ringNamed := false, ringAddr := 0, ringLog2 := 0, headAddr := 0 }

/-- The lexicon of a stream that an image brings: an open TOKENIZE stream uses the session's bound lexicon (10 R212), so it takes that lexicon's
present number. -/
def streamLex (t : TokSt) (lex : Option Nat) : Nat := if t.tkOpen then lex.getD t.tkLex else t.tkLex

/-- The ring of a session is set to none, with its cause (10 R218). -/
def textDetach (d : Dev) (s : Sess) (cause : Nat) : Dev :=
  updTok (raise d 0x0511 (objSess s) (.part (ctxPart s.ctx)) [(1, cause)]) (handleOf s)
    noRing

/-- Write one record at the ring's position: payload and bytes 8-31 first, bytes 0-7 last. -/
def ringPut (d : Dev) (h : Nat) (t : TokSt) (ld : Nat) (body : List Byte) : Option Dev :=
  let size := 2 ^ t.ringLog2
  let at' := t.written % size
  let n := roundUp body.length 64
  let b1 := putBytes body 24 (natLe (t.seq + 1) 4)
  let b2 := putBytes b1 1 [(b1[1]?).getD 0 ||| (if t.ringPhase then 0x80 else 0)]
  let full := padTo b2 n
  match busWrite d ld (t.ringAddr + at' + 8) (full.drop 8) with
  | none => none
  | some d1 => (busWrite d1 ld (t.ringAddr + at') (full.take 8)).map (fun d2 =>
      updTok d2 h (fun x => { x with
        written := x.written + n
        seq := (x.seq + 1) % 2 ^ 32
        ringPhase := if at' + n = size then !x.ringPhase else x.ringPhase }))

/-- A PAD record over the space left before the ring's end, with the OFFSET and END_POS of the record that follows it. -/
def padRec (handle n offset endPos : Nat) : List Byte :=
  recHeader 4 0 (n - 32) handle offset 0 endPos ++ List.replicate (n - 32) 0

/-- Ask for the head word: at most once per clause per session. -/
def askHead (d : Dev) (s : Sess) (ld : Nat) : Dev :=
  if s.tok.headClause = some d.clk.count || d.bus.any (fun b => b.why == .textHead (handleOf s)) then d
  else
    match busRead d ld s.tok.headAddr 8 (.textHead (handleOf s)) with
    | some d1 => updTok d1 (handleOf s) (fun t => { t with headClause := some d1.clk.count })
    | none => textDetach (busFailed d ld) s 2

/-- Whether a session's text stands still: its PARK has taken its snapshot, so the image holds the pending records (09 R187). [Log entry 53, DEDUCED.] -/
def textFrozen (d : Dev) (s : Sess) : Bool :=
  s.state == 5 && d.kv.ops.any (fun o => match o with | .park p => p.handle == handleOf s && p.image.isSome | _ => false)

/-- Move pending records into the ring while there is room. `fuel` bounds the records. The second part: records written. -/
def pumpRecs : Nat → Dev → Nat → Nat → Dev × Nat
  | 0, d, _, n => (d, n)
  | k + 1, d, h, n =>
    match findSess d h with
    | none => (d, n)
    | some s =>
      let t := s.tok
      match t.pendingRecs with
      | [] => (d, n)
      | r :: rs =>
        if !t.ringNamed || textFrozen d s then (d, n)
        else
          let ld := partLd d (ctxPart s.ctx)
          let size := 2 ^ t.ringLog2
          let left := size - t.written % size
          let room := size - (t.written - t.headRead)
          let pad := recSize r > left
          let want := if pad then left else recSize r
          if room < want then (askHead d s ld, n)
          else if pad then
            match ringPut d h t ld (padRec h left (fieldAt r.body 8 8) (fieldAt r.body 20 4)) with
            | some d1 => pumpRecs k d1 h (n + 1)
            | none => (textDetach (busFailed d ld) s 2, n)
          else
            match ringPut d h t ld r.body with
            | some d1 => pumpRecs k (updTok d1 h (fun x => { x with pendingRecs := rs })) h (n + 1)
            | none => (textDetach (busFailed d ld) s 2, n)

/-- Signal a session's vector at most once per clause (10 R217). -/
def textSignal (d : Dev) (h : Nat) : Dev :=
  match findSess d h with
  | none => d
  | some s =>
    if s.tok.sigClause = some d.clk.count then updTok d h (fun t => { t with sigOwed := true })
    else
      let d1 := updTok d h (fun t => { t with sigOwed := false, sigClause := some d.clk.count })
      if s.tok.vector = 0xFFFF then d1 else signalMsix d1 (partLd d1 (ctxPart s.ctx)) s.tok.vector

/-- A CLOSE waits until the pending queue is empty: then it unbinds the lexicon and completes (10 R221). -/
def settleClose (d : Dev) (h : Nat) : Dev :=
  match findSess d h with
  | none => d
  | some s =>
    if !s.tok.pendingRecs.isEmpty then d
    else
      let d0 := updTok d h (fun t => { t with blockedRaised := false })
      match d0.kv.ops.find? (fun o => match o with | .closeText _ x _ _ => x == h | _ => false) with
      | some (.closeText q x e dr) =>
        let d1 := { d0 with kv.ops := dropWhere (fun o => o == .closeText q x e dr) d0.kv.ops }
        let d2 := updTok d1 h (fun t => { t with lex := none, lexDigest := [], detok := 0 })
        (match findVerb d2 q with
        | some v => finishOk d2 v [(8, 4, e), (12, 4, dr)]
        | none => d2)
      | _ => d0

/-- Write what can be written of a session's pending records, and signal. -/
def textPump (d : Dev) (h : Nat) : Dev :=
  let r := pumpRecs 400 d h 0
  settleClose (if r.2 = 0 then r.1 else textSignal r.1 h) h

/-- Post records of an operation that the queue takes. -/
def postRecs (d : Dev) (h : Nat) (rs : List TextRec) : Dev :=
  if rs.isEmpty then d else textPump (updTok d h (fun t => { t with pendingRecs := t.pendingRecs ++ rs })) h

/-- Once per boundary: sessions with pending records or a signal owed go on. -/
def textBoundary (d : Dev) : Dev :=
  (d.kv.cat.filter (fun s => s.state != 0 && (!s.tok.pendingRecs.isEmpty || s.tok.sigOwed))).foldl (fun a s =>
    let a1 := if s.tok.sigOwed then textSignal a (handleOf s) else a
    textPump a1 (handleOf s)) d

/-- A ring named anew takes no head word that was read for the ring before it (10 R217). -/
def forgetHead (d : Dev) (h : Nat) : Dev :=
  { d with bus := updWhere (fun (b : BusReq) => b.why == .textHead h) (fun b => { b with why := .textHead 0 }) d.bus }

/-- TEXT_HEAD_READ_DONE: the head word arrives. A word that claims more than has been written, or goes back, detaches the ring
(cause 3); otherwise pending records are written where room exists (10 R217, R218). -/
def headReadDone (id value : Nat) (d : Dev) : Dev :=
  match d.bus.find? (fun b => b.id == id) with
  | some b =>
    (match b.why with
    | .textHead h =>
      let d1 := { d with bus := dropWhere (fun (x : BusReq) => x.id == id) d.bus }
      (match findSess d1 h with
      | some s =>
        if !s.tok.ringNamed then d1
        else if s.tok.written < value % 2 ^ 64 then textDetach d1 s 3
        else textPump (updTok d1 h (fun t => { t with headRead := value % 2 ^ 64 })) h
      | none => d1)
    | _ => d)
  | none => d

/-! ### Other verbs and this state (10 R222, 11 R250) -/

/-- The CUT record of a TRUNCATE to `n` (10 Table 10-4). -/
def cutRecord (t : TokSt) (h n : Nat) : TextRec :=
  let held := t.utfHold.length + t.stopHold.length
  { kind := 3, body := recHeader 3 0 32 h t.offset n ((t.lastPos.map (· + 1)).getD 0) ++ natLe held 4 ++ List.replicate 28 0 }

/-- Whether the queue has no room for the CUT record of a TRUNCATE. [Log entry 54, DESIGN CHOICE.] -/
def cutWaits (t : TokSt) (h n : Nat) : Bool := t.detok != 0 && !recsFit t [cutRecord t h n]

/-- TRUNCATE to `n`: both holds are dropped, STOPPED is cleared, and an OPEN or STOPPED detokenizer posts a CUT record
(10 R216, R222). -/
def postCutRecord (d : Dev) (h n : Nat) : Dev :=
  match findSess d h with
  | none => d
  | some s =>
    let t := s.tok
    let cut := fun (x : TokSt) =>
      { x with utfHold := [], utfPos := 0, stopHold := [], detok := if x.detok = 2 then 1 else x.detok }
    let d1 := updTok d h cut
    if t.detok = 0 then d1 else postRecs d1 h [cutRecord t h n]

/-- What a fork's child receives of the token state (10 R222). -/
def tokFork (t : TokSt) (whole : Bool) : TokSt :=
  { tokZero with
    detok := if t.detok = 2 && !whole then 1 else t.detok
    lex := t.lex
    lexDigest := t.lexDigest
    showSpecial := t.showSpecial
    rawBytes := t.rawBytes
    includeStop := t.includeStop
    offset := t.offset
    dropped := t.dropped
    stopMax := t.stopMax
    stopCount := t.stopCount
    stops := t.stops
    lastPos := t.lastPos
    vector := 0xFFFF
    utfHold := if whole then t.utfHold else []
    utfPos := if whole then t.utfPos else 0
    stopHold := if whole then t.stopHold else [] }

/-- The syntax state after TRUNCATE to `n` of a log of `len` (11 R250). -/
def synTrunc (y : SynSt) (n len : Nat) : SynSt :=
  { y with finished := false, mode := if y.grammar.isSome && decide (n < len) then 3 else y.mode }

/-- What a fork's child receives of the syntax state (11 R250). -/
def synFork (y : SynSt) (whole : Bool) : SynSt :=
  if whole then y else { y with finished := false, mode := if y.grammar.isSome then 3 else y.mode }

def findLex (d : Dev) (i : Nat) : Option Lexicon := d.lexicons.find? (fun x => x.id == i)
def findGram (d : Dev) (i : Nat) : Option Grammar := d.grammars.find? (fun x => x.id == i)

/-- Whether row `row` of the verb accepted as `seq` needs a damaged sector of a session's grammar or lexicon (18 Table 18-2). -/
def tablesHit (d : Dev) (s : Sess) (seq row : Nat) : Bool :=
  let hurt := (match s.syn.grammar.bind (findGram d) with | some g => !g.damaged.isEmpty | none => false) ||
    (match s.tok.lex.bind (findLex d) with | some l => s.tok.detok != 0 && !l.damaged.isEmpty | none => false)
  hurt && Config.tableNeeded seq row

/-- The lexicon of a partition with a load digest (09 R197). -/
def lexByDigest (d : Dev) (p : Nat) (dig : List Byte) : Option Nat :=
  (d.lexicons.find? (fun x => x.part == p && x.digest == dig)).map (·.id)

/-- The grammar of a partition with a load digest (09 R197). -/
def gramByDigest (d : Dev) (p : Nat) (dig : List Byte) : Option Nat :=
  (d.grammars.find? (fun x => x.part == p && x.digest == dig)).map (·.id)

end Sys2Proof.Machine
end

