-- ==== Sys2Proof/Machine/FlashOps.lean ====
section
/-!
DEFINITION. Operations on flash that other blocks use (13 R287-R301): finding LPNs, writing and reading pages, durability,
discards.
-/

namespace Sys2Proof.Machine

/-- Pages of a granule, and LPNs of a slot (13 R286, R287). -/
def slotPages : Nat := 4194304

/-- The granule page of a partition's LPN; none in an empty slot. -/
def gpageOf (d : Dev) (p lpn : Nat) : Option Nat :=
  (d.flash.assigned.find? (fun a => a.1 == p && a.2.1 == lpn / slotPages)).map (fun a => a.2.2 * slotPages + lpn % slotPages)

/-- The live page of a granule page. -/
def livePage (d : Dev) (g : Nat) : Option FPage := d.flash.pages.find? (fun x => x.gpage == g && x.gone == 0 && x.kind == 1)

/-- Whether the media takes writes: MOUNTED and not being unmounted (13 R306, R309, R310). -/
def flashWritable (d : Dev) : Bool := d.flash.state == 1 && d.flash.unmounting.isNone

/-- Whether flash can be read: MOUNTED or READ_ONLY. -/
def flashReadable (d : Dev) : Bool := d.flash.state == 1 || d.flash.state == 2

/-- LPN regions held by created or attached indexes of a partition: (first LPN, pages); the memory search chapter lists
them in its state. -/
def indexRegions (d : Dev) (p : Nat) : List (Nat × Nat) :=
  (d.regions.filter (fun r => r.1 == p)).map (fun r => (r.2.1, r.2.2))

/-- LPN runs that index regions, checkpoint regions and copies on their way to flash hold in a partition. -/
def heldRuns (d : Dev) (p : Nat) : List (Nat × Nat) :=
  indexRegions d p ++ ((d.ckptRuns ++ d.kv.movers.filterMap (·.run)).filter (fun r => r.1 == p)).map (fun r => (r.2.1, r.2.2))

/-- The end of an obstacle that a run of `n` LPNs at `l` would meet: a mapped page or a held run. -/
def runObstacle (d : Dev) (p l n : Nat) : Option Nat :=
  let held := heldRuns d p
  match held.find? (fun r => decide (r.1 < l + n) && decide (l < r.1 + r.2)) with
  | some r => some (r.1 + r.2)
  | none =>
    match d.flash.assigned.find? (fun a => a.1 == p && a.2.1 == l / slotPages) with
    | none => some (l + n)
    | some a =>
      let g := a.2.2 * slotPages + l % slotPages
      match maxBy (fun (x : FPage) => x.gpage)
          (d.flash.pages.filter (fun x => x.gone == 0 && x.kind == 1 && decide (g ≤ x.gpage) && decide (x.gpage < g + n))) with
      | some x => some (l + (x.gpage - g) + 1)
      | none => none

/-- Move a run past its obstacles inside one slot. -/
def runFrom (d : Dev) (p n limit : Nat) : Nat → Nat → Option Nat
  | 0, _ => none
  | k + 1, l =>
    if limit < l + n then none
    else
      match runObstacle d p l n with
      | none => some l
      | some l' => runFrom d p n limit k l'

/-- The run of `n` consecutive unmapped LPNs that the device takes (13 R288): the lowest of the partition's slots. -/
def flashRun (d : Dev) (p n : Nat) : Option Nat :=
  let slots := sortBy (fun (a b : Nat) => decide (a ≤ b)) ((d.flash.assigned.filter (fun a => a.1 == p)).map (·.2.1))
  let fuel := d.flash.pages.length + (heldRuns d p).length + 2
  (slots.filterMap (fun s => runFrom d p n ((s + 1) * slotPages) fuel (s * slotPages))).head?

/-- Number of LUN sets (13 R285). -/
def flashSets (f : Flash) : Nat := 2 * f.lunsPerCh

/-- Channel and LUN of lane `lane` of set `s` (13 R285). -/
def laneOf (s lane : Nat) : Nat × Nat := (16 * (s % 2) + lane, s / 2)

/-- Lanes of a set whose LUN is in service. -/
def liveLanes (f : Flash) (s : Nat) : List Nat := (List.range 16).filter (fun k => !f.deadLuns.contains (laneOf s k))

/-- Data pages that a block group holds. -/
def groupPages (f : Flash) (g : BlkGroup) : Nat := g.width * f.pagesPerBlock

/-- The block of a block group on a lane. -/
def groupBlock (g : BlkGroup) (lane : Nat) : Option Nat := (g.blocks[lane]?).bind id

/-- Lanes of a block group that hold data. -/
def dataLanes (g : BlkGroup) : List Nat := (List.range 16).filter (fun k => k != g.parityLane && (groupBlock g k).isSome)

/-- The open block group of a set that takes pages of a kind: those that wear levelling moves, or the others. -/
def openGroup (f : Flash) (s : Nat) (hot : Bool) : Option BlkGroup := f.groups.find? (fun g => g.set == s && g.st == 0 && g.hot == hot)

/-- Where the metadata area is programmed: the first LUN in service, and its highest block not retired. [Log entry 61, DESIGN CHOICE.] -/
def metaLun (f : Flash) : Nat × Nat :=
  (((List.range 32).flatMap (fun c => (List.range f.lunsPerCh).map (fun l => (c, l)))).find? (fun x => !f.deadLuns.contains x)).getD (0, 0)

def metaBlock (f : Flash) : Nat :=
  let m := metaLun f
  let k := f.deadBlocks.length + 1
  (((List.range k).map (fun i => f.blocksPerLun - 1 - i)).find? (fun b => !f.deadBlocks.contains (m.1, m.2, b))).getD 0

/-- Blocks of a lane that a new block group cannot take: held by a block group, retired, or of the metadata area. -/
def takenBlocks (f : Flash) (s lane : Nat) : List Nat :=
  let l := laneOf s lane
  (f.groups.filterMap (fun g => if g.set = s then groupBlock g lane else none) ++
    (f.deadBlocks.filter (fun b => b.1 == l.1 && b.2.1 == l.2)).map (·.2.2) ++ (if metaLun f = l then [metaBlock f] else [])).eraseDups

/-- Erases of a block beyond those that every block has had. -/
def blockWear (f : Flash) (ch lun b : Nat) : Nat :=
  match f.erases.find? (fun e => e.1 == ch && e.2.1 == lun && e.2.2.1 == b) with
  | some e => e.2.2.2
  | none => 0

/-- The block that a new block group takes on a lane (13 R303): a free one of least erase count, or of the highest for what wear
levelling moves. -/
def pickBlock (f : Flash) (s lane : Nat) (hot : Bool) : Option Nat :=
  let l := laneOf s lane
  let taken := takenBlocks f s lane
  let known := (f.erases.filter (fun e => e.1 == l.1 && e.2.1 == l.2)).map (fun e => (e.2.2.1, e.2.2.2))
  let worn := known.filter (fun e => !taken.contains e.1)
  let unworn := (List.range (Nat.min f.blocksPerLun (taken.length + known.length + 1))).find?
    (fun b => !taken.contains b && !known.any (fun e => e.1 == b))
  if hot then
    match maxBy (fun (e : Nat × Nat) => e.2) worn with
    | some e => some e.1
    | none => unworn
  else
    match unworn with
    | some b => some b
    | none => (minBy (fun (e : Nat × Nat) => e.2) worn).map (·.1)

/-- Free blocks of a set, and its blocks in service. -/
def setFree (f : Flash) (s : Nat) : Nat := sumNat ((liveLanes f s).map (fun k => f.blocksPerLun - (takenBlocks f s k).length))

def setBlocks (f : Flash) (s : Nat) : Nat :=
  sumNat ((liveLanes f s).map (fun k => f.blocksPerLun - (f.deadBlocks.filter (fun b => (b.1, b.2.1) == laneOf s k)).length))

/-- Whether less than 2 % of a set's blocks are free (13 R302). -/
def setShort (f : Flash) (s : Nat) : Bool := decide (50 * setFree f s < setBlocks f s)

/-- Make sure that a set has an open block group of a kind; none where a lane in service has no free block. Its parity LUN rotates from
one block group to the next, over the lanes in service (13 R294). [Log entry 61, DESIGN CHOICE.] -/
def needGroup (f : Flash) (s : Nat) (hot : Bool) : Option Flash :=
  match openGroup f s hot with
  | some _ => some f
  | none =>
    let lanes := liveLanes f s
    let blocks := (List.range 16).map (fun k => if lanes.contains k then pickBlock f s k hot else none)
    if lanes.length < 2 || lanes.any (fun k => ((blocks[k]?).bind id).isNone) then none
    else
      let p0 := (15 + 16 - f.nextGroup / Nat.max 1 (flashSets f) % 16) % 16
      let parity := (((List.range 16).map (fun i => (p0 + 16 - i) % 16)).find? (fun k => lanes.contains k)).getD 0
      let g : BlkGroup := { id := f.nextGroup, set := s, parityLane := parity, blocks := blocks, width := lanes.length - 1, hot := hot
                            failing := [], placed := 0, st := 0, early := false }
      some { f with groups := f.groups ++ [g], nextGroup := f.nextGroup + 1 }

/-- The retry entry whose levels read `n` of a codeword takes (13 Table 13-3): the calibrated one, then those of the profile in order
but for it; reads 6 and 7 shift the best of them, of which the first is taken. [Log entry 61, DESIGN CHOICE.] -/
def readLevel (f : Flash) (ch lun block n : Nat) : Nat :=
  let c := match f.calibrated.find? (fun x => x.1 == ch && x.2.1 == lun && x.2.2.1 == block) with | some x => x.2.2.2 | none => 0
  if n ≤ 1 || 6 ≤ n then c else nth ((List.range 6).filter (fun k => k != 0 && k != c)) (n - 2) 0

/-- Issue a NAND operation. -/
def issueNand (d : Dev) (channel lun block : Nat) (w : NandWhat) : Dev :=
  let level := match w with
    | .read _ _ n _ => readLevel d.flash channel lun block n
    | _ => 0
  let o : NandOp := { id := d.flash.nextOp, channel := channel, lun := lun, block := block, level := level, what := w,
                      issued := d.tim.elapsed, retried := false }
  { d with flash.ops := d.flash.ops ++ [o], flash.nextOp := d.flash.nextOp + 1 }

/-- Issue a NAND operation on a lane of a block group. -/
def issueLane (d : Dev) (g : BlkGroup) (lane : Nat) (w : NandWhat) : Dev :=
  issueNand d (laneOf g.set lane).1 (laneOf g.set lane).2 ((groupBlock g lane).getD 0) w

/-- Whether a page of the write buffer must wait: for a checkpoint once 262,144 data pages have been programmed since the last one
(13 R298), for free blocks where its set is short of them and it would need a new block group (13 R302). What garbage collection
relocates does not wait. -/
def pageWaits (f : Flash) (x : FPage) : Bool :=
  (x.fresh && decide (262144 ≤ f.sinceCkptPages)) || (!x.reloc && (openGroup f x.set x.hot).isNone && setShort f x.set)

/-- Place a page of the write buffer at the next position of its set's open block group, and issue its program (13 R294). -/
def placePage (d : Dev) (x : FPage) : Dev :=
  if pageWaits d.flash x then d
  else
    match needGroup d.flash x.set x.hot with
    | none => d
    | some f1 =>
      match openGroup f1 x.set x.hot with
      | none => d
      | some grp =>
        let lane := nth (dataLanes grp) (grp.placed % Nat.max 1 grp.width) 0
        let full := decide (groupPages f1 grp ≤ grp.placed + 1)
        let put := fun (y : FPage) => { y with st := 0, bg := grp.id, stripe := grp.placed / Nat.max 1 grp.width, lane := lane }
        issueLane { d with flash := { f1 with
          pages := updWhere (fun (y : FPage) => y.seq == x.seq) put f1.pages
          groups := updWhere (fun (g : BlkGroup) => g.id == grp.id)
            (fun g => { g with placed := g.placed + 1, st := if full then 1 else 0 }) f1.groups } } grp lane (.data x.seq)

/-- Place the pages of the write buffer that wait for no more; those superseded or discarded meanwhile leave it. -/
def placeWaiting (d : Dev) : Dev :=
  let d1 := { d with flash.pages := dropWhere (fun (x : FPage) => x.st == 3 && x.gone != 0) d.flash.pages }
  (d1.flash.pages.filter (fun x => x.st == 3)).foldl placePage d1

/-- The set that takes the next page: sets in turn (13 R285), but for those with less than two LUNs in service. -/
def nextTurn (f : Flash) : Nat :=
  let n := Nat.max 1 (flashSets f)
  (((List.range n).map (fun i => (f.nextSet + i) % n)).find? (fun s => decide (2 ≤ (liveLanes f s).length))).getD (f.nextSet % n)

/-- A page as a write brings it: `ver` its write version, `kind` 1 for data, `obj` the object that it belongs to. -/
def newPage (g ver kind obj : Nat) (want : Bool) (data : List Byte) : FPage :=
  { seq := 0, gpage := g, ver := ver, kind := kind, fresh := true, reloc := false, hot := false, set := 0, bg := 0, stripe := 0, lane := 0
    st := 3, want := want, durable := false, lost := false, bad := [], gone := 0, data := data, obj := obj }

/-- Write one page (13 R293-R295): it supersedes the live page of its granule page, takes the next write sequence and a set, and enters
the write buffer. What wear levelling moves stays in its set. [Log entry 64, DESIGN CHOICE.] -/
def flashPut (d : Dev) (x : FPage) : Dev :=
  let f := d.flash
  let s := if x.hot then x.set else nextTurn f
  let old := updWhere (fun (y : FPage) => y.gpage == x.gpage && y.gone == 0 && y.kind == x.kind) (fun y => { y with gone := 1 }) f.pages
  placeWaiting { d with flash := { f with
    pages := old ++ [{ x with seq := f.writeSeq, set := s, st := 3 }]
    writeSeq := f.writeSeq + 1
    nextSet := if x.hot then f.nextSet else (s + 1) % Nat.max 1 (flashSets f)
    dirty := upsert (· == x.gpage / 2048) (x.gpage / 2048) f.dirty } }

/-- Write consecutive LPNs of a partition. [Log entry 64, DESIGN CHOICE.] -/
def flashWrite (d : Dev) (p lpn ver obj : Nat) (want : Bool) (pages : List (List Byte)) : Dev :=
  ((List.range pages.length).zip pages).foldl (fun acc x =>
    match gpageOf acc p (lpn + x.1) with
    | some g => flashPut acc (newPage g ver 1 obj want x.2)
    | none => acc) d

/-- The lanes of a stripe whose data pages are programmed, as a mask. -/
def lanesDone (d : Dev) (bg stripe : Nat) : Nat :=
  sumNat ((d.flash.pages.filter (fun x => x.bg == bg && x.stripe == stripe && x.st == 1)).map (fun x => 2 ^ x.lane))

/-- Whether a lane is covered by a parity page of its stripe that is programmed, or issued too. -/
def laneCovered (d : Dev) (bg stripe lane : Nat) (issued : Bool) : Bool :=
  d.flash.parities.any (fun q => q.bg == bg && q.stripe == stripe && bitSet q.covered lane && (issued || q.st == 1))

/-- Issue the parity that a stripe needs: full parity once its 15 data pages (fewer where a LUN of the set is out of service), or those of
a block group closed early, are programmed; a partial one where durability is requested for a page that none covers (13 R294). A
parity page takes a write sequence of its own (13 Table 13-4). -/
def stripeParity (d : Dev) (b : BlkGroup) (stripe : Nat) : Dev :=
  let mine := d.flash.pages.filter (fun x => x.bg == b.id && x.stripe == stripe)
  let done := lanesDone d b.id stripe
  let whole := (decide (b.width ≤ mine.length) || b.early) && mine.all (fun x => x.st != 0)
  let hasFull := d.flash.parities.any (fun q => q.bg == b.id && q.stripe == stripe && q.full)
  let owed := mine.any (fun x => x.st == 1 && x.want && !laneCovered d b.id stripe x.lane true)
  if done = 0 || hasFull || !(whole || owed) then d
  else
    let q : Parity := { bg := b.id, stripe := stripe, covered := done, full := whole, st := 0 }
    issueLane { d with flash.parities := d.flash.parities ++ [q], flash.writeSeq := d.flash.writeSeq + 1 } b b.parityLane
      (.parity b.id stripe done whole)

/-- Issue whatever parity is needed. -/
def parityStep (d : Dev) : Dev :=
  d.flash.groups.foldl (fun a b =>
    if b.st < 2 then
      (((a.flash.pages.filter (fun x => x.bg == b.id)).map (·.stripe)).eraseDups).foldl (fun c s => stripeParity c b s) a
    else a) d

/-- Request durability of the live pages of some granule pages (13 R294). -/
def wantPages (d : Dev) (gs : List Nat) : Dev :=
  { d with flash.pages := updWhere (fun x => gs.contains x.gpage && x.gone == 0) (fun x => { x with want := true }) d.flash.pages }

/-- Ask for durability of the pages of an LPN run (13 R294). -/
def wantDurable (d : Dev) (p lpn n : Nat) : Dev := parityStep (wantPages d ((rangeFrom lpn n).filterMap (gpageOf d p)))

/-- Whether every page of an LPN run is mapped and durable. -/
def runDurable (d : Dev) (p lpn n : Nat) : Bool :=
  (rangeFrom lpn n).all (fun l =>
    match gpageOf d p l with
    | some g => match livePage d g with | some x => x.durable | none => false
    | none => false)

/-- Whether every page of an LPN run is mapped and programmed (a page leaves the write buffer then). -/
def runProgrammed (d : Dev) (p lpn n : Nat) : Bool :=
  (rangeFrom lpn n).all (fun l =>
    match gpageOf d p l with
    | some g => match livePage d g with | some x => x.st == 1 | none => false
    | none => false)

/-- Whether a page cannot be read whole: it is lost, or a codeword of it has failed all reads (13 R291). -/
def pageFails (x : FPage) : Bool := x.lost || !x.bad.isEmpty

/-- Whether a page of an LPN run cannot be read or is unmapped. -/
def runLost (d : Dev) (p lpn n : Nat) : Bool :=
  (rangeFrom lpn n).any (fun l =>
    match gpageOf d p l with
    | some g => match livePage d g with | some x => pageFails x | none => true
    | none => true)

/-- A read of a codeword of a page gives poisoned sectors (13 R291): it is counted and told, with the object that the page belongs to. -/
def tellUnread (x : FPage) (d : Dev) (cw : Nat) : Dev :=
  raiseDev { d with flash.health.uncorrectable := satAdd d.flash.health.uncorrectable 1 } 0x0814 [(8, x.gpage), (1, cw), (8, x.obj)]

/-- A read of the live page of an LPN is told for those of its codewords that cannot be read: all of them of a lost page, and those that have
failed all reads before. [Log entry 66, DEDUCED.] -/
def tellPage (p : Nat) (d : Dev) (lpn : Nat) : Dev :=
  match (gpageOf d p lpn).bind (livePage d) with
  | some x => (if x.lost then List.range 4 else x.bad).foldl (tellUnread x) d
  | none => d

/-- A read of an LPN run by a mover. -/
def tellRun (d : Dev) (p lpn n : Nat) : Dev := (rangeFrom lpn n).foldl (tellPage p) d

/-- A flash read that poisons sectors of a run, counted from its first: the codewords that hold them are told. [Log entry 66, DEDUCED.] -/
def tellSectors (d : Dev) (p lpn : Nat) (ss : List Nat) : Dev :=
  ((ss.map (· / 64)).eraseDups).foldl (fun a c =>
    match (gpageOf a p (lpn + c / 4)).bind (livePage a) with
    | some x => tellUnread x a (c % 4)
    | none => a) d

/-- Elements of a phrase's rows. -/
def phraseElems (p : Phrase) : Nat := if p.kind = 0 then p.dimA + p.dimB else 2 * p.dimA * p.dimB

/-- SIZE_KIB of a phrase. -/
def phraseSize (p : Phrase) : Nat := phraseKib p.fmt (phraseElems p)

/-- Unmap the live data pages that a test picks: their discards wait to enter a discard record (13 R301). -/
def discardPages (d : Dev) (pick : FPage → Bool) : Dev :=
  let hit := fun (x : FPage) => x.kind == 1 && x.gone == 0 && pick x
  let gs := (d.flash.pages.filter hit).map (·.gpage)
  { d with
    flash.pages := updWhere hit (fun x => { x with gone := 2 }) d.flash.pages
    flash.discards := d.flash.discards ++ gs
    flash.dirty := (d.flash.dirty ++ gs.map (· / 2048)).eraseDups }

/-- Unmap an LPN run; the discard waits to enter a discard record (13 R301). -/
def flashUnmap (d : Dev) (p lpn n : Nat) : Dev :=
  let gs := (rangeFrom lpn n).filterMap (gpageOf d p)
  discardPages d (fun x => gs.contains x.gpage)

/-- The retained or stored image of a reference: a DDR image of the partition, or a flash image by its first page. -/
def findImage (d : Dev) (p ref : Nat) : Option ParkImage :=
  if ref / 2 ^ 62 = 1 then d.kv.images.find? (fun i => i.part == p && i.ref == ref)
  else
    match gpageOf d p (ref % 2 ^ 34) with
    | none => none
    | some g =>
      if (livePage d g).isSome then (d.stored.images.find? (fun x => x.1 == g)).map (·.2) else none

/-- Set the image of a reference. -/
def putImage (d : Dev) (part ref : Nat) (im : ParkImage) : Dev :=
  if ref / 2 ^ 62 = 1 then
    { d with kv.images := updWhere (fun i => i.part == part && i.ref == ref) (fun _ => im) d.kv.images }
  else
    let g := (gpageOf d part (ref % 2 ^ 34)).getD 0
    { d with stored.images := upsert (fun (x : Nat × ParkImage) => x.1 == g) (g, im) d.stored.images }

/-- Whether an image's phrase list names a flash copy (09 Table 9-8). -/
def imageLists (im : ParkImage) (lpn : Nat) : Bool := im.phrases.any (fun e => e.2.2.2.2 == 2 ^ 34 + lpn)

/-- The flash images of a partition that hold the pages of the phrases that they list (09 R192): those that a session retains, and those that a
PARK is making. [Log entry 38, DEDUCED.] -/
def holdingImages (d : Dev) (p : Nat) : List ParkImage :=
  (d.kv.cat.filter (fun s => ctxPart s.ctx == p && s.state != 0)).filterMap (fun s =>
    match s.image with
    | some r => if r.lost = 0 && r.ref / 2 ^ 62 = 2 then findImage d p r.ref else none
    | none => none) ++
  d.kv.ops.filterMap (fun o =>
    match o with
    | .park q => (match q.image with
      | some im => if q.place = 2 && im.part = p then some im else none
      | none => none)
    | _ => none)

/-- Whether a flash image holds the pages of a flash copy. -/
def lpnHeld (d : Dev) (p lpn : Nat) : Bool := (holdingImages d p).any (fun im => imageLists im lpn)

/-- Count anew, for each phrase of a partition, the images that hold its flash copy. -/
def recountHolds (d : Dev) (p : Nat) : Dev :=
  let ims := holdingImages d p
  let count := fun (x : Phrase) => match x.flash with
    | some l => (ims.filter (fun im => imageLists im l)).length
    | none => 0
  { d with kv.phrases := updWhere (fun (x : Phrase) => x.part == p) (fun x => { x with imageHolds := count x }) d.kv.phrases }

/-- Release the pages of a phrase's flash copy that an image has held: they go when no live phrase has them and no other image holds them
(09 R192). -/
def unholdPhrase (d : Dev) (p lpn : Nat) : Dev :=
  if d.kv.phrases.any (fun x => x.part == p && x.flash == some lpn) || lpnHeld d p lpn then d
  else
    match (gpageOf d p lpn).bind (fun g => d.stored.phrases.find? (fun x => x.1 == g)) with
    | some x => flashUnmap d p lpn (ceilDiv (phraseSize x.2) 16)
    | none => d

/-- Release whatever an image that no longer counts as retained has held. -/
def releaseListed (d : Dev) (p : Nat) (im : ParkImage) : Dev :=
  (im.phrases.filter (fun e => decide (2 ^ 34 ≤ e.2.2.2.2))).foldl (fun a e => unholdPhrase a p (e.2.2.2.2 % 2 ^ 34)) (recountHolds d p)

/-- Free an image (09 R191): a DDR image's charge, or a flash image's pages and its holds. A session that retained it has none then. -/
def dropImage (d : Dev) (p ref : Nat) : Dev :=
  match findImage d p ref with
  | none => d
  | some im =>
    let d0 := { d with kv.cat := updWhere (fun (s : Sess) => ctxPart s.ctx == p && s.image.map (·.ref) == some ref)
                         (fun s => { s with image := none }) d.kv.cat }
    if ref / 2 ^ 62 = 1 then
      let keep := dropWhere (fun (i : ParkImage) => i.part == p && i.ref == ref) d0.kv.images
      freeAllocs { d0 with kv.images := keep } (allocKey 3 (p * 2 ^ 34 + ref % 2 ^ 34))
    else
      let g := (gpageOf d0 p (ref % 2 ^ 34)).getD 0
      let d1 := { d0 with stored.images := dropWhere (fun (x : Nat × ParkImage) => x.1 == g) d0.stored.images }
      releaseListed (flashUnmap d1 p (ref % 2 ^ 34) (ceilDiv im.bytes 16384)) p im

end Sys2Proof.Machine
end

