-- ==== Sys2Proof/Machine/Image.lean ====
section
/-!
DEFINITION. Byte layouts of stored state: phrases (05 R85-R88), the session block (10 R223, 11 R251) and park images
(09 R190).
-/

namespace Sys2Proof.Machine

/-- BF16 encoding of the largest magnitude among elements `lo` to `lo + n - 1` of the rows. -/
def rowsAmax (fmt : Nat) (rows : List KvRow) (lo n : Nat) : Nat :=
  fvEncode fmtBf16 (rows.foldl (fun acc r =>
    (rangeFrom lo n).foldl (fun a i => match rowValue fmt r i with
      | .fin _ m e => fvAbsMax a (.fin false m e)
      | _ => a) acc) (.fin false 0 0))

/-- Scale bytes of the blocks of the rows that hold a non-zero element. -/
def liveScales (p : Phrase) : List Nat :=
  p.rows.flatMap (fun r => ((List.range r.scales.length).zip r.scales).filterMap (fun x =>
    if ((r.elems.drop (32 * x.1)).take 32).any (fun c => c % 2 ^ (fmtBits (storeFmt p.fmt) - 1) != 0) then some x.2
    else none))

/-- FLAGS of a phrase header (05 Table 5-3). -/
def phraseFlags (p : Phrase) : Nat :=
  p.kind + (if p.replaced then 16 else 0) + (if p.clamped then 32 else 0) + (if p.sealed then 64 else 0) +
    (if p.draft then 128 else 0)

/-- The 256-byte header of a phrase (05 Table 5-3). -/
def phraseHeader (p : Phrase) : List Byte :=
  let ls := liveScales p
  let lo := ls.foldl Nat.min 0xFF
  let hi := if ls.isEmpty || p.fmt = 3 then 0xFF else ls.foldl Nat.max 0
  let rows := p.rows.take p.count
  let a := if p.kind = 0 then rowsAmax p.fmt rows 0 p.dimA else rowsAmax p.fmt rows 0 (p.dimA * p.dimB)
  let b := if p.kind = 0 then rowsAmax p.fmt rows p.dimA p.dimB
    else rowsAmax p.fmt rows (p.dimA * p.dimB) (p.dimA * p.dimB)
  let heads := if p.kind = 0 then [] else (List.range p.dimB).flatMap (fun h =>
    natLe (rowsAmax p.fmt rows (h * p.dimA) p.dimA) 2 ++ natLe (rowsAmax p.fmt rows ((p.dimB + h) * p.dimA) p.dimA) 2)
  natLe p.id 4 ++ [byte p.fmt, byte (phraseFlags p)] ++ natLe p.layer 2 ++ natLe p.firstPos 4 ++ natLe p.count 2 ++
    [byte p.model, 0] ++ natLe p.version 4 ++ natLe p.dimA 2 ++ natLe p.dimB 2 ++ natLe (phraseSize p) 2 ++ [0, 0] ++
    natLe p.saturated 4 ++ [byte (if p.fmt = 3 then 0xFF else lo), byte hi, 0, 0] ++ natLe a 2 ++ natLe b 2 ++
    natLe p.creator 4 ++ List.replicate 20 0 ++ padTo heads 64 ++ List.replicate 128 0

/-- The element bytes of columns 32 j to 32 j + 31 of one row (05 R86). -/
def tileRow (fmt : Nat) (r : KvRow) (j : Nat) : List Byte :=
  let es := (rangeFrom (32 * j) 32).map (fun i => nth r.elems i 0)
  match fmt with
  | 1 => es.map byte
  | 2 => (List.range 16).map (fun i => byte (nth es (2 * i) 0 % 16 + 16 * (nth es (2 * i + 1) 0 % 16)))
  | _ => es.flatMap (fun e => natLe e 2)

/-- The bytes of a phrase (05 R85, R86): header, tiles, scales and padding. Rows beyond COUNT are written as zeros. [Log entry 31, DESIGN CHOICE.] -/
def phraseImage (p : Phrase) : List Byte :=
  let j := phraseElems p / 32
  let row := fun i => if i < p.count then nth p.rows i ⟨[], []⟩ else ⟨[], []⟩
  let tiles := (List.range 2).flatMap (fun g => (List.range j).flatMap (fun b =>
    (List.range 32).flatMap (fun r => tileRow p.fmt (row (32 * g + r)) b)))
  let scales := if p.fmt = 3 then [] else (List.range 2).flatMap (fun g => (List.range j).flatMap (fun b =>
    (List.range 32).map (fun r => byte (nth (row (32 * g + r)).scales b 0))))
  padTo (phraseHeader p ++ tiles ++ scales) (phraseSize p * 1024)

/-- Records as they wait in the pending queue (10 Table 10-7, R218). -/
def pendingBytes (rs : List TextRec) : List Byte := rs.flatMap (fun r => padTo r.body (roundUp r.body.length 64))

/-- The 16 KiB session block (10 Table 10-7, 11 Table 11-12). [Log entry 82, DESIGN CHOICE.] -/
def blockBytes (t : TokSt) (y : SynSt) : List Byte :=
  let b0 := padTo ([byte t.detok, byte ((t.lex.getD 0) + (if t.lex.isSome then 128 else 0)),
    byte ((if t.showSpecial then 1 else 0) + (if t.rawBytes then 2 else 0) + (if t.includeStop then 4 else 0) +
      (if t.ringNamed then 8 else 0)), byte t.stopCount, byte t.stopMax, byte t.utfHold.length,
    byte t.stopHold.length, 0] ++ natLe t.offset 8 ++ natLe t.seq 4 ++ natLe (t.lastPos.getD 0) 4 ++ natLe t.dropped 8) 0x40
  let b1 := padTo (natLe t.ringAddr 8 ++ [byte t.ringLog2, byte (if t.ringPhase then 1 else 0)] ++ natLe t.vector 2 ++
    [0, 0, 0, 0] ++ natLe t.headAddr 8 ++ natLe t.written 8 ++ natLe t.headRead 8 ++ natLe 0 2 ++
    natLe (pendingBytes t.pendingRecs).length 2) 0x40
  let b2 := padTo (padTo t.utfHold 3 ++ natLe t.utfPos 4 ++ [0] ++ t.stopHold.map (·.1)) 0x80
  let b3 := padTo (t.stopHold.flatMap (fun x => natLe x.2 4)) 0x100
  let b4 := padTo ([byte ((if t.tkOpen then 1 else 0) + 2 * t.tkPolicy), byte t.tkClass, byte t.tkUtf.length] ++ padTo t.tkUtf 3 ++ [
    byte t.tkHold.length, 0] ++ natLe t.tkOffset 8) 0x80 ++ padTo t.tkHold 0x80
  let b5 := padTo (t.stops.map (fun s => byte s.length)) 0x100
  let b6 := padTo (t.stops.flatMap (fun s => padTo s 64)) 0xC00
  let b7 := padTo (pendingBytes t.pendingRecs) 0x2000
  let c0 := padTo ([byte y.mode, byte ((y.grammar.getD 0) + (if y.grammar.isSome then 128 else 0))] ++ natLe y.state 2 ++
    natLe y.stack.length 2 ++ [byte (if y.finished then 1 else 0), 0] ++ natLe y.bindPos 4 ++ natLe y.sinceSet 4) 0x40
  let c1 := padTo y.params 0xC0
  let c2 := padTo (y.stack.flatMap (fun x => natLe x 2)) 0xF00
  b0 ++ b1 ++ b2 ++ b3 ++ b4 ++ b5 ++ b6 ++ b7 ++ c0 ++ c1 ++ c2

/-- Pages of 16 KiB that a section of `n` bytes takes. -/
def sectionPages (n : Nat) : Nat := ceilDiv n 16384

/-- The sections of an image after page 0 (09 Table 9-6): block, log, phrase list, tails, recurrent buffers. -/
def imageSections (im : ParkImage) (recSizes : List Nat) : List (List Byte) :=
  let list := im.phrases.flatMap (fun x =>
    let (layer, kind, id, ver, lpn) := x
    natLe ((ver * 2 ^ 96) + (id * 2 ^ 64) + (layer * 2 ^ 48) + (kind * 2 ^ 46) +
      (if 2 ^ 34 ≤ lpn then 2 ^ 45 + lpn % 2 ^ 34 else 0)) 16)
  let tails := im.layers.flatMap (fun l => l.tails.flatMap (fun t => if t.count = 0 then [] else phraseImage t))
  let rec0 := ((im.layers.filterMap (·.recur)).zip recSizes).flatMap (fun x => memReadN x.1.cur 0 x.2)
  [blockBytes im.tok im.syn, im.log.flatMap (fun t => natLe t 4), list, tails, rec0]

/-- SECTIONS of the header: page offset and byte length of each section. -/
def sectionTable : Nat → List (List Byte) → List Byte
  | _, [] => []
  | pg, s :: ss => natLe pg 8 ++ natLe s.length 8 ++ sectionTable (pg + sectionPages s.length) ss

/-- The bytes of an image from offset 1,024 on, the last page padded (09 R190). -/
def imageBody (im : ParkImage) (recSizes : List Nat) : List Byte :=
  padTo (im.lens.flatMap (fun n => natLe n 4)) (16384 - 1024) ++
    (imageSections im recSizes).flatMap (fun s => padTo s (sectionPages s.length * 16384))

/-- IMAGE_DIGEST (09 R190). -/
def imageDigest (im : ParkImage) (recSizes : List Nat) : List Byte := sha512 (imageBody im recSizes)

/-- The image header of 1,024 bytes (09 Table 9-7). -/
def imageHeader (im : ParkImage) (recSizes : List Nat) (digest : List Byte) : List Byte :=
  padTo (natLe 1 4 ++ natLe im.handle 4 ++ natLe im.ctx 2 ++ [byte im.flags, 0] ++ natLe im.log.length 4 ++
    natLe im.clause 8 ++ natLe im.time 8 ++ padTo im.modelDigest 16 ++
    padTo (if im.tok.lex.isSome then im.tok.lexDigest else []) 16 ++
    padTo (if im.syn.grammar.isSome then im.syn.gramDigest else []) 16 ++
    sectionTable 1 (imageSections im recSizes)) 960 ++ padTo digest 64

/-- Bytes of a whole image. -/
def imageSize (im : ParkImage) (recSizes : List Nat) : Nat :=
  16384 + sumNat ((imageSections im recSizes).map (fun s => sectionPages s.length * 16384))

end Sys2Proof.Machine
end

