-- ==== Sys2Proof/Machine/Session.lean ====
section
/-!
DEFINITION. The session verbs of chapters 05 and 09 that stay in HBM: SESS_OPEN, SESS_CLOSE, DISCARD, SESS_QUERY,
SESS_FORK, APPEND, ROLLBACK and TRUNCATE. A verb that takes effect at a clause boundary registers an operation; the
boundary functions here perform it.
-/

namespace Sys2Proof.Machine

/-- The acceptance number of an operation's verb. -/
def opSeq : Op → Nat
  | .fork q _ _ => q
  | .forked q _ _ _ => q
  | .append q => q
  | .rollback q _ _ => q
  | .truncate q _ _ => q
  | .commit q => q
  | .close q _ => q
  | .discard q _ => q
  | .park p => p.seq
  | .revive r => r.seq
  | .move m => m.seq
  | .resize q => q
  | .discardLpns q => q
  | .closeText q _ _ _ => q
  | .bitmap q => q
  | .ckpt q _ => q
  | .restore q => q
  | .rebind q => q
  | .quiesce q => q
  | .resume q => q

/-- Put an operation in its place among those that wait for the boundary. -/
def registerSeq (d : Dev) (seq : Nat) (o : Op) : Dev :=
  { d with kv.ops := insertBy (fun a _ => decide (opSeq a ≤ seq)) o d.kv.ops }

/-- Register a boundary operation of a verb, in acceptance order, and keep the verb running. -/
def registerOp (d : Dev) (v : Verb) (o : Op) : Dev :=
  keepRunning (registerSeq d v.seq o) v

/-- Whether an operation is the promotion that a PARK or REVIVE left behind (09 R196, R197). -/
def isPromotion : Op → Bool
  | .move m => m.promote
  | _ => false

/-- Remove a verb's operation; a promotion that it left goes on. -/
def dropOp (d : Dev) (seq : Nat) : Dev := { d with kv.ops := dropWhere (fun o => opSeq o == seq && !isPromotion o) d.kv.ops }

/-- Finish a boundary verb by its acceptance number. -/
def finishSeq (d : Dev) (seq status : Nat) (fields : List (Nat × Nat × Nat)) : Dev :=
  match findVerb d seq with
  | some v => finish (dropOp d seq) v status 0xFF fields
  | none => dropOp d seq

/-! ### Copies -/

/-- Queue a mover job (09 R182): what orders it, whose it is, and the LPNs that it will write. -/
def putMover (d : Dev) (seq order prio : Nat) (promo : Bool) (run : Option (Nat × Nat × Nat)) (w : MoveWhat) : Dev :=
  let m : Mover := { id := d.kv.moverNext, seq := seq, order := order, prio := prio, promo := promo, run := run, clause := none, what := w
                     state := 0 }
  { d with kv.movers := d.kv.movers ++ [m], kv.moverNext := d.kv.moverNext + 1 }

/-- Queue a mover job of a verb. -/
def queueMover (d : Dev) (seq order : Nat) (w : MoveWhat) : Dev := putMover d seq order (seqPrio d seq) false none w

/-- The mover jobs of a verb. -/
def moversOf (d : Dev) (seq : Nat) : List Mover := d.kv.movers.filter (fun w => w.seq == seq)

/-- Remove the mover jobs of a verb. -/
def dropMovers (d : Dev) (seq : Nat) : Dev := { d with kv.movers := dropWhere (fun (w : Mover) => w.seq == seq) d.kv.movers }

/-- Whether a flash copy has lost a page. -/
def flashLost (d : Dev) (x : Phrase) : Bool :=
  match x.flash with
  | some l => runLost d x.part l (ceilDiv (phraseSize x) 16)
  | none => true

/-- Whether no copy of a phrase can be read. -/
def phraseLost (d : Dev) (x : Phrase) : Bool := phraseUnreadable x (flashLost d x)

/-! ### SESS_OPEN (09 R193) -/

/-- SESS_OPEN: a catalog entry, a slot, the block and the recurrent buffers; ACTIVE when it completes (09 R185). -/
def sessOpenBody (v : Verb) (d : Dev) : Except Fail Dev := do
  let c := fld v 18 2 % 2048
  check4 v false [(17, 1), (20, 44)] [(18, fld v 18 2 / 2048 == 0 && (v.admin || c == v.ctx))]
  checkOwnedIn d v (ctxPart c) 6 (fld v 16 1) 16 (findModel d (fld v 16 1)).isSome
  checkCtx d v c 18
  match pickEntry d, pickSlot d (ctxPart c), findModel d (fld v 16 1) with
  | some i, some slot, some m =>
    let home := mostFree d (ctxPart c)
    let gen := entryGen d i + 1
    let s := newSess i gen 1 c slot m.id home m.layers
    match allocSlot d (ctxPart c) home (allocKey 1 (handleOf s)) m.layers with
    | none => failSt stNospace
    | some d1 => .ok (finishOk (putEntry d1 s) v [(8, 4, handleOf s), (12, 4, slot)])
  | _, _, _ => failSt stNospace

/-! ### SESS_CLOSE and DISCARD (09 R194) -/

def sessCloseBody (v : Verb) (d : Dev) : Except Fail Dev := do
  check4 v false [(20, 44)] []
  let _ ← checkSess d v (fld v 16 4) 16
  .ok (registerOp d v (.close v.seq (fld v 16 4)))

def discardBody (v : Verb) (d : Dev) : Except Fail Dev := do
  check4 v false [(20, 44)] []
  let s ← checkSess d v (fld v 16 4) 16
  if s.state = 4 then failId stState 16 else
  .ok (registerOp d v (.discard v.seq (fld v 16 4)))

/-- Free what a session holds: slot, HBM objects, references and retained image (09 R194). Answers the references
released. -/
def freeSession (d : Dev) (s : Sess) : Nat × Dev :=
  let ids := sessPhrases s
  let d1 := releasePhrases d (ctxPart s.ctx) ids
  let d2 := releaseSlot (freeSlotObjects d1 s) s
  let d3 := match s.image with
    | some i => dropImage d2 (ctxPart s.ctx) i.ref
    | none => d2
  (ids.length, d3)

/-- SESS_CLOSE at its boundary. -/
def closeAt (d : Dev) (seq h : Nat) : Dev :=
  match findSess d h with
  | none => finishSeq d seq stStale []
  | some s =>
    let (n, d1) := freeSession d s
    finishSeq (freeEntry d1 s) seq stOk [(8, 4, n), (12, 1, if s.gen = 255 then 1 else 0)]

/-- DISCARD at its boundary. -/
def discardAt (d : Dev) (seq h : Nat) : Dev :=
  match findSess d h with
  | none => finishSeq d seq stStale []
  | some s =>
    if s.state = 4 then finishSeq d seq stState []
    else
      let (n, d1) := freeSession d s
      finishSeq (updSess d1 h (fun x => { emptied x 4 with model := x.model })) seq stOk [(8, 4, n)]

/-! ### SESS_QUERY (09 R195) -/

/-- Sealed phrases of a session with no HBM copy. -/
def countNotHbm (d : Dev) (s : Sess) : Nat :=
  ((sessPhrases s).filter (fun i =>
    match findPhrase d (ctxPart s.ctx) i with | some x => x.hbm.isNone | none => false)).length

/-- Sealed phrases of a session whose only copy is on flash. -/
def countFlashOnly (d : Dev) (s : Sess) : Nat :=
  ((sessPhrases s).filter (fun i =>
    match findPhrase d (ctxPart s.ctx) i with
    | some x => x.hbm.isNone && !x.ddr && x.flash.isSome
    | none => false)).length

/-- Whether a session has a retained image (09 R191): one that is not lost. -/
def retains (s : Sess) : Bool := (s.image.map (fun i => i.lost == 0)).getD false

/-- FLAGS of SESS_QUERY (09 Table 9-9). -/
def sessFlags (s : Sess) : Nat :=
  (if s.tree.isSome then 1 else 0) + (if retains s then 2 else 0) +
    (if retains s && (s.image.map (·.durable)).getD false then 4 else 0) + (if s.marks.isEmpty then 0 else 8)

/-- Whether a verb that was accepted before `v` is to end the session: it has not run to its end and its checks pass, so a verb accepted
after it finds the session gone (02 R23, R34). Besides SESS_CLOSE these are CTX_DESTROY and PART_DESTROY, which mark what they end at their
acceptance, and SCRUB of the partition. [Log entry 13, DEDUCED.] -/
def closedBefore (d : Dev) (v : Verb) (s : Sess) : Bool :=
  let p := ctxPart s.ctx
  d.tur.verbs.any (fun w => decide (w.seq < v.seq) && (
    (w.op == 0x0402 && fld w 16 4 == handleOf s && (w.running || (match sessCloseBody w d with | .ok _ => true | .error _ => false))) ||
    (w.op == 0x0206 && fld w 16 2 == s.ctx && (findCtx d s.ctx).any (·.ending)) ||
    ((w.op == 0x0202 || (w.op == 0x0207 && fld w 16 1 == 1)) && verbPart w == some p && (findPart d p).any (·.ending))))

/-- SESS_QUERY (09 R195). [Log entry 13, DEDUCED.] -/
def sessQueryBody (v : Verb) (d : Dev) : Except Fail Dev := do
  check4 v false [(20, 44)] []
  let s ← checkSess d v (fld v 16 4) 16
  if closedBefore d v s then failId stStale 16 else
  let slot := match s.slot with | some n => n + 2 ^ 31 | none => 0
  let least := match findModel d s.model with | some m => minStored m s | none => 0
  .ok (finishOk d v [(8, 1, s.state), (9, 1, sessFlags s), (10, 1, s.model), (12, 4, slot), (16, 4, s.log.length),
    (20, 4, least), (24, 4, countNotHbm d s), (28, 4, countFlashOnly d s)])

/-! ### SESS_FORK (05 R104, R105) -/

def sessForkBody (v : Verb) (d : Dev) : Except Fail Dev := do
  check4 v false [(24, 40)] []
  let s ← checkSess d v (fld v 16 4) 16
  needLive s v 16
  .ok (registerOp d v (.fork v.seq (fld v 16 4) (fld v 20 4)))

/-- Phrase IDs of a list wholly below `n` (05 R104): entry i covers positions 64 i to 64 i + 63. -/
def idsBelow (l : List Nat) (n : Nat) : List Nat := l.take (n / 64)

/-- The phrase of a list that holds position `n`. -/
def idHolding (l : List Nat) (n : Nat) : Option Nat := l[n / 64]?

/-- Rows that a cut at `n` takes from a layer of stored length above `n` (05 R104, R106): from the tails where `n` is
at or above their FIRST_POS, else from the phrase that holds it. -/
def rowsForCut (d : Dev) (p : Nat) (st : LayerSt) (kind n : Nat) : List KvRow :=
  if st.tailFirst ≤ n then
    match st.tails.find? (fun t => t.kind == kind) with
    | some t => t.rows.take (Nat.min t.count (n - st.tailFirst))
    | none => []
  else
    match idHolding (if kind = 0 then st.stem else st.direct) n with
    | some i =>
      match findPhrase d p i with
      | some x => x.rows.take (n % 64)
      | none => []
    | none => []

/-- The sealed phrases that a cut of a layer at `n` must copy rows of: the one that holds position `n`, for each kind (05 R104, R106). -/
def cutPhrases (d : Dev) (p : Nat) (st : LayerSt) (n : Nat) : List Phrase :=
  if st.tailFirst ≤ n || n % 64 = 0 then []
  else [st.stem, st.direct].filterMap (fun l => (idHolding l n).bind (findPhrase d p))

/-- Whether a phrase that a cut at `n` must copy cannot be read in any copy. -/
def cutUnreadable (d : Dev) (p : Nat) (st : LayerSt) (n : Nat) : Bool := (cutPhrases d p st n).any (phraseLost d)

/-- One tail of a child or of a cut, holding `rows`, with WRITE_VERSION 1. The spec does not say what the rest of such a tail's header holds:
CREATOR is the session that the tail belongs to, the child or the session cut, and SATURATED and CLAMPED begin again at 0. [Log entry 113, DESIGN CHOICE.] -/
def tailWith (p ctx creator model layer kind first : Nat) (l : LayerRec) (rows : List KvRow) : Phrase :=
  { newTail p ctx creator model layer kind first l with rows := rows, count := rows.length }

/-- The tails of a layer cut at `n` for session `owner`, charged to its home stack: none where they hold no rows. -/
def cutTails (d : Dev) (owner : Sess) (src : LayerSt) (layer : Nat) (l : LayerRec) (n : Nat) :
    Option (List Phrase × Dev) :=
  let p := ctxPart owner.ctx
  let first := if src.tailFirst ≤ n then src.tailFirst else n - n % 64
  let cnt := if src.tailFirst ≤ n then Nat.min n (storedLen src) - src.tailFirst else n % 64
  if cnt = 0 then some ([], d)
  else
    (layerKinds l).foldl (fun acc k =>
      match acc with
      | none => none
      | some (ts, d') =>
        (allocHome d' p owner.home (phraseBytes l k) (allocKey 1 (handleOf owner)) (tailSub layer k)).map (fun d'' =>
          (ts ++ [tailWith p owner.ctx (handleOf owner) owner.model layer k first l (rowsForCut d p src k n)], d'')))
      (some ([], d))

/-- The child's state of one layer (05 R104, 06 R133): references below `n`, tails, a copy of the current buffer. -/
def forkLayer (d : Dev) (child : Sess) (src : LayerSt) (layer : Nat) (l : LayerRec) (n : Nat) :
    Option (LayerSt × Dev) :=
  match src.recur with
  | some r => some ({ layerZero l with recur := some { r with shadow := [], shadowLen := none, treeIn := [] } }, d)
  | none =>
    match cutTails d child src layer l n with
    | none => none
    | some (ts, d1) =>
      let first := if src.tailFirst ≤ n then src.tailFirst else n - n % 64
      some ({ layerZero l with
        stem := idsBelow src.stem n
        direct := idsBelow src.direct n
        tailFirst := first
        tails := ts }, d1)

/-- The child's layers in order. -/
def forkLayers (child : Sess) (n : Nat) : Dev → Nat → List (LayerSt × LayerRec) → Option (List LayerSt × Dev)
  | d, _, [] => some ([], d)
  | d, i, (st, l) :: rest =>
    match forkLayer d child st i l n with
    | none => none
    | some (x, d1) =>
      match forkLayers child n d1 (i + 1) rest with
      | none => none
      | some (xs, d2) => some (x :: xs, d2)

/-- Take one session reference on a phrase. -/
def refPhrase (d : Dev) (p id : Nat) : Dev := updPhrase d p id (fun x => { x with refs := x.refs + 1 })

/-- The session references on a phrase as a verb of acceptance number `seq` finds them: releases made at this boundary by verbs accepted
after it come after it (02 R32). -/
def refsFor (d : Dev) (seq : Nat) (x : Phrase) : Nat :=
  x.refs + (d.kv.releases.filter (fun r => r.1 == x.part && r.2.1 == x.id && r.2.2.1 == d.clk.count && decide (seq < r.2.2.2))).length

/-- The first phrase of a list whose count stands at 65,535 (02 R31). -/
def limitPhrase (d : Dev) (p seq : Nat) (ids : List Nat) : Option Nat :=
  ids.find? (fun i => match findPhrase d p i with | some x => decide (65535 ≤ refsFor d seq x) | none => false)

/-- SESS_FORK at its snapshot boundary (05 R104, R105). -/
def forkAt (d : Dev) (seq h len : Nat) : Dev :=
  match findSess d h with
  | none => finishSeq d seq stStale []
  | some s =>
    match findModel d s.model with
    | none => finishSeq d seq stStale []
    | some m =>
      let p := ctxPart s.ctx
      let whole := len = 0 || len = s.log.length
      let n := if len = 0 then s.log.length else len
      let nn := if whole then 2 ^ 30 else n
      let hasRec := m.layers.any (fun l => l.kind == 1)
      let refs := s.layers.flatMap (fun l => idsBelow l.stem nn ++ idsBelow l.direct nn)
      if !liveFor s seq then finishSeq d seq stState []
      else if s.log.length < len || (hasRec && !whole) then finishSeq d seq stRange []
      else if s.layers.any (fun l => cutUnreadable d p l nn) then finishSeq d seq stDamaged []
      else
        match limitPhrase d p seq refs with
        | some i => finishSeq d seq stLimit [(20, 4, i)]
        | none =>
          match pickEntry d, pickSlot d p with
          | some i, some slot =>
            let home := mostFree d p
            let child := newSess i (entryGen d i + 1) 1 s.ctx slot s.model home m.layers
            let obj := allocKey 1 (handleOf child)
            match (allocSlot d p home obj m.layers).bind (fun d1 => chargeLog d1 p home obj n) with
            | none => finishSeq d seq stNospace []
            | some d1 =>
              match forkLayers child nn d1 0 (s.layers.zip m.layers) with
              | none => finishSeq d seq stNospace []
              | some (ls, d2) =>
                let c := { child with
                  log := s.log.take n
                  layers := ls
                  tok := tokFork s.tok (decide (n = s.log.length))
                  syn := synFork s.syn (decide (n = s.log.length)) }
                let d3 := refs.foldl (fun acc j => refPhrase acc p j) (putEntry d2 c)
                let slow := s.layers.any (fun l => (cutPhrases d p l nn).any (fun x => x.hbm.isNone))
                if slow then
                  registerSeq (queueMover (dropOp d3 seq) seq 0 (.snapshot seq)) seq (.forked seq (handleOf c) slot refs.length)
                else finishSeq d3 seq stOk [(8, 4, handleOf c), (12, 4, slot), (16, 4, refs.length)]
          | _, _ => finishSeq d seq stNospace []

/-- A fork that fails after its snapshot leaves nothing: its child is freed again (05 R105). -/
def forkUndo (d : Dev) (seq child status : Nat) : Dev :=
  let d0 := dropMovers d seq
  match findSess d0 child with
  | none => finishSeq d0 seq status []
  | some c => finishSeq (freeEntry (freeSession d0 c).2 c) seq status []

/-- A fork that copies rows of a phrase out of DDR or FLASH completes at the first boundary after the movers have read them (05 R104). [Log entry 114, DEDUCED.] -/
def forkedAt (d : Dev) (seq child slot refs : Nat) : Dev :=
  let ws := moversOf d seq
  if ws.any (fun w => w.state == 0) then d
  else if ws.any (fun w => w.state == 2) then forkUndo d seq child stDamaged
  else if (findSess d child).isNone then forkUndo d seq child stAborted
  else finishSeq (dropMovers d seq) seq stOk [(8, 4, child), (12, 4, slot), (16, 4, refs)]

/-! ### ROLLBACK and TRUNCATE (05 R106-R108, 06 R133) -/

def rollbackBody (v : Verb) (d : Dev) : Except Fail Dev := do
  check4 v false [(21, 43)] [(20, fld v 20 1 == 1 || fld v 20 1 == 2)]
  let s ← checkSess d v (fld v 16 4) 16
  needLive s v 16
  .ok (registerOp d v (.rollback v.seq (fld v 16 4) (fld v 20 1)))

def truncateBody (v : Verb) (d : Dev) : Except Fail Dev := do
  check4 v false [(24, 40)] []
  let s ← checkSess d v (fld v 16 4) 16
  needLive s v 16
  need stRange (decide (fld v 20 4 ≤ s.log.length))
  .ok (registerOp d v (.truncate v.seq (fld v 16 4) (fld v 20 4)))

/-- Free a session's draft area and end its tree (05 R98). -/
def freeDraft (d : Dev) (h : Nat) : Dev :=
  let obj := allocKey 1 h
  let d1 := { d with pool.allocs := dropWhere (fun a => a.obj == obj && decide (200000 ≤ a.sub) && decide (a.sub < 300000)) d.pool.allocs }
  updSess d1 h (fun s => { s with
    tree := none
    layers := s.layers.map (fun l => { l with
      draft := []
      draftMarks := []
      recur := l.recur.map (fun r => { r with treeIn := [] }) }) })

/-- Sub name of the charge of a tail that a new one supersedes, until the change is linked. -/
def oldTailSub (layer kind : Nat) : Nat := 300000 + layer * 4 + kind

/-- Set the charges of a layer's tails aside: they stay taken until `dropOldTails`. -/
def setAside (d : Dev) (obj layer : Nat) (l : LayerRec) : Dev :=
  (layerKinds l).foldl (fun a k => { a with
    pool.allocs := updWhere (fun x => x.obj == obj && x.sub == tailSub layer k) (fun x => { x with sub := oldTailSub layer k }) a.pool.allocs }) d

/-- Free the tails of a session that its change has superseded. -/
def dropOldTails (d : Dev) (h : Nat) : Dev :=
  { d with pool.allocs := dropWhere (fun a => a.obj == allocKey 1 h && decide (300000 ≤ a.sub) && decide (a.sub < 400000)) d.pool.allocs }

/-- Charge fresh copies of a layer's tails beside the tails themselves (05 R101); none where the grant has no room. -/
def freshTails (d : Dev) (s : Sess) (layer : Nat) (l : LayerRec) (st : LayerSt) : Option Dev :=
  if st.tails.isEmpty then some d
  else
    let obj := allocKey 1 (handleOf s)
    (layerKinds l).foldl (fun acc k => acc.bind (fun a => allocHome a (ctxPart s.ctx) s.home (phraseBytes l k) obj (tailSub layer k)))
      (some (setAside d obj layer l))

/-- Cut one stem layer back to `n` (05 R106): the new layer state, the phrases released, the device. The new tails are written beside the old
ones, whose charges are freed when the cut is linked. -/
def cutLayer (d : Dev) (s : Sess) (st : LayerSt) (layer : Nat) (l : LayerRec) (n : Nat) :
    Option (LayerSt × List Nat × Dev) :=
  if l.kind ≠ 0 || storedLen st ≤ n then some (st, [], d)
  else if st.tailFirst ≤ n then
    let cut := fun (t : Phrase) => { t with
      count := n - st.tailFirst
      rows := t.rows.take (n - st.tailFirst)
      version := t.version + 1 }
    some ({ st with tails := st.tails.map cut }, [], d)
  else
    let obj := allocKey 1 (handleOf s)
    let gone := fun k => (k : List Nat).drop (n / 64)
    match cutTails (setAside d obj layer l) s st layer l n with
    | none => none
    | some (ts, d1) =>
      some ({ st with
        stem := idsBelow st.stem n
        direct := idsBelow st.direct n
        tailFirst := n - n % 64
        tails := ts }, gone st.stem ++ gone st.direct, d1)

/-- Cut every layer of a session back to `n`. -/
def cutLayers (s : Sess) (n : Nat) : Dev → Nat → List (LayerSt × LayerRec) → Option (List LayerSt × List Nat × Dev)
  | d, _, [] => some ([], [], d)
  | d, i, (st, l) :: rest =>
    match cutLayer d s st i l n with
    | none => none
    | some (x, g, d1) =>
      match cutLayers s n d1 (i + 1) rest with
      | none => none
      | some (xs, gs, d2) => some (x :: xs, g ++ gs, d2)

/-- Whether every recurrent layer longer than `n` can return to its shadow (06 R133). -/
def recCanCut (s : Sess) (n : Nat) : Bool :=
  s.layers.all (fun l =>
    match l.recur with
    | some r => decide (r.len ≤ n) || r.shadowLen == some n
    | none => true)

/-- Return the recurrent layers longer than `n` to their shadows (06 R133). -/
def recCut (n : Nat) (l : LayerSt) : LayerSt :=
  match l.recur with
  | some r =>
    if r.len ≤ n then l
    else { l with recur := some { r with cur := r.shadow, shadow := [], len := n, shadowLen := none } }
  | none => l

/-- Keep the marks that a cut to `n` does not clear (18 R419): a phrase range goes when `n` is at or below its first
position. -/
def marksAfterCut (ms : List Rederive) (n : Nat) : List Rederive :=
  ms.filter (fun m => m.kind != 0 || decide (m.first < n))

/-- A cut of a session to `n` at a boundary, with its draft area freed; `none` with the status where it has no
effect. -/
def cutSession (d : Dev) (s : Sess) (n : Nat) : Except Nat (Nat × Dev) :=
  match findModel d s.model with
  | none => .error stStale
  | some m =>
    if !recCanCut s n then .error stRange
    else if s.layers.any (fun l => decide (n < storedLen l) && cutUnreadable d (ctxPart s.ctx) l n) then
      .error stDamaged
    else
      match cutLayers s n d 0 (s.layers.zip m.layers) with
      | none => .error stNospace
      | some (ls, gone, d1) =>
        let d2 := updSess d1 (handleOf s) (fun x => { x with
          layers := ls.map (recCut n)
          marks := marksAfterCut x.marks n })
        .ok (gone.length, releasePhrases (freeDraft (dropOldTails d2 (handleOf s)) (handleOf s)) (ctxPart s.ctx) gone)

/-- The least stored length that a completion of ROLLBACK or TRUNCATE reports. -/
def leastNow (d : Dev) (h : Nat) : Nat :=
  match findSess d h with
  | some s => match findModel d s.model with | some m => minStored m s | none => 0
  | none => 0

/-- ROLLBACK at its boundary (05 R107): DRAFT ends the tree only; STEP cuts to the least stored length. -/
def rollbackAt (d : Dev) (seq h mode : Nat) : Dev :=
  match findSess d h with
  | none => finishSeq d seq stStale []
  | some s =>
    if !liveFor s seq then finishSeq d seq stState []
    else if mode = 1 then
      let d1 := updSess (freeDraft d h) h (fun x => { x with marks := x.marks.filter (fun m => m.kind != 4) })
      finishSeq d1 seq stOk [(8, 4, leastNow d1 h), (12, 4, 0)]
    else
      match cutSession d s (leastNow d h) with
      | .error st => finishSeq d seq st []
      | .ok (n, d1) => finishSeq d1 seq stOk [(8, 4, leastNow d1 h), (12, 4, n)]

/-- TRUNCATE at its boundary (05 R107, 10 R222, 11 R250); it waits for a later one while the text queue has no room for its CUT record. [Log entry 54, DESIGN CHOICE.] -/
def truncateAt (d : Dev) (seq h n : Nat) : Dev :=
  match findSess d h with
  | none => finishSeq d seq stStale []
  | some s =>
    if !liveFor s seq then finishSeq d seq stState []
    else if s.log.length < n then finishSeq d seq stRange []
    else if cutWaits s.tok h n then d
    else
      match cutSession d s n with
      | .error st => finishSeq d seq st []
      | .ok (k, d1) =>
        let d2 := (chargeLog d1 (ctxPart s.ctx) s.home (allocKey 1 h) n).getD d1
        let d3 := updSess d2 h (fun x => { x with
          log := x.log.take n
          syn := synTrunc x.syn n s.log.length })
        finishSeq (postCutRecord d3 h n) seq stOk [(8, 4, leastNow d3 h), (12, 4, k)]

/-! ### APPEND (05 R100-R103) -/

/-- The layers that an APPEND names, with their records. -/
def appendLayers (m : Model) (first count : Nat) : List (Nat × LayerRec) :=
  (rangeFrom first count).filterMap (fun i => (m.layers[i]?).map (fun l => (i, l)))

/-- Source bytes that a layer needs: COUNT rows of stored elements, or of hidden elements (05 R100). -/
def appendBytes (m : Model) (l : LayerRec) (count : Nat) (hidden : Bool) (esize : Nat) : Nat :=
  count * esize * (if hidden then m.hidden else rowElems l 0 + rowElems l 1)

/-- The values of a source of BF16 or FP32 elements. -/
def sourceValues (fp32 : Bool) (bs : List Byte) : List Fv :=
  let sz := if fp32 then 4 else 2
  (chunksOf sz bs.length bs).map (fun x => fvDecode (if fp32 then fmtF32 else fmtBf16) (leNat x))

/-- The source rows of one layer, one list of values for each position: stored rows, or with `hidden` the layer's input rows. [Log entry 34, DEDUCED.] -/
def layerRows (m : Model) (l : LayerRec) (count : Nat) (hidden : Bool) (vals : List Fv) : List (List Fv) :=
  let w := if hidden then m.hidden else rowElems l 0 + rowElems l 1
  (List.range count).map (fun i => (vals.drop (i * w)).take w)

/-- The quantised rows of one layer for each of its storage kinds (05 R87, R90). -/
def layerNew (l : LayerRec) (rows : List (List Fv)) : List (List NewRow) :=
  (layerKinds l).map (fun k => rows.map (fun r =>
    quantRow (kindFmt l k) (if k = 0 then r.take (rowElems l 0) else r.drop (rowElems l 0))))

/-- The position of the first source row that holds a non-finite value. -/
def firstBadRow (first : Nat) (rows : List (List Fv)) : Option Nat :=
  (((List.range rows.length).zip rows).find? (fun x => x.2.any (fun y => !fvFinite y))).map (fun x => first + x.1)

/-- The source of an APPEND layer by layer: layer, record, rows. -/
def appendSource (m : Model) (ls : List (Nat × LayerRec)) (count : Nat) (hidden fp32 : Bool) :
    List Byte → List (Nat × LayerRec × List (List Fv)) :=
  ls.foldr (fun x rest bs =>
    let n := appendBytes m x.2 count hidden (if fp32 then 4 else 2)
    (x.1, x.2, layerRows m x.2 count hidden (sourceValues fp32 (bs.take n))) :: rest (bs.drop n)) (fun _ => [])

/-- The first non-finite value of a source: its position and layer. -/
def badSource (first : Nat) (src : List (Nat × LayerRec × List (List Fv))) : Option (Nat × Nat) :=
  (src.filterMap (fun x => (firstBadRow first x.2.2).map (fun b => (b, x.1)))).head?

/-- The job that APPEND with SOURCE 1 runs (05 R100, 07 Table 7-4): KERNEL_IN of each named layer in turn, over one row of COUNT queries for
each layer. Its descriptor is made up of the fields of Table 6-6 that the cores use: the input offset, and in byte 1 bit 4 for FP32 rows. [Log entry 32, DEDUCED.] -/
def startAppendJob (d : Dev) (v : Verb) (s : Sess) (m : Model) (ls : List (Nat × LayerRec)) : Dev :=
  let cnt := fld v 32 4
  let first := fld v 22 2
  let fp32 := bitSet (fld v 20 1) 2
  let row := fun (i : Nat) =>
    { noJobRow with
      idx := first + i, slotWord := s.slot.getD 0 + s.gen * 2 ^ 18, qcount := cnt, cached := fld v 28 4, first := i * cnt
      handle := handleOf s, layer := s.layers[first + i]? }
  let j : Job := { noJob with
    num := d.arr.nextJob, seq := v.seq, kind := 5, prio := (match findRing d v.ring with | some r => r.prio | none => 0)
    part := ctxPart s.ctx, ctx := s.ctx, model := m.id, layer := first
    desc := [byte m.id, if fp32 then 16 else 0] ++ List.replicate 22 0 ++ natLe (fld v 40 8) 8 ++ List.replicate 96 0
    sessions := [handleOf s], rows := (List.range ls.length).map row, units := [(first, 0)] }
  keepRunning { d with arr.jobs := d.arr.jobs ++ [j], arr.nextJob := (d.arr.nextJob + 1) % 2 ^ 32 } v

/-- APPEND (05 R100). [Log entry 34, DEDUCED.] -/
def appendBody (v : Verb) (d : Dev) : Except Fail Dev := do
  let cnt := fld v 32 4
  check4 v false [(21, 1), (26, 2), (36, 4), (56, 8)]
    [(20, decide (fld v 20 1 < 8)), (24, decide (1 ≤ fld v 24 2)), (32, decide (1 ≤ cnt) && decide (cnt ≤ 4096)),
     (40, fld v 40 8 % 64 == 0 && argIn d v (fld v 40 8) (fld v 48 8)), (48, argIn d v 0 (fld v 48 8))]
  let s ← checkSess d v (fld v 16 4) 16
  needLive s v 16
  if s.tree.isSome then failId stState 16 else
  match findModel d s.model with
  | none => failSt stStale
  | some m =>
    let ls := appendLayers m (fld v 22 2) (fld v 24 2)
    let hidden := bitSet (fld v 20 1) 1
    let esize := if bitSet (fld v 20 1) 2 then 4 else 2
    if m.layers.length < fld v 22 2 + fld v 24 2 then failRange (if m.layers.length ≤ fld v 22 2 then 22 else 24) else
    if fld v 48 8 ≠ sumNat (ls.map (fun x => appendBytes m x.2 cnt hidden esize)) then failRange 48 else
    let fits := ls.all (fun x => x.2.kind == 0) &&
      decide (fld v 28 4 + cnt ≤ s.log.length) && decide (fld v 28 4 + cnt ≤ 16777216)
    if !fits then failWith stRange noBadRow else
    let bs ← argRead d v (fld v 40 8) (fld v 48 8)
    if !hidden then .ok (registerOp d v (.append v.seq))
    else
      match badSource (fld v 28 4) (appendSource m ls cnt true (bitSet (fld v 20 1) 2) bs) with
      | some (bad, layer) => failWith stRange [(24, 4, bad), (28, 2, layer)]
      | none => .ok (startAppendJob d v s m ls)

/-- The state of an APPEND as it links its layers: device, session, totals of sealed and replaced phrases and of
clamped elements. -/
structure AppendAcc where
  dev : Dev
  layers : List LayerSt
  sealed : Nat
  replaced : List Nat
  saturated : Nat
  deriving DecidableEq, Repr

/-- REPLACE in one layer (05 R102): each touched phrase gets a new ID and WRITE_VERSION plus 1; tail rows in the range
are overwritten. `k` numbers the storage kind. -/
def replaceKind (s : Sess) (kind first count : Nat) (rows : List NewRow) (acc : Option (AppendAcc × LayerSt)) :
    Option (AppendAcc × LayerSt) :=
  match acc with
  | none => none
  | some (a, st) =>
    let p := ctxPart s.ctx
    let ids := if kind = 0 then st.stem else st.direct
    let touched := (List.range ids.length).filter (fun i => decide (first ≤ 64 * i) && decide (64 * i < first + count))
    let step := fun (x : Option (Dev × List Nat × List Nat)) (i : Nat) =>
      match x with
      | none => none
      | some (d, l, old) =>
        match findPhrase d p (nth ids i 0) with
        | none => none
        | some ph =>
          match takePhraseId d p with
          | none => none
          | some (id, d1) =>
            let bytes := phraseKib ph.fmt (if kind = 0 then ph.dimA + ph.dimB else 2 * ph.dimA * ph.dimB) * 1024
            match placeHome d1 p s.home bytes with
            | none => none
            | some stk =>
              let new := (rows.drop (64 * i - first)).take 64
              let np := { writeRows { ph with saturated := 0, clamped := false } (new.map (·.row)) new with
                id := id, replaced := true, refs := 1, holds := 0
                creator := handleOf s, hbm := some stk, ddr := false, flash := none
                imageHolds := 0, poisonHbm := [], poisonDdr := [], hardHbm := [], hardDdr := [] }
              let d2 := allocAt d1 p stk bytes (phraseKey p id) 0
              some ({ d2 with kv.phrases := d2.kv.phrases ++ [np] }, l.set i id, old ++ [ph.id])
    match touched.foldl step (some (a.dev, ids, [])) with
    | none => none
    | some (d1, ids', old) =>
      let fix := fun (t : Phrase) =>
        if t.kind = kind && decide (st.tailFirst < first + count) then
          let lo := Nat.max first st.tailFirst
          let new := (rows.drop (lo - first)).take (first + count - lo)
          let at0 := lo - st.tailFirst
          writeRows t (t.rows.take at0 ++ new.map (·.row) ++ t.rows.drop (at0 + new.length)) new
        else t
      let st' := if kind = 0 then { st with stem := ids', tails := st.tails.map fix }
        else { st with direct := ids', tails := st.tails.map fix }
      some ({ a with dev := d1, replaced := a.replaced ++ old }, st')

/-- Whether a REPLACE range lies within a layer's stored length and covers whole each sealed phrase it touches. -/
def replaceFits (st : LayerSt) (first count : Nat) : Bool :=
  decide (first + count ≤ storedLen st) &&
    (decide (st.tailFirst ≤ first) || first % 64 == 0) &&
    (decide (st.tailFirst ≤ first + count) || (first + count) % 64 == 0)

/-- Link one layer of an APPEND; the status where it cannot. SEALED counts the phrases that fill and seal; those that REPLACE makes are counted
in REPLACED alone, which the spec leaves open. [Log entry 115, DESIGN CHOICE.] -/
def appendOne (s : Sess) (replace : Bool) (first count : Nat) (a : AppendAcc) (x : Nat × LayerRec × List (List NewRow)) :
    Except Nat AppendAcc :=
  let (layer, l, nr) := x
  match a.layers[layer]? with
  | none => .error stRange
  | some st =>
    if replace then
      if !replaceFits st first count then .error stRange
      else
        let go := (List.range nr.length).foldl (fun acc k => replaceKind s k first count (nth nr k []) acc)
          ((if st.tailFirst < first + count then freshTails a.dev s layer l st else some a.dev).map (fun d' => ({ a with dev := d' }, st)))
        match go with
        | none => .error stNospace
        | some (a', st') =>
          .ok { a' with layers := a'.layers.set layer st', saturated := a'.saturated + sumNat (nr.map satOf) }
    else if storedLen st ≠ first then .error stRange
    else
      match (freshTails a.dev s layer l st).bind (fun d' => appendRows s layer l (count / 64 + 2) d' st nr count) with
      | none => .error stNospace
      | some (st', n, d') =>
        .ok { a with dev := d', layers := a.layers.set layer st', sealed := a.sealed + n,
                     saturated := a.saturated + sumNat (nr.map satOf) }

/-- Link every layer of an APPEND in order. -/
def appendAll (s : Sess) (replace : Bool) (first count : Nat) :
    AppendAcc → List (Nat × LayerRec × List (List NewRow)) → Except Nat AppendAcc
  | a, [] => .ok a
  | a, x :: xs =>
    match appendOne s replace first count a x with
    | .error st => .error st
    | .ok a' => appendAll s replace first count a' xs

/-- Link the quantised rows of an APPEND at its boundary (05 R101, R102): all or nothing; the completion of Table 5-6. -/
def appendLink (d : Dev) (seq : Nat) (v : Verb) (s : Sess) (new : List (Nat × LayerRec × List (List NewRow))) : Dev :=
  let first := fld v 28 4
  let cnt := fld v 32 4
  let replace := bitSet (fld v 20 1) 0
  if !liveFor s seq then finishSeq d seq stState noBadRow
  else
    let acc0 : AppendAcc := { dev := d, layers := s.layers, sealed := 0, replaced := [], saturated := 0 }
    match appendAll s replace first cnt acc0 new with
    | .error st => finishSeq d seq st noBadRow
    | .ok a =>
      let keep := fun (k : Rederive) =>
        !(replace && k.kind == 0 && new.any (fun x => x.1 == k.layer) && decide (first ≤ k.first) && decide (k.first + k.count ≤ first + cnt))
      let d1 := updSess (dropOldTails a.dev (handleOf s)) (handleOf s) (fun x => { x with
        layers := a.layers
        marks := x.marks.filter keep })
      let d2 := releasePhrases d1 (ctxPart s.ctx) a.replaced
      let last := match new.getLast? with
        | some x => match a.layers[x.1]? with | some st => storedLen st | none => 0
        | none => 0
      finishSeq d2 seq stOk ([(8, 4, last), (12, 4, a.sealed), (16, 4, a.replaced.length), (20, 4, a.saturated)] ++ noBadRow)

/-- APPEND of stored rows at its boundary. -/
def appendAt (d : Dev) (seq : Nat) : Dev :=
  match findVerb d seq with
  | none => dropOp d seq
  | some v =>
    match findSess d (fld v 16 4) with
    | none => finishSeq d seq stStale []
    | some s =>
      match findModel d s.model with
      | none => finishSeq d seq stStale []
      | some m =>
        let ls := appendLayers m (fld v 22 2) (fld v 24 2)
        match argRead d v (fld v 40 8) (fld v 48 8) with
        | .error f => finishSeq d seq f.status []
        | .ok bs =>
          let src := appendSource m ls (fld v 32 4) false (bitSet (fld v 20 1) 2) bs
          match badSource (fld v 28 4) src with
          | some (bad, layer) => finishSeq d seq stRange [(24, 4, bad), (28, 2, layer)]
          | none => appendLink d seq v s (src.map (fun x => (x.1, x.2.1, layerNew x.2.1 x.2.2)))

/-- APPEND of hidden rows once its job has run KERNEL_IN for its last layer (05 R101): `rows` gives the rows that the job passed to the append
unit. The spec checks the hidden rows for non-finite values; where a projected row holds one, the model treats it as a non-finite input too,
with ST_RANGE and its BAD_POS. [Log entry 116, DESIGN CHOICE.] -/
def appendJobAt (d : Dev) (j : Job) : Dev :=
  match findVerb d j.seq with
  | none => d
  | some v =>
    match findSess d (fld v 16 4) with
    | none => finishSeq d j.seq stAborted []
    | some s =>
      match findModel d s.model with
      | none => finishSeq d j.seq stStale []
      | some m =>
        let got := fun (r : JobRow) (k i : Nat) => (((r.news.find? (fun x => x.1 == k && x.2.1 == i)).map (·.2.2))).getD noRow
        let new := (appendLayers m (fld v 22 2) (fld v 24 2)).filterMap (fun x =>
          (j.rows.find? (fun r => r.idx == x.1)).map (fun r =>
            (x.1, x.2, (layerKinds x.2).map (fun k => (List.range r.qcount).map (got r k)))))
        let bad := new.filterMap (fun x =>
          ((List.range (fld v 32 4)).find? (fun i => x.2.2.any (fun l => (nth l i noRow).clamped))).map (fun i => (fld v 28 4 + i, x.1)))
        if j.rows.any (fun r => r.status != 0) then finishSeq d j.seq stDamaged noBadRow
        else
          match bad.head? with
          | some (b, layer) => finishSeq d j.seq stRange [(24, 4, b), (28, 2, layer)]
          | none => appendLink d j.seq v s new

end Sys2Proof.Machine
end

