-- ==== Sys2Proof/Machine/Park.lean ====
section
/-!
DEFINITION. PARK, REVIVE and MOVE (09 R196-R198), the state movers' copies (09 R178, R182), and the session transitions of
Table 9-5.
-/

namespace Sys2Proof.Machine

/-! ### Media -/

/-- A status for media that is not MOUNTED or READ_ONLY, or cannot be written (13 R306, R310). [Log entry 39, DEDUCED.] -/
def needMedia (d : Dev) (writes : Bool) : Except Fail Unit :=
  if !(d.flash.state == 1 || d.flash.state == 2) || d.flash.unmounting.isSome then failSt stState
  else if writes && d.flash.state = 2 then failSt stMedia
  else .ok ()

/-! ### Copies of phrases -/

/-- Whether a tier (0 HBM, 1 DDR, 2 FLASH) holds a copy of record. -/
def hasCopy (x : Phrase) (tier : Nat) : Bool :=
  match tier with
  | 0 => x.hbm.isSome
  | 1 => x.ddr
  | _ => x.flash.isSome

/-- The tiers that a mask asks for and a phrase lacks. -/
def missingTiers (x : Phrase) (mask : Nat) : List Nat := (List.range 3).filter (fun t => bitSet mask t && !hasCopy x t)

/-- Whether an unfinished job answers from the copy of a phrase in a tier, which it chose at dispatch (06 R126). -/
def copyInJob (d : Dev) (p id tier : Nat) : Bool :=
  d.arr.jobs.any (fun j => j.part == p && j.rows.any (fun r => r.items.any (fun w => w.tier == tier && w.phrases.contains id)))

/-- Free the storage of a copy that is no longer of record, once the jobs that chose it have completed (09 R178). Flash pages that an image
holds stay (09 R192). -/
def settleDropping (d : Dev) (x : Nat × Nat × Nat × Nat) : Dev :=
  if copyInJob d x.1 x.2.1 x.2.2.1 then { d with kv.droppings := d.kv.droppings ++ [x] }
  else if x.2.2.1 < 2 then freeAlloc d (phraseKey x.1 x.2.1) x.2.2.1
  else unholdPhrase d x.1 x.2.2.2

/-- At a boundary: storage of dropped copies that nothing reads any more. -/
def settleDroppings (d : Dev) : Dev := d.kv.droppings.foldl settleDropping { d with kv.droppings := [] }

/-- The copy of a phrase in a tier stops being of record (09 R178). -/
def unrecord (d : Dev) (x : Phrase) (tier : Nat) : Dev :=
  let off := fun (y : Phrase) =>
    match tier with
    | 0 => { y with hbm := none, poisonHbm := [], hardHbm := [] }
    | 1 => { y with ddr := false, poisonDdr := [], hardDdr := [] }
    | _ => { y with flash := none, imageHolds := 0 }
  settleDropping (updPhrase d x.part x.id off) (x.part, x.id, tier, x.flash.getD 0)

/-- Drop the copies of a phrase outside a mask; the last copy stays (09 R178, R198). [Log entry 38, DEDUCED.] -/
def dropCopies (d : Dev) (p id mask : Nat) (keepFlash : Bool) : Dev :=
  match findPhrase d p id with
  | none => d
  | some x =>
    if !(List.range 3).any (fun t => bitSet mask t && hasCopy x t) then d
    else
      let out := (List.range 3).filter (fun t => hasCopy x t && !bitSet mask t && !(t == 2 && keepFlash))
      out.foldl (fun a t => unrecord a x t) d

/-- Charge a new copy of a phrase to its tier (09 R179), taking LPNs for a flash copy: the device and those LPNs, or the reason code where it
does not fit (09 Table 9-12). -/
def chargeCopy (d : Dev) (x : Phrase) (tier home : Nat) : Except Nat (Dev × Option (Nat × Nat × Nat)) :=
  let bytes := phraseSize x * 1024
  let n := ceilDiv (phraseSize x) 16
  match tier with
  | 0 => match allocHome d x.part home bytes (phraseKey x.part x.id) 0 with
    | some d1 => .ok (d1, none)
    | none => .error 1
  | 1 => match allocDdr d x.part bytes (phraseKey x.part x.id) 1 with
    | some d1 => .ok (d1, none)
    | none => .error 2
  | _ => if !flashWritable d then .error 5
    else match flashRun d x.part n with
      | some l => .ok (d, some (x.part, l, n))
      | none => .error 3

/-- Release the charge of a copy that is not made; the LPNs of a flash copy go with its mover. -/
def unchargeCopy (d : Dev) (p id tier : Nat) : Dev := if tier < 2 then freeAlloc d (phraseKey p id) tier else d

/-- Whether a channel core reads a phrase from flash for a work item now (09 R183). -/
def flashItemReads (d : Dev) (p id : Nat) : Bool :=
  d.arr.jobs.any (fun j => j.part == p && j.rows.any (fun r => r.items.any (fun w =>
    w.tier == 2 && w.state == 1 && !w.done && w.phrases.contains id)))

/-- Whether the only copy of a phrase is on flash, so that a copy of it is read there. -/
def flashOnly (x : Phrase) : Bool := x.hbm.isNone && !x.ddr && x.flash.isSome

/-- The pages of a phrase's flash copy. -/
def phrasePages (x : Phrase) : List (List Byte) :=
  let bs := phraseImage x
  (List.range (ceilDiv (phraseSize x) 16)).map (fun i => padTo (bs.drop (16384 * i)) 16384)

/-- Make a finished copy a copy of record (09 R178); a flash copy is written to the LPNs `lpn` on. -/
def recordCopy (d : Dev) (p id tier lpn : Nat) : Dev :=
  match findPhrase d p id with
  | none => d
  | some x =>
    match tier with
    | 0 => updPhrase d p id (fun y => { y with hbm := stackOf d (phraseKey p id) 0, poisonHbm := [], hardHbm := [] })
    | 1 => updPhrase d p id (fun y => { y with ddr := true, poisonDdr := [], hardDdr := [] })
    | _ =>
      let d1 := flashWrite d p lpn x.version (objRef 2 x.ctx id) false (phrasePages x)
      let y := { x with flash := some lpn }
      let g := (gpageOf d1 p lpn).getD 0
      let d2 := updPhrase d1 p id (fun _ => y)
      { d2 with stored.phrases := upsert (fun (e : Nat × Phrase) => e.1 == g) (g, y) d2.stored.phrases }

/-! ### MOVE (09 R198) -/

/-- The session that a MOVE places new HBM copies for: its home stack (09 R492). -/
def moveHome (d : Dev) (m : MoveOp) : Nat :=
  match findSess d m.handle with
  | some s => if s.slot.isSome then s.home else mostFree d m.part
  | none => mostFree d m.part

/-- Whether an earlier change of a phrase's copies has not taken effect (09 R182): a mover of another verb carries it, storage of a dropped
copy is still in use, or a MOVE accepted before has it to do. `seq`, `promo`: whose turn is asked. -/
def phraseBusy (d : Dev) (seq : Nat) (promo : Bool) (p id : Nat) : Bool :=
  d.kv.movers.any (fun w => (w.seq != seq || w.promo != promo) && (match w.what with
    | .phrase p' id' _ => p' == p && id' == id
    | _ => false)) ||
  d.kv.droppings.any (fun x => x.1 == p && x.2.1 == id) ||
  d.kv.ops.any (fun o => match o with
    | .move m => m.part == p && decide (m.seq < seq) && (m.todo.contains id || m.waiting.contains id)
    | _ => false)

/-- The movers of a verb, or of its promotion, that carry a phrase. -/
def phraseMovers (d : Dev) (seq : Nat) (promo : Bool) (p id : Nat) : List Mover :=
  d.kv.movers.filter (fun w => w.seq == seq && w.promo == promo && (match w.what with
    | .phrase p' id' _ => p' == p && id' == id
    | _ => false))

/-- Remove one mover. -/
def dropMover (d : Dev) (id : Nat) : Dev := { d with kv.movers := dropWhere (fun (w : Mover) => w.id == id) d.kv.movers }

/-- The reason code of a phrase that is not placed, the first failure of a MOVE. -/
def failReason (m : MoveOp) (r : Nat) : Nat := if m.reason = 0 then r else m.reason

/-- The reason for a source that cannot be read: every copy poisoned, or a media failure (09 Table 9-12). -/
def sourceReason (x : Phrase) : Nat := if flashOnly x then 5 else 4

/-- Charge and queue one missing copy of a phrase. A copy out of flash shares the read of a work item under way (09 R183). -/
def startCopy (x : Phrase) (home : Nat) (acc : Dev × MoveOp × Bool) (t : Nat) : Dev × MoveOp × Bool :=
  let (d, m, ok) := acc
  match chargeCopy d x t home with
  | .error r => (d, { m with reason := failReason m r }, false)
  | .ok (d1, run) =>
    let order := if flashOnly x && flashItemReads d x.part x.id then 1 else 2
    let prio := match findRing d m.ring with | some r => r.prio | none => 0
    (putMover d1 m.seq order prio m.promote run (.phrase x.part x.id t), m, ok)

/-- Take up one phrase of a MOVE: placed already, copies started, or failed with a reason. [Log entry 38, DEDUCED.] -/
def moveTake (acc : Dev × MoveOp) (id : Nat) : Dev × MoveOp :=
  let (d, m) := acc
  match findPhrase d m.part id with
  | none => (d, { m with failed := m.failed + 1 })
  | some x =>
    if phraseBusy d m.seq m.promote m.part id then (d, { m with todo := m.todo ++ [id] })
    else
      match missingTiers x m.mask with
      | [] => (dropCopies d m.part id m.mask m.keepFlash, { m with done := m.done + 1 })
      | ts =>
        if phraseLost d x then (d, { m with failed := m.failed + 1, reason := failReason m (sourceReason x) })
        else
          let (d1, m1, ok) := ts.foldl (startCopy x (moveHome d m)) (d, m, true)
          let waiting := if (phraseMovers d1 m.seq m.promote m.part id).isEmpty then m1.waiting else m1.waiting ++ [id]
          if ok then (d1, { m1 with waiting := waiting })
          else (d1, { m1 with failed := m1.failed + 1, waiting := waiting, short := m1.short ++ [id] })

/-- Settle one mover that has finished: its copy becomes a copy of record, or its charge is released. -/
def settleCopy (acc : Dev × MoveOp × Bool) (w : Mover) : Dev × MoveOp × Bool :=
  let (d, m, ok) := acc
  match w.what with
  | .phrase p i t =>
    let d1 := dropMover d w.id
    (match findPhrase d1 p i with
    | none => (d1, m, false)
    | some x =>
      let lpn := match w.run with | some r => r.2.1 | none => 0
      if w.state = 1 && (decide (t < 2) || flashWritable d1) then (recordCopy d1 p i t lpn, { m with bytes := m.bytes + phraseSize x * 1024 }, ok)
      else (unchargeCopy d1 p i t, { m with reason := failReason m (if w.state = 1 then 5 else sourceReason x) }, false))
  | _ => acc

/-- Settle one phrase whose copies were started: each finished copy becomes one of record; once all are, the copies outside the mask are
dropped. A phrase with a copy that was not made has failed. -/
def moveSettle (acc : Dev × MoveOp) (id : Nat) : Dev × MoveOp :=
  let (d, m) := acc
  let ws := phraseMovers d m.seq m.promote m.part id
  let (d1, m1, ok) := (ws.filter (fun w => w.state != 0)).foldl settleCopy (d, m, true)
  let m2 := if ok || m1.short.contains id then m1 else { m1 with failed := m1.failed + 1, short := m1.short ++ [id] }
  if ws.any (fun w => w.state == 0) then (d1, { m2 with waiting := m2.waiting ++ [id] })
  else if m2.short.contains id then (d1, m2)
  else (dropCopies d1 m.part id m.mask m.keepFlash, { m2 with done := m2.done + 1 })

/-- Settle what a MOVE has waiting. -/
def moveFinished (d : Dev) (m : MoveOp) : Dev × MoveOp := m.waiting.foldl moveSettle (d, { m with waiting := [] })

/-- One boundary of a MOVE or promotion: finished copies become copies of record, further phrases are taken up. -/
def moveStep (d : Dev) (m : MoveOp) : Dev × MoveOp :=
  let r1 := moveFinished d m
  r1.2.todo.foldl moveTake (r1.1, { r1.2 with todo := [] })

/-- Give up the copies of a MOVE that are still under way: their movers and charges go. -/
def moveGiveUp (d : Dev) (m : MoveOp) : Dev :=
  (d.kv.movers.filter (fun w => w.seq == m.seq && w.promo == m.promote)).foldl (fun a w =>
    match w.what with
    | .phrase p i t => unchargeCopy (dropMover a w.id) p i t
    | _ => a) d

/-- The completion fields of a MOVE (09 Table 9-12). -/
def moveFields (m : MoveOp) : List (Nat × Nat × Nat) :=
  [(8, 4, m.named), (12, 4, m.done), (16, 4, m.named - m.done), (20, 1, m.reason), (24, 8, m.bytes)]

/-- A MOVE is stopped with a status: what has been made and dropped stays in effect (09 R198). -/
def moveStop (d : Dev) (m0 : MoveOp) (status : Nat) : Dev :=
  let (d1, m) := moveFinished d m0
  finishSeq (moveGiveUp d1 m) m.seq status (moveFields m)

/-- Replace a verb's MOVE operation, promotions apart. -/
def putMove (d : Dev) (m : MoveOp) : Dev :=
  { d with kv.ops := updWhere (fun o => match o with
      | .move x => x.seq == m.seq && x.promote == m.promote
      | _ => false) (fun _ => .move m) d.kv.ops }

/-- Remove a finished MOVE operation. -/
def dropMove (d : Dev) (m : MoveOp) : Dev :=
  { d with kv.ops := dropWhere (fun o => match o with
      | .move x => x.seq == m.seq && x.promote == m.promote
      | _ => false) d.kv.ops }

/-- MOVE or promotion at a boundary: it ends with its completion, or with EV_PROMOTE_DONE (09 R196-R198). -/
def moveAt (d : Dev) (m0 : MoveOp) : Dev :=
  if m0.bySess && (findSess d m0.handle).isNone then moveStop d m0 stAborted
  else
  let (d1, m) := moveStep d m0
  if m.todo.isEmpty && m.waiting.isEmpty then
    let d2 := dropMove d1 m
    if m.promote then
      match findSess d2 m.handle with
      | some s => raiseRec d2 {
          clause := d2.clk.count, time := d2.tim.now, code := 0x0442, ring := m.ring, tag := m.tag, obj := objSess s,
          detail := natLe m.done 4 ++ natLe m.failed 4 ++ natLe m.reason 1, scope := .part m.part }
      | none => d2
    else
      match findVerb d2 m.seq with
      | some v => finish d2 v (if m.failed = 0 then stOk else stPartial) 0xFF (moveFields m)
      | none => d2
  else putMove d1 m

/-- The phrases that a MOVE names in a session's lists (09 R198). -/
def movePhrases (s : Sess) (kinds lf lc pf pc : Nat) : List Nat :=
  ((List.range s.layers.length).zip s.layers).flatMap (fun x =>
    if decide (lf ≤ x.1) && (lc == 0 || decide (x.1 < lf + lc)) then
      let pick := fun (l : List Nat) => ((List.range l.length).zip l).filterMap (fun y =>
        if decide (pf < 64 * y.1 + 64) && (pc == 0 || decide (64 * y.1 < pf + pc)) then some y.2 else none)
      (if kinds == 0 || bitSet kinds 0 then pick x.2.stem else []) ++
        (if kinds == 0 || bitSet kinds 1 then pick x.2.direct else [])
    else [])

/-- An object reference's reserved bits (02 R21): identifier bits above the width of its type. -/
def refReserved (r width : Nat) : Bool := decide (2 ^ width ≤ r % 2 ^ 48)

/-- The media that a MOVE needs (13 R306, R310): it writes flash where its mask asks for a flash copy, and reads flash where a named phrase
has no other copy to make a missing one from. [Log entry 39, DEDUCED.] -/
def moveMedia (d : Dev) (p mask : Nat) (ids : List Nat) : Except Fail Unit :=
  let reads := ids.any (fun i => match findPhrase d p i with
    | some x => !hasCopy x 0 && !hasCopy x 1 && !(missingTiers x mask).isEmpty
    | none => false)
  if bitSet mask 2 then needMedia d true else if reads then needMedia d false else .ok ()

def moveBody (v : Verb) (d : Dev) : Except Fail Dev := do
  let r := fld v 16 8
  let typ := r / 2 ^ 59
  let ctx := r / 2 ^ 48 % 2048
  check4 v false [(30, 2), (40, 24)]
    [(24, decide (1 ≤ fld v 24 1) && decide (fld v 24 1 < 8)), (25, decide (fld v 25 1 < 4))]
  if !(typ == 1 || typ == 2) || refReserved r 32 || r % 2 ^ 32 == 0 then failId stRange 16
  else
    checkCtx d v ctx 16
    let id := r % 2 ^ 32
    let base : MoveOp := { seq := v.seq, ring := v.ring, tag := fld v 4 4, promote := false, handle := id,
                           part := ctxPart ctx, mask := fld v 24 1, keepFlash := false, todo := [], waiting := [],
                           short := [], bySess := typ == 1, named := 0, done := 0, failed := 0, reason := 0, bytes := 0 }
    if typ = 1 then
      let s ← checkHeld d ctx id 16
      if s.state = 4 || s.state = 6 then failId stState 16
      else
        let ids := movePhrases s (fld v 25 1) (fld v 26 2) (fld v 28 2) (fld v 32 4) (fld v 36 4)
        moveMedia d (ctxPart ctx) (fld v 24 1) ids
        .ok (registerOp d v (.move { base with todo := ids, named := ids.length }))
    else
      match findPhrase d (ctxPart ctx) id with
      | none => failId stStale 16
      | some x =>
        if x.ctx ≠ ctx then failId stStale 16
        else
          let names := (fld v 25 1 == 0 || bitSet (fld v 25 1) x.kind) && decide (fld v 26 2 ≤ x.layer) &&
            (fld v 28 2 == 0 || decide (x.layer < fld v 26 2 + fld v 28 2)) &&
            decide (fld v 32 4 < x.firstPos + 64) && (fld v 36 4 == 0 || decide (x.firstPos < fld v 32 4 + fld v 36 4))
          let ids := if names then [id] else []
          moveMedia d (ctxPart ctx) (fld v 24 1) ids
          .ok (registerOp d v (.move { base with handle := x.creator, todo := ids, named := ids.length }))

/-! ### PARK (09 R196) -/

/-- The checks of PARK up to check 5, as RING_FETCH makes them at acceptance and the verb when it starts. -/
def parkCheck (v : Verb) (d : Dev) : Except Fail Sess := do
  check4 v false [(23, 41)]
    [(20, fld v 20 1 == 1 || fld v 20 1 == 2),
     (21, decide (fld v 21 1 < 4) && (!bitSet (fld v 21 1) 0 || fld v 20 1 == 2)), (22, decide (fld v 22 1 < 8))]
  let s ← checkSess d v (fld v 16 4) 16
  if (s.state = 1 || s.state = 2) || (s.state = 5 && s.parkSeq = v.seq) then .ok s else failId stState 16

/-- The entry into PARKING at the acceptance of a PARK without KEEP (09 R185). -/
def parkAccept (v : Verb) (d : Dev) : Dev :=
  match parkCheck v d with
  | .ok s =>
    if bitSet (fld v 21 1) 1 then d
    else updSess d (handleOf s) (fun x => { x with state := 5, prior := x.state, parkSeq := v.seq })
  | .error _ => d

/-- Leave PARKING for the state that residency gives (09 R185). [Log entry 37, DEDUCED.] -/
def unpark (d : Dev) (h : Nat) : Dev :=
  match findSess d h with
  | some s => if s.state = 5 then updSess d h (fun x => { x with state := residency d s, parkSeq := 0 }) else d
  | none => d

def parkBody (v : Verb) (d : Dev) : Except Fail Dev := do
  let s ← parkCheck v d
  if fld v 20 1 = 2 && d.flash.state = 2 then failSt stMedia
  else if fld v 20 1 = 2 && !flashWritable d then failSt stState
  else
    .ok (registerOp d v (.park { seq := v.seq, handle := handleOf s, place := fld v 20 1,
                                 durable := bitSet (fld v 21 1) 0, keep := bitSet (fld v 21 1) 1,
                                 phrasePlace := fld v 22 1, stage := 0, ref := 0, copied := 0, waitFlash := [], made := [], image := none,
                                 status := stOk }))

/-- PARK with its checks; a PARK that is refused leaves PARKING. -/
def parkRun (v : Verb) (d : Dev) : Except Fail Dev :=
  match parkBody v d with
  | .ok d' => .ok d'
  | .error f =>
    match findSess d (fld v 16 4) with
    | some s =>
      if s.state = 5 && s.parkSeq = v.seq then .ok (finishFail (unpark d (handleOf s)) v f) else .error f
    | none => .error f

/-- Sizes of a model's recurrent buffers in layer order. -/
def recSizes (m : Model) : List Nat := (m.layers.filter (fun l => l.kind == 1)).map recBytes

/-- The entries of an image's phrase list (09 Table 9-8): layer, kind, ID, WRITE_VERSION, flash LPN plus 2^34. -/
def imagePhrases (d : Dev) (s : Sess) : List (Nat × Nat × Nat × Nat × Nat) :=
  ((List.range s.layers.length).zip s.layers).flatMap (fun x =>
    let ent := fun k i => match findPhrase d (ctxPart s.ctx) i with
      | some ph => (x.1, k, i, ph.version, match ph.flash with | some l => 2 ^ 34 + l | none => 0)
      | none => (x.1, k, i, 0, 0)
    x.2.stem.map (ent 0) ++ x.2.direct.map (ent 1))

/-- A session's image at a snapshot (09 R190). -/
def snapImage (d : Dev) (s : Sess) (m : Model) (flags : Nat) : ParkImage :=
  let im : ParkImage := {
    part := ctxPart s.ctx, ref := 0, ctx := s.ctx, handle := handleOf s, log := s.log, model := s.model
    modelDigest := m.digest.take 16, tok := s.tok, syn := s.syn, lens := s.layers.map storedLen
    phrases := imagePhrases d s, layers := s.layers.map (fun l => { l with draft := [], draftMarks := [] })
    bytes := 0, check := 0, durable := false, written := false, poisoned := false, clause := d.clk.count, time := d.tim.now
    flags := flags }
  { im with bytes := imageSize im (recSizes m) }

/-- Whether a mutable object of a session is poisoned (18 R419; ST_DAMAGED of PARK): a tail range, a recurrent layer, the
log or the block. -/
def sessDamaged (s : Sess) : Bool :=
  s.marks.any (fun k => k.kind != 0 || (match s.layers[k.layer]? with
    | some l => decide (l.tailFirst ≤ k.first)
    | none => false))

/-- The first block, from `b` on, at which `n` blocks overlap none of some runs sorted by their start. -/
def firstGap (n : Nat) : Nat → List (Nat × Nat) → Nat
  | b, [] => b
  | b, r :: rs => if b + n ≤ r.1 then b else firstGap n (Nat.max b (r.1 + r.2)) rs

/-- The first free run of `n` blocks of 16 KiB for a DDR image, within the partition's grant (09 R191). [Log entry 38, DEDUCED.] -/
def ddrImageSlot (d : Dev) (p n : Nat) : Option Nat :=
  let held := (d.kv.images.filter (fun i => i.part == p)).map (fun i => (i.ref % 2 ^ 34, ceilDiv i.bytes 16384))
  let b := firstGap n 0 (sortBy (fun (x y : Nat × Nat) => decide (x.1 ≤ y.1)) held)
  let blocks := match findPart d p with | some x => x.ddr.length * 2 ^ 18 | none => 0
  if b + n ≤ blocks then some b else none

/-- Replace a PARK operation. -/
def putPark (d : Dev) (p : ParkOp) : Dev :=
  { d with kv.ops := updWhere (fun o => match o with | .park x => x.seq == p.seq | _ => false) (fun _ => .park p) d.kv.ops }

/-- PARK fails: its image and the flash copies made for it are freed, and the session leaves PARKING (09 R196). [Log entry 38, DEDUCED.] -/
def parkFail (d : Dev) (p : ParkOp) (status : Nat) : Dev :=
  let part := match findSess d p.handle with | some s => ctxPart s.ctx | none => 0
  let d0 := { d with kv.movers := dropWhere (fun (w : Mover) => w.seq == p.seq && !w.promo) d.kv.movers }
  let d1 := if p.ref = 0 then d0 else dropImage d0 part p.ref
  let d2 := finishSeq (unpark d1 p.handle) p.seq status []
  let spare := fun (i : Nat) => !bitSet p.phrasePlace 2 && (match findPhrase d2 part i with | some x => x.hbm.isSome || x.ddr | none => false)
  recountHolds ((p.made.filter spare).foldl (fun a i => dropCopies a part i 3 false) d2) part

/-- The promotion that PHRASE_PLACE or PROMOTE starts (09 R196, R197). -/
def promoteOp (seq ring tag : Nat) (s : Sess) (mask : Nat) (keepFlash : Bool) : Op :=
  .move { seq := seq, ring := ring, tag := tag, promote := true, handle := handleOf s, part := ctxPart s.ctx,
          mask := mask, keepFlash := keepFlash, todo := sessPhrases s, waiting := [], short := [], bySess := false,
          named := (sessPhrases s).length, done := 0, failed := 0, reason := 0, bytes := 0 }

/-- The snapshot boundary of a PARK (09 R187, R196 steps 2 to 4). -/
def parkSnapshot (d : Dev) (p : ParkOp) : Dev :=
  match findSess d p.handle with
  | none => finishSeq d p.seq stAborted []
  | some s0 =>
    let d0 := freeDraft d p.handle
    let s := (findSess d0 p.handle).getD s0
    match findModel d0 s.model with
    | none => parkFail d0 p stStale
    | some m =>
      if sessDamaged s then parkFail d0 p stDamaged
      else
        let part := ctxPart s.ctx
        let im := snapImage d0 s m ((if p.durable then 1 else 0) + (if p.keep then 2 else 0))
        let n := ceilDiv im.bytes 16384
        let need := if p.durable then (sessPhrases s).filter (fun i =>
            match findPhrase d0 part i with | some x => x.flash.isNone | none => false) else []
        let place : Option (Nat × Option (Nat × Nat × Nat) × Dev) := if p.place = 1 then
            (ddrImageSlot d0 part n).bind (fun b =>
              (allocDdr d0 part im.bytes (allocKey 3 (part * 2 ^ 34 + b)) 0).map (fun d1 =>
                (2 ^ 62 + b, none, { d1 with kv.images := d1.kv.images ++ [{ im with ref := 2 ^ 62 + b }] })))
          else (flashRun d0 part n).map (fun l => (2 * 2 ^ 62 + l, some (part, l, n), d0))
        match place with
        | none => parkFail d0 p stNospace
        | some (ref, run, d1) =>
          let d2 := putMover d1 p.seq 2 (seqPrio d1 p.seq) false run (.image ref)
          let d3 := putPark d2 { p with stage := 1, ref := ref, waitFlash := need, image := some { im with ref := ref } }
          let d4 := recountHolds d3 part
          match findVerb d4 p.seq with
          | some v =>
            if p.phrasePlace = 0 then d4
            else { d4 with kv.ops := d4.kv.ops ++ [promoteOp p.seq v.ring (fld v 4 4) s p.phrasePlace true] }
          | none => d4

/-- One phrase that a durable PARK wants on flash: it has a copy there, or one is made in its turn (09 R182, R196 step 3). The status with
which the PARK fails, where it does. -/
def parkCopy (part : Nat) (acc : Except Nat (Dev × ParkOp)) (i : Nat) : Except Nat (Dev × ParkOp) :=
  match acc with
  | .error st => .error st
  | .ok (a, q) =>
    match findPhrase a part i with
    | none => .ok (a, q)
    | some x =>
      match phraseMovers a q.seq false part i with
      | w :: _ =>
        if w.state = 0 then .ok (a, { q with waitFlash := q.waitFlash ++ [i] })
        else if w.state = 2 || !flashWritable a then .error (if w.state = 2 && !flashOnly x then stDamaged else stMedia)
        else
          let l := match w.run with | some r => r.2.1 | none => 0
          let a1 := recordCopy (dropMover a w.id) part i 2 l
          .ok (wantDurable a1 part l (ceilDiv (phraseSize x) 16), { q with copied := q.copied + 1, made := q.made ++ [i] })
      | [] =>
        match x.flash with
        | some l => .ok (wantDurable a part l (ceilDiv (phraseSize x) 16), q)
        | none =>
          if phraseBusy a q.seq false part i then .ok (a, { q with waitFlash := q.waitFlash ++ [i] })
          else if phraseLost a x then .error stDamaged
          else
            match chargeCopy a x 2 0 with
            | .error r => .error (if r = 3 then stNospace else stMedia)
            | .ok (a1, run) =>
              .ok (putMover a1 q.seq 2 (seqPrio a q.seq) false run (.phrase part i 2), { q with waitFlash := q.waitFlash ++ [i] })

/-- The flash copies of a durable PARK at a boundary. -/
def parkCopies (d : Dev) (part : Nat) (p : ParkOp) : Except Nat (Dev × ParkOp) :=
  p.waitFlash.foldl (parkCopy part) (.ok (d, { p with waitFlash := [] }))

/-- The pages of an image (09 R190, Table 9-6). -/
def imagePages (im : ParkImage) (sizes : List Nat) : List (List Byte) :=
  let bytes := imageHeader im sizes (imageDigest im sizes) ++ imageBody im sizes
  (List.range (ceilDiv bytes.length 16384)).map (fun i => (bytes.drop (16384 * i)).take 16384)

/-- Form an image once the state that it holds has been read and its phrases have their copies: a flash image's pages are queued for
programming (09 R196 steps 3 and 5). -/
def writeImage (d : Dev) (p : ParkOp) (im0 : ParkImage) (sizes : List Nat) : Dev :=
  let refresh := fun (e : Nat × Nat × Nat × Nat × Nat) =>
    if p.durable then
      (match findPhrase d im0.part e.2.2.1 with
       | some x => (e.1, e.2.1, e.2.2.1, e.2.2.2.1, match x.flash with | some l => 2 ^ 34 + l | none => 0)
       | none => e)
    else e
  let im1 := { im0 with phrases := im0.phrases.map refresh, durable := p.durable, written := true }
  let im := { im1 with check := leNat ((imageDigest im1 sizes).take 8) }
  let d1 := if p.place = 1 then d
    else flashWrite d im.part (p.ref % 2 ^ 34) 0 (objRef 1 im.ctx im.handle) p.durable (imagePages im sizes)
  putPark (putImage d1 im.part p.ref im) { p with stage := 2, image := some im }

/-- Whether the phrase copies that a durable image lists are durable. -/
def listedDurable (d : Dev) (part : Nat) (im : ParkImage) : Bool :=
  im.phrases.all (fun e =>
    match findPhrase d part e.2.2.1 with
    | some x =>
      match x.flash with
      | some l => runDurable d part l (ceilDiv (phraseSize x) 16)
      | none => false
    | none => true)

/-- What a PARKED session keeps of its token state: the lexicons that it uses (02 R24, 10 R207) and whether a ring is named, which a rebinding may
end (10 R218). -/
def boundTok (t : TokSt) : TokSt :=
  { tokZero with
    detok := t.detok, lex := t.lex, lexDigest := t.lexDigest, tkOpen := t.tkOpen, tkLex := t.tkLex, ringNamed := t.ringNamed }

/-- What a PARKED session keeps of its syntax state: the grammar that it is bound to (02 R24, 11 R230), and what MASK_GET answers from in any
state: the grammar state, the stack and the end tokens (11 R236). -/
def boundSyn (y : SynSt) : SynSt :=
  { synZero with
    mode := y.mode, grammar := y.grammar, gramDigest := y.gramDigest, state := y.state, stack := y.stack, params := y.params }

/-- A PARK whose image and copies are written completes (09 R196 steps 5 and 6). [Log entry 37, DEDUCED.] -/
def parkComplete (d2 : Dev) (p : ParkOp) (s : Sess) (im : ParkImage) : Dev :=
  let part := ctxPart s.ctx
  let d3 := match s.image with
    | some i => if i.ref = p.ref then d2 else dropImage d2 part i.ref
    | none => d2
  let keepIds := fun (l : LayerSt) => { l with tails := [], draft := [], draftMarks := [], recur := none }
  let d4 := if p.keep then updSess d3 p.handle (fun x => { x with image := some ⟨p.ref, p.durable, 0⟩ })
    else
      let d3' := releaseSlot (freeSlotObjects d3 s) s
      updSess d3' p.handle (fun x => { x with
        state := 3, slot := none, log := [], tree := none, image := some ⟨p.ref, p.durable, 0⟩
        layers := x.layers.map keepIds, tok := boundTok x.tok, syn := boundSyn x.syn, parkSeq := 0 })
  recountHolds (finishSeq d4 p.seq stOk [(8, 8, p.ref), (16, 8, im.check), (24, 4, im.bytes / 1024), (28, 4, p.copied)]) part

/-- A PARK whose image is written: it completes at once, or once its pages and the copies that it lists are durable. -/
def parkWritten (d : Dev) (p : ParkOp) (s : Sess) : Dev :=
  match p.image with
  | none => parkFail d p stMedia
  | some im =>
    let n := ceilDiv im.bytes 16384
    let l := p.ref % 2 ^ 34
    if p.durable && runLost d im.part l n then parkFail d p stMedia
    else if p.durable && !(runDurable d im.part l n && listedDurable d im.part im) then d
    else parkComplete d p s im

/-- Whether a writer of the session accepted before a PARK is unfinished: SESS_FORK is one too (09 R186, R187). -/
def parkWaits (d : Dev) (h seq : Nat) : Bool :=
  writersBefore d h seq || d.tur.verbs.any (fun w => decide (w.seq < seq) && w.op == 0x0403 && verbSession w == h)

/-- PARK at a boundary. -/
def parkAt (d : Dev) (p0 : ParkOp) : Dev :=
  if p0.stage = 0 then (if parkWaits d p0.handle p0.seq then d else parkSnapshot d p0)
  else
    match findSess d p0.handle with
    | none => finishSeq d p0.seq stAborted []
    | some s =>
      if p0.stage = 2 then parkWritten d p0 s
      else
        match parkCopies d (ctxPart s.ctx) p0 with
        | .error st => parkFail d p0 st
        | .ok (d1, p) =>
          let ws := d1.kv.movers.filter (fun w => w.seq == p.seq && w.what == .image p.ref)
          if ws.any (fun w => w.state == 2) then parkFail d1 p stDamaged
          else if ws.any (fun w => w.state == 0) || !p.waitFlash.isEmpty then putPark d1 p
          else if p.place = 2 && !flashWritable d1 then parkFail d1 p stMedia
          else
            match p.image, findModel d1 s.model with
            | some im, some m =>
              let d2 := writeImage { d1 with kv.movers := dropWhere (fun w => w.seq == p.seq && w.what == .image p.ref) d1.kv.movers } p im
                (recSizes m)
              match d2.kv.ops.find? (fun o => match o with | .park q => q.seq == p.seq | _ => false) with
              | some (.park q) => parkWritten d2 q s
              | _ => d2
            | _, _ => parkFail d1 p stStale

/-- An image is lost (09 R201): EV_IMAGE_LOST with its cause, and the sessions that retained it do so no longer. -/
def loseImage (d : Dev) (p ref cause : Nat) : Dev :=
  let mine := fun (s : Sess) => ctxPart s.ctx == p && s.state != 0 && (match s.image with | some i => i.ref == ref && i.lost == 0 | none => false)
  match d.kv.cat.find? mine with
  | none => d
  | some s =>
    let d1 := { d with kv.cat := updWhere mine (fun x => { x with image := x.image.map (fun i => { i with durable := false, lost := cause }) }) d.kv.cat }
    let d2 := match findImage d1 p ref with | some im => releaseListed d1 p im | none => d1
    raise d2 0x0441 (objSess s) (.part p) [(8, ref), (1, cause)]

/-- A sector of a DDR image is found in error: the image is poisoned and lost (09 R201). -/
def imagePoisoned (d : Dev) (p ref : Nat) : Dev :=
  match findImage d p ref with
  | none => d
  | some im => if im.poisoned then d else loseImage (putImage (bump d 0 0 6 1) p ref { im with poisoned := true }) p ref 2

/-- A retained flash image that was not durable and is programmed now: EV_PARK_DURABLE (09 R196 step 5), or its loss (09 R201). -/
def settleImage (d : Dev) (s : Sess) : Dev :=
  match s.image with
  | none => d
  | some r =>
    let part := ctxPart s.ctx
    if r.durable || r.lost ≠ 0 || r.ref / 2 ^ 62 ≠ 2 then d
    else
      match findImage d part r.ref with
      | none => d
      | some im =>
        let n := ceilDiv im.bytes 16384
        if runLost d part (r.ref % 2 ^ 34) n then loseImage d part r.ref 1
        else if runProgrammed d part (r.ref % 2 ^ 34) n then
          let d1 := updSess d (handleOf s) (fun x => { x with image := some ⟨r.ref, true, 0⟩ })
          let d2 := putImage d1 part r.ref { im with durable := true }
          raise d2 0x0440 (objSess s) (.part part) [(8, r.ref), (8, im.check)]
        else d

/-- Settle every retained image. -/
def settleImages (d : Dev) : Dev := d.kv.cat.foldl settleImage d

/-! ### REVIVE (09 R197) -/

/-- REVIVE (09 R197). [Log entry 39, DEDUCED.] -/
def reviveBody (v : Verb) (d : Dev) : Except Fail Dev := do
  let img := bitSet (fld v 20 1) 0
  let zero := if img then [(16, fld v 16 4 == 0)] else [(22, fld v 22 1 == 0), (24, fld v 24 8 == 0), (32, fld v 32 8 == 0),
    (40, fld v 40 2 == 0)]
  let r := fld v 24 8
  let refOk := (r / 2 ^ 62 == 1 || r / 2 ^ 62 == 2) && r % 2 ^ 62 / 2 ^ 34 == 0
  let c := if v.admin then fld v 40 2 % 2048 else v.ctx
  check4 v false [(23, 1), (42, 22)] (zero ++
    [(20, decide (fld v 20 1 < 4)), (21, decide (fld v 21 1 < 8)), (24, !img || refOk),
     (40, !img || (if v.admin then fld v 40 2 / 2048 == 0 else fld v 40 2 == 0))])
  let base : ReviveOp := { seq := v.seq, handle := fld v 16 4, fromImage := img, release := bitSet (fld v 20 1) 1,
                           promote := fld v 21 1, model := fld v 22 1, ref := r, check := fld v 32 8, ctx := c,
                           slot := 0, idx := 0, stage := 0, status := stOk }
  if img then
    checkOwnedIn d v (ctxPart c) 6 (fld v 22 1) 22 (findModel d (fld v 22 1)).isSome
    checkCtx d v c 40
    if r / 2 ^ 62 = 2 && !flashReadable d then failSt stState
    else .ok (registerOp d v (.revive base))
  else
    let s ← checkSess d v (fld v 16 4) 16
    if s.state ≠ 3 then failId stState 16
    else
      match s.image with
      | none => failId stState 16
      | some i =>
        if i.lost = 1 then failSt stMedia
        else if i.lost = 2 then failSt stDamaged
        else if i.ref / 2 ^ 62 = 2 && !flashReadable d then failSt stState
        else .ok (registerOp d v (.revive { base with ref := i.ref, ctx := s.ctx, model := s.model }))

/-- Replace a REVIVE operation. -/
def putRevive (d : Dev) (r : ReviveOp) : Dev :=
  { d with kv.ops := updWhere (fun o => match o with | .revive x => x.seq == r.seq | _ => false) (fun _ => .revive r) d.kv.ops }

/-- REVIVE fails: nothing is linked and the slot is released (09 R197). -/
def reviveFail (d : Dev) (r : ReviveOp) (status : Nat) : Dev :=
  let d0 := { d with kv.movers := dropWhere (fun w => w.seq == r.seq) d.kv.movers }
  let d1 := match findSess d0 r.handle with
    | some s =>
      if s.state = 6 then
        let d' := releaseSlot (freeSlotObjects d0 s) s
        if r.fromImage then freeEntry d' { s with slot := none }
        else updSess d' r.handle (fun x => { x with state := 3, slot := none })
      else d0
    | none => d0
  finishSeq d1 r.seq status []

/-- Charge the tails, log, block and buffers of an image's session to its home stack. -/
def allocRevive (d : Dev) (p home obj : Nat) (m : Model) (im : ParkImage) : Option Dev :=
  let d0 := (allocSlot d p home obj m.layers).bind (fun d1 => chargeLog d1 p home obj im.log.length)
  im.layers.foldl (fun acc l =>
    l.tails.foldl (fun acc' t =>
      match acc' with
      | none => none
      | some d' => allocHome d' p home (phraseSize t * 1024) obj (tailSub t.layer t.kind)) acc) d0

/-- The first boundary of a REVIVE (09 R197 step 1). [Log entry 37, DEDUCED.] -/
def reviveStart (d : Dev) (r : ReviveOp) : Dev :=
  let p := ctxPart r.ctx
  match (findImage d p r.ref).filter (·.written), findModel d r.model, pickSlot d p with
  | some im, some m, some slot =>
    let home := mostFree d p
    if r.fromImage then
      match pickEntry d with
      | none => finishSeq d r.seq stNospace []
      | some i =>
        let s := newSess i (entryGen d i + 1) 6 r.ctx slot r.model home m.layers
        match allocRevive d p home (allocKey 1 (handleOf s)) m im with
        | none => finishSeq d r.seq stNospace []
        | some d1 =>
          putRevive (queueMover (putEntry d1 s) r.seq 2 (.revive r.seq))
            { r with stage := 1, slot := slot, idx := i, handle := handleOf s }
    else
      match allocRevive d p home (allocKey 1 r.handle) m im with
      | none => finishSeq d r.seq stNospace []
      | some d1 =>
        let d2 := updSess d1 r.handle (fun x => { x with state := 6, slot := some slot, home := home })
        putRevive (queueMover d2 r.seq 2 (.revive r.seq)) { r with stage := 1, slot := slot }
  | none, _, _ => finishSeq d r.seq stDigest []
  | _, none, _ => finishSeq d r.seq stStale []
  | _, _, none => finishSeq d r.seq stNospace []

/-- Take a session reference on a live phrase, within the width of its count (02 R30): ST_LIMIT beyond it. [Log entry 118, DESIGN CHOICE.] -/
def takeRef (d : Dev) (p : Nat) (x : Phrase) : Except Nat (Nat × Dev) :=
  if 65535 ≤ x.refs then .error stLimit else .ok (x.id, refPhrase d p x.id)

/-- Take a reference on, or make, the phrase of an image's list entry (09 R197 step 3). -/
def revivePhrase (d : Dev) (r : ReviveOp) (creator : Nat) (e : Nat × Nat × Nat × Nat × Nat) : Except Nat (Nat × Dev) :=
  let p := ctxPart r.ctx
  let lpn := e.2.2.2.2 % 2 ^ 34
  if e.2.2.2.2 < 2 ^ 34 then
    match findPhrase d p e.2.2.1 with
    | some x => if x.version = e.2.2.2.1 then takeRef d p x else .error stDamaged
    | none => .error stDamaged
  else
    match d.kv.phrases.find? (fun x => x.part == p && x.flash == some lpn) with
    | some x => takeRef d p x
    | none =>
      match (gpageOf d p lpn).bind (fun g => d.stored.phrases.find? (fun x => x.1 == g)), takePhraseId d p with
      | some (_, x), some (id, d1) =>
        let y := { x with
          part := p, ctx := r.ctx, id := id, model := r.model, version := e.2.2.2.1, creator := creator
          refs := 1, holds := 0, hbm := none, ddr := false, flash := some lpn, imageHolds := 0
          poisonHbm := [], poisonDdr := [], hardHbm := [], hardDdr := [] }
        .ok (id, { d1 with kv.phrases := d1.kv.phrases ++ [y] })
      | none, _ => .error stDamaged
      | _, none => .error stNospace

/-- Link the phrase lists of an image-form REVIVE: the lists per layer. -/
def reviveLists (r : ReviveOp) (creator : Nat) : Dev → List (Nat × Nat × Nat × Nat × Nat) →
    Except Nat (List (Nat × Nat × Nat) × Dev)
  | d, [] => .ok ([], d)
  | d, e :: es =>
    match revivePhrase d r creator e with
    | .error st => .error st
    | .ok (id, d1) =>
      match reviveLists r creator d1 es with
      | .error st => .error st
      | .ok (l, d2) => .ok ((e.1, e.2.1, id) :: l, d2)

/-- The link of a REVIVE (09 R197 steps 3 to 5). -/
def reviveLink (d : Dev) (r : ReviveOp) (im : ParkImage) : Dev :=
  let p := ctxPart r.ctx
  let lex := if im.tok.lex.isSome then lexByDigest d p im.tok.lexDigest else none
  let gram := if im.syn.grammar.isSome then gramByDigest d p im.syn.gramDigest else none
  if r.fromImage && ((im.tok.lex.isSome && lex.isNone) || (im.syn.grammar.isSome && gram.isNone)) then
    reviveFail d r stDigest
  else
    let lists := if r.fromImage then reviveLists r r.handle d im.phrases else .ok ([], d)
    match lists with
    | .error st => reviveFail d r st
    | .ok (ids, d1) =>
      let pick := fun layer kind => (ids.filter (fun x => x.1 == layer && x.2.1 == kind)).map (·.2.2)
      let clean := fun (l : LayerSt) => { l with
        draft := []
        draftMarks := []
        recur := l.recur.map (fun x => { x with shadow := [], shadowLen := none, treeIn := [] }) }
      let layers := ((List.range im.layers.length).zip im.layers).map (fun x =>
        let l := clean x.2
        if r.fromImage then { l with
          stem := pick x.1 0
          direct := pick x.1 1
          tails := l.tails.map (fun t => { t with ctx := r.ctx, model := r.model, creator := r.handle }) }
        else l)
      let now := match findSess d r.handle with | some x => x.tok.ringNamed | none => false
      let tok := if r.fromImage then { noRing im.tok with lex := lex, tkLex := streamLex im.tok lex }
        else if now then im.tok else noRing im.tok
      let syn := if r.fromImage then { im.syn with grammar := gram } else im.syn
      let d2 := updSess d1 r.handle (fun x => { x with layers := layers, log := im.log, tok := tok, syn := syn, marks := [] })
      let s := (findSess d2 r.handle).getD (newSess 0 0 0 0 0 0 0 [])
      let d3 := updSess d2 r.handle (fun x => { x with state := residency d2 s })
      let retain := r.ref
      let d4 := if r.release || r.ref / 2 ^ 62 = 1 && !r.fromImage then
          recountHolds (dropImage d3 p retain) p
        else recountHolds d3 p
      let todo := if r.promote = 0 then 0 else
        ((sessPhrases s).filter (fun i => match findPhrase d4 p i with
          | some x => !(missingTiers x r.promote).isEmpty
          | none => false)).length
      let v := findVerb d4 r.seq
      let ring := (v.map (·.ring)).getD 0
      let tag := (v.map (fun x => fld x 4 4)).getD 0
      let d5 := if r.promote = 0 then d4
        else { d4 with kv.ops := d4.kv.ops ++ [promoteOp r.seq ring tag s r.promote false] }
      match v with
      | some w =>
        let d6 := { d5 with kv.ops := dropWhere (fun o => match o with | .revive x => x.seq == r.seq | _ => false) d5.kv.ops }
        finish { d6 with kv.movers := dropWhere (fun y => y.what == .revive r.seq) d6.kv.movers } w stOk 0xFF
          [(8, 4, r.handle), (12, 4, r.slot), (16, 4, todo)]
      | none => dropOp d5 r.seq

/-- Whether a flash image's pages agree with the IMAGE_DIGEST in its header (09 R190, R197 step 2). -/
def imageVerifies (d : Dev) (p ref bytes : Nat) : Bool :=
  let page := fun (l : Nat) => match (gpageOf d p l).bind (livePage d) with | some x => x.data | none => []
  let bs := (rangeFrom (ref % 2 ^ 34) (ceilDiv bytes 16384)).flatMap page
  sha512 (bs.drop 1024) == (bs.drop 960).take 64

/-- REVIVE at a boundary. -/
def reviveAt (d : Dev) (r : ReviveOp) : Dev :=
  if r.stage = 0 then reviveStart d r
  else
    let p := ctxPart r.ctx
    let ws := d.kv.movers.filter (fun w => w.what == .revive r.seq)
    if ws.any (fun w => w.state == 0) then d
    else
      match findImage d p r.ref with
      | none => reviveFail d r stDigest
      | some im =>
        let onFlash := r.ref / 2 ^ 62 == 2
        if onFlash && (runLost d p (r.ref % 2 ^ 34) (ceilDiv im.bytes 16384) || ws.any (fun w => w.state == 2)) then reviveFail d r stMedia
        else if ws.any (fun w => w.state == 2) then reviveFail (imagePoisoned d p r.ref) r stDamaged
        else if im.poisoned then reviveFail d r stDamaged
        else if (onFlash && !imageVerifies d p r.ref im.bytes) || (r.fromImage && im.check ≠ r.check) then reviveFail d r stDigest
        else
          match findModel d r.model with
          | none => reviveFail d r stStale
          | some m => if r.fromImage && m.digest.take 16 ≠ im.modelDigest then reviveFail d r stDigest else reviveLink d r im

/-! ### Movers and transitions -/

/-- The order in which movers are dispatched (09 R182): by class, ring priority and acceptance. -/
def moverBefore (a b : Mover) : Bool :=
  decide (a.order < b.order) || (a.order == b.order && (decide (a.prio < b.prio) || (a.prio == b.prio && decide (a.seq ≤ b.seq))))

/-- Dispatch the movers that wait, in their order, as far as the clause's bandwidth goes (09 R182). [Log entry 20, DESIGN CHOICE.] -/
def dispatchMovers (d : Dev) : Dev :=
  let pick := fun (acc : List Nat × Bool) (w : Mover) =>
    if acc.2 && (acc.1.isEmpty || !Config.moverWaits w.id d.clk.count) then (w.id :: acc.1, true) else (acc.1, false)
  let ids := ((sortBy moverBefore (d.kv.movers.filter (fun w => w.clause.isNone))).foldl pick ([], true)).1
  { d with kv.movers := updWhere (fun (w : Mover) => ids.contains w.id) (fun w => { w with clause := some d.clk.count }) d.kv.movers }

/-- What a mover's copy of flash finds unreadable is told (13 R291): a phrase whose only copy of record is in flash, and a flash image. [Log entry 66, DEDUCED.] -/
def tellMover (d : Dev) (w : Mover) : Dev :=
  match w.what with
  | .phrase p i _ => (match findPhrase d p i with
    | some x => if x.hbm.isSome || x.ddr then d
        else (match x.flash with | some l => tellRun d p l (ceilDiv (phraseSize x) 16) | none => d)
    | none => d)
  | .revive s => d.kv.ops.foldl (fun a o => match o with
    | .revive r => if r.seq = s && r.ref / 2 ^ 62 = 2 then
          (match findImage a (ctxPart r.ctx) r.ref with
           | some im => tellRun a (ctxPart r.ctx) (r.ref % 2 ^ 34) (ceilDiv im.bytes 16384)
           | none => a)
        else a
    | _ => a) d
  | _ => d

/-- MOVER_COPY_COMPLETE: the copy `id`, dispatched before, has been written and verified, or its source could not be read (09 R178). -/
def moverComplete (id : Nat) (ok : Bool) (d : Dev) : Dev :=
  let this := fun (w : Mover) => w.id == id && w.state == 0 && w.clause.isSome
  let d1 := (d.kv.movers.filter this).foldl tellMover d
  { d1 with kv.movers := updWhere this (fun w => { w with state := if ok then 1 else 2 }) d1.kv.movers }

/-- The transitions between ACTIVE and IDLE that residency causes (09 Table 9-5). -/
def transitSess (d : Dev) (s : Sess) : Sess :=
  if s.state = 1 || s.state = 2 then { s with state := residency d s } else s

/-- Apply the residency transitions due at a boundary. -/
def transitions (d : Dev) : Dev := { d with kv.cat := d.kv.cat.map (transitSess d) }

end Sys2Proof.Machine
end

