-- ==== Sys2Proof/Machine/Models.lean ====
section
/-!
DEFINITION. Models: MODEL_LOAD and MODEL_UNLOAD (06 R110-R112), and PIN_TILES (09 R199).
-/

namespace Sys2Proof.Machine

/-! ### The model image (06 R110) -/

/-- A layer record of Table 6-2. -/
def layerOf (b : List Byte) : LayerRec :=
  let f := fun o n => fieldAt b o n
  { kind := f 0 1, norm := f 1 1, posMode := f 2 1, inflect := f 3 1, sL := f 4 2, sP := f 6 2, h := f 8 1,
    stemFmt := f 9 1, directFmt := f 10 1, dD := f 12 2, pD := f 14 2, qh := f 16 2, dqk := f 18 2, dv := f 20 2,
    absorbMax := f 22 2, scale := f 24 4, eps := f 28 4, kIn := f 32 2, kAtt := f 34 2, kOut := f 36 2, rh := f 38 2,
    rk := f 40 2, rv := f 42 2, thin := f 44 1, thinMax := f 46 2, weightsOff := f 48 8, weightsKib := f 56 4 }

/-- Bytes of a layer record that a KIND uses, as (first, count) ranges. -/
def layerUsed (kind : Nat) (direct : Bool) : List (Nat × Nat) :=
  match kind with
  | 0 => [(0, 10), (16, 22), (48, 12)] ++ (if direct then [(10, 1), (12, 4)] else [])
  | 1 => [(0, 2), (28, 10), (38, 7), (46, 14)]
  | _ => [(0, 1)]

/-- A multiple of 32 within a range. -/
def mult32 (n lo hi : Nat) : Bool := n % 32 == 0 && inR n lo hi

/-- Whether a binary32 code is finite. -/
def finite32 (c : Nat) : Bool := fvFinite (f32 c)

/-- Whether a layer record is well formed (06 R110, 05 R82). -/
def layerOk (b : List Byte) : Bool :=
  let l := layerOf b
  let unused := (List.range 64).all (fun i =>
    (layerUsed l.kind (decide (0 < l.h))).any (fun r => decide (r.1 ≤ i) && decide (i < r.1 + r.2)) ||
      fieldAt b i 1 == 0)
  let kern := decide (l.kIn < 4096) && decide (l.kAtt < 4096) && decide (l.kOut < 4096)
  let eps := finite32 l.eps && !fvLt (f32 l.eps) (.fin false 0 0)
  unused && (match l.kind with
    | 0 => kern && eps && decide (l.norm ≤ 2) && decide (l.posMode ≤ 2) && decide (l.inflect ≤ 2) &&
        mult32 l.sL 32 1024 && mult32 l.sP 0 128 && decide (l.h ≤ 16) && (l.stemFmt == 1 || l.stemFmt == 3) &&
        (l.h == 0 || (mult32 l.dD 32 256 && decide (l.pD ≤ l.dD) && l.pD % 2 == 0 &&
          (l.directFmt == 1 || l.directFmt == 2))) &&
        inR l.qh 1 256 && mult32 l.dqk 32 256 && mult32 l.dv 32 256 && finite32 l.scale
    | 1 => kern && eps && decide (l.norm ≤ 2) && inR l.rh 1 256 && mult32 l.rk 32 256 && mult32 l.rv 32 256 &&
        decide (l.thin ≤ 1)
    | 2 => true
    | _ => false)

/-- The layer table of an image. -/
def layerBytes (bs : List Byte) : List (List Byte) :=
  (List.range (fieldAt bs 4 2)).map (fun i => (bs.drop (fieldAt bs 24 8 + 64 * i)).take 64)

/-- Weight sections of an image: (image offset, length). -/
def weightSections (bs : List Byte) : List (Nat × Nat) :=
  (layerBytes bs).map (fun b => if fieldAt b 0 1 < 2 then (fieldAt b 48 8, fieldAt b 56 4 * 1024) else (0, 0))

/-- Whether two ranges overlap; an empty one overlaps nothing. -/
def rangesMeet (a b : Nat × Nat) : Bool :=
  decide (0 < a.2) && decide (0 < b.2) && decide (a.1 < b.1 + b.2) && decide (b.1 < a.1 + a.2)

/-- No two ranges of a list overlap. -/
def rangesApart : List (Nat × Nat) → Bool
  | [] => true
  | a :: l => l.all (fun b => !rangesMeet a b) && rangesApart l

/-- Whether header and layer records of a model image are well formed (06 R110). [Log entry 52, DEDUCED.] -/
def modelHeadOk (bs : List Byte) : Bool :=
  let n := fieldAt bs 16 8
  let nl := fieldAt bs 4 2
  let lt := fieldAt bs 24 8
  let hid := fieldAt bs 8 4
  let ws := weightSections bs
  decide (256 ≤ bs.length) && fieldAt bs 0 4 == 1 && inR nl 1 1024 && fieldAt bs 6 2 == 0 && mult32 hid 256 16384 &&
    fieldAt bs 12 4 == 0 && n == bs.length && lt % 64 == 0 && decide (256 ≤ lt) && decide (lt + 64 * nl ≤ n) &&
    allZero ((bs.drop 32).take 224) && (layerBytes bs).all layerOk &&
    ws.all (fun w => w.1 % 4096 == 0 && decide (w.1 + w.2 ≤ n)) &&
    rangesApart ((0, 256) :: (lt, 64 * nl) :: ws)

/-- Put the weight sections at their keys: layer k at k * 2^40. -/
def weightMem (bs : List Byte) : Mem :=
  let ws := weightSections bs
  ((List.range ws.length).zip ws).foldl (fun m x => memWriteN m (x.1 * 2 ^ 40) ((bs.drop x.2.1).take x.2.2)) []

/-- Kernel IDs that the records name, in order. -/
def modelKernels (ls : List LayerRec) : List Nat :=
  (ls.filter (fun l => decide (l.kind < 2))).flatMap (fun l => [l.kIn, l.kAtt, l.kOut])

/-- KiB of cluster store that the partition's pinned ranges take (09 R199). -/
def pinnedKib (d : Dev) (p : Nat) : Nat :=
  sumNat ((d.kv.models.filter (fun m => m.part == p)).map (fun m => sumNat (m.pins.map (·.lenKib))))

/-- KiB of cluster store left beside the kernel cache and the pins. -/
def clusterLeft (d : Dev) (p : Nat) : Nat := 3840 - pinnedKib d p

/-- Whether a kernel fits the stores of the partition's clusters (07 R159). -/
def kernelFits (d : Dev) (p : Nat) (k : Kernel) : Bool :=
  decide (k.csBytes ≤ clusterLeft d p * 1024) && decide (k.tsBytes * 2 ^ k.gangLog2 ≤ 262144)

/-- Identifier checks of the kernel IDs that an image names; the field that points to the image is at 16 (04 R64). -/
def checkKernels (d : Dev) (v : Verb) (p : Nat) : List Nat → Except Fail Unit
  | [] => .ok ()
  | k :: ks =>
    match checkOwnedIn d v p 7 k 16 (findKernel d k).isSome with
    | .ok _ => checkKernels d v p ks
    | .error f => .error f

/-- Charge the weight sections, layer by layer. -/
def allocWeights (d : Dev) (p id : Nat) : List (Nat × Nat) → Option Dev
  | [] => some d
  | (i, n) :: l => if n = 0 then allocWeights d p id l else (allocMost d p n (allocKey 6 id) i).bind (fun d1 => allocWeights d1 p id l)

/-- MODEL_LOAD (06 R111). [Log entry 52, DEDUCED.] -/
def modelLoadBody (v : Verb) (d : Dev) : Except Fail Dev := do
  let off := fld v 16 8
  let n := fld v 24 8
  let own := ctxPart (if v.admin then fld v 12 2 % 2048 else v.ctx)
  let signedPart := (findPart d own).any (·.signed)
  check4 v true [(32, 32)] [(16, off % 4096 == 0 && argIn d v off n), (24, argIn d v 0 n),
    (24, structOk d v off n (fun bs => n ≥ 256 && fieldAt bs 16 8 == n)), (24, !signedPart || argIn d v (roundUp (off + n) 64) 576)]
  let bs ← argRead d v off n
  let c ← checkCtx73 d v
  let p := ctxPart c
  if !modelHeadOk bs then failSt stRange
  else
    let ls := (layerBytes bs).map layerOf
    checkKernels d v p (modelKernels ls)
    if 256 ≤ d.kv.models.length then failSt stLimit
    else if (modelKernels ls).any (fun k => match findKernel d k with
        | some x => !kernelFits d p x
        | none => true) then failSt stNospace
    else
      match longestFree d 6 (d.kv.models.map (·.id)) 0 256, findPart d p with
      | some id, some x =>
        let ws := weightSections bs
        match allocWeights d p id ((List.range ws.length).zip (ws.map (·.2))) with
        | none => failSt stNospace
        | some d1 =>
          if ls.any (fun l => l.kind == 0 && (match findKernel d l.kAtt with
              | some k => !bitSet k.caps 0
              | none => true)) then failSt stRange
          else
            let blk ← if x.signed then argRead d v (roundUp (off + n) 64) 576 else .ok []
            let signed := if x.signed then imageSigned x.ownerKey bs blk else 0
            match policyResult x signed with
            | none => failSt stDigest
            | some r =>
              let dig := sha512 bs
              let m : Model := { id := id, part := p, hidden := fieldAt bs 8 4, layers := ls, digest := dig,
                                 weights := weightMem bs, pins := [], poison := [], damaged := [] }
              let d2 := setOwner { d1 with kv.models := d1.kv.models ++ [m] } 6 id (p * 64)
              .ok (finishOk (measure d2 p 2 id r dig) v [(8, 1, id), (16, 16, leNat (dig.take 16))])
      | _, _ => failSt stLimit

/-- Whether a model is in use (02 R24). -/
def modelUsed (d : Dev) (m : Nat) : Bool :=
  d.kv.cat.any (fun s => s.model == m && s.state != 0 && s.state != 4 && !s.retired &&
    (match findModel d m with | some x => x.part == ctxPart s.ctx | none => false))

/-- End a model: weights and pins are freed (06 R112). -/
def dropModel (d : Dev) (m : Nat) : Dev :=
  let d1 := freeAllocs d (allocKey 6 m)
  stampFree { d1 with kv.models := dropWhere (fun (x : Model) => x.id == m) d1.kv.models
                      kv.movers := dropWhere (fun (w : Mover) => match w.what with
                        | .pin a _ _ => a == m
                        | _ => false) d1.kv.movers } 6 m

/-- MODEL_UNLOAD (06 R112). -/
def modelUnloadBody (v : Verb) (d : Dev) : Except Fail Dev := do
  let m := fld v 16 1
  check4 v false [(17, 47)] []
  checkOwned d v 6 m 16 (findModel d m).isSome
  if modelUsed d m then failSt stBusy else .ok (finishOk (dropModel (nextRelease d) m) v [])

/-! ### PIN_TILES (09 R199) -/

/-- The largest cluster store, in KiB, that a kernel of a loaded model of the partition needs (07 R159). -/
def csNeed (d : Dev) (p : Nat) : Nat :=
  ((d.kv.models.filter (fun m => m.part == p)).flatMap (fun m => modelKernels m.layers)).foldl (fun a k =>
    match findKernel d k with
    | some x => Nat.max a (ceilDiv x.csBytes 1024)
    | none => a) 0

/-- The completion fields of PIN_TILES. -/
def pinFields (d : Dev) (p : Nat) : List (Nat × Nat × Nat) := [(8, 4, pinnedKib d p), (12, 4, clusterLeft d p)]

/-- Whether a pin is the range that a verb names. -/
def pinIs (layer off len : Nat) (x : Pin) : Bool := x.layer == layer && x.offKib == off && x.lenKib == len

/-- PIN_TILES: a pin runs until its copies are complete; an unpin completes at once. -/
def pinTilesBody (v : Verb) (d : Dev) : Except Fail Dev := do
  let m := fld v 16 1
  let mode := fld v 17 1
  let layer := fld v 18 2
  let off := fld v 20 4
  let len := fld v 24 4
  check4 v false [(28, 36)] [(17, inR mode 1 3), (24, mode == 3 || inR len 1 3840)]
  checkOwned d v 6 m 16 (findModel d m).isSome
  match findModel d m with
  | none => failId stStale 16
  | some x =>
    if mode = 1 then
      let inside := match x.layers[layer]? with
        | some l => decide (off + len ≤ l.weightsKib)
        | none => false
      let pins := sumNat ((d.kv.models.filter (fun y => y.part == x.part)).map (fun y => y.pins.length))
      if 64 ≤ pins then failSt stLimit
      else if clusterLeft d x.part < len + csNeed d x.part then failSt stNospace
      else if !inside || x.pins.any (fun y => y.layer == layer && rangesMeet (off, len) (y.offKib, y.lenKib)) then
        failSt stRange
      else
        let pin : Pin := { layer := layer, offKib := off, lenKib := len, ready := none, seq := v.seq }
        let d1 := updModel d m (fun y => { y with pins := y.pins ++ [pin] })
        .ok (keepRunning (queueMover d1 v.seq 2 (.pin m layer off)) v)
    else if mode = 2 then
      if !x.pins.any (pinIs layer off len) then failSt stRange
      else
        let d1 := updModel d m (fun y => { y with pins := dropWhere (pinIs layer off len) y.pins })
        .ok (finishOk d1 v (pinFields d1 x.part))
    else
      let d1 := updModel d m (fun y => { y with pins := [] })
      .ok (finishOk d1 v (pinFields d1 x.part))

/-- One pin at a boundary: its copies are complete and it serves reads from here, or its source could not be read. -/
def settlePin (d : Dev) (m : Model) (x : Pin) : Dev :=
  if x.ready.isSome then d
  else
    match d.kv.movers.find? (fun w => w.what == .pin m.id x.layer x.offKib) with
    | none => d
    | some w =>
      if w.state = 0 then d
      else
        let d1 := { d with kv.movers := dropWhere (fun (y : Mover) => y.id == w.id) d.kv.movers }
        if w.state = 1 then
          let d2 := updModel d1 m.id (fun y => { y with
            pins := updWhere (fun q => q == x) (fun q => { q with ready := some d1.clk.count }) y.pins })
          finishSeq d2 x.seq stOk (pinFields d2 m.part)
        else
          let d2 := updModel d1 m.id (fun y => { y with pins := dropWhere (fun q => q == x) y.pins })
          finishSeq d2 x.seq stDamaged []

/-- A PIN_TILES that is stopped has had no effect (04 R74): its movers and its range go. -/
def pinStop (d : Dev) (seq : Nat) : Dev :=
  { d with
    kv.movers := dropWhere (fun (w : Mover) => w.seq == seq) d.kv.movers
    kv.models := d.kv.models.map (fun m => { m with pins := dropWhere (fun (x : Pin) => x.seq == seq && x.ready.isNone) m.pins }) }

/-- Cluster groups that have joined a partition take jobs once its pinned ranges have been copied into them (09 R199, 15 R345). -/
def settleJoin (d : Dev) (w : Mover) : Dev :=
  match w.what with
  | .join p =>
    if w.state = 0 then d
    else
      let d1 := { d with kv.movers := dropWhere (fun (y : Mover) => y.id == w.id) d.kv.movers }
      if d1.kv.movers.any (fun y => y.what == .join p) then d1 else updPart d1 p (fun y => { y with joining := 0 })
  | _ => d

/-- Cluster groups join a partition: the copies of its pinned ranges are queued for them. -/
def joinGroups (d : Dev) (p seq groups : Nat) : Dev :=
  if groups = 0 || !d.kv.models.any (fun m => m.part == p && !m.pins.isEmpty) then d
  else queueMover (updPart d p (fun y => { y with joining := y.joining ||| groups })) seq 2 (.join p)

/-- Settle every pin whose copies have ended, and the cluster groups that have joined a partition. [Log entry 94, DESIGN CHOICE.] -/
def settlePins (d : Dev) : Dev :=
  let d1 := d.kv.models.foldl (fun a m => m.pins.foldl (fun b x => settlePin b m x) a) d
  d1.kv.movers.foldl settleJoin d1

end Sys2Proof.Machine
end

