-- ==== Sys2Proof/Machine/CoreOps.lean ====
section
/-!
DEFINITION. What core descriptors share (chapter 07): names and their bindings, operand references, interlocks, faults,
and retiring a descriptor.
-/

namespace Sys2Proof.Machine

/-! ### Finding things -/

def findCore (d : Dev) (n : Nat) : Option Core := d.arr.cores.find? (fun c => c.num == n)

def updCore (d : Dev) (n : Nat) (f : Core → Core) : Dev :=
  { d with arr.cores := updWhere (fun (c : Core) => c.num == n) f d.arr.cores }

def findJob (d : Dev) (n : Nat) : Option Job := d.arr.jobs.find? (fun j => j.num == n)

def updJob (d : Dev) (n : Nat) (f : Job → Job) : Dev :=
  { d with arr.jobs := updWhere (fun (j : Job) => j.num == n) f d.arr.jobs }

def findSlice (d : Dev) (n : Nat) : Option Slice := d.arr.slices.find? (fun s => s.id == n)

def updSlice (d : Dev) (n : Nat) (f : Slice → Slice) : Dev :=
  { d with arr.slices := updWhere (fun (s : Slice) => s.id == n) f d.arr.slices }

def jobRow (j : Job) (r : Nat) : Option JobRow := j.rows.find? (fun x => x.idx == r)

def updRow (d : Dev) (job r : Nat) (f : JobRow → JobRow) : Dev :=
  updJob d job (fun j => { j with rows := updWhere (fun (x : JobRow) => x.idx == r) f j.rows })

def rowItem (r : JobRow) (n : Nat) : Option WItem := r.items.find? (fun x => x.num == n)

def updItem (d : Dev) (job r n : Nat) (f : WItem → WItem) : Dev :=
  updRow d job r (fun x => { x with items := updWhere (fun (w : WItem) => w.num == n) f x.items })

/-- The kernel that a core runs. -/
def coreKernel (d : Dev) (c : Core) : Option Kernel := findKernel d c.kernel

/-- The descriptor that a core issues next: the head of its queue; END beyond the programme. -/
def coreDesc (c : Core) : Nat := c.queue.headD 0x7F

/-- Place a core at descriptor `pc`: its queue is filled with the up to 64 descriptors from there (07 R136). -/
def goTo (d : Dev) (c : Core) (pc : Nat) : Core :=
  { c with
    pc := pc
    queue := match coreKernel d c with
      | some k => (k.descs.drop pc).take 64
      | none => [] }

/-- The layer record of a core's job. -/
def coreLayer (d : Dev) (c : Core) : Option LayerRec :=
  match findJob d c.job with
  | some j => (findModel d j.model).bind (fun m => m.layers[j.layer]?)
  | none => none

/-- Whether a core is a channel core (07 R138). -/
def isChannelCore (c : Core) : Bool := decide (4096 ≤ c.num)

/-- FLAGS of a length-table row: TREE and LOG_TOKENS (06 R114). -/
def rowTree (r : JobRow) : Bool := bitSet r.flags 0
def rowLogs (r : JobRow) : Bool := bitSet r.flags 1

/-- Depths of the nodes of a tree, root first, while every parent precedes its node. -/
def treeDepths (parent : List Nat) : List Nat :=
  (parent.drop 1).foldl (fun acc p => acc ++ [nth acc p 0 + 1]) [1]

/-! ### Memory that keeps what it held before -/

/-- Bytes of a region whose unwritten bytes are stale. [Log entry 42, DEDUCED.] -/
def staleRead (key : Nat) (m : Mem) (a len : Nat) : List Byte :=
  (rangeFrom a len).map (fun i => memRead m i + Config.staleByte key i)

/-- Write such a region: the difference to the stale byte is what the memory lists. -/
def staleWrite (key : Nat) (m : Mem) (a : Nat) (bs : List Byte) : Mem :=
  memWriteN m a ((rangeFrom a bs.length).zip bs |>.map (fun x => x.2 - Config.staleByte key x.1))

/-! ### Names (07 R140, R141) -/

/-- The classes bound in a phase (07 Table 7-4). -/
def boundClasses (phase : Nat) (channel : Bool) : List Nat :=
  if channel then [0, 2, 6, 7, 10]
  else
    match phase with
    | 0 => [0, 1, 2, 3, 4, 6, 13]
    | 1 => [0, 1, 2, 3, 6, 7, 8, 9, 10, 11, 12, 13]
    | _ => [0, 1, 2, 3, 5, 13]

/-- Elements of a query over all query heads. -/
def queryElems (l : LayerRec) : Nat :=
  if l.kind = 0 then l.qh * (l.dqk + l.sP) + l.h * l.dD else l.rh * (3 * l.rk + l.rv)

/-- Input bytes per element as a kernel sees them, whatever the format of the rows: BF16. [Log entry 42, DEDUCED.] -/
def inBytes : Nat := 2

/-- Output bytes per element: OUT_FMT of the descriptor. -/
def outBytes (j : Job) : Nat := if bitSet (fieldAt j.desc 1 1) 3 then 4 else 2

/-- Rows of a kind that a job row's tails hold: the snapshot's and those that the job has written, in order. -/
def tailRows (r : JobRow) (kind : Nat) : List KvRow :=
  let old := match r.layer with
    | some st => (match st.tails.find? (fun t => t.kind == kind) with
      | some t => t.rows.take t.count
      | none => [])
    | none => []
  old ++ (r.news.filter (fun x => x.1 == kind)).map (·.2.2.row)

/-- FIRST_POS of the first tail of a row. -/
def tailFirstOf (r : JobRow) : Nat := match r.layer with | some st => st.tailFirst | none => 0

/-- The tail of a kind that a row's session holds. -/
def oldTail (r : JobRow) (kind : Nat) : Option Phrase := r.layer.bind (fun st => st.tails.find? (fun t => t.kind == kind))

/-- The tail phrase number `k` of a row as the job sees it (06 R120): the rows written count in SATURATED and CLAMPED where they stand, the version
rises when they become visible (05 R88, R89). -/
def tailPhrase (l : LayerRec) (j : Job) (r : JobRow) (kind k : Nat) : Phrase :=
  let rows := ((tailRows r kind).drop (64 * k)).take 64
  let old := ((oldTail r kind).map (·.count)).getD 0
  let mine := (r.news.filter (fun x => x.1 == kind)).map (·.2.2)
  let new := (mine.drop (64 * k - old)).take (64 * (k + 1) - old - (64 * k - old))
  let t0 := newTail j.part j.ctx r.handle j.model j.layer kind (tailFirstOf r + 64 * k) l
  let t := if k = 0 then (oldTail r kind).getD t0 else t0
  { t with rows := rows, count := rows.length, saturated := t.saturated + satOf new, clamped := t.clamped || new.any (·.clamped) }

/-- The rows of a kind that a tree row has written, by node. -/
def draftNews (r : JobRow) (kind : Nat) : List NewRow :=
  (List.range ((r.tree.map (·.nodes)).getD 0)).map (fun n =>
    match r.news.find? (fun x => x.1 == kind && x.2.1 == n) with
    | some x => x.2.2
    | none => noRow)

/-- The draft phrase of a row as the job sees it (05 R88, R98). -/
def draftPhrase (l : LayerRec) (j : Job) (r : JobRow) (kind : Nat) : Phrase :=
  let new := draftNews r kind
  let t := newTail j.part j.ctx r.handle j.model j.layer kind r.cached l
  { t with rows := new.map (·.row), count := new.length, draft := true, saturated := satOf new, clamped := new.any (·.clamped) }

/-- Bytes `off` to `off + len - 1` of the work item's phrases laid end to end (07 Table 7-3, PH). -/
def phraseRun (d : Dev) (part : Nat) (ids : List Nat) (size off len : Nat) : List Byte :=
  if size = 0 || len = 0 then []
  else
    let k0 := off / size
    let k1 := (off + len - 1) / size
    let bs := (rangeFrom k0 (k1 - k0 + 1)).flatMap (fun k =>
      match findPhrase d part (nth ids k 0) with
      | some x => padTo (phraseImage x) size
      | none => List.replicate size 0)
    (bs.drop (off - k0 * size)).take len

/-- Element `e` of the input of a job row (06 R115): BF16; FP8 times the FP32 scale of its query; or FP32 (05 R100). -/
def inputValue (d : Dev) (j : Job) (hidden : Nat) (r : JobRow) (base e : Nat) : Fv :=
  let fl := fieldAt j.desc 1 1
  let at0 := base + fieldAt j.desc 24 8
  let i := r.first * hidden + e
  if bitSet fl 2 then
    let sc := leNat (memReadN d.exch (base + fieldAt j.desc 32 8 + 4 * (r.first + e / hidden)) 4)
    fvMul (fvDecode fmtE4m3 (memRead d.exch (at0 + i)).toNat) (f32 sc)
  else if bitSet fl 4 then f32 (leNat (memReadN d.exch (at0 + 4 * i) 4))
  else fvDecode fmtBf16 (leNat (memReadN d.exch (at0 + 2 * i) 2))

/-- Bytes of the input rows of a job row as a kernel sees them. [Log entry 42, DEDUCED.] -/
def inputBytes (d : Dev) (j : Job) (hidden : Nat) (r : JobRow) (base off len : Nat) : List Byte :=
  if bitSet (fieldAt j.desc 1 1) 2 || bitSet (fieldAt j.desc 1 1) 4 then
    let vals := (rangeFrom (off / 2) (len / 2 + 2)).map (fun e => fvEncode fmtBf16 (inputValue d j hidden r base e))
    ((vals.flatMap (fun c => natLe c 2)).drop (off % 2)).take len
  else memReadN d.exch (base + fieldAt j.desc 24 8 + 2 * r.first * hidden + off) len

/-- Stale-memory keys of a job's regions. -/
def qKey (j r : Nat) : Nat := j * 2 ^ 32 + r * 8192 + 1
def outKey (j r : Nat) : Nat := j * 2 ^ 32 + r * 8192 + 3
def scratchKey (j n : Nat) : Nat := j * 2 ^ 32 + n * 8192 + 2

/-- Key of offset 0 of what a verb's offsets name: its LD's exchange area, or on ring 16 a copy of its tunnel block
(15 R342), which the model keeps beyond the exchange areas while the verb runs. -/
def verbBase (v : Verb) : Nat := if v.ring = 16 then exKey 16 (4096 * v.seq) else exKey v.ld 0

/-- The base of the exchange addresses that a job's descriptor names: its LD's area, or the window's region. -/
def jobBase (d : Dev) (j : Job) : Nat :=
  match j.launch with
  | some l => l.base
  | none => match findVerb d j.seq with
    | some v => verbBase v
    | none => 0

/-- Cluster-store instance of a CS name for a core (07 Table 7-10). -/
def csKey (c : Core) (n : KName) : Nat := if bitSet n.flags 1 then 65536 + c.num / 16 else c.gang

/-- First head and heads of a work item of a storage kind (06 R110): the stem heads come first. -/
def kindHeads (l : LayerRec) (kind : Nat) : Nat × Nat := if kind = 0 then (0, l.qh) else (l.qh, l.h)

/-- VDIM of the records of a work item (06 R127). -/
def itemVdim (l : LayerRec) (absorb : Bool) (kind : Nat) : Nat :=
  if kind = 1 then l.dD else if absorb then l.sL else l.dv

/-- Bytes of a work item's partial-record area: room for a record of its own for each query and head. [Log entry 43, DESIGN CHOICE.] -/
def partBytes (l : LayerRec) (absorb : Bool) (kind queries : Nat) : Nat :=
  queries * (kindHeads l kind).2 * roundUp (40 + 4 * itemVdim l absorb kind) 64

/-- The size in bytes that a name is bound to. -/
def nameSize (d : Dev) (c : Core) (n : KName) : Nat :=
  match findJob d c.job, coreLayer d c with
  | some j, some l =>
    match jobRow j c.row with
    | none => 0
    | some r =>
      let it := rowItem r c.item
      let kind := match it with | some w => w.kind | none => 0
      let hidden := match findModel d j.model with | some m => m.hidden | none => 0
      match n.cls with
      | 0 => n.size * 64
      | 1 => n.size * 64
      | 2 => 64
      | 3 => l.weightsKib * 1024 - n.base * 64
      | 4 => r.qcount * hidden * inBytes
      | 5 => r.qcount * hidden * outBytes j
      | 6 => Config.queryBytes r.qcount (queryElems l)
      | 7 => (match it with | some w => w.phrases.length | none => 0) * phraseBytes l kind
      | 8 => phraseBytes l kind
      | 9 => phraseBytes l kind
      | 10 => partBytes l j.absorb kind r.qcount
      | 11 => recBytes l
      | 12 => recBytes l
      | 13 => n.size * 64
      | _ => 0
  | _, _ => 0

/-- Read `len` bytes of a name at a byte offset; the range is checked before. -/
def nameRead (d : Dev) (c : Core) (ni : Nat) (n : KName) (off len : Nat) : List Byte :=
  match findJob d c.job, coreLayer d c with
  | some j, some l =>
    match jobRow j c.row with
    | none => List.replicate len 0
    | some r =>
      let it := (rowItem r c.item).getD noItem
      let hidden := match findModel d j.model with | some m => m.hidden | none => 0
      match n.cls with
      | 0 => memReadN c.ts (n.base * 64 + off) len
      | 1 =>
        match findSlice d c.slice with
        | some s => (match s.cs.find? (fun x => x.1 == csKey c n) with
          | some x => memReadN x.2 (n.base * 64 + off) len
          | none => List.replicate len 0)
        | none => List.replicate len 0
      | 2 => (c.prm.drop off).take len
      | 3 => (match findModel d j.model with
        | some m => memReadN m.weights (j.layer * 2 ^ 40 + n.base * 64 + off) len
        | none => [])
      | 4 => inputBytes d j hidden r (jobBase d j) off len
      | 6 => if isChannelCore c then staleRead (qKey j.num r.idx) (r.qCopy.getD []) off len
        else staleRead (qKey j.num r.idx) r.q off len
      | 7 => phraseRun d j.part it.phrases (phraseBytes l it.kind) off len
      | 8 => ((phraseImage (tailPhrase l j r it.kind it.tailIdx)).drop off).take len
      | 9 => ((phraseImage (draftPhrase l j r it.kind)).drop off).take len
      | 11 => (match r.layer with
        | some st => (match st.recur with | some x => memReadN x.cur off len | none => [])
        | none => [])
      | 12 => memReadN r.recNext off len
      | 13 => staleRead (scratchKey j.num ni) ((j.scratch.find? (fun x => x.1 == ni)).map (·.2) |>.getD []) off len
      | _ => List.replicate len 0
  | _, _ => List.replicate len 0

/-- The sectors of a region that a write of `len` bytes at `off` covers whole: their poison goes with what they held (18 R415). -/
def wholeSectors (off len s : Nat) : Bool := decide (off ≤ 64 * s) && decide (64 * s + 64 ≤ off + len)

/-- Write a byte string to a name. -/
def nameWrite (d : Dev) (c : Core) (ni : Nat) (n : KName) (off : Nat) (bs : List Byte) : Dev :=
  match n.cls with
  | 0 => updCore d c.num (fun x => { x with ts := memWriteN x.ts (n.base * 64 + off) bs })
  | 1 => updSlice d c.slice (fun s =>
      let old := match s.cs.find? (fun x => x.1 == csKey c n) with | some x => x.2 | none => []
      { s with cs := upsert (fun x => x.1 == csKey c n) (csKey c n, memWriteN old (n.base * 64 + off) bs) s.cs })
  | 5 => updRow d c.job c.row (fun r => { r with out := staleWrite (outKey c.job c.row) r.out off bs })
  | 6 => updRow d c.job c.row (fun r => { r with q := staleWrite (qKey c.job c.row) r.q off bs })
  | 12 => updRow d c.job c.row (fun r => { r with
      recNext := memWriteN r.recNext off bs
      nextBad := r.nextBad.filter (fun s => !wholeSectors off bs.length s)
      recWrites := true })
  | 13 => updJob d c.job (fun j =>
      let old := match j.scratch.find? (fun x => x.1 == ni) with | some x => x.2 | none => []
      { j with
        scratch := upsert (fun x => x.1 == ni) (ni, staleWrite (scratchKey j.num ni) old off bs) j.scratch
        scratchBad := j.scratchBad.filter (fun s => !(s.1 == ni && wholeSectors off bs.length s.2)) })
  | _ => d

/-! ### Regions and interlocks (07 R147) -/

/-- The region of a name that a core touches. -/
def regionOf (c : Core) (ni : Nat) (n : KName) (off len : Nat) : Region :=
  match n.cls with
  | 0 => { space := 0, inst := c.num, addr := n.base * 64 + off, len := len }
  | 1 => { space := 1, inst := c.slice * 2 ^ 32 + csKey c n, addr := n.base * 64 + off, len := len }
  | 6 => { space := if isChannelCore c then 16 else 6, inst := c.job * 2 ^ 20 + c.row, addr := off, len := len }
  | 13 => { space := 13, inst := c.job * 4096 + ni, addr := off, len := len }
  | k => { space := k, inst := c.job * 2 ^ 20 + c.row, addr := off, len := len }

def regionsMeet (a b : Region) : Bool :=
  a.space == b.space && a.inst == b.inst && rangesMeet (a.addr, a.len) (b.addr, b.len)

/-- Name entry `i` of a core's kernel. -/
def nameAt (d : Dev) (c : Core) (i : Nat) : Option KName := (coreKernel d c).bind (fun k => k.names[i]?)

/-- What two regions share. -/
def regionCut (a b : Region) : Region :=
  let lo := Nat.max a.addr b.addr
  { a with addr := lo, len := Nat.min (a.addr + a.len) (b.addr + b.len) - lo }

/-- Whether an address of a region lies in one of a list. -/
def inRegions (rs : List Region) (r : Region) (a : Nat) : Bool := rs.any (fun x => regionsMeet x { r with addr := a, len := 1 })

/-- The regions that pieces of a core read (`dst` false) or write. -/
def pieceRegions (d : Dev) (c : Core) (dst : Bool) (ps : List Piece) : List Region :=
  ps.filterMap (fun p =>
    let ni := if dst then p.dstName else p.srcName
    (nameAt d c ni).map (fun n => regionOf c ni n (if dst then p.dstOff else p.srcOff) p.len))

/-- The regions that an outstanding movement descriptor of a core reads or writes. -/
def mvtRegions (d : Dev) (c : Core) (dst : Bool) (m : Mvt) : List Region := pieceRegions d c dst m.pieces

/-- The cores of a core's job. -/
def jobCores (d : Dev) (c : Core) : List Core := d.arr.cores.filter (fun x => x.job == c.job)

/-- The regions that outstanding movement of the job writes (`dst`) or reads. -/
def movingRegions (d : Dev) (c : Core) (dst : Bool) : List Region :=
  (jobCores d c).flatMap (fun x => x.mvts.flatMap (mvtRegions d x dst))

/-- Where a descriptor that reads the regions `rd` and writes the regions `wr` meets outstanding movement out of order: it reads what is being
written, or writes what is being read or written (07 R147). [Log entry 51, DEDUCED.] -/
def races (d : Dev) (c : Core) (rd wr : List Region) : List Region :=
  let out := movingRegions d c true
  let inp := movingRegions d c false
  let meet := fun (xs ys : List Region) => xs.flatMap (fun a => (ys.filter (regionsMeet a)).map (regionCut a))
  meet rd out ++ meet wr (out ++ inp)

/-- Note in outstanding movement of the job the regions in which it was disturbed. [Log entry 51, DEDUCED.] -/
def markRacy (d : Dev) (c : Core) (rs : List Region) : Dev :=
  if rs.isEmpty then d
  else
    let own := fun (x : Core) (m : Mvt) => mvtRegions d x false m ++ mvtRegions d x true m
    let mark := fun (x : Core) => { x with
      mvts := x.mvts.map (fun m => { m with racy := m.racy ++ rs.filter (fun r => (own x m).any (regionsMeet r)) }) }
    { d with arr.cores := updWhere (fun (x : Core) => x.job == c.job) mark d.arr.cores }

/-- Bytes of a region with free ones where it lies in `rs`. -/
def raceFree (d : Dev) (rs : List Region) (r : Region) (bs : List Byte) : List Byte × Dev :=
  if rs.isEmpty then (bs, d)
  else
    let (fr, d1) := drawBytes d bs.length
    ((List.range bs.length).map (fun i => if inRegions rs r (r.addr + i) then nth fr i 0 else nth bs i 0), d1)

/-- Read a name for a descriptor: where movement is writing the region, what is read there is free (07 R147). [Log entry 51, DEDUCED.] -/
def readOperand (d : Dev) (c : Core) (ni : Nat) (n : KName) (off len : Nat) : List Byte × Dev :=
  let r := regionOf c ni n off len
  raceFree d (races d c [r] []) r (nameRead d c ni n off len)

/-- Write a name for a descriptor: where movement reads or writes the region, what results there is free (07 R147). -/
def writeOperand (d : Dev) (c : Core) (ni : Nat) (n : KName) (off : Nat) (bs : List Byte) : Dev :=
  let r := regionOf c ni n off bs.length
  let rs := races d c [] [r]
  let (out, d1) := raceFree d rs r bs
  nameWrite (markRacy d1 c rs) c ni n off out

/-! ### Faults (07 R153) -/

/-- Remove a job's cores and slices; its semaphores and barrier go with the slices. -/
def stopCores (d0 : Dev) (job : Nat) : Dev :=
  let d := updJob d0 job (fun j => { j with sems := [] })
  { d with
    arr.cores := dropWhere (fun (c : Core) => c.job == job) d.arr.cores
    arr.slices := dropWhere (fun (s : Slice) => s.job == job) d.arr.slices
    arr.records := dropWhere (fun (r : PartRec) => r.job == job) d.arr.records }

/-- Stop a job: its writes are discarded; `endStopped` completes its verb (03 R41, 07 R153). -/
def stopJob (d : Dev) (job status : Nat) : Dev :=
  updJob (stopCores d job) job (fun j => { j with state := 5, status := status })

/-- A kernel fault with its cause (07 Table 7-14). -/
def kernelFault (d : Dev) (c : Core) (cause : Nat) : Dev :=
  match findJob d c.job with
  | none => d
  | some j =>
    let d1 := raise d 0x0310 (objIn 7 j.part c.kernel) (.part j.part) [(2, c.kernel), (2, c.pc), (2, c.num), (1, cause)]
    stopJob d1 c.job stAborted

/-- An operand reference resolved for `len` bytes (07 R144): name index, entry and byte offset, or the fault's cause. -/
def resolve (d : Dev) (c : Core) (x off len : Nat) (write : Bool) : Except Nat (Nat × KName × Nat) :=
  match nameAt d c (orefName x off), findJob d c.job with
  | some n, some j =>
    if !(boundClasses j.phase (isChannelCore c)).contains n.cls then .error 3
    else if write && !(writableClasses.contains n.cls) then .error 2
    else if write && n.cls == 6 && isChannelCore c then .error 2
    else
      let k : Nat := match orefSel x off with
        | 0 => 0
        | 5 => c.gangRank
        | 6 => c.rank
        | s => nth c.idx (s - 1) (0 : Nat)
      let a : Int := 64 * ((orefOffset x off : Int) + orefStride x off * k)
      if a < 0 || nameSize d c n < a.toNat + len then .error 1
      else .ok (orefName x off, n, a.toNat)
  | _, _ => .error 3

/-- Read an operand of `len` bytes. -/
def readAt (d : Dev) (c : Core) (x off len : Nat) : Except Nat (List Byte × Dev) :=
  match resolve d c x off len false with
  | .ok (i, n, a) => .ok (readOperand d c i n a len)
  | .error e => .error e

/-- Write an operand. -/
def writeAt (d : Dev) (c : Core) (x off : Nat) (bs : List Byte) : Except Nat Dev :=
  match resolve d c x off bs.length true with
  | .ok (i, n, a) => .ok (writeOperand d c i n a bs)
  | .error e => .error e

/-- The tile-store granules of 1 KiB that an operand of `len` bytes covers; none outside the tile store (07 R147). -/
def granulesOf (d : Dev) (c : Core) (x off len : Nat) (write : Bool) : List Nat :=
  match resolve d c x off len write with
  | .ok (_, n, a) =>
    if n.cls = 0 && 0 < len then
      rangeFrom ((n.base * 64 + a) / 1024) ((n.base * 64 + a + len - 1) / 1024 - (n.base * 64 + a) / 1024 + 1)
    else []
  | .error _ => []

/-! ### Issue and retirement (07 R143, R146) -/

/-- Set an event flag of a core. -/
def setFlag (c : Core) (f : Nat) : Core := { c with flags := c.flags ||| 2 ^ f }

def flagSet (c : Core) (f : Nat) : Bool := bitSet c.flags f

/-- The DONE_FLAG of a descriptor, where enabled. -/
def doneFlag (x : Nat) : Option Nat := if bitSet (df x 1 1) 0 then some (df x 3 1 % 64) else none

/-- Set a DONE_FLAG. -/
def setDone (c : Core) (f : Option Nat) : Core :=
  match f with
  | some n => setFlag c n
  | none => c

/-- Whether the condition of a descriptor lets it execute. -/
def condHolds (c : Core) (x : Nat) : Bool :=
  let b := df x 2 1
  !bitSet b 7 || (flagSet c (b % 64) == bitSet b 6)

/-- Move on to the next descriptor. -/
def stepPc (d : Dev) (n : Nat) : Dev := updCore d n (fun c => goTo d c (c.pc + 1))

/-- Retire a descriptor that completes at issue: its DONE_FLAG is set and the core moves on. -/
def retire (d : Dev) (c : Core) (x : Nat) : Dev :=
  updCore d c.num (fun y => goTo d (setDone y (doneFlag x)) (y.pc + 1))

/-- Run the descriptor of opcode `op` on core `n`: nothing happens unless the core is in a slice, has not executed END, does
not wait on the control network, and stands at a descriptor of that opcode. A false condition retires it as a no-op
(07 R143); a fault stops the job (07 R153). -/
def runDesc (op n : Nat) (body : Core → Nat → Dev → Except Nat Dev) (d : Dev) : Dev :=
  match findCore d n with
  | none => d
  | some c =>
    let x := coreDesc c
    if c.ended || c.wait ≠ 0 || df x 0 1 ≠ op then d
    else if !condHolds c x then stepPc d n
    else
      match body c x d with
      | .ok d' => d'
      | .error cause => kernelFault d c cause

/-- Whether a MAC or vector descriptor may issue (07 R146, R147): its unit is idle, and nothing outstanding writes what it
reads or writes. -/
def mayIssue (c : Core) (unit : Nat) (grans accs : List Nat) : Bool :=
  c.units.all (fun u => u.unit != unit && !u.granules.any (fun g => grans.contains g) &&
    !u.accs.any (fun a => accs.contains a))

/-- Issue a MAC or vector descriptor: it stays outstanding until UNIT_DESCRIPTOR_COMPLETE. -/
def issueUnit (d : Dev) (c : Core) (x unit : Nat) (grans accs : List Nat) : Dev :=
  let u : UnitOp := { unit := unit, granules := grans, accs := accs, done := doneFlag x }
  updCore d c.num (fun y => goTo d { y with units := y.units ++ [u] } (y.pc + 1))

/-- Whether the movement unit has room for one more descriptor (07 R136). -/
def mvtRoom (c : Core) : Bool := decide (c.mvts.length < 16)

/-- Issue a movement descriptor with its pieces. It and the outstanding movement that it meets note where they race (07 R147). -/
def issueMvt (d : Dev) (c : Core) (x : Nat) (ps : List Piece) (record : Option PartRec) (args : List (Nat × Nat)) (bad : Bool) : Dev :=
  let rs := races d c (pieceRegions d c false ps) (pieceRegions d c true ps)
  let m : Mvt := { id := c.nextMvt, desc := x, pieces := ps, record := record, args := args, bad := bad, racy := rs }
  let d1 := markRacy d c rs
  updCore d1 c.num (fun y => goTo d1 { y with mvts := y.mvts ++ [m], nextMvt := y.nextMvt + 1 } (y.pc + 1))

/-- UNIT_DESCRIPTOR_COMPLETE: the descriptor outstanding on a unit (0 MAC, 1 vector) of a core completes and sets its
DONE_FLAG (07 R143, R146). -/
def unitComplete (n unit : Nat) (d : Dev) : Dev :=
  updCore d n (fun c =>
    match c.units.find? (fun u => u.unit == unit) with
    | some u => { setDone c u.done with units := dropWhere (fun (y : UnitOp) => y.unit == unit) c.units }
    | none => c)

end Sys2Proof.Machine
end

