-- ==== Sys2Proof/Machine/Integrity.lean ====
section
/-!
DEFINITION. What follows a detected error (18 R415-R419): poisoned sectors of phrase copies, refetches, damage marks and
EV_REDERIVE, damaged objects.
-/

namespace Sys2Proof.Machine

/-! ### The sector code (18 R412, R413, R415) -/

/-- What a sector holds, as far as its write version goes (18 Table 18-1). -/
inductive SectorUse where
  | sealedPhrase (x : Phrase)
  | openPhrase
  | recurrent (updates : Nat)
  | zeroFilled
  | other
  deriving DecidableEq, Repr

/-- The write version that Table 18-1 binds to a sector. -/
def writeVersion : SectorUse → Nat
  | .sealedPhrase x => x.version
  | .recurrent n => n
  | _ => 0

/-- The check word of a sector: CRC-32C over its data, its location (memory identifier and index) and its write version, 76 bytes (18 R412). The state
holds no check words, because every writer stores this one: it holds which sectors fail. [Log entry 123, DEDUCED.] -/
def checkWord (memory index : Nat) (use : SectorUse) (bs : List Byte) : Nat :=
  crc32c (padTo (bs.take 64) 64 ++ natLe (memory % 256 * 2 ^ 56 + index % 2 ^ 56) 8 ++ natLe (writeVersion use % 2 ^ 32) 4)

/-- The word that a poisoned sector holds: the bitwise complement of its code (18 R415). -/
def poisonWord (memory index : Nat) (use : SectorUse) (bs : List Byte) : Nat := 0xFFFFFFFF - checkWord memory index use bs

/-! ### Damage marks (18 R419) -/

/-- Raise a range of a session for rederivation, once: the mark and EV_REDERIVE. Kinds: 0 phrase range, 1 recurrent layer,
2 token log, 3 session block. -/
def rederive (d : Dev) (h : Nat) (r : Rederive) : Dev :=
  match findSess d h with
  | none => d
  | some s =>
    if s.marks.contains r then d
    else
      let d1 := updSess d h (fun x => { x with marks := x.marks ++ [r] })
      let d2 := bump d1 0 0 8 1
      raise d2 0x0450 (objSess s) (.part (ctxPart s.ctx))
        [(4, h), (1, r.kind + 1), (2, r.layer), (2, if r.kind < 2 then 1 else 0), (4, r.first), (4, r.count)]

/-- A whole-object mark: recurrent layer, token log or session block. -/
def wholeMark (kind layer : Nat) : Rederive := { kind := kind, layer := layer, store := 0, first := 0, count := 0 }

/-- The positions of a phrase, from its first, whose stored bytes share sector `s` (18 R419, 05 R85, R86): a header sector
covers all 64. -/
def sectorRows (x : Phrase) (s : Nat) : Nat × Nat :=
  let bits := if x.fmt = 3 then 16 else if x.fmt = 2 then 4 else 8
  let j := phraseElems x / 32
  let tile := 128 * bits
  let o := 64 * s - 256
  let elems := 2 * j * tile
  if s < 4 then (0, 64)
  else if o < elems then (32 * (o / tile / j) + o % tile / (4 * bits), Nat.max 1 (64 / (4 * bits)))
  else if x.fmt = 3 then (0, 0)
  else
    let t := (o - elems) / 32
    if 2 * j ≤ t then (0, 0)
    else if t / j = (t + 1) / j then (32 * (t / j), 32)
    else if 2 * j ≤ t + 1 then (32, 32)
    else (0, 64)

/-- The sessions whose lists hold a phrase. -/
def holders (d : Dev) (p id : Nat) : List Sess :=
  d.kv.cat.filter (fun s => ctxPart s.ctx == p && s.state != 0 && (sessPhrases s).contains id)

/-- A sealed phrase with no readable copy: every session that holds it is marked for the sector's positions. -/
def phraseDamaged (d : Dev) (x : Phrase) (s : Nat) : Dev :=
  let r := sectorRows x s
  if r.2 = 0 then d
  else (holders d x.part x.id).foldl (fun a h => rederive a (handleOf h)
    { kind := 0, layer := x.layer, store := x.kind, first := x.firstPos + r.1, count := r.2 }) d

/-! ### Refetches (18 R417) -/

/-- The copy that a refetch of tier `t` reads: DDR before FLASH, then FLASH; 3 for none. -/
def lowerTier (d : Dev) (x : Phrase) (t s : Nat) : Nat :=
  if t = 0 && x.ddr && !x.poisonDdr.contains s then 1
  else if t = 1 && x.hbm.isSome && !x.poisonHbm.contains s then 0
  else if x.flash.isSome && !flashLost d x then 2
  else 3

/-- Set or clear the poison of a sector of a phrase copy. -/
def setPoison (d : Dev) (p id tier s : Nat) (on : Bool) : Dev :=
  updPhrase d p id (fun x =>
    let f := fun (l : List Nat) => if on then upsert (· == s) s l else l.filter (· != s)
    if tier = 0 then { x with poisonHbm := f x.poisonHbm } else { x with poisonDdr := f x.poisonDdr })

/-- Count a refetched sector; EV_REFETCH is raised at most once per object and clause (18 R417): `arr.served` keeps what
was raised in this clause and the sectors to report at the next boundary. -/
def noteRefetch (d : Dev) (obj part tier n : Nat) : Dev :=
  let d1 := updLd (bump d 0 0 7 n) (partLd d part) (fun x => { x with refetches := x.refetches + n })
  match d1.arr.served.find? (fun x => x.1 == obj * 4 + tier) with
  | some _ => { d1 with arr.served := updWhere (fun (x : Nat × Nat) => x.1 == obj * 4 + tier) (fun x => (x.1, x.2 + n)) d1.arr.served }
  | none =>
    let d2 := { d1 with arr.served := d1.arr.served ++ [(obj * 4 + tier, 0)] }
    raise d2 0x0150 obj (.part part) [(8, obj), (1, tier), (4, n)]

/-- At a boundary: refetches of the clause that no event has reported. -/
def flushRefetches (d : Dev) : Dev :=
  let l := d.arr.served
  l.foldl (fun a x =>
    let obj := x.1 / 4
    if x.2 = 0 then a
    else raise a 0x0150 obj (.part (ctxPart (obj / 2 ^ 48 % 2048))) [(8, obj), (1, x.1 % 4), (4, x.2)])
    { d with arr.served := [] }

/-- A sector of a phrase's HBM (tier 0) or DDR (1) copy is found in error (18 R415-R417). With a readable copy in HBM or DDR
the controller answers with its data and rewrites the sector at once; with a copy on flash only, a refetch starts and the
read is poisoned. The second part: whether the reader saw poison. -/
def phraseError (d : Dev) (p id tier s : Nat) : Dev × Bool :=
  match findPhrase d p id with
  | none => (d, true)
  | some x =>
    let known := if tier = 0 then x.poisonHbm.contains s else x.poisonDdr.contains s
    let d1 := if known then d else bump d 0 0 6 1
    match lowerTier d1 x tier s with
    | 3 => (phraseDamaged (setPoison d1 p id tier s true) x s, true)
    | 2 =>
      let d2 := setPoison d1 p id tier s true
      if d2.arr.refetches.any (fun r => r.kind == 0 && r.part == p && r.obj == id && r.sectors.contains s) then (d2, true)
      else
        let r : Refetch := { id := d2.arr.nextRefetch, kind := 0, part := p, obj := id, tier := tier, src := 2, sectors := [s] }
        ({ d2 with arr.refetches := d2.arr.refetches ++ [r], arr.nextRefetch := d2.arr.nextRefetch + 1 }, true)
    | t => (noteRefetch (setPoison d1 p id tier s false) (objRef 2 x.ctx id) p t 1, false)

/-- A hard sector (18 R418, R426): counted; a copy with one stops being a copy of record at the next boundary. -/
def hardSector (d : Dev) (p id tier s : Nat) : Dev :=
  updPhrase (bump d 0 0 13 1) p id (fun x =>
    if tier = 0 then { x with hardHbm := upsert (· == s) s x.hardHbm } else { x with hardDdr := upsert (· == s) s x.hardDdr })

/-- At a boundary: copies with hard sectors of phrases that have another copy are freed (18 R418). -/
def dropHard (d : Dev) : Dev :=
  d.kv.phrases.foldl (fun a x =>
    let bad := (if x.hardHbm.isEmpty then 0 else 1) + (if x.hardDdr.isEmpty then 0 else 2)
    if bad = 0 then a else dropCopies a x.part x.id (7 - bad) true) d

/-- Work items of running jobs that wait for a refetch of a phrase. -/
def reissueItems (d : Dev) (p id : Nat) : Dev :=
  let fix := fun (w : WItem) =>
    if w.refetch && w.phrases.contains id && !w.done && w.state != 1 then { w with refetch := false, state := 0, resume := 0 } else w
  let mend := fun (j : Job) => { j with rows := j.rows.map (fun r => { r with items := r.items.map fix }) }
  { d with arr.jobs := updWhere (fun (j : Job) => j.part == p) mend d.arr.jobs }

/-! ### Objects with no lower copy (18 Table 18-2) -/

/-- A sector of a layer's weight section is poisoned: EV_OBJECT_DAMAGED once per object and sector, with the sector's offset in the model image. -/
def weightDamaged (d : Dev) (m layer sector : Nat) : Dev :=
  match findModel d m with
  | none => d
  | some x =>
    if x.damaged.contains (layer, sector) then d
    else
      let d1 := updModel (bump d 0 0 6 1) m (fun y => { y with
        poison := upsert (· == (layer, sector)) (layer, sector) y.poison
        damaged := y.damaged ++ [(layer, sector)] })
      let off := match x.layers[layer]? with | some l => l.weightsOff | none => 0
      raise d1 0x0151 (objIn 6 x.part m) (.part x.part) [(8, objIn 6 x.part m), (8, off + 64 * sector)]

/-- A sector of a kernel image in HBM is poisoned. -/
def kernelDamaged (d : Dev) (k sector : Nat) : Dev :=
  match findKernel d k with
  | none => d
  | some x =>
    if x.damaged.contains sector then d
    else
      let mark := fun (y : Kernel) => { y with poison := y.poison ++ [sector], damaged := y.damaged ++ [sector] }
      let d0 := bump d 0 0 6 1
      let d1 := { d0 with arr.kernels := updWhere (fun (y : Kernel) => y.id == k) mark d0.arr.kernels }
      raise d1 0x0151 (objIn 7 x.part k) (.part x.part) [(8, objIn 7 x.part k), (8, 64 * sector)]

end Sys2Proof.Machine
end

