-- ==== Sys2Proof/Machine/CoreMove.lean ====
section
/-!
DEFINITION. Movement descriptors (07 R145, R148): TLOAD, TSTORE, GATHER, SCATTER, FILL, PART_EMIT and APPEND_ROWS, and their completion.
-/

namespace Sys2Proof.Machine

/-- A piece whose source is zeros, and one whose source is FILL's pattern. -/
def srcZero : Nat := 0x1000
def srcFill : Nat := 0x1001

/-! ### Errors in what a descriptor reads (18 R416, R420) -/

/-- Fail a row: its first failure stays (06 R118). -/
def failRow (d : Dev) (job r st detail : Nat) : Dev :=
  updRow d job r (fun x => if x.status = 0 then { x with status := st, detail := detail } else x)

/-- The row is DAMAGED: detail is the layer. -/
def rowDamaged (d : Dev) (c : Core) : Dev :=
  match findJob d c.job with
  | some j => failRow d c.job c.row 9 j.layer
  | none => d

/-- The work item of a core waits for a refetch: its partial record is poisoned (18 R417). -/
def itemPoisoned (d : Dev) (c : Core) : Dev := updItem d c.job c.row c.item (fun w => { w with refetch := true })

/-- The physical position that holds a logical core (07 R135). -/
def corePos (d : Dev) (n : Nat) : Nat :=
  nth (((d.arr.spare.find? (fun s => s.1 == n / 16)).map (·.2)).getD (List.range 16)) (n % 16) (n % 16)

/-- Note poisoned sectors of a core's tile store (18 R422). -/
def noteTile (d : Dev) (c : Core) (n : Nat) : Dev :=
  if c.num < 4096 then { d with arr.tsErrors := d.arr.tsErrors ++ List.replicate n (c.num / 16, corePos d c.num, d.tim.elapsed) } else d

/-- The least of a list, or `dflt` where it is empty. -/
def minOr (dflt : Nat) : List Nat → Nat
  | [] => dflt
  | a :: r => r.foldl Nat.min a

/-- The cores on which slices of a job run: main cores, and channel cores from 4096 on. -/
def coresOf (d : Dev) (job : Nat) : List Nat := (d.arr.slices.filter (fun s => s.job == job)).flatMap (·.cores)

/-- A core that goes to self-test after an abort (03 R41). -/
def heldAfter (d : Dev) (n : Nat) : HeldCore :=
  if n < 4096 then HeldCore.mk (n / 16) (corePos d n) 3 none d.tim.elapsed else HeldCore.mk 256 (n - 4096) 3 none d.tim.elapsed

/-- End a job as R41 states: EV_JOB_ABORT names the verb, context and lowest core; its cores go to self-test. [Log entry 50, DEDUCED.] -/
def abortJob (d : Dev) (job : Nat) : Dev :=
  match findJob d job with
  | none => d
  | some j =>
    let op := match findVerb d j.seq with | some v => v.op | none => 0x0405
    let cores := coresOf d job
    let d1 := raise (bump d 0 0 4 1) 0x0113 (objPart j.part) (.part j.part) [(2, op), (2, j.ctx), (2, minOr 0 cores)]
    stopJob { d1 with arr.held := d1.arr.held ++ cores.map (heldAfter d1) } job stAborted

/-- Sectors of a phrase read that are in error: those that the read found, and those poisoned before. -/
def phraseSectors (x : Phrase) (tier lo hi : Nat) (bad : List Nat) : List Nat :=
  let old := if tier = 0 then x.poisonHbm else if tier = 1 then x.poisonDdr else []
  (old ++ bad.filter (fun s => !old.contains s)).filter (fun s => decide (lo ≤ s) && decide (s ≤ hi))

/-- A flash read that failed fails the promotions that share it (09 R183). -/
def failShared (d : Dev) (p id : Nat) : Dev :=
  let mine := fun (w : Mover) => match w.what with
    | .phrase q i _ => q == p && i == id && w.order == 1 && w.state == 0
    | _ => false
  { d with kv.movers := updWhere mine (fun w => { w with state := 2 }) d.kv.movers }

/-- Treat the errors in a read of the work item's phrases. -/
def phraseRunErrors (d : Dev) (c : Core) (j : Job) (w : WItem) (size off len : Nat) (bad : List Nat) : Dev × Bool :=
  if size = 0 || len = 0 then (d, false)
  else
    (rangeFrom (off / size) ((off + len - 1) / size - off / size + 1)).foldl (fun acc k =>
      let id := nth w.phrases k 0
      match findPhrase acc.1 j.part id with
      | none => (rowDamaged acc.1 c, true)
      | some x =>
        let lo := (Nat.max off (k * size) - k * size) / 64
        let hi := (Nat.min (off + len) ((k + 1) * size) - k * size - 1) / 64
        let here := (bad.map (fun b => (b * 64 + off) / 64)).filterMap (fun s =>
          if k * size ≤ s * 64 && s * 64 < (k + 1) * size then some (s - k * size / 64) else none)
        if w.tier = 2 then
          let told := match x.flash with | some l => tellSectors acc.1 j.part l here | none => acc.1
          if here.isEmpty then acc
          else if x.hbm.isSome || x.ddr then (itemPoisoned told c, true)
          else (rowDamaged (here.foldl (fun a s => phraseDamaged a x s) (failShared told j.part id)) c, true)
        else
          (phraseSectors x w.tier lo hi here).foldl (fun a s =>
            let r := phraseError a.1 j.part id w.tier s
            if !r.2 then (r.1, a.2)
            else if lowerTier r.1 x w.tier s = 2 then (itemPoisoned r.1 c, true)
            else (rowDamaged r.1 c, true)) acc) (d, false)

/-- Treat the errors that a memory controller finds in reading a name; the second part says whether the data came poisoned. `bad` lists sectors
of the region read, from its first. -/
def memoryErrors (d : Dev) (c : Core) (ni : Nat) (n : KName) (off len : Nat) (bad : List Nat) : Dev × Bool :=
  match findJob d c.job with
  | none => (d, false)
  | some j =>
    match n.cls with
    | 3 =>
      let lo := (n.base * 64 + off) / 64
      let hi := (n.base * 64 + off + len - 1) / 64
      let known := match findModel d j.model with
        | some m => (m.poison.filter (fun p => p.1 == j.layer && decide (lo ≤ p.2) && decide (p.2 ≤ hi))).map (·.2)
        | none => []
      let all := known ++ bad.map (· + lo)
      if all.isEmpty || len = 0 then (d, false)
      else (rowDamaged (all.foldl (fun a s => weightDamaged a j.model j.layer s) d) c, true)
    | 4 =>
      if bad.isEmpty then (d, false)
      else
        let k := jobBase d j + fieldAt j.desc 24 8
        (stopJob { d with poison := d.poison ++ bad.map (fun s => k / 64 + s) } c.job stDamaged, true)
    | 7 =>
      match jobRow j c.row, coreLayer d c with
      | some r, some l =>
        match rowItem r c.item with
        | some w => phraseRunErrors d c j w (phraseBytes l w.kind) off len bad
        | none => (d, false)
      | _, _ => (d, false)
    | 8 =>
      if bad.isEmpty then (d, false)
      else
        match jobRow j c.row with
        | some r =>
          let x := tailPhrase ((coreLayer d c).getD (layerOf [])) j r ((rowItem r c.item).map (·.kind) |>.getD 0)
            ((rowItem r c.item).map (·.tailIdx) |>.getD 0)
          let d1 := bad.foldl (fun a s =>
            let q := sectorRows x ((off + 64 * s) / 64)
            if q.2 = 0 then a
            else rederive a r.handle { kind := 0, layer := j.layer, store := x.kind, first := x.firstPos + q.1, count := q.2 }) d
          (rowDamaged d1 c, true)
        | none => (d, false)
    | 11 =>
      let old := match jobRow j c.row with
        | some r => (match r.layer with
          | some st => (match st.recur with | some x => x.poisoned | none => false)
          | none => false)
        | none => false
      if bad.isEmpty && !old then (d, false)
      else
        match jobRow j c.row with
        | some r => (rowDamaged (rederive (bump d 0 0 6 bad.length) r.handle (wholeMark 1 j.layer)) c, true)
        | none => (d, false)
    | 13 =>
      let lo := off / 64
      let hi := (off + len - 1) / 64
      let all := bad.map (· + lo) ++ (j.scratchBad.filter (fun s => s.1 == ni && decide (lo ≤ s.2) && decide (s.2 ≤ hi))).map (·.2)
      if all.isEmpty || len = 0 then (d, false)
      else
        let mark := fun (x : Job) => { x with scratchBad := all.foldl (fun l s => upsert (· == (ni, s)) (ni, s) l) x.scratchBad }
        (rowDamaged (updJob (bump d 0 0 6 bad.length) j.num mark) c, true)
    | _ =>
      if bad.isEmpty || ni = noName then (d, false)
      else if n.cls = 0 || n.cls = 1 then (abortJob (noteTile (bump d 0 0 6 bad.length) c (if n.cls = 0 then bad.length else 0)) c.job, true)
      else (d, false)

/-- Treat the errors found in reading a name. An entry of `bad` from 2^32 on is a tile that failed its check at the receiving end of a UCIe link
(01 R14, 18 R414): the memory is sound, and the row that needed the tile is DAMAGED. [Log entry 119, DESIGN CHOICE.] -/
def readErrors (d : Dev) (c : Core) (ni : Nat) (n : KName) (off len : Nat) (bad : List Nat) : Dev × Bool :=
  let r := memoryErrors d c ni n off len (bad.filter (fun b => decide (b < 2 ^ 32)))
  if n.cls ≠ 0 && bad.any (fun b => decide (2 ^ 32 ≤ b)) then (rowDamaged r.1 c, true) else r

/-! ### TLOAD, TSTORE, GATHER, SCATTER, FILL -/

/-- The pieces of a tile transfer between a store and a region outside it (07 R139): packed, or split into elements and
scales. -/
def splitPieces (fmt tiles store so outer oo scale sc first : Nat) (load : Bool) : List Piece :=
  (List.range tiles).flatMap (fun t =>
    let e := tileElemBytes fmt
    let b := tileBytes fmt
    if load then
      [Piece.mk outer (oo + t * e) store (so + t * b) e, Piece.mk scale (sc + 32 * (first + t)) store (so + t * b + e) 32,
        Piece.mk srcZero 0 store (so + t * b + e + 32) 32]
    else [Piece.mk store (so + t * b) outer (oo + t * e) e, Piece.mk store (so + t * b + e) scale (sc + 32 * (first + t)) 32])

/-- TLOAD: `bad` lists the sectors of SRC that the read finds in error. -/
def tloadDesc (bad : List Nat) (c : Core) (x : Nat) (d : Dev) : Except Nat Dev := do
  if !mvtRoom c then .ok d else
  let fmt := df x 34 1
  let tiles := df x 32 2
  if bitSet (df x 35 1) 1 then
    let (si, sn, so) ← resolve d c x 8 256 false
    let (ci, _, co) ← resolve d c x 40 4 true
    let (d1, p) := readErrors d c si sn so 256 bad
    .ok (issueMvt d1 c x [Piece.mk si so noName 0 256, Piece.mk noName 0 ci co 4] none [] p)
  else if bitSet (df x 35 1) 0 then
    let (si, sn, so) ← resolve d c x 8 (tiles * tileElemBytes fmt) false
    let (di, _, do') ← resolve d c x 16 (tiles * tileBytes fmt) true
    let (ki, _, ko) ← resolve d c x 24 (32 * (df x 36 2 + tiles)) false
    let (d1, p) := readErrors d c si sn so (tiles * tileElemBytes fmt) bad
    .ok (issueMvt d1 c x (splitPieces fmt tiles di do' si so ki ko (df x 36 2) true) none [] p)
  else
    let (si, sn, so) ← resolve d c x 8 (tiles * tileBytes fmt) false
    let (di, _, do') ← resolve d c x 16 (tiles * tileBytes fmt) true
    let (d1, p) := readErrors d c si sn so (tiles * tileBytes fmt) bad
    .ok (issueMvt d1 c x [Piece.mk si so di do' (tiles * tileBytes fmt)] none [] p)

/-- TSTORE. -/
def tstoreDesc (bad : List Nat) (c : Core) (x : Nat) (d : Dev) : Except Nat Dev := do
  if !mvtRoom c then .ok d else
  let fmt := df x 34 1
  let tiles := df x 32 2
  let (si, sn, so) ← resolve d c x 8 (tiles * tileBytes fmt) false
  let (d1, p) := readErrors d c si sn so (tiles * tileBytes fmt) bad
  if bitSet (df x 35 1) 0 then
    let (di, _, do') ← resolve d c x 16 (tiles * tileElemBytes fmt) true
    let (ki, _, ko) ← resolve d c x 24 (32 * tiles) true
    .ok (issueMvt d1 c x (splitPieces fmt tiles si so di do' ki ko 0 false) none [] p)
  else
    let (di, _, do') ← resolve d c x 16 (tiles * tileBytes fmt) true
    .ok (issueMvt d1 c x [Piece.mk si so di do' (tiles * tileBytes fmt)] none [] p)

/-- The row numbers of a GATHER or SCATTER. -/
def indexList (bs : List Byte) : List Nat := (chunksOf 4 bs.length bs).map leNat

/-- GATHER and SCATTER: rows by INDEX; an index outside its region faults with cause 4. -/
def gatherDesc (scatter : Bool) (bad : List Nat) (c : Core) (x : Nat) (d : Dev) : Except Nat Dev := do
  if !mvtRoom c then .ok d else
  let rows := df x 32 2
  let w := df x 34 2 * 64
  let (ib, d0) ← readAt d c x 24 (4 * rows)
  let idx := indexList ib
  let (si, sn, so) ← resolve d0 c x 8 (if scatter then rows * w else 0) false
  let (di, dn, do') ← resolve d0 c x 16 (if scatter then 0 else rows * w) true
  let room := if scatter then nameSize d0 c dn - do' else nameSize d0 c sn - so
  if idx.any (fun i => decide (room < (i + 1) * w)) then .error 4
  else
    let (d1, p) := readErrors d0 c si sn so (if scatter then rows * w else room) bad
    let ps := ((List.range rows).zip idx).map (fun e =>
      if scatter then Piece.mk si (so + e.1 * w) di (do' + e.2 * w) w else Piece.mk si (so + e.2 * w) di (do' + e.1 * w) w)
    .ok (issueMvt d1 c x ps none [] p)

/-- FILL: LINES lines of 64 bytes with the 32-bit pattern VALUE. -/
def fillDesc (c : Core) (x : Nat) (d : Dev) : Except Nat Dev := do
  if !mvtRoom c then .ok d else
  let n := df x 20 2 * 64
  let (di, _, do') ← resolve d c x 8 n true
  .ok (issueMvt d c x [Piece.mk srcFill 0 di do' n] none [] false)

/-- The bytes that a piece moves. -/
def pieceBytes (d : Dev) (c : Core) (x : Nat) (p : Piece) : List Byte :=
  if p.srcName = srcZero then List.replicate p.len 0
  else if p.srcName = srcFill then (List.replicate (p.len / 4) (natLe (df x 16 4) 4)).flatten
  else
    match nameAt d c p.srcName with
    | some n => nameRead d c p.srcName n p.srcOff p.len
    | none => List.replicate p.len 0

/-- The bytes that a piece brings, free where a race disturbed its source or its destination (07 R147). -/
def movedBytes (c : Core) (m : Mvt) (d : Dev) (p : Piece) : List Byte × Dev :=
  let bs := pieceBytes d c m.desc p
  if m.racy.isEmpty then (bs, d)
  else
    let hit := fun (ni off : Nat) (i : Nat) => match nameAt d c ni with
      | some n => let r := regionOf c ni n off p.len; inRegions m.racy r (r.addr + i)
      | none => false
    let (fr, d1) := drawBytes d p.len
    ((List.range p.len).map (fun i => if hit p.srcName p.srcOff i || hit p.dstName p.dstOff i then nth fr i 0 else nth bs i 0), d1)

/-- Carry out one piece of a movement descriptor. -/
def doPiece (c : Core) (m : Mvt) (d : Dev) (p : Piece) : Dev :=
  match nameAt d c p.dstName with
  | none => d
  | some n =>
    let (bs, d1) := movedBytes c m d p
    nameWrite d1 c p.dstName n p.dstOff bs

/-- TLOAD with HDR: the check value of a phrase header is added to a word (07 R145). `src` reads the header, `dst` is the word. -/
def doHeader (c : Core) (m : Mvt) (src dst : Piece) (d : Dev) : Dev :=
  match nameAt d c dst.dstName with
  | none => d
  | some n =>
    let (h, d1) := movedBytes c m d src
    let (old, d2) := movedBytes c m d1 { dst with srcName := dst.dstName, srcOff := dst.dstOff }
    let add := fieldAt h 0 4 ^^^ (fieldAt h 16 4 * 65536 % 2 ^ 32)
    nameWrite d2 c dst.dstName n dst.dstOff (natLe ((leNat old + add) % 2 ^ 32) 4)

/-! ### PART_EMIT (07 R145, 06 Table 6-10) -/

/-- Element `i` of row `e` of the accumulators from `first` onward. -/
def accElem (c : Core) (first e i : Nat) : Nat :=
  match c.acc.find? (fun a => a.1 == first + i / 32) with
  | some a => at2 a.2 e (i % 32) 0
  | none => 0

/-- Heads of a record: those beyond the work item's are left out (07 R145). -/
def recordHeads (c : Core) (x : Nat) : Nat × Nat :=
  let first := df x 56 2 + df x 58 2 * c.gangRank
  (first, Nat.min (df x 50 2) (fieldAt c.prm 18 2 + fieldAt c.prm 20 2 - first))

/-- The row of M, S and O that entry `i` of a record takes. -/
def entryRow (c : Core) (x i : Nat) : Nat :=
  let hn := Nat.max 1 (recordHeads c x).2
  i / hn * df x 50 2 + i % hn

/-- PART_EMIT: one partial record, which leaves when the descriptor completes. The entries are read then; what comes from accumulators is read at
issue. -/
def partEmitDesc (c : Core) (x : Nat) (d : Dev) : Except Nat Dev := do
  if !mvtRoom c then .ok d else
  let q := df x 48 2
  let h := df x 50 2
  let vd := df x 52 2
  let hs := recordHeads c x
  let fromAcc := orefName x 32 == noName
  let _ ← resolve d c x 8 (32 + q * hs.2 * (8 + 4 * vd)) false
  let (mi, _, mo) ← resolve d c x 16 (4 * q * h) false
  let (si, _, so) ← resolve d c x 24 (4 * q * h) false
  let ob ← if fromAcc then .ok [] else (resolve d c x 32 (4 * q * h * vd) false).map (fun r => [Piece.mk r.1 r.2.2 noName 0 (4 * q * h * vd)])
  let (ki, _, ko) ← resolve d c x 40 4 false
  let entry := fun (i : Nat) =>
    Triple.mk 0 0 (if fromAcc then (List.range vd).map (accElem c (df x 55 1) (entryRow c x i)) else [])
  let bad := match (findJob d c.job).bind (fun j => (jobRow j c.row).bind (fun r => rowItem r c.item)) with
    | some w => w.refetch
    | none => false
  let r : PartRec := { job := c.job, row := c.row, item := c.item, run := c.run, check := 0, queries := q, heads := hs.2, vdim := vd,
                       kind := df x 54 1, firstQuery := fieldAt c.prm 14 2, firstHead := hs.1,
                       phrases := fieldAt c.prm 36 2, poisoned := bad, entries := (List.range (q * hs.2)).map entry }
  .ok (issueMvt d c x ([Piece.mk mi mo noName 0 (4 * q * h), Piece.mk si so noName 0 (4 * q * h), Piece.mk ki ko noName 0 4] ++ ob)
    (some r) [] false)

/-- The record that PART_EMIT sends at completion. -/
def finishRecord (c : Core) (m : Mvt) (r : PartRec) (d : Dev) : PartRec × Dev :=
  match m.pieces with
  | pm :: ps :: pk :: rest =>
    let (mb, d1) := movedBytes c m d pm
    let (sb, d2) := movedBytes c m d1 ps
    let (kb, d3) := movedBytes c m d2 pk
    let (ob, d4) := if orefName m.desc 32 = noName then ([], d3) else movedBytes c m d3 (rest.headD pk)
    let entry := fun (i : Nat) (t : Triple) =>
      let e := entryRow c m.desc i
      Triple.mk (fieldAt mb (4 * e) 4) (fieldAt sb (4 * e) 4)
        (if orefName m.desc 32 = noName then t.o else (List.range r.vdim).map (fun k => fieldAt ob (4 * (e * r.vdim + k)) 4))
    ({ r with check := leNat kb, entries := ((List.range r.entries.length).zip r.entries).map (fun y => entry y.1 y.2) }, d4)
  | _ => (r, d)

/-! ### APPEND_ROWS (07 R145, 05 R90, R92) -/

/-- Set a row that a job passes to the append unit; a later one for the same query replaces it. -/
def putNew (d : Dev) (c : Core) (kind q : Nat) (row : NewRow) : Dev :=
  updRow d c.job c.row (fun r => { r with
    news := sortBy (fun a b => decide (a.2.1 ≤ b.2.1)) (upsert (fun x => x.1 == kind && x.2.1 == q) (kind, q, row) r.news) })

/-- Bytes of an element of APPEND_ROWS, and the elements of one row of it. -/
def appendElem (x : Nat) : Nat := if df x 17 1 = 7 then 4 else 2
def appendWidth (l : LayerRec) (x : Nat) : Nat := if l.kind = 0 then rowElems l (df x 16 1) else l.rh * (2 * l.rk + l.rv)

/-- APPEND_ROWS: ROWS rows of E elements go to the append unit when the descriptor completes. A row index beyond the row's queries, or a channel
core, faults. [Log entry 48, DEDUCED.] -/
def appendRowsDesc (c : Core) (x : Nat) (d : Dev) : Except Nat Dev := do
  if !mvtRoom c then .ok d else
  if isChannelCore c then .error 3 else
  match findJob d c.job, coreLayer d c with
  | some j, some l =>
    match jobRow j c.row with
    | none => .ok d
    | some r =>
      let n := df x 18 2
      let len := n * appendWidth l x * appendElem x
      if r.qcount < df x 20 4 + n || (l.kind = 0 && df x 16 1 = 1 && l.h = 0) then .error 1
      else
        let (si, _, so) ← resolve d c x 8 len false
        .ok (issueMvt d c x [Piece.mk si so noName 0 len] none [] false)
  | _, _ => .ok d

/-- The session position of query or node `q` of a row: a tree node's follows from its depth (05 R98, 06 R122, R125). -/
def queryPos (r : JobRow) (q : Nat) : Nat :=
  match r.tree with
  | some t => if rowTree r then r.cached + nth (treeDepths t.parent) q 1 - 1 else r.cached + q
  | none => r.cached + q

/-- A row of values passes the append unit; EV_APPEND_CLAMPED where a non-finite value of an attention job was repaired (05 R92, R109). -/
def appendValues (j : Job) (l : LayerRec) (r : JobRow) (c : Core) (kind q : Nat) (vs : List Fv) (d : Dev) : Dev :=
  let new := appendUnit (kindFmt l kind) vs
  let d1 := putNew d c kind q new
  if !new.clamped || j.kind ≠ 0 then d1
  else match findSess d1 r.handle with
    | some s => raise d1 0x0420 (objSess s) (.part j.part) [(2, j.layer), (4, queryPos r q), (4, new.sat)]
    | none => d1

/-- Rows of bytes reach the append unit. On a recurrent layer they are a tree node's inputs, kept in FP32 (06 R132). -/
def appendArrive (c : Core) (m : Mvt) (d : Dev) : Dev :=
  match findJob d c.job, coreLayer d c, m.pieces with
  | some j, some l, p :: _ =>
    match jobRow j c.row with
    | none => d
    | some r =>
      let x := m.desc
      let (bs, d1) := movedBytes c m d p
      let w := appendWidth l x * appendElem x
      (List.range (df x 18 2)).foldl (fun a i =>
        let q := df x 20 4 + i
        let codes := elemCodes (df x 17 1) ((bs.drop (i * w)).take w)
        if l.kind = 0 then appendValues j l r c (df x 16 1) q (codes.map (elemValue (df x 17 1))) a
        else
          let wide := codes.flatMap (fun y => natLe (if df x 17 1 = 7 then y else y * 65536) 4)
          updRow a c.job c.row (fun y => { y with nodes := upsert (fun z => z.1 == q) (q, wide) y.nodes })) d1
  | _, _, _ => d

/-! ### MOVEMENT_COMPLETE (07 R148) -/

/-- Whether a deferred signal of a core may take effect: every earlier movement has completed. -/
def signalDue (c : Core) (s : Deferred) : Bool := s.waits.all (fun i => !c.mvts.any (fun m => m.id == i))

/-- What a movement descriptor does when its last byte arrives. -/
def carryOut (c : Core) (m : Mvt) (d : Dev) : Dev :=
  if df m.desc 0 1 = 0x58 then appendArrive c m d
  else
    match m.record, m.pieces with
    | some r, _ =>
      let (r1, d1) := finishRecord c m r d
      { d1 with arr.records := d1.arr.records ++ [r1] }
    | none, ps =>
      match ps with
      | [a, b] => if a.dstName = noName && b.srcName = noName then doHeader c m a b d else ps.foldl (doPiece c m) d
      | _ => ps.foldl (doPiece c m) d

/-- Take a completed movement descriptor from its core, which sets its DONE_FLAG. -/
def dropMvt (d : Dev) (n : Nat) (m : Mvt) : Dev :=
  updCore d n (fun z => { setDone z (doneFlag (m.desc % 2 ^ 512)) with mvts := dropWhere (fun (q : Mvt) => q.id == m.id) z.mvts })

/-- MOVEMENT_COMPLETE: movement descriptor `id` of core `n` completes: its data is in place and visible, a partial record
leaves for the merge unit, and DONE_FLAG is set. -/
def movementComplete (n id : Nat) (d : Dev) : Dev :=
  match findCore d n with
  | none => d
  | some c =>
    match c.mvts.find? (fun m => m.id == id && df m.desc 0 1 != 0x5C) with
    | none => d
    | some m => dropMvt (carryOut c m d) n m

end Sys2Proof.Machine
end

