-- ==== Sys2Proof/Machine/CoreCtl.lean ====
section
/-!
DEFINITION. Synchronisation and control descriptors (07 R145, R148, R149, R151, R152): NOP, SEM_WAIT, SEM_SIGNAL, BAR_CL,
BAR_DEV, BCAST, FLAG, FLAG_WAIT, LOOP_BEGIN, LOOP_END, SKIP and END.
-/

namespace Sys2Proof.Machine

/-- A waiting core passes its descriptor: DONE_FLAG is set and the core moves on. -/
def passCore (d : Dev) (n : Nat) : Dev :=
  match findCore d n with
  | none => d
  | some c => updCore d n (fun y => goTo d { setDone y (doneFlag (coreDesc c)) with wait := 0 } (y.pc + 1))

/-! ### Semaphores (07 R151) -/

/-- The scope of semaphore `n` of a kernel: 0 gang, 1 cluster, 2 job. [Log entry 46, DEDUCED.] -/
def semScope (k : Kernel) (n : Nat) : Nat := if n < 16 then bitsOf k.semScopes (2 * n + 1) (2 * n) else 2

/-- The instance of a semaphore name that a core uses. -/
def semKey (c : Core) (scope : Nat) : Nat :=
  match scope with
  | 0 => c.gang
  | 1 => c.num / 16
  | _ => 0

/-- A core's semaphore instance as it stands: bound with a count of 0 when its slice starts. -/
def semOf (d : Dev) (c : Core) (n : Nat) : Sem :=
  let sc := match coreKernel d c with | some k => semScope k n | none => 2
  let dflt : Sem := { scope := sc, key := semKey c sc, num := n, count := 0, waiters := [] }
  let all := if sc = 2 then ((findJob d c.job).map (·.sems)).getD [] else ((findSlice d c.slice).map (·.sems)).getD []
  (all.find? (fun x => x.scope == sc && x.key == semKey c sc && x.num == n)).getD dflt

/-- Store a semaphore instance: of job scope with the job, whose main and channel cores share it, of another with the slice. -/
def putSem (d : Dev) (c : Core) (m : Sem) : Dev :=
  let put := fun (l : List Sem) => upsert (fun (x : Sem) => x.scope == m.scope && x.key == m.key && x.num == m.num) m l
  if m.scope = 2 then updJob d c.job (fun j => { j with sems := put j.sems })
  else updSlice d c.slice (fun s => { s with sems := put s.sems })

/-- Serve waiters in their order; one that cannot be satisfied holds back those behind it. -/
def serveSem (c : Core) : Nat → Dev → Sem → Dev
  | 0, d, m => putSem d c m
  | k + 1, d, m =>
    match m.waiters with
    | [] => putSem d c m
    | w :: ws =>
      if w.2 ≤ m.count then serveSem c k (passCore d w.1) { m with count := m.count - w.2, waiters := ws } else putSem d c m

/-- A signal of `n` to a semaphore: a count above 65,535 faults (cause 5). -/
def signalSem (d : Dev) (c : Core) (sem n : Nat) : Except Nat Dev :=
  let m := semOf d c sem
  if 65535 < m.count + n then .error 5
  else .ok (serveSem c (m.waiters.length + 1) d { m with count := m.count + n })

/-- SEM_WAIT. -/
def semWaitDesc (c : Core) (x : Nat) (d : Dev) : Except Nat Dev :=
  if c.sig.isSome then .ok d
  else
    let m := semOf d c (df x 8 1)
    let n := df x 12 2
    if m.waiters.isEmpty && decide (n ≤ m.count) then .ok (retire (putSem d c { m with count := m.count - n }) c x)
    else
      let d1 := putSem d c { m with waiters := m.waiters ++ [(c.num, n)] }
      .ok (updCore d1 c.num (fun y => { y with wait := 1 }))

/-- The cores that a scope names: 0 the gang, 1 the job's cores in the cluster, 2 the job. -/
def scopeCores (d : Dev) (c : Core) (scope : Nat) : List Core :=
  match scope with
  | 0 => d.arr.cores.filter (fun y => y.slice == c.slice && y.gang == c.gang)
  | 1 => d.arr.cores.filter (fun y => y.slice == c.slice && y.num / 16 == c.num / 16)
  | _ => d.arr.cores.filter (fun y => y.job == c.job)

/-- BCAST takes effect: its flag is set in every target core. [Log entry 46, DEDUCED.] -/
def broadcast (d : Dev) (c : Core) (flag scope : Nat) : Dev :=
  (scopeCores d c scope).foldl (fun a y => updCore a y.num (fun z => setFlag z flag)) d

/-- Take a signal or broadcast of core `n` that waits for earlier movement, if all of that has completed (07 R148). -/
def settleSignal (n : Nat) (d : Dev) : Dev :=
  match findCore d n with
  | none => d
  | some c =>
    match c.sig with
    | none => d
    | some s =>
      if !signalDue c s then d
      else
        let d1 := updCore d n (fun y => { setDone y s.done with sig := none })
        if s.bcast then broadcast d1 c s.arg s.count
        else
          match signalSem d1 c s.arg s.count with
          | .ok d2 => d2
          | .error e => kernelFault d1 { c with pc := s.pc } e

/-- Issue a signal or broadcast: it waits for the core's earlier movement descriptors. [Log entry 46, DEDUCED.] -/
def deferSignal (d : Dev) (c : Core) (x : Nat) (bcast : Bool) (arg n : Nat) : Dev :=
  let s : Deferred := { pc := c.pc, bcast := bcast, arg := arg, count := n, waits := c.mvts.map (·.id), done := doneFlag x }
  settleSignal c.num (updCore d c.num (fun y => goTo d { y with sig := some s } (y.pc + 1)))

/-- SEM_SIGNAL. -/
def semSignalDesc (c : Core) (x : Nat) (d : Dev) : Except Nat Dev :=
  if c.sig.isSome then .ok d else .ok (deferSignal d c x false (df x 8 1) (df x 12 2))

/-- BCAST. -/
def bcastDesc (c : Core) (x : Nat) (d : Dev) : Except Nat Dev :=
  if c.sig.isSome then .ok d else .ok (deferSignal d c x true (df x 8 1 % 64) (df x 9 1))

/-! ### Barriers (07 R152, 06 R120) -/

/-- Release cores that wait at a barrier when all of them have arrived; a core that has executed END has not. -/
def releaseIf (d : Dev) (cs : List Core) (code : Nat) : Dev :=
  if cs.all (fun y => y.wait == code) then cs.foldl (fun a y => passCore a y.num) d else d

/-- BAR_CL: waits for every core of its scope. A channel core has no cluster barrier and passes. [Log entry 46, DEDUCED.] -/
def barClDesc (c : Core) (x : Nat) (d : Dev) : Except Nat Dev :=
  if c.sig.isSome then .ok d
  else if isChannelCore c then .ok (retire d c x)
  else
    let code := 2 + df x 8 1 % 2
    let d1 := updCore d c.num (fun y => { y with wait := code })
    .ok (releaseIf d1 (scopeCores d1 c (df x 8 1 % 2)) code)

/-- The work items of a job's rows that have not failed. -/
def jobItems (j : Job) : List WItem := (j.rows.filter (fun r => r.status == 0)).flatMap (·.items)

/-- Whether every item of the rows that have not failed has merged. -/
def allMerged (j : Job) : Bool := (jobItems j).all (·.done)

/-- Whether every item that main cores answer has reached the first barrier of an ABSORB job: every stem query has been folded (06 R120). -/
def allFolded (j : Job) : Bool := (jobItems j).all (fun w => w.tier == 2 || w.done || decide (1 ≤ w.bars))

/-- Whether partials of a job may still arrive within the clause: records on their way, or channel cores at work. -/
def partsComing (d : Dev) (job : Nat) : Bool :=
  d.arr.records.any (fun r => r.job == job) || d.arr.slices.any (fun s => s.job == job && s.channel)

/-- Copy the Q regions of rows for the channel cores, once (07 R141). -/
def copyQ (rows : List Nat) (d : Dev) (job : Nat) : Dev :=
  let copy := fun (r : JobRow) => if rows.contains r.idx && r.qCopy.isNone then { r with qCopy := some r.q } else r
  updJob d job (fun z => { z with rows := z.rows.map copy })

/-- Take the cores of a slice off at a barrier that this clause cannot complete: their items go on after it in a later slice (06 R117, R120). [Log entry 46, DEDUCED.] -/
def cutSlice (d : Dev) (s : Slice) (cs : List Core) : Dev :=
  let back := fun (a : Dev) (c : Core) => updItem a c.job c.row c.item (fun w => { w with state := 0, resume := c.pc + 1 })
  let d1 := cs.foldl back d
  { d1 with
    arr.cores := dropWhere (fun (c : Core) => c.slice == s.id) d1.arr.cores
    arr.slices := dropWhere (fun (x : Slice) => x.id == s.id) d1.arr.slices }

/-- Let the main cores of a slice pass BAR_DEV once all have arrived. The first time in ATT the rows' Q regions are copied for
the channel cores (07 R141). Of an ABSORB job's two barriers in ATT the first waits until every stem query of the job has been folded, the second until
every partial of its rows has merged (06 R120): where what is missing cannot come in this clause, the slice ends at the barrier. [Log entry 46, DEDUCED.] -/
def settleBarrier (d : Dev) (slice : Nat) : Dev :=
  match findSlice d slice with
  | none => d
  | some s =>
    match findJob d s.job with
    | none => d
    | some j0 =>
      let cs := d.arr.cores.filter (fun (y : Core) => y.slice == slice)
      if cs.isEmpty || !cs.all (fun y => y.wait == 4) then d
      else
        let att := j0.phase == 1 && j0.kind == 0
        let absorb := att && j0.absorb && decide (s.barriers < 2)
        let reach := fun (w : WItem) => { w with bars := Nat.max w.bars (s.barriers + 1) }
        let d0 := if absorb then cs.foldl (fun a c => updItem a c.job c.row c.item reach) d else d
        let j := (findJob d0 s.job).getD j0
        let ready := !absorb || (if s.barriers = 0 then allFolded j else allMerged j)
        if !ready && s.barriers = 1 && partsComing d0 j.num then d0
        else if !ready then cutSlice d0 s cs
        else
          let d1 := updSlice d0 slice (fun z => { z with barriers := z.barriers + 1 })
          let d2 := if !att then d1
            else if absorb then copyQ (j.rows.map (·.idx)) d1 j.num
            else copyQ (cs.map (·.row)) d1 j.num
          cs.foldl (fun a y => passCore a y.num) d2

/-- BAR_DEV: waits for every main core of the job. A channel core has no device barrier and passes. [Log entry 46, DEDUCED.] -/
def barDevDesc (c : Core) (x : Nat) (d : Dev) : Except Nat Dev :=
  if c.sig.isSome then .ok d
  else if isChannelCore c then .ok (retire d c x)
  else .ok (settleBarrier (updCore d c.num (fun y => { y with wait := 4 })) c.slice)

/-! ### Flags -/

/-- FLAG: sets and clears; a flag in both masks ends free. [Log entry 47, DESIGN CHOICE.] -/
def flagDesc (c : Core) (x : Nat) (d : Dev) : Except Nat Dev :=
  if c.sig.isSome then .ok d
  else
    let st := df x 8 8 % 2 ^ 56
    let cl := df x 16 8 % 2 ^ 56
    let (fr, d1) := if st &&& cl = 0 then (0, d) else drawNat d
    let new := fun f =>
      let one := if bitSet (st &&& cl) f then bitSet fr f
        else if bitSet st f then true
        else if bitSet cl f then false
        else bitSet c.flags f
      if one then 2 ^ f else 0
    let flags := sumNat ((List.range 64).map new)
    .ok (retire (updCore d1 c.num (fun y => { y with flags := flags })) c x)

/-- FLAG_WAIT: the core stays at it until the flags are set. -/
def flagWaitDesc (c : Core) (x : Nat) (d : Dev) : Except Nat Dev :=
  let m := df x 8 8
  let ok := if df x 16 1 = 0 then c.flags &&& m == m else c.flags &&& m != 0
  if c.sig.isSome || !ok then .ok d else .ok (retire d c x)

/-! ### Control -/

/-- NOP. -/
def nopDesc (c : Core) (x : Nat) (d : Dev) : Except Nat Dev := .ok (retire d c x)

/-- The position of the LOOP_END that matches a LOOP_BEGIN, `depth` loops deep, from position `i` on. -/
def loopEndFrom (ds : List Nat) (depth i : Nat) : Nat :=
  match ds with
  | [] => i
  | x :: r =>
    if df x 0 1 = 0x70 then loopEndFrom r (depth + 1) (i + 1)
    else if df x 0 1 = 0x71 then (if depth = 0 then i else loopEndFrom r (depth - 1) (i + 1))
    else loopEndFrom r depth (i + 1)

/-- LOOP_BEGIN: COUNT immediate or from PRM; above 65,536 it faults (cause 6); a COUNT of 0 skips to the LOOP_END. [Log entry 47, DESIGN CHOICE.] -/
def loopBeginDesc (c : Core) (x : Nat) (d : Dev) : Except Nat Dev :=
  let cnt := if df x 9 1 = 0 then df x 12 4 else fieldAt c.prm (df x 12 4) (prmWidth (df x 12 4))
  if 65536 < cnt then .error 6
  else
    let ctr := df x 8 1 % 4
    let l : LoopSt := { counter := ctr, index := 0, count := cnt, body := c.pc + 1 }
    let go := match coreKernel d c with
      | some k => if cnt = 0 then loopEndFrom (k.descs.drop (c.pc + 1)) 0 (c.pc + 1) else c.pc + 1
      | none => c.pc + 1
    .ok (updCore d c.num (fun y => goTo d { setDone y (doneFlag x) with loops := l :: y.loops, idx := setNth y.idx ctr 0 } go))

/-- LOOP_END: the next iteration, or on to the next descriptor. [Log entry 47, DESIGN CHOICE.] -/
def loopEndDesc (c : Core) (x : Nat) (d : Dev) : Except Nat Dev :=
  match c.loops with
  | [] => .ok (retire d c x)
  | l :: ls =>
    if l.index + 1 < l.count then
      .ok (updCore d c.num (fun y => goTo d
        { setDone y (doneFlag x) with
          loops := { l with index := l.index + 1 } :: ls, idx := setNth y.idx l.counter (l.index + 1) } l.body))
    else .ok (updCore d c.num (fun y => goTo d { setDone y (doneFlag x) with loops := ls } (y.pc + 1)))

/-- SKIP: the next N descriptors are skipped. -/
def skipDesc (c : Core) (x : Nat) (d : Dev) : Except Nat Dev :=
  .ok (updCore d c.num (fun y => goTo d (setDone y (doneFlag x)) (y.pc + 1 + df x 8 2)))

/-- END: the core stops for the rest of its slice. -/
def endDesc (c : Core) (x : Nat) (d : Dev) : Except Nat Dev :=
  if c.sig.isSome then .ok d else .ok (updCore d c.num (fun y => { setDone y (doneFlag x) with ended := true }))

end Sys2Proof.Machine
end

