-- ==== Sys2Proof/Machine/Attend.lean ====
section
/-!
DEFINITION. Attention jobs as they are submitted (06 R113-R119, R123, R124): the descriptor and its length table, and the
row checks of Table 6-9.
-/

namespace Sys2Proof.Machine

/-! ### The job descriptor (06 Table 6-6) -/

/-- The region that a descriptor's offsets name: key of offset 0, bytes, and bytes that outputs may reach (15 R342). -/
structure Area where
  base : Nat
  size : Nat
  outSize : Nat
  deriving DecidableEq, Repr

/-- The area of a verb. -/
def verbArea (d : Dev) (v : Verb) : Area :=
  { base := verbBase v, size := argLimit d v, outSize := if v.ring = 16 then 4096 else exSize d v.ld }

def inArea (a : Area) (off len : Nat) : Bool := decide (off + len ≤ a.size)
def inAreaOut (a : Area) (off len : Nat) : Bool := decide (off + len ≤ a.outSize)

/-- Read from an area; a poisoned sector gives ST_DAMAGED. -/
def areaRead (d : Dev) (a : Area) (off len : Nat) : Except Fail (List Byte) :=
  if exPoisoned d (a.base + off) len then failSt stDamaged else .ok (memReadN d.exch (a.base + off) len)

/-- Whether the fields of a job descriptor are in range, apart from what depends on its model. -/
def jobHeadOk (b : List Byte) : Bool :=
  let fl := fieldAt b 1 1
  decide (fl < 16) && fl % 4 != 3 && inR (fieldAt b 4 4) 1 16384 && inR (fieldAt b 8 4) 1 65536 &&
    decide (fieldAt b 12 4 < 2048) && fieldAt b 16 8 % 64 == 0 && fieldAt b 24 8 % 64 == 0 && fieldAt b 40 8 % 64 == 0 &&
    (bitSet fl 2 || fieldAt b 32 8 == 0) && allZero (b.drop 80)

/-- The rows of a length table (06 Table 6-7). [Log entry 41, DEDUCED.] -/
def jobRows : List (List Byte) → Nat → Nat → List JobRow
  | [], _, _ => []
  | b :: bs, i, first =>
    { noJobRow with
      idx := i, slotWord := fieldAt b 0 4, qcount := fieldAt b 4 2, flags := fieldAt b 6 2, cached := fieldAt b 8 4
      aux := fieldAt b 12 4, first := first } :: jobRows bs (i + 1) (first + fieldAt b 4 2)


/-- The row fields that every layer kind checks, and those that a KIND 2 layer does not read (06 R110). -/
def rowHeadOk (r : JobRow) : Bool := decide (r.slotWord < 2 ^ 26) && inR r.qcount 1 4096
/-- The row fields that a KIND 2 layer does not read (06 R110). [Log entry 50, DEDUCED.] -/
def rowRestOk (r : JobRow) : Bool :=
  decide (r.flags < 4) && r.flags != 3 && (r.flags != 0 || r.aux == 0)

/-- A token-log entry with no reserved bit set (02 Table 2-6). -/
def tokenOk (n : Nat) : Bool := decide (n < 2 ^ 19)

/-- The token block entry of a row for position `CACHED + i`. -/
def rowToken (d : Dev) (base off : Nat) (r : JobRow) (i : Nat) : Nat := leNat (memReadN d.exch (base + off + 4 * (r.aux + i)) 4)

/-- Checks of a descriptor before its identifiers (06 R113-R116): `err` is the submission field that points to it. -/
def attendHead (d : Dev) (a : Area) (b : List Byte) (err : Nat) : Except Fail (List JobRow) := do
  let n := fieldAt b 4 4
  if !(jobHeadOk b && inArea a (fieldAt b 16 8) (16 * n) && inAreaOut a (fieldAt b 64 8) (4 * n)) then failRange err
  else
    let lt ← areaRead d a (fieldAt b 16 8) (16 * n)
    let rows := jobRows (chunksOf 16 n lt) 0 0
    if !(rows.all rowHeadOk) || sumNat (rows.map (·.qcount)) ≠ fieldAt b 8 4 then failRange err else .ok rows

/-- Checks of a descriptor once its model is known. -/
def attendRest (d : Dev) (a : Area) (b : List Byte) (err : Nat) (rows : List JobRow) (m : Model) : Except Fail Unit := do
  let q := fieldAt b 8 4
  let fp8 := bitSet (fieldAt b 1 1) 2
  let inB := if fp8 then 1 else 2
  let outB := if bitSet (fieldAt b 1 1) 3 then 4 else 2
  match m.layers[fieldAt b 2 2]? with
  | none => failRange err
  | some l =>
    let logs := rows.filter rowLogs
    let tok := fieldAt b 48 8
    if !(inArea a (fieldAt b 24 8) (q * m.hidden * inB) && (!fp8 || inArea a (fieldAt b 32 8) (4 * q)) &&
        inAreaOut a (fieldAt b 40 8) (q * m.hidden * outB)) then failRange err
    else if l.kind ≠ 2 && !(rows.all rowRestOk && (!logs.isEmpty || tok == 0) &&
        logs.all (fun r => tok != 0 && inArea a tok (4 * (r.aux + r.qcount)))) then
      failRange err
    else if exPoisoned d (a.base + fieldAt b 24 8) (q * m.hidden * inB) ||
        (fp8 && exPoisoned d (a.base + fieldAt b 32 8) (4 * q)) ||
        (l.kind ≠ 2 && logs.any (fun r => exPoisoned d (a.base + tok + 4 * r.aux) (4 * r.qcount))) then failSt stDamaged
    else if l.kind ≠ 2 && logs.any (fun r => (List.range r.qcount).any (fun i => !tokenOk (rowToken d a.base tok r i))) then
      failRange err
    else .ok ()

/-- The session that a row names, if its slot is bound to the handle's generation in the context (06 R118, 02 R28). -/
def rowSess (d : Dev) (ctx : Nat) (r : JobRow) : Option Sess :=
  d.kv.cat.find? (fun s => s.state != 0 && s.slot == some (r.slotWord % 2 ^ 18) && s.ctx == ctx && s.gen == r.slotWord / 2 ^ 18)

/-- Whether a job runs in ABSORB mode (06 R123). [Log entry 46, DEDUCED.] -/
def absorbMode (b : List Byte) (l : LayerRec) (rows : List JobRow) : Bool :=
  let pick := if fieldAt b 1 1 % 4 = 0 then l.inflect else fieldAt b 1 1 % 4
  if pick = 0 then rows.all (fun r => decide (r.qcount ≤ l.absorbMax)) else pick == 1

/-- Register an attention job that has passed its checks (06 R117): it waits for its dispatch boundary. -/
def registerJob (d : Dev) (seq prio p : Nat) (launch : Option Launch) (b : List Byte) (rows : List JobRow) (m : Model) : Dev :=
  let ctx := fieldAt b 12 2 % 2048
  let l := (m.layers[fieldAt b 2 2]?).getD (layerOf [])
  let hs := rows.filterMap (fun r => (rowSess d ctx r).map handleOf)
  let mark := fun (r : JobRow) => { r with handle := ((rowSess d ctx r).map handleOf).getD 0 }
  let j : Job := { noJob with
    num := d.arr.nextJob, seq := seq, launch := launch, prio := prio, part := p, ctx := ctx, model := m.id, layer := fieldAt b 2 2, desc := b
    sessions := hs.eraseDups, absorb := l.kind == 0 && absorbMode b l rows, rows := rows.map mark }
  { d with arr.jobs := d.arr.jobs ++ [j], arr.nextJob := (d.arr.nextJob + 1) % 2 ^ 32 }

/-- Put a ring 16 verb's tunnel block where its job's offsets reach it. -/
def placeBlock (d : Dev) (v : Verb) : Dev := if v.ring = 16 then exWrite d (verbBase v) v.block else d

/-- ATTEND (06 R116). -/
def attendBody (v : Verb) (d0 : Dev) : Except Fail Dev := do
  let off := fld v 16 8
  let d := placeBlock d0 v
  let a := verbArea d v
  check4 v false [(24, 40)] [(16, off % 64 == 0 && argIn d0 v off 128), (16, structOk d0 v off 128 (fun b => inRange (attendHead d a b 16)))]
  let b ← areaRead d a off 128
  let rows ← attendHead d a b 16
  let ctx := fieldAt b 12 2 % 2048
  checkCtx d v ctx 16
  checkOwnedIn d v (ctxPart ctx) 6 (fieldAt b 0 1) 16 (findModel d (fieldAt b 0 1)).isSome
  match findModel d (fieldAt b 0 1) with
  | none => failId stStale 16
  | some m =>
    attendRest d a b 16 rows m
    .ok (keepRunning (registerJob d v.seq (verbPrio d v) (ctxPart ctx) none b rows m) v)

/-! ### Candidate trees (06 R124) -/

/-- The tree that a descriptor gives, or the offending node. -/
def treeOf (b : List Byte) (seq : Nat) : Except Nat Tree :=
  let n := fieldAt b 0 1
  let codes := b.map BitVec.toNat
  let open' := Config.offendingNode codes % 64
  if !inR n 1 64 || !allZero ((b.drop 2).take 6) || !allZero ((b.drop 72).take 56) then .error open'
  else
    let par := (List.range 64).map (fun i => fieldAt b (8 + i) 1)
    let tok := (List.range 64).map (fun i => fieldAt b (128 + 4 * i) 4)
    let dep := treeDepths (par.take n)
    let bad := fun i =>
      (if i = 0 then nth par 0 0 != 255 else if i < n then decide (i ≤ nth par i 0) else nth par i 0 != 255) ||
        (decide (i < n) && decide (16 < nth dep i 0)) || !tokenOk (nth tok i 0)
    match (List.range 64).find? bad with
    | some i => .error i
    | none =>
      if dep.foldl Nat.max 0 ≠ fieldAt b 1 1 then .error open'
      else .ok { seq := seq, nodes := n, depth := fieldAt b 1 1, parent := par.take n, token := tok.take n }

/-- The tree that a row would open: node 0 where its descriptor cannot be read (06 Table 6-9). -/
def rowTreeOf (d : Dev) (j : Job) (r : JobRow) : Except Nat Tree :=
  let off := fieldAt j.desc 56 8 + 384 * (r.aux / 65536)
  let size := match j.launch with
    | some l => l.size
    | none => match findVerb d j.seq with
      | some v => argLimit d v
      | none => 0
  if fieldAt j.desc 56 8 = 0 || size < off + 384 || exPoisoned d (jobBase d j + off) 384 then .error 0
  else treeOf (memReadN d.exch (jobBase d j + off) 384) (r.aux % 65536)

/-! ### Row checks (06 R118, Table 6-9) -/

/-- Bytes of a layer's tree inputs for a tree (06 R132). -/
def treeInBytes (l : LayerRec) (nodes : Nat) : Nat := 4 * l.rh * (2 * l.rk + l.rv) * nodes

/-- Charge a layer's part of the draft area at its first tree write (05 R98, 06 R132). -/
def chargeDraft (d : Dev) (s : Sess) (layer : Nat) (l : LayerRec) (nodes : Nat) : Option Dev :=
  let p := ctxPart s.ctx
  let obj := allocKey 1 (handleOf s)
  if l.kind = 1 then allocHome d p s.home (treeInBytes l nodes) obj (draftSub layer 0)
  else (layerKinds l).foldl (fun acc k => acc.bind (fun a => allocHome a p s.home (phraseBytes l k) obj (draftSub layer k))) (some d)

/-- Whether the partition's grant has room for what a row writes (05 R96). -/
def rowFits (d : Dev) (s : Sess) (layer : Nat) (l : LayerRec) (st : LayerSt) (r : JobRow) (nodes : Nat) : Bool :=
  if rowTree r then (chargeDraft d s layer l nodes).isSome
  else
    let d1 := if rowLogs r && decide (s.log.length < r.cached + r.qcount) then
        chargeLog d (ctxPart s.ctx) s.home (allocKey 1 (handleOf s)) (r.cached + r.qcount)
      else some d
    match d1 with
    | none => false
    | some a =>
      if l.kind = 0 then
        (appendRows s layer l (r.qcount / 64 + 2) a st [] r.qcount).isSome
      else true

/-- Whether what a row needs is poisoned in every copy, or marked for rederivation: of its layer, or the token log or session block (18 R416,
Table 18-2, R419). -/
def rowNeedsDamaged (d : Dev) (s : Sess) (layer : Nat) (st : LayerSt) : Bool :=
  s.marks.any (fun k => decide (2 ≤ k.kind) || k.layer == layer) ||
    (st.stem ++ st.direct).any (fun i => match findPhrase d (ctxPart s.ctx) i with | some x => phraseLost d x | none => true) ||
    (match st.recur with | some x => x.poisoned | none => false)

/-- The status of a row and its detail: the first condition of Table 6-9 that holds. [Log entry 41, DEDUCED; entry 50, DEDUCED.] -/
def rowStatus (d : Dev) (j : Job) (r : JobRow) : Nat × Nat :=
  match rowSess d j.ctx r with
  | none =>
    (match findSess d r.handle with
    | some s => if r.handle ≠ 0 && s.state = 4 then (2, s.state) else (1, 0)
    | none => (1, 0))
  | some s =>
    match findModel d j.model with
    | none => (2, s.state)
    | some m =>
      if !liveFor s j.seq || s.model ≠ j.model then (2, s.state)
      else
        match m.layers[j.layer]?, s.layers[j.layer]? with
        | some l, some st =>
          if l.kind = 2 then (0, 0)
          else
            let sq := r.aux % 65536
            let opened := match s.tree with | some t => rowTree r && t.seq == sq | none => false
            let made := if rowTree r && s.tree.isNone then rowTreeOf d j r
              else match s.tree with | some t => .ok t | none => .error 0
            let odd := Config.offendingNode ((natLe r.aux 4).map BitVec.toNat) % 64
            let nodes := match made with | .ok t => t.nodes | .error _ => 0
            let span := match made with | .ok t => if rowTree r then t.depth else r.qcount | .error _ => r.qcount
            let bad : Option Nat :=
              if rowTree r && s.tree.isNone then
                (match made with
                | .error n => some n
                | .ok t => if t.nodes = r.qcount then none else some odd)
              else if opened && nodes ≠ r.qcount then some odd
              else none
            let held := !st.draft.isEmpty || (match st.recur with | some x => !x.treeIn.isEmpty | none => false)
            let len := storedLen st
            match bad with
            | some n => (3, n)
            | none =>
              if s.tree.isSome && !opened then (4, match s.tree with | some t => t.seq | none => 0)
              else if opened && held then (5, sq)
              else if r.cached ≠ len then (6, len)
              else if 16777215 < r.cached + span - 1 ||
                  (!rowTree r && decide (s.log.length < r.cached + (if rowLogs r then 0 else r.qcount))) then
                (7, Nat.min s.log.length 16777215)
              else if !rowFits d s j.layer l st r nodes then (8, 0)
              else if rowNeedsDamaged d s j.layer st then (9, j.layer)
              else (0, 0)
        | _, _ => (2, s.state)

end Sys2Proof.Machine
end

