-- ==== Sys2Proof/Machine/CoreMath.lean ====
section
/-!
DEFINITION. MAC and vector descriptors (07 R145): MM, ACC_READ, ACC_WRITE, QUANT, DEQUANT, VOP, VRED, ROTATE, SMX_PART and
SMX_MERGE. Each computes its result when it issues, under the interlock of R147, and stays outstanding until
UNIT_DESCRIPTOR_COMPLETE.
-/

namespace Sys2Proof.Machine

/-- The 1,024 codes of an accumulator. -/
def accCodes (c : Core) (n : Nat) : List Nat :=
  match c.acc.find? (fun a => a.1 == n % 16) with
  | some a => a.2
  | none => List.replicate 1024 0

/-- Set an accumulator of a core. -/
def setAcc (d : Dev) (n a : Nat) (codes : List Nat) : Dev :=
  updCore d n (fun c => { c with acc := upsert (fun x => x.1 == a % 16) (a % 16, codes) c.acc })

/-- An accumulator number with its ACC_SEL (07 R144): the iteration index of a loop counter is added. -/
def accNum (c : Core) (acc sel : Nat) : Nat := (acc + (if bitSet sel 7 then nth c.idx (sel % 4) 0 else 0)) % 16

/-- Issue a unit's descriptor once its result is in place. -/
def finishUnit (c : Core) (x unit : Nat) (grans accs : List Nat) (d : Dev) : Except Nat Dev := .ok (issueUnit d c x unit grans accs)

/-! ### MM, ACC_READ, ACC_WRITE -/

/-- The accumulation of MM over KBLOCKS blocks: the accumulator and whether INT32 saturated. -/
def mmBlocks (nn : Bool) (fa fb : Nat) (a b : List Byte) : Nat → List Nat → List Nat × Bool
  | 0, acc => (acc, false)
  | k + 1, acc =>
    let (acc1, s1) := if fa = 6 then mmInt nn acc (elemCodes 6 (a.take 1024)) (elemCodes 6 (b.take 1024))
      else (mmBlock nn acc (tileValues fa (a.take (tileBytes fa))) (tileValues fb (b.take (tileBytes fb))), false)
    let (acc2, s2) := mmBlocks nn fa fb (a.drop (tileBytes fa)) (b.drop (tileBytes fb)) k acc1
    (acc2, s1 || s2)

/-- MM (07 R145). [Log entry 48, DEDUCED.] -/
def mmDesc (c : Core) (x : Nat) (d : Dev) : Except Nat Dev := do
  let fa := df x 25 1
  let fb := df x 26 1
  let k := df x 28 2
  let n := accNum c (df x 24 1) (df x 30 1)
  let ga := granulesOf d c x 8 (k * tileBytes fa) false
  let gb := granulesOf d c x 16 (k * tileBytes fb) false
  if !mayIssue c 0 (ga ++ gb) [n] then .ok d
  else
    let (a, d1) ← readAt d c x 8 (k * tileBytes fa)
    let (b, d2) ← readAt d1 c x 16 (k * tileBytes fb)
    let acc0 := if bitSet (df x 27 1) 0 then List.replicate 1024 0 else accCodes c n
    let (acc, sat) := mmBlocks (bitSet (df x 27 1) 1) fa fb a b k acc0
    let d3 := setAcc d2 c.num n acc
    let d4 := if sat then updCore d3 c.num (fun y => setFlag y 63) else d3
    finishUnit c x 0 [] [n] d4

/-- One accumulator element in a store format, multiplied by MUL (07 R145, ACC_READ). -/
def accOut (fmt mul code : Nat) : Nat :=
  match fmt with
  | 9 => code
  | 3 => fvEncode fmtBf16 (fvMul (f32 code) (f32 mul))
  | _ => f32Mul code mul

def accReadDesc (c : Core) (x : Nat) (d : Dev) : Except Nat Dev := do
  let fmt := df x 17 1
  let n := df x 16 1
  let g := granulesOf d c x 8 (tileBytes fmt) true
  if !mayIssue c 0 g [n] then .ok d
  else
    let d1 ← writeAt d c x 8 (codesBytes fmt ((accCodes c n).map (accOut fmt (df x 20 4))))
    let zero := bitSet (df x 18 1) 0
    finishUnit c x 0 g (if zero then [n] else []) (if zero then setAcc d1 c.num n (List.replicate 1024 0) else d1)

def accWriteDesc (c : Core) (x : Nat) (d : Dev) : Except Nat Dev := do
  let n := df x 16 1
  let g := granulesOf d c x 8 4096 false
  if !mayIssue c 0 g [n] then .ok d
  else
    let (bs, d1) ← readAt d c x 8 4096
    finishUnit c x 0 [] [n] (setAcc d1 c.num n (elemCodes 7 bs))

/-! ### QUANT, DEQUANT -/

/-- The values of source tile `t`: from an accumulator or from the bytes read. -/
def srcTile (c : Core) (fromAcc : Bool) (acc fmt t : Nat) (bs : List Byte) : List Fv :=
  if fromAcc then (accCodes c (acc + t)).map (elemValue (if fmt = 9 then 9 else 7))
  else tileValues fmt ((bs.drop (t * tileBytes fmt)).take (tileBytes fmt))

/-- Convert tiles: bytes in the output format and the elements clamped. MUL applies to a non-MX output. -/
def convertTiles (fo mul : Nat) (tiles : List (List Fv)) : List Byte × Nat :=
  tiles.foldl (fun acc vs =>
    let ws := if isMx fo then vs else vs.map (fun v => fvMul v (f32 mul))
    let (bs, n) := tileEncode fo ws
    (acc.1 ++ bs, acc.2 + n)) ([], 0)

def quantDesc (c : Core) (x : Nat) (d : Dev) : Except Nat Dev := do
  let fi := df x 24 1
  let fo := df x 25 1
  let t := df x 40 2
  let fromAcc := bitSet (df x 26 1) 0
  let a := df x 8 1 % 16
  let gs := if fromAcc then [] else granulesOf d c x 8 (t * tileBytes fi) false
  let gd := granulesOf d c x 16 (t * tileBytes fo) true
  let gw := if orefName x 32 = noName then [] else granulesOf d c x 32 4 true
  let accs := if fromAcc then (List.range t).map (fun i => (a + i) % 16) else []
  if !mayIssue c 1 (gs ++ gd ++ gw) accs then .ok d
  else
    let (bs, d1) ← if fromAcc then .ok ([], d) else readAt d c x 8 (t * tileBytes fi)
    let (out, n) := convertTiles fo (df x 28 4) ((List.range t).map (fun i => srcTile c fromAcc a fi i bs))
    let d2 ← writeAt d1 c x 16 out
    let d3 ← if orefName x 32 = noName then .ok d2
      else do
        let (sb, d') ← readAt d2 c x 32 4
        writeAt d' c x 32 (natLe ((leNat sb + n) % 2 ^ 32) 4)
    finishUnit c x 1 (gd ++ gw) [] d3

def dequantDesc (c : Core) (x : Nat) (d : Dev) : Except Nat Dev := do
  let fi := df x 24 1
  let fo := df x 25 1
  let t := df x 40 2
  let gs := granulesOf d c x 8 (t * tileBytes fi) false
  let gd := granulesOf d c x 16 (t * tileBytes fo) true
  if !mayIssue c 1 (gs ++ gd) [] then .ok d
  else
    let (bs, d1) ← readAt d c x 8 (t * tileBytes fi)
    let (out, _) := convertTiles fo (df x 28 4) ((List.range t).map (fun i => srcTile c false 0 fi i bs))
    let d2 ← writeAt d1 c x 16 out
    finishUnit c x 1 gd [] d2

/-! ### VOP -/

/-- A VOP result of operations 1 to 8 and 20 as a value, before its one rounding. -/
def vopValue (op : Nat) (a b c : Fv) : Fv :=
  match op with
  | 1 => fvAdd a b
  | 2 => fvAdd a (fvNeg b)
  | 3 => fvMul a b
  | 4 => fvAdd (fvMul a b) c
  | 5 => fvMax a b
  | 6 => fvMin a b
  | 7 => fvAbs a
  | 8 => fvNeg a
  | _ => if fvLt b a then .fin false 1 0 else .fin false 0 0

/-- A VOP result as a code of the format: COPY and SELECT keep the encoding, operations 9 to 19 are table functions. -/
def vopCode (fmt op a b c : Nat) : Nat :=
  let f := tileFmt fmt
  match op with
  | 0 => a
  | 21 => if fvIsZero (fvDecode f c) then b else a
  | 9 | 10 | 11 | 12 | 13 | 14 | 15 | 16 | 17 | 18 | 19 => vectorFn f op a
  | _ => fvEncode f (vopValue op (fvDecode f a) (fvDecode f b) (fvDecode f c))

/-- Codes that an operand of VOP holds under a broadcast code: whole tiles, a scalar, a value per row, a value per column. -/
def bcastCount (bc tiles : Nat) : Nat :=
  match bc with
  | 0 => 1024 * tiles
  | 1 => 1
  | 2 => 32
  | 3 => 32 * tiles
  | _ => 0

/-- The code that element `i` of the tiles takes from a broadcast operand. -/
def bcastAt (bc imm : Nat) (codes : List Nat) (i : Nat) : Nat :=
  match bc with
  | 0 => nth codes i 0
  | 1 => nth codes 0 0
  | 2 => nth codes (i / 32 % 32) 0
  | 3 => nth codes (i / 1024 * 32 + i % 32) 0
  | _ => imm

/-- IMM, an FP32 number, in the format of the operation. -/
def immCode (fmt imm : Nat) : Nat := if fmt = 7 then imm else fvEncode (tileFmt fmt) (f32 imm)

/-- The codes of an accumulator in the format of the operation, and back. -/
def accIn (fmt code : Nat) : Nat := if fmt = 7 then code else fvEncode (tileFmt fmt) (f32 code)
def accBack (fmt code : Nat) : Nat := if fmt = 7 then code else enc32 (fvDecode (tileFmt fmt) code)

/-- Read a broadcast operand where the operation uses it. -/
def readBcast (uses : Bool) (bc tiles fmt off : Nat) (c : Core) (x : Nat) (d : Dev) : Except Nat (List Nat × Dev) :=
  if !uses || bc = 4 then .ok ([], d)
  else
    match readAt d c x off (bcastCount bc tiles * tileBits fmt / 8) with
    | .ok (bs, d1) => .ok (elemCodes fmt bs, d1)
    | .error e => .error e

def vopDesc (c : Core) (x : Nat) (d : Dev) : Except Nat Dev := do
  let fmt := df x 41 1
  let op := df x 40 1
  let t := df x 44 2
  let bb := df x 42 1
  let bc := df x 43 1
  let accA := bitSet (df x 46 1) 0
  let accD := bitSet (df x 46 1) 1
  let es := tileBits fmt / 8
  let aNum := df x 16 1 % 16
  let dNum := df x 8 1 % 16
  let ga := if accA then [] else granulesOf d c x 16 (t * tileBytes fmt) false
  let gb := if vopUsesB op && bb ≠ 4 then granulesOf d c x 24 (bcastCount bb t * es) false else []
  let gc := if vopUsesC op && bc ≠ 4 then granulesOf d c x 32 (bcastCount bc t * es) false else []
  let gd := if accD then [] else granulesOf d c x 8 (t * tileBytes fmt) true
  let span := fun (n : Nat) => (List.range t).map (fun i => (n + i) % 16)
  let ad := if accD then span dNum else []
  if !mayIssue c 1 (ga ++ gb ++ gc ++ gd) ((if accA then span aNum else []) ++ ad) then .ok d
  else
    let (av, d1) ← if accA then .ok ((List.range t).flatMap (fun i => (accCodes c (aNum + i)).map (accIn fmt)), d)
      else (match readAt d c x 16 (t * tileBytes fmt) with
        | .ok (bs, d') => .ok (elemCodes fmt bs, d')
        | .error e => .error e)
    let (bv, d2) ← readBcast (vopUsesB op) bb t fmt 24 c x d1
    let (cv, d3) ← readBcast (vopUsesC op) bc t fmt 32 c x d2
    let imm := immCode fmt (df x 48 4)
    let out := ((List.range (1024 * t)).zip av).map (fun e => vopCode fmt op e.2 (bcastAt bb imm bv e.1) (bcastAt bc imm cv e.1))
    if accD then
      let d4 := (List.range t).foldl (fun a i =>
        setAcc a c.num (dNum + i) (((out.drop (1024 * i)).take 1024).map (accBack fmt))) d3
      finishUnit c x 1 [] ad d4
    else
      let d4 ← writeAt d3 c x 8 (codesBytes fmt out)
      finishUnit c x 1 gd [] d4

/-! ### VRED -/

/-- One reduction of FP32 codes. -/
def vredOne (op : Nat) (l : List Nat) : Nat :=
  match op with
  | 0 => vredSum l
  | 1 => enc32 (l.foldl (fun m y => fvMax m (f32 y)) (f32 (l.headD 0)))
  | 2 => vredSum (l.map (fun y => f32Mul y y))
  | _ => enc32 (l.foldl (fun m y => fvMax m (fvAbs (f32 y))) (fvAbs (f32 (l.headD 0))))

def vredDesc (c : Core) (x : Nat) (d : Dev) : Except Nat Dev := do
  let fmt := df x 28 1
  let t := df x 26 2
  let fromAcc := bitSet (df x 29 1) 0
  let a := df x 16 1 % 16
  let gs := if fromAcc then [] else granulesOf d c x 16 (t * tileBytes fmt) false
  let gd := granulesOf d c x 8 128 true
  let accs := if fromAcc then (List.range t).map (fun i => (a + i) % 16) else []
  if !mayIssue c 1 (gs ++ gd) accs then .ok d
  else
    let (bs, d1) ← if fromAcc then .ok ([], d) else readAt d c x 16 (t * tileBytes fmt)
    let vals := (List.range t).map (fun i => (srcTile c fromAcc a fmt i bs).map enc32)
    let line := fun (i : Nat) => vals.flatMap (fun v =>
      (List.range 32).map (fun k => if df x 25 1 = 0 then at2 v i k 0 else at2 v k i 0))
    let out := (List.range 32).flatMap (fun i => natLe (vredOne (df x 24 1) (line i)) 4)
    let d2 ← writeAt d1 c x 8 out
    finishUnit c x 1 gd [] d2

/-! ### ROTATE (06 R121) -/

/-- Element `e` of row `r` of rows held in consecutive tiles. -/
def tileElem (codes : List Nat) (r e : Nat) : Nat := nth codes (1024 * (e / 32) + 32 * r + e % 32) 0

/-- The rotated value of element `e` of row `r`. -/
def rotated (mode n : Nat) (codes freq pos : List Nat) (r e : Nat) : Nat :=
  if n ≤ e then tileElem codes r e
  else
    let i := if mode = 1 then e % (n / 2) else e / 2
    let lo := if mode = 1 then i else 2 * i
    let hi := if mode = 1 then i + n / 2 else 2 * i + 1
    let p := rotatePair (tileElem codes r lo) (tileElem codes r hi) (nth pos r 0) (nth freq i 0)
    if e = lo then p.1 else p.2

def rotateDesc (c : Core) (x : Nat) (d : Dev) : Except Nat Dev := do
  let n := df x 42 2
  let t := ceilDiv n 32
  let gs := granulesOf d c x 16 (4096 * t) false ++ granulesOf d c x 24 (2 * n) false ++ granulesOf d c x 32 128 false
  let gd := granulesOf d c x 8 (4096 * t) true
  if !mayIssue c 1 (gs ++ gd) [] then .ok d
  else
    let (sb, d1) ← readAt d c x 16 (4096 * t)
    let (fb, d2) ← readAt d1 c x 24 (2 * n)
    let (pb, d3) ← readAt d2 c x 32 128
    let codes := elemCodes 7 sb
    let freq := elemCodes 7 fb
    let pos := elemCodes 7 pb
    let out := (List.range (1024 * t)).map (fun k =>
      rotated (df x 40 1) n codes freq pos (k / 32 % 32) (32 * (k / 1024) + k % 32))
    let d4 ← writeAt d3 c x 8 (codesBytes 7 out)
    finishUnit c x 1 gd [] d4

/-! ### SMX_PART and SMX_MERGE (07 R145, 06 R127, R128) -/

/-- Whether `a` is node `n` or an ancestor of it; `fuel` bounds the path. -/
def treeAncestor (parent : List Nat) : Nat → Nat → Nat → Bool
  | 0, a, n => a == n
  | k + 1, a, n => a == n || (n != 0 && treeAncestor parent k a (nth parent n 0))

/-- Whether column `j` shows to row `i` (07 R145). -/
def smxVisible (x : Nat) (tree : Option Tree) (i j : Nat) : Bool :=
  let q := df x 44 4 + (if df x 52 1 = 1 then i else 0)
  let k := df x 40 4 + j
  decide (j < df x 38 2) && (match df x 35 1 with
    | 1 => decide (k ≤ q)
    | 2 => (match tree with
      | some t => decide (k < t.nodes) && decide (q < t.nodes) && treeAncestor t.parent 64 k q
      | none => false)
    | _ => true)

/-- The tree that a core's row uses. -/
def coreTree (d : Dev) (c : Core) : Option Tree :=
  match findJob d c.job with
  | some j => (jobRow j c.row).bind (·.tree)
  | none => none

/-- One row of SMX_PART: new m, new s, correction c, and the row of P before its shift. -/
def smxRow (x : Nat) (tree : Option Tree) (i m s : Nat) (score : List Nat) : Nat × Nat × Nat × List Nat :=
  let xs := (List.range 32).map (fun j =>
    if smxVisible x tree i j then f32Mul (df x 48 4) (nth score j 0) else f32NegInf)
  if !(List.range 32).any (smxVisible x tree i) then (m, s, f32One, List.replicate 32 0)
  else
    let m' := xs.foldl f32Max m
    let cr := f32Exp (f32Sub m m')
    let ps := xs.map (fun y => if y = f32NegInf then 0 else f32Exp (f32Sub y m'))
    (m', f32Add (f32Mul s cr) (vredSum ps), cr, ps)

def smxPartDesc (c : Core) (x : Nat) (d : Dev) : Except Nat Dev := do
  let pf := df x 36 1
  let sc := df x 32 1 % 16
  let o0 := df x 33 1
  let accs := (List.range (df x 34 1)).map (fun i => (o0 + i) % 16)
  let gp := granulesOf d c x 8 (tileBytes pf) true
  let gm := granulesOf d c x 16 128 true ++ granulesOf d c x 24 128 true
  if !mayIssue c 1 (gp ++ gm) (sc :: accs) then .ok d
  else
    let (mb, d1) ← readAt d c x 16 128
    let (sb, d2) ← readAt d1 c x 24 128
    let tree := coreTree d c
    let score := accCodes c sc
    let rows := (List.range 32).map (fun i =>
      smxRow x tree i (fieldAt mb (4 * i) 4) (fieldAt sb (4 * i) 4) ((score.drop (32 * i)).take 32))
    let d3 ← writeAt d2 c x 16 (rows.flatMap (fun r => natLe r.1 4))
    let d4 ← writeAt d3 c x 24 (rows.flatMap (fun r => natLe r.2.1 4))
    let ps := rows.flatMap (fun r => r.2.2.2.map (fun y => fvScale (f32 y) (df x 37 1)))
    let d5 ← writeAt d4 c x 8 (tileEncode pf ps).1
    let d6 := accs.foldl (fun a n =>
      setAcc a c.num n (((List.range 1024).zip (accCodes c n)).map (fun e => f32Mul e.2 (nth (rows.map (·.2.2.1)) (e.1 / 32) f32One)))) d5
    finishUnit c x 1 (gp ++ gm) accs d6

/-- Entry `i` of an area of triples. -/
def tripleAt (bs : List Byte) (vd i : Nat) : Triple :=
  let b := bs.drop (i * (8 + 4 * vd))
  { m := fieldAt b 0 4, s := fieldAt b 4 4, o := (List.range vd).map (fun k => fieldAt b (8 + 4 * k) 4) }

/-- The bytes of a triple. -/
def tripleBytes (t : Triple) : List Byte := natLe t.m 4 ++ natLe t.s 4 ++ t.o.flatMap (fun y => natLe y 4)

def smxMergeDesc (c : Core) (x : Nat) (d : Dev) : Except Nat Dev := do
  let n := df x 24 2
  let vd := df x 26 2
  let len := n * (8 + 4 * vd)
  let gd := granulesOf d c x 8 len true
  if !mayIssue c 1 (gd ++ granulesOf d c x 16 len false) [] then .ok d
  else
    let (ab, d1) ← readAt d c x 8 len
    let (sb, d2) ← readAt d1 c x 16 len
    let out := (List.range n).flatMap (fun i => tripleBytes (mergeTriple (tripleAt ab vd i) (tripleAt sb vd i)))
    let d3 ← writeAt d2 c x 8 out
    finishUnit c x 1 gd [] d3

end Sys2Proof.Machine
end

