-- ==== Sys2Proof/Machine/Nand.lean ====
section
/-!
DEFINITION. Flash media management (13 R284-R311): the flash verbs, NAND operations as they complete, map checkpoints, mount,
garbage collection and retirement.
-/

namespace Sys2Proof.Machine

/-! ### Population, spares and retirement (13 R286, R304-R306) -/

/-- Blocks populated. -/
def blocksTotal (f : Flash) : Nat := 32 * f.lunsPerCh * f.blocksPerLun

/-- Blocks out of service. -/
def blocksDead (f : Flash) : Nat :=
  f.deadLuns.length * f.blocksPerLun + (f.deadBlocks.filter (fun b => !f.deadLuns.contains (b.1, b.2.1))).length

def blocksGood (f : Flash) : Nat := blocksTotal f - blocksDead f

/-- Granules of a format (13 R286). -/
def formatGranules (f : Flash) (sparePct : Nat) : Nat :=
  blocksGood f * f.pagesPerBlock * 16384 * (100 - sparePct) / 100 / 2 ^ 36

/-- Blocks of the reserve. -/
def reserveBlocks (f : Flash) : Nat := blocksGood f - ceilDiv (f.granules * slotPages) (Nat.max 1 f.pagesPerBlock)

/-- SPARE_LEFT: percent of the reserve's spare blocks that remain (13 R306). [Log entry 61, DESIGN CHOICE.] -/
def spareLeft (f : Flash) : Nat := if f.spareTotal = 0 then 0 else (f.spareTotal - f.spareUsed) * 100 / f.spareTotal

/-- Blocks in service that no block group holds. [Log entry 61, DESIGN CHOICE.] -/
def blocksFree (f : Flash) : Nat := sumNat ((List.range (flashSets f)).map (setFree f))

/-- EV_FLASH_SPARE_LOW once, and READ_ONLY when the free blocks cannot hold the assigned granules (13 R306). -/
def settleSpares (d : Dev) : Dev :=
  let d1 := if !d.flash.spareLowRaised && decide (0 < d.flash.spareTotal) && decide (spareLeft d.flash ≤ 10) then
      raiseDev { d with flash.spareLowRaised := true } 0x0812 [(1, spareLeft d.flash)]
    else d
  if d1.flash.state = 1 && blocksGood d1.flash * d1.flash.pagesPerBlock < d1.flash.assigned.length * slotPages then
    raiseDev { d1 with flash.state := 2 } 0x0813 [(1, spareLeft d1.flash), (4, blocksFree d1.flash)]
  else d1

/-- Write a live page again elsewhere (13 R296, R297, R302): its granule page, version and data stay. `fresh`: from the write buffer after
its own program failed; `reloc`: garbage collection relocates it. -/
def rewritePage (fresh reloc : Bool) (d : Dev) (seq : Nat) : Dev :=
  match d.flash.pages.find? (fun x => x.seq == seq && x.gone == 0 && !x.lost) with
  | some x => flashPut d { x with fresh := fresh && x.fresh, reloc := reloc, hot := false, want := x.want || x.durable, durable := false }
  | none => d

/-- The channel and LUN of a page that has been placed. -/
def pageLun (f : Flash) (x : FPage) : Option (Nat × Nat) :=
  if x.st = 3 then none else (f.groups.find? (fun g => g.id == x.bg)).map (fun g => laneOf g.set x.lane)

/-- Data pages of a block. -/
def blockPages (d : Dev) (ch lun block : Nat) : List FPage :=
  d.flash.pages.filter (fun x => x.st != 3 && (match d.flash.groups.find? (fun g => g.id == x.bg) with
    | some g => laneOf g.set x.lane == (ch, lun) && groupBlock g x.lane == some block
    | none => false))

/-- Program a page of the metadata area (13 R298, R301). It takes a write sequence (13 Table 13-4). -/
def issueMeta (d : Dev) (kind : Nat) (gs : List Nat) : Dev :=
  issueNand { d with flash.writeSeq := d.flash.writeSeq + 1 } (metaLun d.flash).1 (metaLun d.flash).2 (metaBlock d.flash) (.map kind gs)

/-! ### Relocation and erasure of block groups (13 R296, R302, R309) -/

/-- Valid pages of a block group. -/
def validPages (d : Dev) (bg : Nat) : List FPage :=
  d.flash.pages.filter (fun x => x.bg == bg && x.st != 3 && x.gone == 0 && !x.lost)

/-- Relocate the valid pages of a block group out of it; its blocks are erased after them (13 R302). Whatever replaces its pages is asked to
be durable first: a page reported durable outlives its block. With `level`, the pages move into a block group of the same set on
blocks of high erase count (13 R303). -/
def collectGroup (level : Bool) (d : Dev) (g : BlkGroup) : Dev :=
  let gs := (d.flash.pages.filter (fun x => x.bg == g.id && x.st != 3)).map (·.gpage)
  let d1 := { d with
    flash.groups := updWhere (fun (b : BlkGroup) => b.id == g.id) (fun b => { b with st := 4 }) d.flash.groups
    flash.relocate := d.flash.relocate.filter (· != g.id) }
  let move := fun (a : Dev) (x : FPage) =>
    match a.flash.pages.find? (fun y => y.seq == x.seq && y.gone == 0) with
    | some y => flashPut a { y with fresh := false, reloc := true, hot := level, set := g.set, durable := false }
    | none => a
  wantPages ((validPages d1 g.id).foldl move d1) gs

/-- Whether pages have been replaced by durable ones, discarded or lost. -/
def secured (d : Dev) (xs : List FPage) : Bool :=
  xs.all (fun x => x.lost || (x.gone != 0 &&
    (match d.flash.pages.find? (fun y => y.gpage == x.gpage && y.kind == x.kind && y.gone == 0) with
     | some y => y.durable || y.lost
     | none => true)))

/-- Whether a NAND operation programs into a block group. -/
def programming (d : Dev) (bg : Nat) : Bool :=
  d.flash.ops.any (fun o => match o.what with
    | .data q => d.flash.pages.any (fun x => x.seq == q && x.bg == bg)
    | .parity b _ _ _ => b == bg
    | _ => false)

/-- Remove a block group whose blocks have all been erased. What says that an LPN is lost stays in the map (13 R289). -/
def dropGroup (d : Dev) (bg : Nat) : Dev :=
  { d with
    flash.groups := dropWhere (fun (g : BlkGroup) => g.id == bg) d.flash.groups
    flash.pages := dropWhere (fun (x : FPage) => x.bg == bg && x.st != 3 && !(x.lost && x.gone == 0)) d.flash.pages
    flash.parities := dropWhere (fun (q : Parity) => q.bg == bg) d.flash.parities }

/-- A lane of a block group holds no block of it any more. -/
def clearLane (d : Dev) (bg lane : Nat) : Dev :=
  let clear := fun (g : BlkGroup) => { g with blocks := g.blocks.set lane none }
  let d1 := { d with flash.groups := updWhere (fun (g : BlkGroup) => g.id == bg) clear d.flash.groups }
  if d1.flash.groups.any (fun g => g.id == bg && g.st == 5 && g.blocks.all (·.isNone)) then dropGroup d1 bg else d1

/-- Erase a lane's block of a block group; a retired one only leaves it (13 R304). -/
def eraseLane (g : BlkGroup) (d : Dev) (lane : Nat) : Dev :=
  match groupBlock g lane with
  | none => d
  | some b =>
    if d.flash.deadBlocks.contains ((laneOf g.set lane).1, (laneOf g.set lane).2, b) || d.flash.deadLuns.contains (laneOf g.set lane) then
      clearLane d g.id lane
    else issueLane d g lane (.erase g.id lane)

/-- Erase the block groups whose pages have all been replaced. -/
def settleErases (d : Dev) : Dev :=
  d.flash.groups.foldl (fun a g =>
    if g.st = 4 && !programming a g.id && secured a (a.flash.pages.filter (fun x => x.bg == g.id && x.st != 3 && x.kind == 1)) then
      let st5 := fun (b : BlkGroup) => { b with st := 5 }
      let a1 := { a with flash.groups := updWhere (fun (b : BlkGroup) => b.id == g.id) st5 a.flash.groups }
      if g.blocks.all (·.isNone) then dropGroup a1 g.id else (List.range 16).foldl (eraseLane g) a1
    else a) d

/-! ### Retirement (13 R304, R305, R307) -/

/-- Where a read that ended delivers: poisoned data makes its page's codeword lost to the reader that waits for it (`why`). [Log entry 66, DEDUCED.] -/
def deliverRead (d : Dev) (id : Nat) (lost zero : Bool) : Dev :=
  { d with searches := d.searches.map (fun s => { s with queries := s.queries.map (fun q => { q with
      reading := q.reading.map (fun r =>
        if r.ops.contains id then { r with ops := r.ops.filter (· != id), lost := r.lost || lost, zero := r.zero || zero } else r) }) }) }

/-- Read a block group back (13 R296). The reads of its pages are one operation. [Log entry 61, DESIGN CHOICE.] -/
def issueVerify (d : Dev) (g : BlkGroup) : Dev := issueLane d g (((dataLanes g).head?).getD 0) (.verify g.id)

/-- What becomes of an operation on a LUN that has left service. -/
def redoNand (d : Dev) (o : NandOp) : Dev :=
  match o.what with
  | .read g _ _ _ => deliverRead d o.id (match livePage d g with | some x => pageFails x | none => false) false
  | .verify bg => (match d.flash.groups.find? (fun g => g.id == bg && g.st == 2) with | some g => issueVerify d g | none => d)
  | .erase bg lane => clearLane d bg lane
  | .map kind gs => issueMeta d kind gs
  | .data _ => d
  | .parity _ _ _ _ => d

/-- Retire a LUN (13 R305, R307): cause 1 retired blocks, 2 timeout. The pages of its open block groups are written elsewhere; those of its
closed ones become lost. A block group whose parity LUN it was is emptied, having no parity left. [Log entry 61, DESIGN CHOICE.] -/
def retireLun (d : Dev) (ch lun cause : Nat) : Dev :=
  if d.flash.deadLuns.contains (ch, lun) then d
  else
    let f := d.flash
    let here := fun (o : NandOp) => o.channel == ch && o.lun == lun
    let on := fun (x : FPage) => pageLun f x == some (ch, lun)
    let held := fun (g : BlkGroup) => g.st < 3 || g.st == 6
    let mine := f.pages.filter (fun x => on x && x.gone == 0 && x.kind == 1 && !x.lost)
    let closed := fun (x : FPage) => x.st == 1 && !f.groups.any (fun g => g.id == x.bg && held g)
    let lost := mine.filter closed
    let lane := fun (g : BlkGroup) => ((List.range 16).find? (fun k => laneOf g.set k == (ch, lun))).filter (fun k => (groupBlock g k).isSome)
    let stop := fun (g : BlkGroup) => match lane g with
      | some k => { g with blocks := g.blocks.set k none, st := if g.st = 0 then 1 else g.st, early := g.early || held g }
      | none => g
    let bare := f.groups.filter (fun g => lane g == some g.parityLane && held g)
    let strip := fun (q : Parity) => bare.any (fun g => g.id == q.bg)
    let page := fun (x : FPage) =>
      if lost.any (fun y => y.seq == x.seq) then { x with lost := true }
      else if on x && x.st = 0 then { x with st := 2 } else x
    let inService := (f.deadBlocks.filter (fun b => b.1 == ch && b.2.1 == lun)).length
    let d1 := { d with flash := { f with
      deadLuns := f.deadLuns ++ [(ch, lun)]
      spareUsed := f.spareUsed + (f.blocksPerLun - inService)
      ops := f.ops.filter (fun o => !here o)
      pages := f.pages.map page
      parities := dropWhere strip f.parities
      groups := f.groups.map stop
      health := { f.health with lunsRetired := (f.health.lunsRetired + 1) % 65536, lpnsLost := satAdd f.health.lpnsLost lost.length } } }
    let d2 := raiseDev d1 0x0811 [(1, ch), (1, lun), (1, cause), (8, lost.length)]
    let d3 := (mine.filter (fun x => !closed x)).foldl (fun a x => rewritePage (x.st == 0) false a x.seq) d2
    let d4 := bare.foldl (fun a g => match a.flash.groups.find? (fun b => b.id == g.id) with | some b => collectGroup false a b | none => a) d3
    let d5 := (f.ops.filter here).foldl redoNand d4
    let gone := (List.range d5.flash.lunsPerCh).all (fun l => d5.flash.deadLuns.contains (ch, l))
    settleSpares (if gone then { d5 with arr.fcOut := (d5.arr.fcOut ++ [2 * ch, 2 * ch + 1]).eraseDups } else d5)

/-- Retire a block: cause 1 program, 2 erase, 3 verification (13 R304); 10 % of its LUN's blocks retire the LUN. -/
def retireBlock (d : Dev) (ch lun block cause : Nat) : Dev :=
  if d.flash.deadBlocks.contains (ch, lun, block) then d
  else
    let f := d.flash
    let d1 := raiseDev { d with flash := { f with
      deadBlocks := f.deadBlocks ++ [(ch, lun, block)]
      spareUsed := f.spareUsed + 1
      health := { f.health with blocksRetired := (f.health.blocksRetired + 1) % 2 ^ 32 } } } 0x0810 [(1, ch), (1, lun), (4, block), (1, cause)]
    let n := (d1.flash.deadBlocks.filter (fun b => b.1 == ch && b.2.1 == lun)).length
    if f.blocksPerLun ≤ 10 * n then retireLun d1 ch lun 1 else settleSpares d1

/-! ### Programs, parity and verification (13 R294-R297) -/

/-- Pages that a programmed parity page covers are durable from then on (13 R295). -/
def settleDurable (d : Dev) : Dev :=
  let cov := fun (x : FPage) => x.st == 1 && laneCovered d x.bg x.stripe x.lane false
  { d with flash.pages := updWhere cov (fun x => { x with durable := true }) d.flash.pages }

/-- A block group whose last page has been programmed, with full parity on each stripe, is read back (13 R296). -/
def settleGroups (d : Dev) : Dev :=
  d.flash.groups.foldl (fun a g =>
    let mine := a.flash.pages.filter (fun x => x.bg == g.id && x.st != 3)
    let covered := mine.all (fun x => x.st != 0) &&
      mine.all (fun x => x.st != 1 || a.flash.parities.any (fun q => q.bg == g.id && q.stripe == x.stripe && q.full && q.st == 1))
    if g.st = 1 && covered then
      issueVerify { a with flash.groups := updWhere (fun (b : BlkGroup) => b.id == g.id) (fun b => { b with st := 2 }) a.flash.groups } g
    else a) d

/-- A block group is verified (13 R296): the blocks that failed are retired, its parity blocks erased. -/
def endVerify (d : Dev) (g : BlkGroup) : Dev :=
  let retire := fun (a : Dev) (k : Nat) => match groupBlock g k with
    | some b => retireBlock (clearLane a g.id k) (laneOf g.set k).1 (laneOf g.set k).2 b 3
    | none => a
  let ver := fun (b : BlkGroup) => { b with st := 3, failing := [] }
  let d1 := g.failing.foldl retire { d with
    flash.groups := updWhere (fun (b : BlkGroup) => b.id == g.id) ver d.flash.groups
    flash.parities := dropWhere (fun (q : Parity) => q.bg == g.id) d.flash.parities }
  eraseLane g d1 g.parityLane

/-- Block groups with failing blocks are verified once every page of those blocks has been replaced by a durable one. -/
def settleFailing (d : Dev) : Dev :=
  d.flash.groups.foldl (fun a g =>
    if g.st = 6 && secured a (a.flash.pages.filter (fun x => x.bg == g.id && x.st != 3 && x.kind == 1 && g.failing.contains x.lane)) then
      endVerify a g
    else a) d

/-- A verification read-back has ended: `bad` are the pages with a codeword that did not decode hard, or with more corrected bits than the
profile's verify threshold (13 R296). They are written again, and what else is valid in their blocks is relocated. -/
def endReadBack (d : Dev) (g : BlkGroup) (bad : List Nat) : Dev :=
  let failing := ((d.flash.pages.filter (fun x => x.bg == g.id && x.st == 1 && bad.contains x.seq)).map (·.lane)).eraseDups
  if failing.isEmpty then endVerify d g
  else
    let mine := d.flash.pages.filter (fun x => x.bg == g.id && x.st == 1 && x.kind == 1 && failing.contains x.lane)
    let d1 := { d with flash.groups := updWhere (fun (b : BlkGroup) => b.id == g.id) (fun b => { b with st := 6, failing := failing }) d.flash.groups }
    let d2 := (mine.filter (fun x => x.gone == 0)).foldl (fun a x => rewritePage false (!bad.contains x.seq) a x.seq) d1
    wantPages d2 (mine.map (·.gpage))

/-! ### Map checkpoints and discard records (13 R298, R301) -/

/-- A discard record once 16 KiB of entries have gathered (13 R301). [Log entry 63, DESIGN CHOICE.] -/
def settleDiscards (d : Dev) : Dev :=
  let n := Nat.max 1 Config.discardEntries
  if d.flash.discards.isEmpty || d.flash.discards.length < n then d
  else issueMeta { d with flash.discards := d.flash.discards.drop n } 5 (d.flash.discards.take n)

/-- A discard record has been programmed: a mount keeps its discards. [Log entry 63, DESIGN CHOICE.] -/
def recordDiscards (d : Dev) (gs : List Nat) : Dev :=
  if gs.isEmpty then d
  else { d with
    flash.pages := updWhere (fun x => gs.contains x.gpage && x.gone == 2) (fun x => { x with gone := 3 }) d.flash.pages
    flash.discRecs := d.flash.discRecs ++ [(d.flash.writeSeq, gs)]
    flash.writeSeq := d.flash.writeSeq + 1 }

/-- The map that a checkpoint writes: for each mapped granule page its newest programmed page. A page still in the write buffer has none
yet; replay finds it in its block group. -/
def mapNow (ps : List FPage) : List (Nat × Nat) :=
  let held := fun (x : FPage) => x.kind == 1 && x.st == 1 &&
    (x.gone == 0 || (x.gone == 1 && ps.any (fun y => y.gpage == x.gpage && y.kind == 1 && y.gone == 0 && y.st != 1)))
  let cand := ps.filter held
  (cand.filter (fun x => !cand.any (fun y => y.gpage == x.gpage && decide (x.seq < y.seq)))).map (fun x => (x.gpage, x.seq))

/-- A checkpoint of the flash as it stands. -/
def ckptNow (f : Flash) : MapCkpt :=
  { seq := f.writeSeq, map := mapNow f.pages, opened := (f.groups.filter (fun g => decide (g.st < 3))).map (·.id), next := f.nextGroup
    health := f.health }

/-- Start a map checkpoint (13 R298): the map segments changed since the last one, the directory pages of these and the health log; the
record follows them. Discards that wait enter a discard record with it (13 R301). -/
def startCheckpoint (d : Dev) : Dev :=
  if d.flash.draft.isSome then d
  else
    let segs := d.flash.dirty
    let d1 := { d with flash.draft := some (ckptNow d.flash), flash.dirty := [], flash.discards := [] }
    let d2 := if d.flash.discards.isEmpty then d1 else issueMeta d1 5 d.flash.discards
    let d3 := segs.foldl (fun a s => issueMeta a 2 [s]) d2
    let d4 := ((segs.map (· / 2048)).eraseDups).foldl (fun a s => issueMeta a 3 [s]) d3
    issueMeta d4 8 []

/-- Whether a map checkpoint is due. -/
def checkpointDue (f : Flash) : Bool :=
  f.state == 1 && f.draft.isNone && (decide (131072 ≤ f.sinceCkptPages) || decide (200000 ≤ f.sinceCkptClauses))

/-- MAP_CHECKPOINT (13 R298). -/
def mapCheckpoint (d : Dev) : Dev := if checkpointDue d.flash then startCheckpoint d else d

/-- The checkpoint record has been programmed. -/
def endCheckpoint (d : Dev) : Dev :=
  match d.flash.draft with
  | none => d
  | some c =>
    { d with flash := { d.flash with
      draft := none, sinceCkptPages := 0, sinceCkptClauses := 0, ckpt := c, saved := c.health
      discRecs := d.flash.discRecs.filter (fun r => decide (c.seq ≤ r.1)) } }

/-- One metadata program has completed. -/
def metaDone (d : Dev) (kind : Nat) (gs : List Nat) : Dev :=
  let left := d.flash.ops.any (fun o => match o.what with | .map _ _ => true | _ => false)
  let d1 := if kind = 5 then recordDiscards d gs else d
  if kind = 4 then endCheckpoint d1
  else if d1.flash.draft.isSome && !left then issueMeta d1 4 [] else d1

/-! ### Unmount and mount (13 R299, R300, R309) -/

/-- Unmounting goes on: every buffered page is programmed with parity, then a checkpoint, then UNMOUNTED. -/
def settleUnmount (d : Dev) : Dev :=
  match d.flash.unmounting with
  | none => d
  | some seq =>
    let busy := d.flash.pages.any (fun x => x.st == 3) || d.flash.ops.any (fun o => match o.what with
      | .data _ => true
      | .parity _ _ _ _ => true
      | _ => false)
    if busy || d.flash.draft.isSome then d
    else if d.flash.sinceCkptClauses ≠ 0 || d.flash.sinceCkptPages ≠ 0 || !d.flash.dirty.isEmpty then startCheckpoint d
    else
      let d1 := { d with flash.state := 3, flash.unmounting := none, flash.saved := d.flash.health }
      match findVerb d1 seq with
      | some v => finishOk d1 v [(8, 1, 3), (12, 4, d1.flash.granules), (16, 8, 0)]
      | none => d1

/-- What flash does of itself once something has changed: waiting pages are placed, parity programmed, block groups read back and erased, an
unmount goes on. -/
def settleFlash (d : Dev) : Dev :=
  settleUnmount (settleErases (settleFailing (settleGroups (parityStep (settleDurable (placeWaiting d))))))

/-- Whether replay reads a page: its block group was open at the checkpoint or has been opened since (13 R299). -/
def replayed (f : Flash) (x : FPage) : Bool := f.ckpt.opened.contains x.bg || decide (f.ckpt.next ≤ x.bg)

/-- Whether a page that fails all reads can be rebuilt: a parity page covers it, and no other page that it covers fails. -/
def rebuildable (f : Flash) (bad : List Nat) (x : FPage) : Bool :=
  f.parities.any (fun q => q.bg == x.bg && q.stripe == x.stripe && q.st == 1 && bitSet q.covered x.lane &&
    !f.pages.any (fun y => y.bg == x.bg && y.stripe == x.stripe && y.seq != x.seq && bad.contains y.seq && bitSet q.covered y.lane))

/-- The map after replay (13 R299, R300): of the pages that the checkpoint maps and those that replay has read or rebuilt, the newest of each
granule page is live unless a later discard record drops it. A discard that no record holds may be undone. [Log entry 63, DESIGN CHOICE.] -/
def replayMap (f : Flash) (bad : List Nat) : List FPage → Dev → List FPage × Dev
  | [], d => ([], d)
  | x :: xs, d =>
    let fails := fun (y : FPage) => replayed f y && bad.contains y.seq
    let erased := fun (y : FPage) => f.groups.any (fun g => g.id == y.bg && g.st == 5)
    let cand := fun (y : FPage) => y.st == 1 && y.kind == 1 && !erased y &&
      ((replayed f y && (!fails y || rebuildable f bad y)) || f.ckpt.map.contains (y.gpage, y.seq))
    if x.st ≠ 1 then replayMap f bad xs d
    else
      let newest := cand x && !f.pages.any (fun y => cand y && y.gpage == x.gpage && decide (x.seq < y.seq))
      let dropped := f.discRecs.any (fun r => decide (x.seq < r.1) && r.2.contains x.gpage)
      let (undo, d1) := if newest && !dropped && x.gone = 2 then drawBool d else (true, d)
      let gone := if !newest then Nat.max 1 x.gone else if dropped then 3 else if undo then 0 else 2
      let codewords := if fails x && !rebuildable f bad x then List.range 4 else x.bad
      let r := replayMap f bad xs d1
      ({ x with gone := gone, bad := codewords } :: r.1, r.2)

/-- What a mount answers: EV_MOUNTED, and the completion of the FL_MOUNT that asked, if one did (13 R299, R309). -/
def mountAnswer (who : Option Nat) (d : Dev) (rebuilt st : Nat) : Dev :=
  let a := raiseDev d 0x0816 [(1, d.flash.state), (8, d.flash.replayed), (8, rebuilt)]
  match who.bind (findVerb a) with
  | some v => finish a v st 0xFF [(8, 1, a.flash.state), (12, 4, a.flash.granules), (16, 8, a.flash.replayed)]
  | none => a

/-- The device after the replay and the verification of a mount, and how many pages were rebuilt: LUNs that did not answer and pages that failed
are rebuilt from parity and their blocks left; open block groups are closed (13 R299, R306). -/
def mountReplay (bad : List Nat) (absent : List (Nat × Nat)) (d : Dev) : Dev × Nat :=
  let f := d.flash
  let out := absent.filter (fun l => decide (l.1 < 32) && decide (l.2 < f.lunsPerCh))
  let fails := bad ++ (f.pages.filter (fun x => match pageLun f x with | some l => out.contains l | none => false)).map (·.seq)
  let back := f.pages.filter (fun (x : FPage) => x.st == 1 && replayed f x && fails.contains x.seq && rebuildable f fails x)
  let read := f.pages.filter (fun (x : FPage) => x.st == 1 && replayed f x && (!fails.contains x.seq || rebuildable f fails x))
  let r := replayMap f fails f.pages d
  let opened := f.groups.any (fun g => g.st == 0)
  let covered := fun (g : BlkGroup) => f.parities.any (fun q => q.bg == g.id)
  let close := fun (g : BlkGroup) =>
    if g.st < 3 || g.st = 6 || (g.st = 4 && covered g) then { g with st := 1, early := true }
    else if g.st = 4 then { g with st := 3 } else g
  let h := f.saved
  let d1 := { r.2 with flash := { f with
    mounting := none, state := 1, pages := r.1, groups := f.groups.map close, ops := [], discards := [], replayed := read.length
    dirty := (read.map (fun (x : FPage) => x.gpage / 2048) ++ (f.discRecs.flatMap (fun (r : Nat × List Nat) => r.2)).map (· / 2048)).eraseDups
    parities := f.parities.filter (fun q => q.st == 1)
    draft := none
    health := { h with mounts := satAdd h.mounts 1, unsafeOff := satAdd h.unsafeOff (if opened then 1 else 0) } } }
  let d2 := (d1.flash.groups.filter (fun (g : BlkGroup) => g.st == 5)).foldl (fun a g => (List.range 16).foldl (eraseLane g) a) d1
  let d3 := back.foldl (fun a x => rewritePage false false a x.seq) d2
  let d4 := out.foldl (fun a l => retireLun a l.1 l.2 2) d3
  (settleFlash d4, back.length)

/-- MOUNT_COMPLETE (13 R299): `fmt` the format record is valid, `rec` a checkpoint record is, `bad` the pages that fail all reads, `absent`
the LUNs that did not answer or did not match the profile, which are left out of service (13 R284). -/
def mountComplete (fmt rec : Bool) (bad : List Nat) (absent : List (Nat × Nat)) (d : Dev) : Dev :=
  match d.flash.mounting with
  | none => d
  | some who =>
    if !(fmt && d.flash.formatted) then
      mountAnswer who { d with flash := { d.flash with mounting := none, state := 0, replayed := 0 } } 0 stMedia
    else if !rec then mountAnswer who { d with flash := { d.flash with mounting := none, state := 4, replayed := 0 } } 0 stMedia
    else mountAnswer who (startCheckpoint (mountReplay bad absent d).1) (mountReplay bad absent d).2 stOk

/-! ### NAND operations (13 R290-R297, R304, R307) -/

def dropNand (d : Dev) (id : Nat) : Dev := { d with flash.ops := dropWhere (fun (o : NandOp) => o.id == id) d.flash.ops }

/-- NAND_PROGRAM_COMPLETE: `ok` the program succeeded; `damaged` the pages of the same block that its failure damaged. -/
def nandProgram (id : Nat) (ok : Bool) (damaged : List Nat) (d : Dev) : Dev :=
  match d.flash.ops.find? (fun o => o.id == id) with
  | none => d
  | some o =>
    let d0 := dropNand d id
    let h := d0.flash.health
    let count := fun (a : Dev) (data : Nat) => { a with
      flash.health := { h with nandPages := (h.nandPages + 1) % 2 ^ 64, dataPages := (h.dataPages + data) % 2 ^ 64 }
      flash.sinceCkptPages := a.flash.sinceCkptPages + data }
    let failed := { d0 with flash.health := { h with programFails := satAdd h.programFails 1 } }
    match o.what with
    | .data seq =>
      (match d0.flash.pages.find? (fun x => x.seq == seq) with
      | none => d0
      | some x =>
        if ok then
          let d1 := count d0 (if x.fresh then 1 else 0)
          settleFlash { d1 with flash.pages := updWhere (fun (y : FPage) => y.seq == seq) (fun y => { y with st := 1 }) d1.flash.pages }
        else
          let early := fun (g : BlkGroup) => { g with st := if g.st = 0 then 1 else g.st, early := true }
          let here := (blockPages failed o.channel o.lun o.block).filter (fun y => damaged.contains y.seq && y.seq != seq && y.st == 1)
          let d1 := { failed with
            flash.groups := updWhere (fun (g : BlkGroup) => g.id == x.bg) early failed.flash.groups
            flash.pages := updWhere (fun (y : FPage) => y.seq == seq) (fun y => { y with st := 2 }) failed.flash.pages }
          let d2 := rewritePage true x.reloc d1 seq
          let d3 := here.foldl (fun a y => rewritePage false false a y.seq) d2
          settleFlash (retireBlock d3 o.channel o.lun o.block 1))
    | .parity bg stripe covered full =>
      if ok then
        let this := fun (q : Parity) => q.bg == bg && q.stripe == stripe && q.covered == covered && q.full == full
        let d1 := count d0 0
        settleFlash { d1 with flash.parities := updWhere this (fun q => { q with st := 1 }) d1.flash.parities }
      else settleFlash (bareGroup (retireBlock failed o.channel o.lun o.block 1) bg)
    | .map kind gs =>
      if ok then settleFlash (metaDone (count d0 0) kind gs)
      else settleFlash (issueMeta (retireBlock failed o.channel o.lun o.block 1) kind gs)
    | _ => d
where
  /-- The parity block of a block group has been retired: the group is emptied into others. [Log entry 61, DESIGN CHOICE.] -/
  bareGroup (a : Dev) (bg : Nat) : Dev :=
    match a.flash.groups.find? (fun g => g.id == bg && (decide (g.st < 3) || g.st == 6)) with
    | some g => collectGroup false a g
    | none => a

/-- NAND_ERASE_COMPLETE: a block of a block group has been erased, or its erase failed (13 R304). [Log entry 61, DESIGN CHOICE.] -/
def nandErase (id : Nat) (ok : Bool) (d : Dev) : Dev :=
  match d.flash.ops.find? (fun o => o.id == id) with
  | none => d
  | some o =>
    let d0 := dropNand d id
    match o.what with
    | .erase bg lane =>
      if ok then
        let n := blockWear d0.flash o.channel o.lun o.block
        let this := fun (e : Nat × Nat × Nat × Nat) => e.1 == o.channel && e.2.1 == o.lun && e.2.2.1 == o.block
        settleFlash (clearLane { d0 with flash.erases := upsert this (o.channel, o.lun, o.block, n + 1) d0.flash.erases } bg lane)
      else
        let bad := { d0 with flash.health.eraseFails := satAdd d0.flash.health.eraseFails 1 }
        settleFlash (retireBlock (clearLane bad bg lane) o.channel o.lun o.block 2)
    | _ => d

/-- Add one to a CORRECTED counter (13 Table 13-5). -/
def countBits (h : Health) (bits : Nat) : Health :=
  let i := Nat.min 15 (bits / 16)
  { h with corrected := (List.range 16).map (fun k => satAdd (nth h.corrected k 0) (if k = i then 1 else 0)) }

/-- NAND_READ_COMPLETE: a codeword decoded with `bits` corrected (or not), the granule page that its metadata names, and for a
verification read the pages that did not decode well enough. Reads 1 to 5 decode hard; reads 6 and 7 feed one soft decode, which ends
with read 7 (13 Table 13-3). [Log entry 66, DEDUCED.] -/
def nandRead (id : Nat) (ok : Bool) (bits found : Nat) (bad : List Nat) (d : Dev) : Dev :=
  match d.flash.ops.find? (fun o => o.id == id) with
  | none => d
  | some o =>
    let d0 := dropNand d id
    match o.what with
    | .read g cw n why =>
      let mark := fun (a : Dev) => if n < 3 then a else { a with flash.relocate := match livePage a g with
        | some x => if x.st = 3 then a.flash.relocate else upsert (· == x.bg) x.bg a.flash.relocate
        | none => a.flash.relocate }
      let h := d0.flash.health
      if ok && n != 6 then
        let d1 := mark { d0 with flash.health := countBits { h with softDecodes := satAdd h.softDecodes (if n = 7 then 1 else 0) } bits }
        if found = g then deliverRead d1 id false false
        else
          let d2 := { d1 with flash.health.mismatch := satAdd d1.flash.health.mismatch 1 }
          deliverRead (raiseDev d2 0x0815 [(8, g), (8, found)]) id false true
      else if n < 7 then
        let d1 := { d0 with flash.health := { h with readRetries := satAdd h.readRetries (if n = 1 then 1 else 0) } }
        let again : NandOp := { o with
          what := .read g cw (n + 1) why, level := readLevel d.flash o.channel o.lun o.block (n + 1), issued := d.tim.elapsed, retried := false }
        { d1 with flash.ops := d1.flash.ops ++ [again] }
      else
        let d1 := mark { d0 with flash.health := { h with softDecodes := satAdd h.softDecodes 1 } }
        let rebuilt := fun (a : Dev) => { a with flash.health.uncorrectable := satAdd a.flash.health.uncorrectable 1 }
        (match livePage d1 g with
        | some x =>
          if x.st != 1 || laneCovered d1 x.bg x.stripe x.lane false then deliverRead (rebuilt d1) id false false
          else
            let d2 := { d1 with flash.pages := updWhere (fun y => y.seq == x.seq) (fun y => { y with bad := upsert (· == cw) cw y.bad }) d1.flash.pages }
            deliverRead (tellUnread x d2 cw) id true false
        | none => deliverRead (rebuilt d1) id false true)
    | .verify bg =>
      (match d0.flash.groups.find? (fun b => b.id == bg && b.st == 2) with
      | none => d0
      | some g => settleFlash (endReadBack d0 g bad))
    | _ => d

/-- Time limit of a NAND operation, in ns (13 R307). -/
def nandLimit (w : NandWhat) : Nat :=
  match w with
  | .read _ _ _ _ => 2000000
  | .verify _ => 2000000
  | .erase _ _ => 50000000
  | _ => 10000000

/-- NAND_OP_TIMEOUT: the operation is abandoned and retried once; a second timeout retires the LUN (13 R307). -/
def nandTimeout (id : Nat) (d : Dev) : Dev :=
  match d.flash.ops.find? (fun o => o.id == id) with
  | none => d
  | some o =>
    if d.tim.elapsed < o.issued + nandLimit o.what then d
    else if !o.retried then
      { d with flash.ops := updWhere (fun (x : NandOp) => x.id == id) (fun x => { x with retried := true, issued := d.tim.elapsed }) d.flash.ops }
    else settleFlash (retireLun d o.channel o.lun 2)

/-! ### Garbage collection, wear levelling and calibration (13 R290, R302, R303) -/

/-- Erase counts of the blocks of a verified block group. -/
def groupWear (f : Flash) (g : BlkGroup) : List Nat :=
  (List.range 16).filterMap (fun k => (groupBlock g k).map (blockWear f (laneOf g.set k).1 (laneOf g.set k).2))

/-- The block group whose data wear levelling moves (13 R303): one with a block of the least erase count, in a set with a block that exceeds
that count by more than 5 % of the rated cycles. [Log entry 61, DESIGN CHOICE.] -/
def levelGroup (f : Flash) : Option BlkGroup :=
  let least := fun (g : BlkGroup) => (minBy (fun (n : Nat) => n) (groupWear f g)).getD 0
  let top := fun (s : Nat) => ((f.erases.filter (fun e => e.2.1 == s / 2 && e.1 / 16 == s % 2)).map (·.2.2.2)).foldl Nat.max 0
  minBy least (f.groups.filter (fun g => g.st == 3 && decide (f.ratedCycles < 20 * (top g.set - least g))))

/-- The block group that garbage collection takes next: one with a block that a read has marked, else the one with the fewest valid pages, of
a set that is short of free blocks where there is one (13 R290, R302). -/
def collectNext (d : Dev) : Option (BlkGroup × Bool) :=
  let fewest := fun (gs : List BlkGroup) => minBy (fun (g : BlkGroup) => (validPages d g.id).length) gs
  let closed := d.flash.groups.filter (fun g => g.st == 3)
  match fewest (closed.filter (fun g => setShort d.flash g.set)) with
  | some g => some (g, true)
  | none =>
    match closed.find? (fun g => d.flash.relocate.contains g.id) with
    | some g => some (g, true)
    | none => (fewest closed).map (fun g => (g, false))

/-- Background read-level calibration (13 R290, R303): now and then a block's best read level is found anew. [Log entry 61, DESIGN CHOICE.] -/
def calibrate (d : Dev) : Dev :=
  let (go, d1) := drawBool d
  if !go then d1
  else
    let (k, d2) := drawNat d1
    let (lvl, d3) := drawNat d2
    match (d3.flash.groups[k % Nat.max 1 d3.flash.groups.length]?).bind (fun g =>
        (groupBlock g (k % 16)).map (fun b => ((laneOf g.set (k % 16)).1, (laneOf g.set (k % 16)).2, b))) with
    | some x =>
      let this := fun (c : Nat × Nat × Nat × Nat) => c.1 == x.1 && c.2.1 == x.2.1 && c.2.2.1 == x.2.2
      { d3 with flash.calibrated := upsert this (x.1, x.2.1, x.2.2, lvl % 5) d3.flash.calibrated }
    | none => d3

/-- Garbage collection at a boundary: in the foreground where a set is short of free blocks, else in the background share, as are wear
levelling and calibration (13 R302, R303). -/
def gcStep (d : Dev) : Dev :=
  if d.flash.state ≠ 1 || d.flash.unmounting.isSome then d
  else
    let runs := Config.gcRuns d.draws
    let d1 := { d with draws := d.draws + 1 }
    let d2 := match collectNext d1 with
      | some (g, must) => if must || runs then collectGroup false d1 g else d1
      | none => d1
    let d3 := match levelGroup d2.flash with
      | some g => if runs then collectGroup true d2 g else d2
      | none => d2
    calibrate (settleFlash d3)

/-- A second of device time has passed: each channel with a LUN in service counts it in the bin of its hottest LUN's temperature
(13 Table 13-5). The spec gives the LUNs' temperatures no other place. [Log entry 62, DESIGN CHOICE.] -/
def tickChannels (d : Dev) : Dev :=
  let on := (List.range 32).filter (fun c => (List.range d.flash.lunsPerCh).any (fun l => !d.flash.deadLuns.contains (c, l)))
  let bin := fun (c : Nat) => Config.freeNat (d.draws + c) % 24
  let count := fun (t : List (Nat × Nat × Nat)) (c : Nat) =>
    let n := match t.find? (fun x => x.1 == c && x.2.1 == bin c) with | some x => x.2.2 | none => 0
    upsert (fun (x : Nat × Nat × Nat) => x.1 == c && x.2.1 == bin c) (c, bin c, satAdd n 1) t
  { d with flash.health.channelTemp := on.foldl count d.flash.health.channelTemp, draws := d.draws + 32 }

/-! ### Verbs (13 R309, R310) -/

/-- FL_MOUNT. -/
def flMountBody (v : Verb) (d : Dev) : Except Fail Dev := do
  let mode := fld v 16 1
  check4 v false [(17, 47)] [(16, decide (mode < 2))]
  if mode = 1 then
    need stState ((d.flash.state == 3 || d.flash.state == 4) && d.flash.mounting.isNone)
    .ok (keepRunning { d with flash.mounting := some (some v.seq) } v)
  else
    need stState ((d.flash.state == 1 || d.flash.state == 2) && d.flash.unmounting.isNone)
    let all := updWhere (fun (x : FPage) => !x.durable && x.st != 2) (fun x => { x with want := true }) d.flash.pages
    let d1 := { d with flash.unmounting := some v.seq, flash.pages := all }
    .ok (settleFlash (keepRunning d1 v))

/-- A deferred flash verb: registered, and answered ST_DEFERRED. [Log entry 65, DEDUCED.] -/
def deferFlash (d : Dev) (v : Verb) (kind granule part sparePct state : Nat) (fields : List (Nat × Nat × Nat)) : Dev :=
  let j : FlashJob := { ring := v.ring, tag := fld v 4 4, op := v.op, kind := kind, granule := granule, part := part, sparePct := sparePct }
  finish { d with flash.jobs := d.flash.jobs ++ [j], flash.state := state } v stDeferred 0xFF fields

/-- FL_FORMAT. [Log entry 65, DEDUCED.] -/
def flFormatBody (v : Verb) (d : Dev) : Except Fail Dev := do
  let pct := fld v 16 1
  check4 v false [(17, 3), (24, 40)] [(16, decide (7 ≤ pct) && decide (pct ≤ 28)), (20, fld v 20 4 == 0x464D5446)]
  need stBusy d.flash.jobs.isEmpty
  need stState (d.flash.assigned.isEmpty && d.flash.mounting.isNone && d.flash.unmounting.isNone && decide (d.flash.state < 5))
  .ok (deferFlash d v 1 0 0 pct 5 [])

/-- The 6,400 bytes of the health log (13 Table 13-5). -/
def healthBytes (f : Flash) : List Byte :=
  let h := f.health
  let bin := fun c k => match h.channelTemp.find? (fun x => x.1 == c && x.2.1 == k) with | some x => x.2.2 | none => 0
  natLe 1 4 ++ [byte f.state, byte (spareLeft f)] ++ natLe h.wearAvg 2 ++ natLe h.wearMax 2 ++ natLe h.lunsRetired 2 ++
    natLe h.blocksRetired 4 ++ natLe h.dataPages 8 ++ natLe h.nandPages 8 ++ natLe h.readRetries 8 ++ natLe h.softDecodes 8 ++
    natLe h.uncorrectable 8 ++ natLe h.programFails 8 ++ natLe h.eraseFails 8 ++ natLe h.lpnsLost 8 ++ natLe h.mounts 8 ++
    natLe h.unsafeOff 8 ++ natLe h.mismatch 8 ++ (List.range 16).flatMap (fun i => natLe (nth h.corrected i 0) 8) ++
    List.replicate 24 0 ++ (List.range 32).flatMap (fun c => (List.range 24).flatMap (fun k => natLe (bin c k) 8))

/-- WEAR_MAX and WEAR_AVG from the erase counts, in 0.1 % of the rated cycles. -/
def withWear (f : Flash) : Flash :=
  let top := (f.erases.map (·.2.2.2)).foldl Nat.max 0 + f.eraseBase
  let rated := Nat.max 1 f.ratedCycles
  let avg := (sumNat (f.erases.map (·.2.2.2)) + f.eraseBase * blocksTotal f) * 1000 / (rated * Nat.max 1 (blocksTotal f))
  { f with health := { f.health with wearMax := top * 1000 / rated % 65536, wearAvg := avg % 65536 } }

/-- FL_HEALTH. -/
def flHealthBody (v : Verb) (d : Dev) : Except Fail Dev := do
  let off := fld v 24 8
  check4 v false [(16, 8), (32, 32)] [(24, off == 0 || (off % 64 == 0 && v.ring != 16 && outIn d v off 6400))]
  let f := withWear d.flash
  let d1 := { d with flash := f }
  let d2 := if off = 0 then d1 else outWrite d1 v off (healthBytes f)
  .ok (finishOk d2 v [(8, 1, f.state), (9, 1, spareLeft f), (10, 2, f.health.wearMax), (12, 4, f.health.blocksRetired)])

/-- Runs of LPNs of a partition that FL_DISCARD skips: copies of record of live phrases, retained images, index regions,
checkpoint shards not released. -/
def skipRuns (d : Dev) (p : Nat) : List (Nat × Nat) :=
  (d.kv.phrases.filter (fun x => x.part == p)).filterMap (fun x => x.flash.map (fun l => (l, ceilDiv (phraseSize x) 16))) ++
    (d.kv.cat.filter (fun s => ctxPart s.ctx == p && s.state != 0)).filterMap (fun s => s.image.bind (fun i =>
      if i.lost = 0 && i.ref / 2 ^ 62 = 2 then (findImage d p i.ref).map (fun im => (i.ref % 2 ^ 34, ceilDiv im.bytes 16384)) else none)) ++
    indexRegions d p ++ (d.ckptRuns.filter (fun r => r.1 == p)).map (fun r => (r.2.1, r.2.2))

/-- Whether an LPN lies in one of some runs. -/
def inRuns (rs : List (Nat × Nat)) (l : Nat) : Bool := rs.any (fun r => decide (r.1 ≤ l) && decide (l < r.1 + r.2))

/-- The part of a run below the end of a range and from its start on. -/
def clipRun (lo n : Nat) (r : Nat × Nat) : Nat × Nat := (Nat.max lo r.1, Nat.min (lo + n) (r.1 + r.2) - Nat.max lo r.1)

/-- LPNs that the union of runs covers, the runs sorted by their start; `at'` is the end of what has been counted. -/
def coverCount : List (Nat × Nat) → Nat → Nat
  | [], _ => 0
  | r :: rs, at' => (r.1 + r.2 - Nat.max at' r.1) + coverCount rs (Nat.max at' (r.1 + r.2))

/-- LPNs of a range that the runs cover. -/
def skipCount (rs : List (Nat × Nat)) (lo n : Nat) : Nat :=
  coverCount (sortBy (fun a b => decide (a.1 ≤ b.1)) (((rs.map (clipRun lo n))).filter (fun r => decide (0 < r.2)))) 0

/-- The LPN of a partition that a granule page holds. -/
def lpnOf (d : Dev) (p g : Nat) : Option Nat :=
  (d.flash.assigned.find? (fun a => a.1 == p && a.2.2 == g / slotPages)).map (fun a => a.2.1 * slotPages + g % slotPages)

/-- Whether a range of LPNs reaches an empty slot. -/
def reachesEmpty (d : Dev) (p lo n : Nat) : Bool :=
  (rangeFrom (lo / slotPages) ((lo + n - 1) / slotPages - lo / slotPages + 1)).any (fun s => !d.flash.assigned.any (fun a => a.1 == p && a.2.1 == s))

/-- Unmap a range of LPNs but for those that runs cover (13 R301). -/
def discardRange (d : Dev) (p lo n : Nat) (rs : List (Nat × Nat)) : Dev :=
  settleDiscards (discardPages d (fun x => match lpnOf d p x.gpage with
    | some l => decide (lo ≤ l) && decide (l < lo + n) && !inRuns rs l
    | none => false))

/-- The partition in which a FL_DISCARD acts. -/
def discardPart (v : Verb) : Nat := if v.admin then ctxPart (fld v 16 2 % 2048) else v.part

/-- FL_DISCARD. -/
def flDiscardBody (v : Verb) (d : Dev) : Except Fail Dev := do
  let c := fld v 16 2
  let lo := fld v 24 8
  let n := fld v 32 8
  check4 v false [(18, 6), (40, 24)]
    [(16, if v.admin then decide (c < 2048) else c == 0), (24, decide (lo < 2 ^ 34)), (32, decide (1 ≤ n) && decide (lo + n ≤ 2 ^ 34))]
  if v.admin then checkCtx d v c 16
  needMedia d false
  need stRange (!reachesEmpty d (discardPart v) lo n)
  .ok (registerOp d v (.discardLpns v.seq))

/-- FL_DISCARD that has run out of time: it has taken effect for a prefix of its range (13 Table 13-7). [Log entry 63, DESIGN CHOICE.] -/
def discardStop (d : Dev) (v : Verb) : Dev :=
  let p := discardPart v
  let (k, d1) := drawNat d
  let n := k % (fld v 32 8 + 1)
  finishSeq (discardRange d1 p (fld v 24 8) n (skipRuns d1 p)) v.seq stTimeout
    [(8, 8, n - skipCount (skipRuns d1 p) (fld v 24 8) n), (16, 8, skipCount (skipRuns d1 p) (fld v 24 8) n)]

/-- FL_DISCARD at its boundary. -/
def discardLpnsAt (d : Dev) (seq : Nat) : Dev :=
  match findVerb d seq with
  | none => dropOp d seq
  | some v =>
    let p := discardPart v
    let lo := fld v 24 8
    let n := fld v 32 8
    let rs := skipRuns d p
    let skipped := skipCount rs lo n
    finishSeq (discardRange d p lo n rs) seq (if skipped = 0 then stOk else stPartial) [(8, 8, n - skipped), (16, 8, skipped)]

/-- Sanitize a granule (13 R309): its pages are discarded, and every block group that held one of them is emptied of its other valid pages
and erased. -/
def purgeGranule (d0 : Dev) (g : Nat) : Dev :=
  let d := { d0 with
    stored.images := d0.stored.images.filter (fun x => x.1 / slotPages != g)
    stored.phrases := d0.stored.phrases.filter (fun x => x.1 / slotPages != g) }
  let mine := fun (x : FPage) => x.gpage / slotPages == g
  let ids := ((d.flash.pages.filter (fun x => mine x && x.st != 3)).map (·.bg)).eraseDups
  let hit := d.flash.groups.filter (fun b => ids.contains b.id && b.st != 4 && b.st != 5)
  let close := fun (b : BlkGroup) => if b.st = 0 then { b with st := 1 } else b
  let d1 := discardPages { d with flash.groups := updWhere (fun (b : BlkGroup) => ids.contains b.id) close d.flash.groups } mine
  settleFlash (settleDiscards (hit.foldl (collectGroup false) d1))

/-- Whether the blocks that held pages of a granule when it was sanitized have been erased. -/
def granuleErased (d : Dev) (g : Nat) : Bool :=
  !d.flash.pages.any (fun x => x.gpage / slotPages == g && x.st != 3 && d.flash.groups.any (fun b => b.id == x.bg && (b.st == 4 || b.st == 5)))

/-- Whether an erasing job can end now: the whole device's, or a granule's whose blocks have been erased or that has failed. -/
def jobEnds (ok : Bool) (d : Dev) (j : FlashJob) : Bool := j.kind != 1 && (j.kind == 2 || !ok || granuleErased d j.granule)

/-- FL_SANITIZE. [Log entry 65, DEDUCED.] -/
def flSanitizeBody (v : Verb) (d : Dev) : Except Fail Dev := do
  let sc := fld v 16 1
  let g := fld v 20 4
  check4 v false [(17, 3), (28, 36)]
    [(16, decide (sc < 2)), (20, if sc = 0 then g == 0 else decide (g < d.flash.granules)), (24, fld v 24 4 == 0x534E5A54)]
  need stBusy d.flash.jobs.isEmpty
  if sc = 0 then
    need stState (d.flash.assigned.isEmpty && decide (1 ≤ d.flash.state) && decide (d.flash.state < 5) && d.flash.mounting.isNone &&
      d.flash.unmounting.isNone)
    .ok (deferFlash d v 2 0 0 0 6 [])
  else
    needMedia d true
    need stState (!d.flash.assigned.any (fun a => a.2.2 == g))
    let d1 := purgeGranule { d with flash.erasing := upsert (· == g) g d.flash.erasing } g
    .ok (deferFlash d1 v 3 g 0 0 d1.flash.state [])

/-- Granules assigned to a partition. -/
def granulesHeld (d : Dev) (p : Nat) : Nat := (d.flash.assigned.filter (fun a => a.1 == p)).length

/-- FL_ASSIGN. [Log entry 65, DEDUCED.] -/
def flAssignBody (v : Verb) (d : Dev) : Except Fail Dev := do
  let mode := fld v 16 1
  let p := fld v 17 1
  let slot := fld v 18 2
  let g := fld v 20 4
  check4 v false [(24, 40)]
    [(16, inR' mode 1 3), (17, decide (p < 32)), (18, decide (slot < 4096)), (20, mode != 1 || decide (g < d.flash.granules))]
  let _ ← checkPart d v p 17
  need stBusy d.flash.jobs.isEmpty
  needMedia d (mode == 3)
  if mode = 1 then
    need stState (!d.flash.assigned.any (fun a => a.2.2 == g || (a.1 == p && a.2.1 == slot)) && !d.flash.erasing.contains g)
    let d1 := { d with flash.assigned := d.flash.assigned ++ [(p, slot, g)] }
    .ok (finishOk d1 v [(8, 4, granulesHeld d1 p)])
  else
    match d.flash.assigned.find? (fun a => a.1 == p && a.2.1 == slot) with
    | none => failSt stState
    | some a =>
      need stBusy (skipCount (skipRuns d p) (slot * slotPages) slotPages == 0)
      let d1 := { d with flash.assigned := dropWhere (fun (x : Nat × Nat × Nat) => x.1 == p && x.2.1 == slot) d.flash.assigned }
      if mode = 2 then .ok (finishOk d1 v [(8, 4, granulesHeld d1 p)])
      else
        let d2 := purgeGranule { d1 with flash.erasing := upsert (· == a.2.2) a.2.2 d1.flash.erasing } a.2.2
        .ok (deferFlash d2 v 4 a.2.2 p 0 d2.flash.state [(8, 4, granulesHeld d1 p)])
where
  inR' (n lo hi : Nat) : Bool := decide (lo ≤ n) && decide (n ≤ hi)

/-- FORMAT_COMPLETE: every block has been erased; `bad` are the blocks found bad; `ok` the metadata area took its records
(13 R309). -/
def formatComplete (ok : Bool) (bad : List (Nat × Nat × Nat)) (d : Dev) : Dev :=
  match d.flash.jobs.find? (fun j => j.kind == 1) with
  | none => d
  | some j =>
    let f := d.flash
    let worn := f.erases
    let f1 : Flash := { f with
      jobs := dropWhere (fun (x : FlashJob) => x.kind == 1) f.jobs
      deadBlocks := (f.deadBlocks ++ bad).eraseDups
      assigned := [], pages := [], parities := [], groups := [], ops := [], discards := [], relocate := [], erasing := []
      erases := worn, eraseBase := f.eraseBase + 1, formatted := ok, sparePct := j.sparePct, sinceCkptPages := 0, sinceCkptClauses := 0
      draft := none, dirty := [], discRecs := [], spareUsed := 0, spareLowRaised := false, ckpt := emptyCkpt f }
    let f2 := { f1 with granules := if ok then formatGranules f1 j.sparePct else 0 }
    let f3 := { f2 with spareTotal := reserveBlocks f2, state := if ok then 1 else 0, saved := f.health }
    deferredDone { d with flash := f3, stored.images := [], stored.phrases := [] } j.ring j.tag j.op (if ok then stOk else stMedia)
      objDevice .device (natLe f3.granules 4)
where
  /-- The checkpoint of an empty map. -/
  emptyCkpt (f : Flash) : MapCkpt := { seq := f.writeSeq, map := [], opened := [], next := f.nextGroup, health := f.health }

/-- FL_SANITIZE_DONE: the erases of a sanitize, or of a release with erase, have finished. [Log entry 93, DEDUCED.] -/
def sanitizeDone (ok : Bool) (d : Dev) : Dev :=
  match d.flash.jobs.find? (jobEnds ok d) with
  | none => d
  | some j =>
    let f := d.flash
    let st := if ok then stOk else stMedia
    let jobs := dropWhere (fun (x : FlashJob) => x == j) f.jobs
    let done := fun (a : Dev) (obj : Nat) (sc : EvScope) => deferredDone a j.ring j.tag j.op st obj sc []
    if j.kind = 2 then
      let worn := fun (es : List (Nat × Nat × Nat × Nat)) (x : Nat × Nat × Nat) =>
        upsert (fun (e : Nat × Nat × Nat × Nat) => e.1 == x.1 && e.2.1 == x.2.1 && e.2.2.1 == x.2.2) (x.1, x.2.1, x.2.2, blockWear f x.1 x.2.1 x.2.2 + 1) es
      let used := f.groups.flatMap (fun g => (List.range 16).filterMap (fun k =>
        (groupBlock g k).map (fun b => ((laneOf g.set k).1, (laneOf g.set k).2, b))))
      let f1 : Flash := { f with
        jobs := jobs, state := 1, pages := [], parities := [], groups := [], ops := [], discards := [], relocate := [], erases := used.foldl worn f.erases
        sinceCkptPages := 0, sinceCkptClauses := 0, draft := none, dirty := [], discRecs := [], ckpt := formatComplete.emptyCkpt f }
      done { d with flash := f1, stored.images := [], stored.phrases := [] } objDevice .device
    else
      let d1 := { d with flash.jobs := jobs, flash.erasing := f.erasing.filter (· != j.granule) }
      if j.kind = 4 then done d1 (objPart j.part) (.part j.part) else done d1 objDevice .device

end Sys2Proof.Machine
end

