-- ==== Sys2Proof/Machine/Tokens.lean ====
section
/-!
DEFINITION. The verbs of chapter 10: LEX_LOAD, LEX_UNLOAD, TOKENIZE, DETOK_OPEN, STOP_SET and DETOK_FLUSH.
-/

namespace Sys2Proof.Machine

/-- Lexicons that a partition holds. -/
def lexCount (d : Dev) (p : Nat) : Nat := (d.lexicons.filter (fun x => x.part == p)).length

/-- LEX_LOAD (10 R206). [Log entry 52, DEDUCED.] -/
def lexLoadBody (v : Verb) (d : Dev) : Except Fail Dev := do
  let off := fld v 16 8
  let n := fld v 24 8
  check4 v true [(32, 32)]
    [(16, off % 4096 == 0 && argIn d v off n), (24, decide (n ≤ 50331648) && argIn d v 0 n),
     (24, structOk d v off n (fun bs => n ≥ 64 && fieldAt bs 48 8 == n))]
  let bs ← argRead d v off n
  let c ← checkCtx73 d v
  let p := ctxPart c
  match findPart d p with
  | none => failId stStale 12
  | some x =>
    need stLimit (decide (d.lexicons.length < 8) && decide (lexCount d p < x.lexicons))
    need stRange (lexOk bs)
    let units := lexUnits bs
    need stNospace (decide (sumNat (d.lexicons.map (·.units)) + units + d.rep.noUnits ≤ 1024))
    match longestFree d 8 (d.lexicons.map (·.id)) 0 8 with
    | none => failSt stLimit
    | some id =>
      let dig := (sha512 bs).take 16
      let l : Lexicon := { id := id, part := p, digest := dig, units := units, img := bs, damaged := [] }
      .ok (finishOk (setOwner { d with lexicons := d.lexicons ++ [l] } 8 id (p * 64)) v
        [(8, 1, id), (12, 4, units * 64), (16, 16, leNat dig)])

/-- Whether a lexicon is in use (02 R24, 10 R207). -/
def lexUsed (d : Dev) (i : Nat) : Bool :=
  d.kv.cat.any (fun s => s.state != 0 && s.state != 4 && !s.retired &&
    ((s.tok.detok != 0 && s.tok.lex == some i) || (s.tok.tkOpen && s.tok.tkLex == i)))

/-- LEX_UNLOAD (10 R207). -/
def lexUnloadBody (v : Verb) (d : Dev) : Except Fail Dev := do
  let i := fld v 16 1
  check4 v false [(17, 47)] [(16, decide (i < 8))]
  checkOwned d v 8 i 16 (findLex d i).isSome
  need stBusy (!lexUsed d i)
  let d1 := nextRelease d
  .ok (finishOk (stampFree { d1 with lexicons := dropWhere (fun x => x.id == i) d1.lexicons } 8 i) v [])

/-- The stream of a session as the encoder sees it. -/
def encOf (t : TokSt) : EncState := { utf := t.tkUtf, hold := t.tkHold, cls := t.tkClass, toks := [], replaced := 0 }

/-- The stream state that a chunk leaves. -/
def encPut (t : TokSt) (e : EncState) (offset : Nat) (open' : Bool) : TokSt :=
  { t with tkUtf := if open' then e.utf else [], tkHold := if open' then e.hold else [], tkClass := e.cls, tkOffset := offset,
           tkOpen := open' }

/-- Encode one chunk of a TOKENIZE: status, stream state, bytes consumed; a chunk refused under REJECT gives the offset of its
invalid unit. [Log entry 54, DESIGN CHOICE.] -/
def tokenizeChunk (img : List Byte) (policy : Nat) (fin : Bool) (e : EncState) (bs : List Byte) (cap : Nat) :
    Except Int (Nat × EncState × Nat) :=
  match (if policy = 2 then firstInvalid fin e.utf bs else none) with
  | some i => .error i
  | none =>
    let whole := encodeChunk img policy fin e bs
    if whole.toks.length ≤ cap then .ok (stOk, whole, bs.length)
    else
      let n := fitBytes img policy e bs cap bs.length
      .ok (stPartial, if n = 0 then { e with toks := [], replaced := 0 } else encodeChunk img policy false e (bs.take n), n)

/-- TOKENIZE (10 R212). ABORT with START, where no stream is open, opens none. [Log entry 54, DESIGN CHOICE.] -/
def tokenizeBody (v : Verb) (d : Dev) : Except Fail Dev := do
  let h := fld v 16 4
  let lx := fld v 20 1
  let fl := fld v 21 1
  let start := bitSet fl 0
  let fin := bitSet fl 1
  let pol := fl / 4 % 4
  let abort := bitSet fl 4
  let src := fld v 24 8
  let n := fld v 32 4
  let cap := fld v 36 4
  let dst := fld v 40 8
  check4 v false [(22, 2), (48, 16)]
    [(20, if h = 0 then decide (lx < 8) else lx == 0),
      (21, decide (fl < 32) && (!start || decide (pol < 3)) && (h != 0 || (start && fin && !abort))),
      (24, argIn d v src n), (32, decide (n ≤ 65536)), (36, outIn d v 0 (4 * cap)),
      (40, dst % 4 == 0 && outIn d v dst (4 * cap))]
  let finish' := fun (d1 : Dev) (st : Nat) (e : EncState) (used off : Nat) =>
    let d2 := outWrite d1 v dst (e.toks.flatMap (fun t => natLe t 4))
    finish d2 v st 0xFF [(8, 4, e.toks.length), (12, 4, used), (16, 8, off), (24, 2, e.utf.length + e.hold.length), (28, 4, e.replaced)]
  let room := fun (e : EncState) => !outPartial d v dst (4 * e.toks.length)
  let empty : EncState := { utf := [], hold := [], cls := 0, toks := [], replaced := 0 }
  if h = 0 then
    checkOwned d v 8 lx 20 (findLex d lx).isSome
    match findLex d lx with
    | none => failId stStale 20
    | some l =>
      need stUnsupported (pol != 1 || lexAllBytes l.img)
      need stDamaged (l.damaged.isEmpty || !Config.tableNeeded v.seq 0)
      let bs ← argRead d v src n
      match tokenizeChunk l.img pol true empty bs cap with
      | .error i => failWith stRange [(16, 8, i.toNat)]
      | .ok (st, e, used) =>
        need stDamaged (room e)
        .ok (finish' d st e used used)
  else
    let s ← checkSess d v h 16
    needLive s v 16
    let t := s.tok
    match t.lex.bind (findLex d) with
    | none => failSt stState
    | some l =>
      need stState (start != t.tkOpen)
      if abort then
        .ok (finish' (updTok d h (fun x => encPut x empty 0 false)) stOk empty 0 (if start then 0 else t.tkOffset))
      else
        let p := if start then pol else t.tkPolicy
        need stUnsupported (p != 1 || lexAllBytes l.img)
        need stDamaged (l.damaged.isEmpty || !Config.tableNeeded v.seq 0)
        let bs ← argRead d v src n
        let e0 := if start then empty else encOf t
        let base := if start then 0 else t.tkOffset
        match tokenizeChunk l.img p fin e0 bs cap with
        | .error i => failWith stRange [(16, 8, ((base : Int) + i).toNat)]
        | .ok (st, e, used) =>
          need stDamaged (room e)
          let open' := !(fin && st == stOk)
          let d1 := updTok d h (fun x => { encPut x e (base + used) open' with tkPolicy := p, tkLex := l.id })
          .ok (finish' d1 st (if open' then e else { e with utf := [], hold := [] }) used (base + used))

/-- DETOK_OPEN (10 R219). -/
def detokOpenBody (v : Verb) (d : Dev) : Except Fail Dev := do
  let h := fld v 16 4
  let fl := fld v 21 1
  let keep := bitSet fl 0
  let ring := fld v 24 8
  let lg := fld v 32 1
  let head := fld v 40 8
  let outside := decide (head < ring) || decide (ring + 2 ^ lg ≤ head)
  check4 v false [(33, 7), (48, 16)]
    [(20, keep || decide (fld v 20 1 < 8)), (21, decide (fl < 8)),
      (22, fld v 22 2 == 0xFFFF || decide (fld v 22 2 < 256)), (24, ring % 4096 == 0),
      (32, if ring = 0 then lg == 0 else decide (12 ≤ lg) && decide (lg ≤ 24)), (40, head % 8 == 0 && (ring == 0 || outside))]
  let s ← checkSess d v h 16
  needLive s v 16
  if !keep then checkOwnedIn d v (ctxPart s.ctx) 8 (fld v 20 1) 20 (findLex d (fld v 20 1)).isSome
  need stState (!keep || s.tok.detok != 0)
  let ringed := fun (t : TokSt) =>
    { t with ringNamed := ring != 0, ringAddr := ring, ringLog2 := lg, ringPhase := true, vector := fld v 22 2, headAddr := head,
             written := 0, headRead := 0 }
  let d0 := forgetHead d h
  if keep then
    let d1 := textPump (updTok d0 h ringed) h
    let t := s.tok
    .ok (finishOk d1 v [(8, 4, 0), (12, 4, t.utfHold.length + t.stopHold.length)])
  else
    need stBusy (!(s.tok.tkOpen && s.tok.tkLex != fld v 20 1))
    let lost := pendingSize s.tok
    let dig := match findLex d (fld v 20 1) with | some l => l.digest | none => []
    let fresh := fun (t : TokSt) =>
      { ringed t with detok := 1, lex := some (fld v 20 1), lexDigest := dig, showSpecial := bitSet fl 1, rawBytes := bitSet fl 2,
                      includeStop := false, stopCount := 0, stopMax := 0, stops := [], offset := 0, seq := 0, lastPos := none,
                      dropped := 0, pendingRecs := [], utfHold := [], utfPos := 0, stopHold := [], blockedRaised := false,
                      closing := false }
    .ok (finishOk (updTok d0 h fresh) v [(8, 4, lost), (12, 4, 0)])

/-- What STOP_SET does to a stream and the records that it makes: the new strings, and the bytes that the old ones held back read again
against the new; an ended stream only takes the strings (10 R220). -/
def stopSetAcc (h : Nat) (t0 : TokSt) (strs : List (List Byte)) (keepStop : Bool) : DetAcc :=
  let t := { t0 with stops := strs, stopCount := strs.length, stopMax := (strs.map List.length).foldl Nat.max 0, includeStop := keepStop, stopHold := [] }
  let a := detStart t
  let again := if t.detok = 2 then { a with t := { t with stopHold := t0.stopHold } }
    else (t0.stopHold.foldl (fun (x : DetAcc × Nat) b => (stopByte h (x.2 - 1) (a.endPos - 1) x.1 b, x.2 - 1)) (a, t0.stopHold.length)).1
  detEnd h again

/-- The stop strings of a STOP_SET block: n lengths of one byte, then n places of 64 bytes (10 R220). -/
def stopStrings (bs : List Byte) (n : Nat) : List (List Byte) :=
  (List.range n).map (fun j => (bs.drop (64 + 64 * j)).take (fieldAt bs j 1))

/-- What DETOK_FLUSH of mode FLUSH or CLOSE does to a stream and the records that it makes (10 R221). -/
def flushAcc (h : Nat) (t : TokSt) : DetAcc :=
  if t.detok = 2 then { detStart t with t := { t with detok := 1 } } else detEnd h (detokFlushVerb h (detStart t))

/-- STOP_SET (10 R220). -/
def stopSetBody (v : Verb) (d : Dev) : Except Fail Dev := do
  let h := fld v 16 4
  let n := fld v 21 1
  let off := fld v 24 8
  let len := if n = 0 then 0 else 64 + 64 * n
  check4 v false [(22, 2), (32, 32)]
    [(20, decide (fld v 20 1 < 2)), (21, decide (n ≤ 16)), (24, off % 64 == 0 && argIn d v off len)]
  let bs ← argRead d v off len
  let strs := stopStrings bs n
  needRange 24 ((List.range n).all (fun j => decide (1 ≤ fieldAt bs j 1) && decide (fieldAt bs j 1 ≤ 64)) && strs.all utfValid)
  let s ← checkSess d v h 16
  needLive s v 16
  need stState (s.tok.detok != 0)
  let a := stopSetAcc h s.tok strs (bitSet (fld v 20 1) 0)
  if recsFit s.tok a.recs then
    .ok (finishOk (postRecs (updTok d h (fun x => { a.t with pendingRecs := x.pendingRecs })) h a.recs) v [(8, 1, (strs.map List.length).foldl Nat.max 0)])
  else failSt stBusy

/-- DETOK_FLUSH (10 R221). [Log entry 54, DESIGN CHOICE.] -/
def detokFlushBody (v : Verb) (d : Dev) : Except Fail Dev := do
  let h := fld v 16 4
  let mode := fld v 20 1
  check4 v false [(21, 43)] [(20, decide (mode < 3))]
  let s ← checkSess d v h 16
  needLive s v 16
  let t := s.tok
  need stState (t.detok != 0)
  need stBusy (mode != 2 || !t.tkOpen)
  if mode = 1 then
    let held := t.utfHold.length + t.stopHold.length
    let drop := fun (x : TokSt) => { x with utfHold := [], utfPos := 0, stopHold := [], detok := 1 }
    .ok (finishOk (updTok d h drop) v [(8, 4, 0), (12, 4, held)])
  else
    let a := flushAcc h t
    if !recsFit t a.recs then failSt stBusy
    else
      let d1 := updTok d h (fun x => { a.t with pendingRecs := x.pendingRecs })
      if mode = 0 then .ok (finishOk (postRecs d1 h a.recs) v [(8, 4, a.emitted), (12, 4, 0)])
      else
        let d2 := keepRunning { d1 with kv.ops := d1.kv.ops ++ [.closeText v.seq h a.emitted 0] } v
        .ok (textPump (postRecs d2 h a.recs) h)

end Sys2Proof.Machine
end

