-- ==== Sys2Proof/Machine/Grammar.lean ====
section
/-!
DEFINITION. Grammar images, masks and the syntax state (11 R225-R236), and the verbs GRAM_LOAD, GRAM_UNLOAD, GRAM_BIND and
MASK_GET.
-/

namespace Sys2Proof.Machine

/-! ### Images (11 Tables 11-1, 11-2) -/

def gStates (g : List Byte) : Nat := fieldAt g 4 2
def gVocab (g : List Byte) : Nat := fieldAt g 8 4
/-- Bytes of a mask. -/
def gMaskBytes (g : List Byte) : Nat := ceilDiv (gVocab g) 512 * 64
/-- Field of state record `s`. -/
def gState (g : List Byte) (s off len : Nat) : Nat := fieldAt g (fieldAt g 24 8 + 32 * s + off) len
/-- Bit `t` of mask `m`. -/
def gMaskBit (g : List Byte) (m t : Nat) : Bool := bitSet (fieldAt g (fieldAt g 32 8 + m * gMaskBytes g + t / 8) 1) (t % 8)
/-- Transition entry `i`. -/
def gTrans (g : List Byte) (i : Nat) : Nat := fieldAt g (fieldAt g 40 8 + 8 * i) 8
/-- Field of dependent entry `i`. -/
def gDep (g : List Byte) (i off len : Nat) : Nat := fieldAt g (fieldAt g 48 8 + 16 * i + off) len

/-- Transition entries of a state: (token, push, next). -/
def stateTrans (g : List Byte) (s : Nat) : List (Nat × Nat × Nat) :=
  (rangeFrom (gState g s 8 4) (gState g s 12 4)).map (fun i =>
    let w := gTrans g i
    (bitsOf w 18 0, bitsOf w 47 32, bitsOf w 63 48))

/-- A dependent entry. -/
structure Dep where
  token : Nat
  req : Nat
  next : Nat
  push : Nat
  pop : Bool
  deriving DecidableEq, Repr

/-- Dependent entries of a state. -/
def stateDeps (g : List Byte) (s : Nat) : List Dep :=
  (rangeFrom (gState g s 16 4) (gState g s 20 2)).map (fun i =>
    { token := gDep g i 0 4, req := gDep g i 4 2, next := gDep g i 6 2, push := gDep g i 8 2, pop := bitSet (gDep g i 10 1) 0 })

/-- Strictly rising, and rising. -/
def risingBy : Bool → List Nat → Bool
  | strict, a :: b :: l => (if strict then decide (a < b) else decide (a ≤ b)) && risingBy strict (b :: l)
  | _, _ => true

/-- Whether a state record may be loaded (11 R228). -/
def stateOk (g : List Byte) (s : Nat) : Bool :=
  let cf := gState g s 0 4
  let pm := gState g s 4 4
  let masks := fieldAt g 12 4
  let ts := stateTrans g s
  let ds := stateDeps g s
  let cfBit := fun t => gMaskBit g cf t
  decide (cf < masks) && (pm == 0xFFFFFFFF || decide (pm < masks)) &&
    decide (gState g s 8 4 + gState g s 12 4 ≤ fieldAt g 16 4) && decide (gState g s 16 4 + gState g s 20 2 ≤ fieldAt g 20 4) &&
    decide (gState g s 20 2 ≤ 4096) && decide (gState g s 22 1 < 4) && gState g s 23 9 == 0 &&
    risingBy true (ts.map (·.1)) &&
    (List.range (8 * gMaskBytes g)).all (fun t => cfBit t == ts.any (fun x => x.1 == t)) &&
    ts.all (fun t => decide (t.1 < gVocab g)) &&
    (List.range (gVocab g)).all (fun t =>
      (pm != 0xFFFFFFFF && gMaskBit g pm t) == ts.any (fun x => x.1 == t && x.2.1 != 0xFFFF)) &&
    risingBy false (ds.map (·.token)) && ds.all (fun e => decide (e.token < gVocab g) && !cfBit e.token)

/-- Whether a transition entry may be loaded, whichever states name it (11 R227, R228). -/
def transOk (g : List Byte) (i : Nat) : Bool :=
  let w := gTrans g i
  bitsOf w 31 19 == 0 && decide (bitsOf w 63 48 < gStates g)

/-- Whether a dependent entry may be loaded, whichever states name it (11 R227, R228). -/
def depOk (g : List Byte) (i : Nat) : Bool :=
  let next := gDep g i 6 2
  decide (gDep g i 0 4 < 2 ^ 19) && decide (gDep g i 10 1 < 2) && gDep g i 11 5 == 0 &&
    (if next = 0xFFFF then bitSet (gDep g i 10 1) 0 else decide (next < gStates g))

/-- Whether a grammar image may be loaded (11 R228). -/
def gramOk (g : List Byte) : Bool :=
  let n := g.length
  decide (64 ≤ n) && fieldAt g 0 4 == 1 && decide (1 ≤ gStates g) && decide (fieldAt g 6 2 < gStates g) &&
    decide (1 ≤ gVocab g) && decide (gVocab g ≤ 524288) && decide (1 ≤ fieldAt g 12 4) && decide (n ≤ 2 ^ 32) &&
    fieldAt g 24 8 % 64 == 0 && fieldAt g 32 8 % 64 == 0 && fieldAt g 40 8 % 8 == 0 && fieldAt g 48 8 % 16 == 0 &&
    decide (fieldAt g 24 8 + 32 * gStates g ≤ n) && decide (fieldAt g 32 8 + fieldAt g 12 4 * gMaskBytes g ≤ n) &&
    decide (fieldAt g 40 8 + 8 * fieldAt g 16 4 ≤ n) && decide (fieldAt g 48 8 + 16 * fieldAt g 20 4 ≤ n) &&
    (List.range (fieldAt g 12 4)).all (fun m => (rangeFrom (gVocab g) (8 * gMaskBytes g - gVocab g)).all (fun t => !gMaskBit g m t)) &&
    (List.range (fieldAt g 16 4)).all (transOk g) && (List.range (fieldAt g 20 4)).all (depOk g) &&
    (List.range (gStates g)).all (stateOk g)

/-! ### Masks and advance (11 R232, R233) -/

/-- The valid end tokens of a parameter block (11 Table 11-3). -/
def endTokens (ps : List Byte) : List Nat :=
  (List.range 4).filterMap (fun i =>
    let w := fieldAt ps (56 + 4 * i) 4
    if bitSet w 31 then some (w % 2 ^ 19) else none)

/-- Whether a dependent entry applies. -/
def depApplies (g : List Byte) (stack : List Nat) (e : Dep) : Bool :=
  !(e.pop && stack.isEmpty) && (e.req == 0xFFFF || stack.getLast? == some e.req) &&
    !(e.next == 0xFFFF && decide (gStates g ≤ (stack.getLast?).getD 0)) &&
    !(e.push != 0xFFFF && stack.length - (if e.pop then 1 else 0) == 256)

/-- Bit `t` of the mask of a state and stack. -/
def maskBit (g : List Byte) (ends : List Nat) (s : Nat) (stack : List Nat) (t : Nat) : Bool :=
  if gVocab g ≤ t then false
  else if ends.contains t then bitSet (gState g s 22 1) 0 && stack.isEmpty
  else
    (gMaskBit g (gState g s 0 4) t && !(stack.length == 256 && gState g s 4 4 != 0xFFFFFFFF && gMaskBit g (gState g s 4 4) t)) ||
      (stateDeps g s).any (fun e => e.token == t && depApplies g stack e)

/-- A syntax state on its way through tokens: (syntax, state, stack). -/
structure Syn where
  mode : Nat
  state : Nat
  stack : List Nat
  deriving DecidableEq, Repr

/-- `advance` of R233 for an allowed token. -/
def advanceSyn (g : List Byte) (ends : List Nat) (y : Syn) (t : Nat) : Syn :=
  if ends.contains t then { y with mode := 2 }
  else
    let z := if gMaskBit g (gState g y.state 0 4) t && decide (t < gVocab g) then
        match (stateTrans g y.state).find? (fun x => x.1 == t) with
        | some x => { y with state := x.2.2, stack := if x.2.1 = 0xFFFF then y.stack else y.stack ++ [x.2.1] }
        | none => y
      else
        match (stateDeps g y.state).find? (fun e => e.token == t && depApplies g y.stack e) with
        | some e =>
          let top := (y.stack.getLast?).getD 0
          let k := if e.pop then y.stack.dropLast else y.stack
          { y with state := if e.next = 0xFFFF then top else e.next, stack := if e.push = 0xFFFF then k else k ++ [e.push] }
        | none => y
    if bitSet (gState g z.state 22 1) 1 && z.stack.isEmpty then { z with mode := 2 } else z

/-- The syntax state of a session. -/
def synOf (y : SynSt) : Syn := { mode := y.mode, state := y.state, stack := y.stack }

/-- The grammar image that a session's masks come from. -/
def sessGram (d : Dev) (y : SynSt) : Option (List Byte) := (y.grammar.bind (findGram d)).map (·.img)

/-- Whether a token is allowed: any where no mask applies. -/
def allowed (g : Option (List Byte)) (ends : List Nat) (y : Syn) (t : Nat) : Bool :=
  match g with
  | some i => y.mode != 1 || maskBit i ends y.state y.stack t
  | none => true

/-- Advance where a grammar is bound and ACTIVE. -/
def advanceBound (g : Option (List Byte)) (ends : List Nat) (y : Syn) (t : Nat) : Syn :=
  match g with
  | some i => if y.mode = 1 then advanceSyn i ends y t else y
  | none => y

/-! ### The grammar cache (11 R234) -/

/-- Lines of 4 KiB of an image that the mask of a state reads. -/
def maskLines (g : List Byte) (s : Nat) : List Nat :=
  let lines := fun off len => if len = 0 then [] else rangeFrom (off / 4096) ((off + len - 1) / 4096 - off / 4096 + 1)
  let mask := fun m => lines (fieldAt g 32 8 + m * gMaskBytes g) (gMaskBytes g)
  (lines (fieldAt g 24 8 + 32 * s) 32 ++ mask (gState g s 0 4) ++
    (if gState g s 4 4 = 0xFFFFFFFF then [] else mask (gState g s 4 4)) ++
    lines (fieldAt g 48 8 + 16 * gState g s 16 4) (16 * gState g s 20 2)).eraseDups

/-- Touch a line: a miss counts and replaces the least recently used of 2,048. -/
def touchLine (p id : Nat) (d : Dev) (line : Nat) : Dev :=
  let rest := d.gcache.filter (fun x => x != (id, line))
  if d.gcache.contains (id, line) then { d with gcache := rest ++ [(id, line)] }
  else
    let c := rest ++ [(id, line)]
    bump { d with gcache := c.drop (c.length - 2048) } 2 p 7 1

/-- The masks of some states of a grammar are computed. -/
def touchMasks (d : Dev) (y : SynSt) (states : List Nat) : Dev :=
  match y.grammar.bind (findGram d) with
  | some g => (states.flatMap (maskLines g.img)).foldl (touchLine g.part g.id) d
  | none => d

/-! ### The verbs -/

/-- GRAM_LOAD (11 R229). [Log entry 52, DEDUCED.] -/
def gramLoadBody (v : Verb) (d : Dev) : Except Fail Dev := do
  let off := fld v 16 8
  let n := fld v 24 8
  check4 v true [(32, 32)] [(16, off % 4096 == 0 && argIn d v off n), (24, argIn d v 0 n),
    (24, structOk d v off n (fun bs => n ≥ 64 && fieldAt bs 56 8 == n))]
  let bs ← argRead d v off n
  let c ← checkCtx73 d v
  let p := ctxPart c
  match findPart d p with
  | none => failId stStale 12
  | some x =>
    need stLimit (decide (d.grammars.length < 64) && decide ((d.grammars.filter (fun y => y.part == p)).length < x.grammars))
    match longestFree d 9 (d.grammars.map (·.id)) 0 64 with
    | none => failSt stLimit
    | some id =>
      match allocDdr d p n (allocKey 9 id) 0 with
      | none => failSt stNospace
      | some d1 =>
        need stRange (gramOk bs)
        let dig := (sha512 bs).take 16
        let g : Grammar := { id := id, part := p, digest := dig, img := bs, damaged := [] }
        .ok (finishOk (setOwner { d1 with grammars := d1.grammars ++ [g] } 9 id (p * 64)) v
          [(8, 1, id), (12, 4, ceilDiv n 1024), (16, 16, leNat dig)])

/-- GRAM_UNLOAD (11 R230). -/
def gramUnloadBody (v : Verb) (d : Dev) : Except Fail Dev := do
  let i := fld v 16 1
  check4 v false [(17, 47)] [(16, decide (i < 64))]
  checkOwned d v 9 i 16 (findGram d i).isSome
  need stBusy (!d.kv.cat.any (fun s => s.state != 0 && s.state != 4 && !s.retired && s.syn.grammar == some i))
  let d1 := nextRelease d
  let d2 := { d1 with
    grammars := dropWhere (fun x => x.id == i) d1.grammars
    gcache := d1.gcache.filter (fun x => x.1 != i) }
  .ok (finishOk (freeAllocs (stampFree d2 9 i) (allocKey 9 i)) v [])

/-- Replay log entries (11 R235): the syntax state, or the position of the first that the mask bars, whether or not an end token or a TERMINAL state
came before it; the states whose masks were read. -/
def replaySyn (g : List Byte) (ends : List Nat) : List Nat → Nat → Syn → List Nat → Except Nat (Syn × List Nat)
  | [], _, y, seen => .ok (y, seen)
  | t :: ts, pos, y, seen =>
    if maskBit g ends y.state y.stack (t % 2 ^ 19) then
      replaySyn g ends ts (pos + 1) (advanceSyn g ends y (t % 2 ^ 19)) (seen ++ [y.state])
    else .error pos

def updSyn (d : Dev) (h : Nat) (f : SynSt → SynSt) : Dev := updSess d h (fun s => { s with syn := f s.syn })

/-- GRAM_BIND (11 R235). -/
def gramBindBody (v : Verb) (d : Dev) : Except Fail Dev := do
  let h := fld v 16 4
  let gi := fld v 20 1
  let mode := fld v 21 1
  let pos := fld v 24 4
  let none' := (12, 4, 0xFFFFFFFF)
  check4 v false [(22, 2), (28, 36)] [(20, decide (gi < 64)), (21, decide (mode < 3))]
  let s ← checkSess d v h 16
  needLive s v 16
  if mode = 0 then
    let clear := fun (y : SynSt) =>
      { y with mode := 0, grammar := none, gramDigest := [], state := 0, stack := [], finished := false, bindPos := 0 }
    .ok (finishOk (updSyn d h clear) v [none'])
  else
    checkOwnedIn d v (ctxPart s.ctx) 9 gi 20 (findGram d gi).isSome
    match findGram d gi with
    | none => failId stStale 20
    | some g =>
      let start : Syn := { mode := 1, state := fieldAt g.img 6 2, stack := [] }
      let put := fun (y : Syn) (bp : Nat) (x : SynSt) =>
        { x with mode := y.mode, grammar := some gi, gramDigest := g.digest, state := y.state, stack := y.stack, finished := false,
                 bindPos := bp }
      let done := fun (d1 : Dev) (y : Syn) (bp : Nat) =>
        finishOk (updSyn d1 h (put y bp)) v [(8, 2, y.state), (10, 2, y.stack.length), none', (16, 4, bp)]
      if mode = 1 then .ok (done d start s.log.length)
      else if s.log.length < pos then failWith stRange [none']
      else
        match replaySyn g.img (endTokens s.syn.params) (s.log.drop pos) pos start [] with
        | .error b => failWith stRange [(12, 4, b)]
        | .ok (y, seen) => .ok (done (touchMasks d { s.syn with grammar := some gi } seen) y pos)

/-- The allowed-token bits of a session's present state, one for each token up to a multiple of 512 (11 R233, R236). -/
def maskRow (g : List Byte) (y : SynSt) : List Bool :=
  (List.range (8 * gMaskBytes g)).map (maskBit g (endTokens y.params) y.state y.stack)

/-- Bits as bytes, bit 0 of byte 0 first. -/
def packBits (bits : List Bool) : List Byte :=
  (chunksOf 8 bits.length bits).map (fun c => byte (sumNat ((List.range 8).map (fun i => if nth c i false then 2 ^ i else 0))))

/-- Whether the present state allows an end token (11 R236). -/
def endAllowed (g : List Byte) (y : SynSt) : Bool :=
  (endTokens y.params).any (fun t => maskBit g (endTokens y.params) y.state y.stack t)

/-- MASK_GET (11 R236). -/
def maskGetBody (v : Verb) (d : Dev) : Except Fail Dev := do
  let h := fld v 16 4
  let off := fld v 24 8
  let n := fld v 32 4
  check4 v false [(20, 4), (36, 28)] [(24, off % 64 == 0 && outIn d v off n)]
  let s ← checkSess d v h 16
  if s.state = 4 then failId stState 16 else
  need stState (s.syn.mode == 1)
  match sessGram d s.syn with
  | none => failSt stState
  | some g =>
    let mb := gMaskBytes g
    needRange 32 (decide (mb ≤ n))
    need stDamaged (!outPartial d v off mb && !tablesHit d s v.seq 0)
    let bits := maskRow g s.syn
    let d1 := outWrite (touchMasks d s.syn [s.syn.state]) v off (packBits bits)
    .ok (finishOk d1 v [(8, 2, s.syn.state), (10, 2, s.syn.stack.length), (12, 4, (bits.filter id).length),
      (16, 1, if endAllowed g s.syn then 1 else 0)])

end Sys2Proof.Machine
end

