-- ==== Sys2Proof/Machine/Jobs.lean ====
section
/-!
DEFINITION. Running jobs (03 R37-R41, 06 R117-R132, 07 R137, R142, 15 R350): snapshots, work items, slices on clusters and
channel cores, the merge of partial records, visibility, and completion.
-/

namespace Sys2Proof.Machine

/-! ### Snapshot and work items (06 R117, R126, R127) -/

/-- The tier that answers a phrase: 0 HBM, 1 DDR, 2 flash. -/
def phraseTier (x : Phrase) : Nat := if x.hbm.isSome then 0 else if x.ddr then 1 else 2

/-- The NAND channel of a phrase's flash copy: that of its first page. [Log entry 44, DESIGN CHOICE.] -/
def phraseChannel (d : Dev) (x : Phrase) : Nat :=
  match x.flash.bind (gpageOf d x.part) with
  | some g =>
    match livePage d g with
    | some pg => (match d.flash.groups.find? (fun b => b.id == pg.bg) with
      | some b => (laneOf b.set pg.lane).1
      | none => 0)
    | none => 0
  | none => 0

/-- The check value of a set of phrases (06 R127). -/
def checkOf (xs : List (Nat × Nat)) : Nat := sumNat (xs.map (fun x => x.1 ^^^ (x.2 * 65536))) % 2 ^ 32

/-- A work item with nothing done. -/
def freshItem (num kind tier channel : Nat) (phrases : List Nat) (tailIdx pos0 positions check : Nat) : WItem :=
  { noItem with
    num := num, kind := kind, tier := tier, channel := channel, phrases := phrases, tailIdx := tailIdx, pos0 := pos0
    positions := positions, check := check }

/-- The sealed work items of a storage kind: phrases of one tier and, on flash, one channel, up to `size` to an item. -/
def sealedItems (d : Dev) (p kind size : Nat) (ids : List Nat) : List WItem :=
  let xs := ids.filterMap (findPhrase d p)
  let key := fun (x : Phrase) => if phraseTier x = 2 then 2 + phraseChannel d x else phraseTier x
  let keys := (xs.map key).eraseDups
  keys.flatMap (fun k =>
    let own := xs.filter (fun x => key x == k)
    (List.range (ceilDiv own.length size)).map (fun i =>
      let grp := (own.drop (i * size)).take size
      freshItem 0 kind (Nat.min k 2) (k - 2) (grp.map (·.id)) 0 ((grp.head?.map (·.firstPos)).getD 0)
        (sumNat (grp.map (·.count))) (checkOf (grp.map (fun x => (x.id, x.version))))))

/-- The tail and draft work items of a storage kind. -/
def openItems (l : LayerRec) (r : JobRow) (kind : Nat) : List WItem :=
  match r.layer with
  | none => []
  | some st =>
    let old := match st.tails.find? (fun t => t.kind == kind) with | some t => t.count | none => 0
    let ver := match st.tails.find? (fun t => t.kind == kind) with | some t => t.version | none => 1
    let total := if rowTree r then old else old + r.qcount
    let _ := l
    (List.range (ceilDiv total 64)).map (fun k =>
      freshItem 0 kind 3 0 [] k (st.tailFirst + 64 * k) (Nat.min 64 (total - 64 * k)) (checkOf [(0, if k = 0 then ver else 1)])) ++
    (if rowTree r then
      [freshItem 0 kind 4 0 [] 0 r.cached ((r.tree.map (·.nodes)).getD 0) (checkOf [(0, 1)])]
    else [])

/-- The work items of a stem row, numbered from 0. -/
def rowItems (d : Dev) (p : Nat) (l : LayerRec) (size : Nat) (r : JobRow) : List WItem :=
  match r.layer with
  | none => []
  | some st =>
    let all := (layerKinds l).flatMap (fun k =>
      sealedItems d p k size (if k = 0 then st.stem else st.direct) ++ openItems l r k)
    ((List.range all.length).zip all).map (fun x => { x.2 with num := x.1 })

/-- The snapshot of a row whose checks hold. -/
def snapRow (d : Dev) (j : Job) (l : LayerRec) (lenUs : Nat) (thinJob : Bool) (r : JobRow) : JobRow :=
  let st := rowStatus d j r
  if st.1 ≠ 0 then { r with status := st.1, detail := st.2 }
  else
    match rowSess d j.ctx r with
    | none => r
    | some s =>
      let layer := s.layers[j.layer]?
      let tree := if !rowTree r then none
        else match s.tree with
          | some t => some t
          | none => (match rowTreeOf d j r with | .ok t => some t | .error _ => none)
      let r1 := { r with
        handle := handleOf s
        layer := layer
        tree := tree
        thin := thinJob && r.qcount == 1 && !rowTree r
        recNext := match layer.bind (·.recur) with | some x => x.shadow | none => [] }
      if l.kind = 0 then { r1 with items := rowItems d j.part l (1 + Config.itemPhrases l.kAtt lenUs % 16) r1 } else r1

/-- Whether a row is thin by itself (06 R131). -/
def rowThin (l : LayerRec) (r : JobRow) : Bool := l.kind == 1 && r.qcount == 1 && !rowTree r && l.thin == 1

/-! ### Units of work -/

/-- Rows of a job that have not failed. -/
def okRows (j : Job) : List JobRow := j.rows.filter (fun r => r.status == 0)

/-- Whether main cores may take up a work item now: it is new, or it stood at a barrier of an ABSORB job that is now complete (06 R120). -/
def itemReady (j : Job) (w : WItem) : Bool :=
  w.state == 0 && !w.refetch && w.tier != 2 &&
    (if w.resume = 0 then !w.done else if w.bars = 1 then allFolded j else allMerged j)

/-- BAR_DEV that an item's cores have passed when they take it up. -/
def itemBars (w : WItem) : Nat := if w.resume = 0 then 0 else w.bars

/-- The (row, item) units that main cores still have to run in the job's phase; those of one slice stand at the same barrier. -/
def mainUnits (stem : Bool) (j : Job) : List (Nat × Nat) :=
  if j.phase = 1 && stem then
    let all := (okRows j).flatMap (fun r => (r.items.filter (itemReady j)).map (fun w => (r.idx, w)))
    let low := minOr 0 (all.map (fun x => itemBars x.2))
    (all.filter (fun x => itemBars x.2 == low)).map (fun x => (x.1, x.2.num))
  else j.units.filter (fun u => (okRows j).any (fun r => r.idx == u.1))

/-- The flash items that wait for channel cores; their rows' Q regions have been copied (07 R141). -/
def flashUnits (j : Job) : List (Nat × Nat × Nat) :=
  if j.phase ≠ 1 then []
  else (okRows j).flatMap (fun r => if r.qCopy.isNone then []
    else (r.items.filter (fun w => w.state == 0 && !w.done && !w.refetch && w.tier == 2)).map (fun w => (r.idx, w.num, w.channel)))

/-- Units of a phase that runs one unit per row. -/
def rowUnits (j : Job) : List (Nat × Nat) := (okRows j).map (fun r => (r.idx, 0))

/-! ### Slices (07 R137, R142) -/

/-- The kernel of a layer's phase. [Log entry 44, DESIGN CHOICE.] -/
def phaseKernel (l : LayerRec) (phase : Nat) : Nat :=
  match phase with
  | 0 => l.kIn
  | 1 => l.kAtt
  | _ => l.kOut

/-- First head and heads of a unit. -/
def unitHeads (l : LayerRec) (phase : Nat) (w : Option WItem) : Nat × Nat :=
  if l.kind = 1 then (0, l.rh)
  else
    match w with
    | some x => if phase ≠ 1 then (0, l.qh + l.h) else kindHeads l x.kind
    | none => (0, l.qh + l.h)

/-- The PRM block of a core (07 Table 7-5). -/
def prmBlock (j : Job) (l : LayerRec) (r : JobRow) (w : Option WItem) (channel : Bool) (rank cores gangRank gangLog2 gang : Nat) :
    List Byte :=
  let hd := unitHeads l j.phase w
  let flag := fun (b : Bool) n => if b then 2 ^ n else 0
  let mode := flag j.absorb 0 + flag (rowTree r) 1 + flag r.thin 2 + flag channel 3 +
    flag (w.any (fun x => x.tier == 3)) 4 + flag (w.any (fun x => x.tier == 4)) 5
  let cnt := match w with | some x => if 3 ≤ x.tier then 1 else x.phrases.length | none => 0
  natLe j.num 4 ++ natLe r.idx 4 ++ natLe ((w.map (·.num)).getD 0) 4 ++ natLe r.qcount 2 ++ natLe 0 2 ++ natLe r.qcount 2 ++
    natLe hd.1 2 ++ natLe hd.2 2 ++ natLe j.layer 2 ++ natLe (if rowTree r then 0 else r.cached) 4 ++
    natLe ((w.map (·.pos0)).getD 0) 4 ++ natLe ((w.map (·.positions)).getD 0) 4 ++ natLe cnt 2 ++ [byte j.phase] ++
    [byte mode] ++ natLe (r.slotWord % 2 ^ 18) 4 ++ natLe rank 2 ++ natLe cores 2 ++ [byte gangRank] ++ [byte gangLog2] ++
    natLe gang 2 ++ List.replicate 12 0

/-- A core at the start of a slice (07 R137): stores unwritten, accumulators, flags 0-55 and counters zero. [Log entry 44, DESIGN CHOICE.] -/
def freshCore (num slice job row item run kernel : Nat) (prm : List Byte) (gang gangRank rank flags : Nat) : Core :=
  { num := num, slice := slice, job := job, row := row, item := item, run := run, kernel := kernel, prm := prm, gang := gang
    gangRank := gangRank, rank := rank, pc := 0, queue := [], ended := false, ts := [], acc := [], flags := flags, idx := [0, 0, 0, 0]
    loops := [], units := [], mvts := [], nextMvt := 0, sig := none, wait := 0 }

/-- Bring a kernel into the kernel caches of clusters (07 R136, R159): 256 KiB each, the kernels fetched longest ago making room. [Log entry 117, DESIGN CHOICE.] -/
def fillCache (d : Dev) (kernel : Nat) (clusters : List Nat) : Dev :=
  let size := fun (k : Nat) => match findKernel d k with | some x => x.bytes | none => 0
  let fit := fun (ks : List Nat) => ks.foldr (fun k (acc : List Nat) => if sumNat ((k :: acc).map size) ≤ 262144 then k :: acc else acc) []
  let one := fun (l : List (Nat × List Nat)) (c : Nat) =>
    let old := match l.find? (fun x => x.1 == c) with | some x => x.2 | none => []
    if old.contains kernel then l else upsert (fun x => x.1 == c) (c, fit (old ++ [kernel])) l
  { d with arr.kcache := clusters.foldl one d.arr.kcache }

/-- Flags 56-63 of a core (07 R152). [Log entry 44, DESIGN CHOICE.] -/
def deviceFlags (first last tree absorb lastGang firstGang channel : Bool) : Nat :=
  let f := fun (b : Bool) n => if b then 2 ^ n else 0
  f first 56 + f last 57 + f tree 58 + f absorb 59 + f lastGang 60 + f firstGang 61 + f channel 62

/-- The phrase item that a unit names in the ATT phase of a stem layer. [Log entry 44, DESIGN CHOICE.] -/
def unitItem (stem : Bool) (j : Job) (r : JobRow) (n : Nat) : Option WItem :=
  if stem && j.phase == 1 then rowItem r n else none

/-- Start a main-core slice of a job on its clusters: a gang for each unit, as far as the gangs go. `k` is the job's number of
slices so far. -/
def startMain (d : Dev) (j : Job) (l : LayerRec) (clusters : List Nat) : Dev :=
  let kn := phaseKernel l j.phase
  let g := match findKernel d kn with | some x => x.gangLog2 | none => 0
  let stem := l.kind == 0
  let us := mainUnits stem j
  let gpc := 16 / 2 ^ g
  let take := us.take (clusters.length * gpc)
  if take.isEmpty then d
  else
    let used := clusters.take (ceilDiv take.length gpc)
    let cores := take.length * 2 ^ g
    let first := j.phase == 0 && us.length == (okRows j).length
    let last := j.phase == 2 && take.length == us.length
    let id := d.arr.nextSlice
    let mk := fun (x : Nat × Nat × Nat) =>
      (List.range (2 ^ g)).filterMap (fun m =>
        (jobRow j x.2.1).map (fun r =>
          let w := unitItem stem j r x.2.2
          let num := nth used (x.1 / gpc) 0 * 16 + x.1 % gpc * 2 ^ g + m
          let rank := x.1 * 2 ^ g + m
          goTo d (freshCore num id j.num x.2.1 x.2.2 ((w.map (·.run)).getD 0) kn (prmBlock j l r w false rank cores m g x.1) x.1 m rank
            (deviceFlags first last (rowTree r) j.absorb (m + 1 == 2 ^ g) (m == 0) false)) ((w.map (·.resume)).getD 0)))
    let cs := ((List.range take.length).zip take).flatMap mk
    let bars := match take with
      | u :: _ => (((jobRow j u.1).bind (fun r => unitItem stem j r u.2)).map itemBars).getD 0
      | [] => 0
    let s : Slice := { id := id, job := j.num, channel := false, clusters := used, cores := cs.map (·.num), cs := [], sems := [],
                       barriers := bars }
    let mark := fun (r : JobRow) => { r with
      items := r.items.map (fun w => if j.phase == 1 && take.contains (r.idx, w.num) then { w with state := 1 } else w) }
    let d0 := fillCache d kn used
    let d1 := { d0 with
      arr.cores := d0.arr.cores ++ cs
      arr.slices := d0.arr.slices ++ [s]
      arr.nextSlice := id + 1 }
    updJob d1 j.num (fun x => { x with
      state := 1
      units := dropWhere (fun u => take.contains u) x.units
      rows := if stem then x.rows.map mark else x.rows })

/-- The channel core that takes a channel's item: the channel's pair, then that of the neighbouring channel, leaving out those in
use or out of service (18 Table 18-3). -/
def pickChannelCore (d : Dev) (busy : List Nat) (ch : Nat) : Option Nat :=
  let n := if ch % 2 = 0 then ch + 1 else ch - 1
  let alive := fun c => !d.arr.fcOut.contains c && !d.arr.held.any (fun h => h.cluster == 256 && h.pos == c)
  let pair := [2 * ch, 2 * ch + 1]
  let cand := if pair.any alive then pair else [2 * n, 2 * n + 1]
  cand.find? (fun c => alive c && !busy.contains c)

/-! ### Semaphores and barrier channels (07 R151, R152) -/

/-- The gangs and clusters of semaphore instances that a slice of `gangs` gangs on `clusters` clusters binds beside those of job scope. -/
def semsNeeded (k : Kernel) (gangs clusters : Nat) : Nat :=
  sumNat ((List.range k.sems).map (fun n =>
    match semScope k n with
    | 0 => gangs
    | 1 => clusters
    | _ => 0))

/-- Semaphores of job scope of a kernel: bound once for the job, whose main and channel cores share them. -/
def jobSems (k : Kernel) : Nat := ((List.range k.sems).filter (fun n => semScope k n == 2)).length

/-- The kernel that a slice runs. -/
def sliceKernel (d : Dev) (s : Slice) : Option Kernel := (d.arr.cores.find? (fun c => c.slice == s.id)).bind (coreKernel d)

/-- Hardware semaphores in use, in main and channel slices. -/
def semsBound (d : Dev) : Nat :=
  let own := sumNat (d.arr.slices.map (fun s =>
    match sliceKernel d s with
    | some k => semsNeeded k (if s.channel then 1 else s.cores.length / 2 ^ k.gangLog2) (if s.channel then 1 else s.clusters.length)
    | none => 0))
  let shared := sumNat (d.arr.jobs.map (fun j =>
    ((d.arr.slices.filter (fun s => s.job == j.num)).filterMap (sliceKernel d)).foldl (fun m k => Nat.max m (jobSems k)) 0))
  own + shared

/-- Device barrier channels in use: one for each job that spans more than one cluster. -/
def barriersBound (d : Dev) : Nat := (d.arr.slices.filter (fun s => decide (1 < s.clusters.length))).length

/-- Whether the semaphores and the barrier channel of a slice of kernel `kn` on `n` clusters can be bound; `n` 0 is a channel core's. -/
def canBind (d : Dev) (kn n : Nat) : Bool :=
  match findKernel d kn with
  | none => true
  | some k =>
    let need := if n = 0 then semsNeeded k 1 1 else semsNeeded k (n * (16 / 2 ^ k.gangLog2)) n
    decide (semsBound d + need + jobSems k ≤ 65536) && (decide (n ≤ 1) || decide (barriersBound d < 64))

/-- Promotions of phrases out of flash that wait or are under way share the one read of a work item that needs those phrases (09 R183): they
move up to the class of flash reads. -/
def shareReads (d : Dev) (p : Nat) (ids : List Nat) : Dev :=
  let mine := fun (w : Mover) => match w.what with
    | .phrase q i t => q == p && ids.contains i && decide (t < 2) && w.state == 0 &&
        (match findPhrase d q i with | some x => x.hbm.isNone && !x.ddr | none => false)
    | _ => false
  { d with kv.movers := updWhere mine (fun w => { w with order := 1 }) d.kv.movers }

/-- Start channel-core slices for a job's flash items, one item to a channel core (06 R128). -/
def startFlash (d : Dev) (j : Job) (l : LayerRec) : Dev :=
  (flashUnits j).foldl (fun a u =>
    let busy := (a.arr.cores.filter (fun c => decide (4096 ≤ c.num))).map (fun c => c.num - 4096)
    match (if canBind a l.kAtt 0 then pickChannelCore a busy u.2.2 else none), jobRow j u.1 with
    | some fc, some r =>
      let id := a.arr.nextSlice
      let g := match findKernel a l.kAtt with | some x => x.gangLog2 | none => 0
      let w := rowItem r u.2.1
      let c := goTo a (freshCore (4096 + fc) id j.num u.1 u.2.1 ((w.map (·.run)).getD 0) l.kAtt (prmBlock j l r w true 0 1 0 g 0) 0 0 0
        (deviceFlags false false (rowTree r) j.absorb true true true)) 0
      let s : Slice := { id := id, job := j.num, channel := true, clusters := [], cores := [4096 + fc], cs := [], sems := [],
                         barriers := 0 }
      let a1 := { a with
        arr.cores := a.arr.cores ++ [c]
        arr.slices := a.arr.slices ++ [s]
        arr.nextSlice := id + 1 }
      let a2 := shareReads a1 j.part ((w.map (·.phrases)).getD [])
      updItem (updJob a2 j.num (fun x => { x with state := 1 })) j.num u.1 u.2.1 (fun x => { x with state := 1 })
    | _, _ => a) d

/-! ### Progress of a job -/

/-- The layer record of a job. -/
def jobLayer (d : Dev) (j : Job) : Option LayerRec := (findModel d j.model).bind (fun m => m.layers[j.layer]?)

/-- Whether a job runs kernels on the cores: attention, and APPEND from hidden rows. -/
def usesKernels (j : Job) : Bool := j.kind == 0 || j.kind == 5

/-- The unit of the next layer of an APPEND's job (05 R100). [Log entry 32, DEDUCED.] -/
def nextAppendLayer (j : Job) : Option Nat := (j.rows.find? (fun r => r.idx == j.layer + 1)).map (·.idx)

/-- Whether slices of a job run. -/
def jobRunning (d : Dev) (job : Nat) : Bool := d.arr.slices.any (fun s => s.job == job)

/-- Let the slices of a job pass the barriers at which they stand, where they can. -/
def settleBarriers (d : Dev) (job : Nat) : Dev := (d.arr.slices.filter (fun s => s.job == job)).foldl (fun a s => settleBarrier a s.id) d

/-- Move an attention job on when nothing of it runs: the next units, the next phase, or its end. `inClause`: a further slice may
follow in this clause. [Log entry 45, DEDUCED.] -/
def advanceJob : Nat → Dev → Nat → Bool → Dev
  | 0, d, _, _ => d
  | k + 1, d, job, inClause =>
    match findJob d job with
    | none => d
    | some j =>
      match jobLayer d j with
      | none => d
      | some l =>
        if !usesKernels j || j.state = 3 || 5 ≤ j.state || jobRunning d job then d
        else if (okRows j).isEmpty || l.kind = 2 then updJob d job (fun x => { x with state := 3 })
        else if !(mainUnits (l.kind == 0) j).isEmpty then
          if inClause && !j.given.isEmpty && Config.sliceFits job d.arr.nextSlice && canBind d (phaseKernel l j.phase) j.given.length then
            startMain d j l j.given
          else updJob d job (fun x => { x with state := 2 })
        else
          match j.phase with
          | 0 =>
            if j.kind = 5 then
              match nextAppendLayer j with
              | some n => advanceJob k (updJob d job (fun x => { x with layer := n, units := [(n, 0)] })) job inClause
              | none => updJob d job (fun x => { x with state := 3 })
            else advanceJob k (updJob d job (fun x => { x with phase := 1, units := if l.kind = 0 then [] else rowUnits x })) job inClause
          | 1 =>
            if l.kind = 0 && !allMerged j then updJob d job (fun x => { x with state := 4 })
            else advanceJob k (updJob d job (fun x => { x with phase := 2, units := rowUnits x })) job inClause
          | _ => updJob d job (fun x => { x with state := 3 })

/-- What the end of a slice leaves of its items: one whose run is over has ended; one that was issued anew meanwhile waits again. -/
def endItem (c : Core) (w : WItem) : WItem :=
  if w.state ≠ 1 then w else if w.run = c.run then { w with state := 2 } else { w with state := 0, resume := 0 }

/-- The semaphores of job scope are released with the job's last running slice (07 R151). -/
def releaseSems (d : Dev) (job : Nat) : Dev := if jobRunning d job then d else updJob d job (fun j => { j with sems := [] })

/-- A slice ends when every core in it has executed END and nothing that it issued is outstanding: its cores and semaphores are
released, and the job moves on (07 R149, R151). -/
def endSlice (id : Nat) (d : Dev) : Dev :=
  match findSlice d id with
  | none => d
  | some s =>
    let cs := d.arr.cores.filter (fun (c : Core) => c.slice == id)
    if !cs.all (fun c => c.ended && c.units.isEmpty && c.mvts.isEmpty && c.sig.isNone) then d
    else
      let d1 := releaseSems { d with
        arr.cores := dropWhere (fun (c : Core) => c.slice == id) d.arr.cores
        arr.slices := dropWhere (fun (x : Slice) => x.id == id) d.arr.slices } s.job
      match findJob d1 s.job with
      | none => d1
      | some j =>
        if !usesKernels j then updJob d1 j.num (fun x => { x with state := 3 })
        else
          let d2 := if j.phase = 1 then cs.foldl (fun a c => updItem a c.job c.row c.item (endItem c)) d1 else d1
          advanceJob 4 (settleBarriers d2 s.job) s.job true

/-- Jobs whose slice was cut at a barrier move on (06 R120). -/
def advanceCut (d : Dev) : Dev :=
  (d.arr.jobs.filter (fun j => usesKernels j && j.state == 1)).foldl (fun a j => if jobRunning a j.num then a else advanceJob 4 (releaseSems a j.num) j.num true) d

/-! ### The merge unit (06 R128) -/

/-- Merge one entry of a record into a row's accumulators. -/
def mergeEntry (r : JobRow) (kind q h : Nat) (t : Triple) : JobRow :=
  let hit := fun (x : Nat × Nat × Nat × Triple) => x.1 == kind && x.2.1 == q && x.2.2.1 == h
  let old := match r.acc.find? hit with
    | some x => x.2.2.2
    | none => { m := f32NegInf, s := 0, o := [] }
  { r with acc := upsert hit (kind, q, h, mergeTriple old t) r.acc }

/-- The (query, head) pairs that a record covers. -/
def recordPairs (p : PartRec) : List (Nat × Nat) :=
  (List.range (p.queries * p.heads)).map (fun i => (p.firstQuery + i / Nat.max 1 p.heads, p.firstHead + i % Nat.max 1 p.heads))

/-- The pairs that an item must answer: its queries by the heads of its kind. -/
def itemComplete (l : LayerRec) (r : JobRow) (w : WItem) : Bool :=
  let hd := unitHeads l 1 (some w)
  decide (r.qcount * hd.2 ≤ w.got.eraseDups.length)

/-- `finish` of 06 R128: once every item of a row has merged, the merge unit divides each sum by its weight; the finished outputs, in FP32, are where
the kernels find them (`Config.mergedAt`). [Log entry 42, DEDUCED.] -/
def finishRow (d : Dev) (job row : Nat) : Dev :=
  match (findJob d job).bind (fun j => (jobRow j row).bind (fun r => (jobLayer d j).map (fun l => (j, r, l)))) with
  | none => d
  | some (j, r, l) =>
    if !r.items.all (·.done) then d
    else
      let kern := match findKernel d l.kAtt with | some k => k.digest | none => []
      let put := fun (s : List (Nat × Mem)) (q h i c : Nat) =>
        let a := Config.mergedAt kern row q h i
        let old := match s.find? (fun x => x.1 == a.1) with | some x => x.2 | none => []
        upsert (fun x => x.1 == a.1) (a.1, staleWrite (scratchKey j.num a.1) old a.2 (natLe c 4)) s
      let one := fun (s : List (Nat × Mem)) (e : Nat × Nat × Nat × Triple) =>
        ((List.range e.2.2.2.o.length).zip e.2.2.2.o).foldl (fun t x => put t e.2.1 e.2.2.1 x.1 (f32Div x.2 e.2.2.2.s)) s
      updJob d job (fun x => { x with scratch := r.acc.foldl one x.scratch })

/-- A partial record reaches the merge unit of its row. A record of a run that has been given up counts as a mismatch like any other and does not
fail the row. [Log entry 44, DESIGN CHOICE.] -/
def mergeRecord (d : Dev) (p : PartRec) : Dev :=
  match findJob d p.job with
  | none => d
  | some j =>
    match jobRow j p.row, jobLayer d j with
    | some r, some l =>
      match rowItem r p.item with
      | none => d
      | some w =>
        if w.done then bump d 2 j.part 1 1
        else if p.poisoned then d
        else if p.check ≠ w.check then
          let d1 := raise (bump d 2 j.part 2 1) 0x0430 (objPart j.part) (.part j.part)
            [(8, fieldAt j.desc 72 8), (4, p.row), (4, p.item), (4, w.check), (4, p.check)]
          if p.run ≠ w.run then d1
          else if w.tries = 0 then
            updItem d1 p.job p.row p.item (fun x => { x with state := if x.state = 1 then 1 else 0, tries := 1, run := x.run + 1, resume := 0 })
          else failRow d1 p.job p.row 9 j.layer
        else
          let ps := recordPairs p
          let fresh := (ps.zip p.entries).filter (fun e => !w.got.contains e.1)
          let add := fun (x : JobRow) => fresh.foldl (fun a e => mergeEntry a p.kind e.1.1 e.1.2 e.2) x
          let d1 := updRow d p.job p.row add
          let d2 := updItem d1 p.job p.row p.item (fun x =>
            let y := { x with got := x.got ++ fresh.map (·.1) }
            if itemComplete l r y then { y with done := true, refetch := false } else y)
          finishRow d2 p.job p.row
    | _, _ => d

/-- PARTIAL_RECORD_ARRIVAL: record `i` of those on their way arrives; barriers that waited for it and jobs that waited for
it move on. -/
def recordArrival (i : Nat) (d : Dev) : Dev :=
  match d.arr.records[i]? with
  | none => d
  | some p =>
    let d1 := mergeRecord { d with arr.records := d.arr.records.eraseIdx i } p
    let d2 := advanceCut (settleBarriers d1 p.job)
    match findJob d2 p.job with
    | some j => if j.state = 4 then advanceJob 4 d2 p.job true else d2
    | none => d2

/-! ### Visibility and completion (06 R115-R117) -/

/-- Write the tokens that a row logs (06 R119). -/
def logRow (d : Dev) (j : Job) (r : JobRow) (s : Sess) : Option Dev :=
  if !rowLogs r || r.cached + r.qcount ≤ s.log.length then some d
  else
    let toks := (rangeFrom (s.log.length - r.cached) (r.cached + r.qcount - s.log.length)).map
      (rowToken d (jobBase d j) (fieldAt j.desc 48 8) r)
    (chargeLog d (ctxPart s.ctx) s.home (allocKey 1 (handleOf s)) (r.cached + r.qcount)).map (fun a =>
      updSess a (handleOf s) (fun x => { x with log := x.log ++ toks }))

/-- Store a layer's state. -/
def putLayer (d : Dev) (h layer : Nat) (st : LayerSt) : Dev := updSess d h (fun x => { x with layers := setNth x.layers layer st })

/-- Make the writes of one row visible; none where the grant has no room (05 R96). -/
def applyRow (d : Dev) (j : Job) (l : LayerRec) (r : JobRow) (s : Sess) (st : LayerSt) : Option Dev :=
  let h := handleOf s
  if l.kind = 2 then some d
  else if rowTree r then
    match r.tree with
    | none => some d
    | some t =>
      (chargeDraft d s j.layer l t.nodes).map (fun a =>
        let a1 := updSess a h (fun x => { x with tree := some t })
        if l.kind = 1 then
          let ins := (List.range t.nodes).map (fun n => match r.nodes.find? (fun x => x.1 == n) with | some x => x.2 | none => [])
          putLayer a1 h j.layer { st with recur := st.recur.map (fun x => { x with treeIn := ins }) }
        else
          let ks := layerKinds l
          putLayer a1 h j.layer { st with
            draftFirst := r.cached
            draft := ks.map (fun k => let p := draftPhrase l j r k; { p with version := p.version + 1 })
            draftMarks := ks.map (fun k => (draftNews r k).map (fun x => (x.sat, x.clamped))) })
  else
    match logRow d j r s with
    | none => none
    | some a =>
      if l.kind = 1 then
        let next := fun (x : RecSt) => { x with
          cur := r.recNext, shadow := x.cur, len := r.cached + r.qcount, shadowLen := some r.cached, updates := x.updates + 1 }
        some (putLayer a h j.layer { st with recur := st.recur.map next })
      else
        let of := fun k => (List.range r.qcount).map (fun i =>
          match r.news.find? (fun x => x.1 == k && x.2.1 == i) with | some x => x.2.2 | none => noRow)
        let rows := (layerKinds l).map of
        (appendRows s j.layer l (r.qcount / 64 + 2) a st rows r.qcount).map (fun y => putLayer y.2.2 h j.layer y.1)

/-- The output bytes of a KIND 2 row: its input, in OUT_FMT (06 R110). -/
def copyOut (d : Dev) (j : Job) (hidden : Nat) (r : JobRow) : List Byte :=
  let wide := bitSet (fieldAt j.desc 1 1) 3
  let same := !wide && !bitSet (fieldAt j.desc 1 1) 2
  if same then inputBytes d j hidden r (jobBase d j) 0 (r.qcount * hidden * 2)
  else (List.range (r.qcount * hidden)).flatMap (fun e =>
    let v := inputValue d j hidden r (jobBase d j) e
    if wide then natLe (enc32 v) 4 else natLe (fvEncode fmtBf16 v) 2)

/-- The output bytes of a row: zeros where it failed. [Log entry 42, DEDUCED.] -/
def rowOutput (d : Dev) (j : Job) (l : LayerRec) (hidden : Nat) (r : JobRow) : List Byte :=
  let n := r.qcount * hidden * outBytes j
  if r.status ≠ 0 then List.replicate n 0
  else if l.kind = 2 then copyOut d j hidden r
  else staleRead (outKey j.num r.idx) r.out 0 n

/-- The final check and visibility of one row. -/
def settleRow (j : Job) (l : LayerRec) (d : Dev) (i : Nat) : Dev :=
  match (findJob d j.num).bind (fun x => jobRow x i) with
  | none => d
  | some r =>
    if r.status ≠ 0 then d
    else
      let st := rowStatus d j r
      if st.1 ≠ 0 then failRow d j.num i st.1 st.2
      else
        match rowSess d j.ctx r with
        | none => failRow d j.num i 1 0
        | some s =>
          match s.layers[j.layer]? with
          | none => failRow d j.num i 2 s.state
          | some x =>
            match applyRow d j l r s x with
            | none => failRow d j.num i 8 0
            | some a =>
              let a1 := updSess a (handleOf s) (fun y => { y with state := if y.state = 5 then 5 else residency a y })
              updJob a1 j.num (fun y => { y with saturated := y.saturated + satOf (r.news.map (·.2.2)) })

/-- Release what a job held. -/
def freeJob (d : Dev) (num : Nat) : Dev :=
  freeAllocs { d with
    arr.jobs := dropWhere (fun (j : Job) => j.num == num) d.arr.jobs
    searches := dropWhere (fun (q : Search) => q.job == num) d.searches } (allocKey 0x30 num)

/-- End a job with a status: its verb completes, or a window's job waits for its result to be returned (16 R374). -/
def finishJob (d : Dev) (j : Job) (status : Nat) (fields : List (Nat × Nat × Nat)) : Dev :=
  match j.launch with
  | some _ => updJob d j.num (fun x => { x with state := 6, status := status, result := fields })
  | none =>
    let d1 := freeJob d j.num
    match findVerb d1 j.seq with
    | none => d1
    | some v =>
      let d2 := if v.ring = 16 then exZero d1 (verbBase v) 4096 else d1
      finish d2 v status 0xFF fields

/-- Complete the jobs that a fault, an abort or poisoned input stopped (03 R41, 07 R153). -/
def endStopped (d : Dev) : Dev :=
  (d.arr.jobs.filter (fun j => j.state == 5)).foldl (fun a j => finishJob a j j.status (if j.kind = 5 then noBadRow else [])) d

/-- Write an output of a job: on ring 16 into its tunnel block. -/
def jobWrite (d : Dev) (j : Job) (off : Nat) (bs : List Byte) : Dev :=
  match j.launch with
  | some l => exWrite d (l.base + off) bs
  | none => match findVerb d j.seq with
    | some v => outWrite d v off bs
    | none => d

/-- At the boundary after its last slice, an attention job's writes become visible together and it completes. -/
def completeAttend (d : Dev) (num : Nat) : Dev :=
  match findJob d num with
  | none => d
  | some j =>
    match jobLayer d j, findModel d j.model with
    | some l, some m =>
      let outOff := fieldAt j.desc 40 8
      let stOff := fieldAt j.desc 64 8
      let base := jobBase d j
      let n := fieldAt j.desc 8 4 * m.hidden * outBytes j
      if exPartPoisoned d (base + outOff) n || exPartPoisoned d (base + stOff) (4 * j.rows.length) then
        finishJob d j stDamaged []
      else
        let d1 := (j.rows.map (·.idx)).foldl (settleRow j l) d
        match findJob d1 num with
        | none => d1
        | some k =>
          let d2 := k.rows.foldl (fun a r => jobWrite a k (outOff + r.first * m.hidden * outBytes k) (rowOutput a k l m.hidden r)) d1
          let d3 := jobWrite d2 k stOff (k.rows.flatMap (fun r => natLe (r.status + r.detail % 2 ^ 24 * 256) 4))
          let bad := k.rows.filter (fun r => r.status != 0)
          finishJob d3 k (if bad.isEmpty then stOk else stPartial)
            [(8, 4, k.rows.length - bad.length), (12, 4, bad.length), (16, 4, (bad.head?.map (·.idx)).getD 0xFFFFFFFF),
              (20, 4, k.saturated), (24, 4, d3.clk.count - k.dispClause)]
    | _, _ => finishJob d j stStale []

/-! ### Dispatch at a boundary (03 R38, R39; 15 R350; 07 R151, R152) -/

/-- Whether a physical core works and is not out for a test. [Log entry 105, DEDUCED.] -/
def coreUsable (d : Dev) (c p : Nat) : Bool := !d.arr.retired.contains (c, p) && !d.arr.held.any (fun h => h.cluster == c && h.pos == p)

/-- The spare map of a cluster (07 R135). -/
def clusterMap (d : Dev) (c : Nat) : List Nat := ((d.arr.spare.find? (fun s => s.1 == c)).map (·.2)).getD (List.range 16)

/-- Whether every logical position of a cluster is held by a usable core. [Log entry 105, DEDUCED.] -/
def clusterReady (d : Dev) (c : Nat) : Bool := (clusterMap d c).all (coreUsable d c)

/-- The clusters of a partition that are in service. -/
def partClusters (d : Dev) (p : Nat) : List Nat :=
  match findPart d p with
  | none => []
  | some x => (List.range 256).filter (fun c => bitSet x.groups (c / 8) && !bitSet x.joining (c / 8) && !d.arr.out.contains c && clusterReady d c)

/-- Scratch that kernels declare, by name index: the largest of any of them, in bytes. -/
def scratchNeeds (d : Dev) (kernels : List Nat) : List (Nat × Nat) :=
  let ks := kernels.filterMap (findKernel d)
  let n := (ks.map (fun k => k.names.length)).foldl Nat.max 0
  (List.range n).filterMap (fun i =>
    let sz := (ks.map (fun k => match k.names[i]? with | some x => if x.cls = 13 then x.size * 64 else 0 | none => 0)).foldl Nat.max 0
    if sz = 0 then none else some (i, sz))

/-- The kernels whose scratch a job of a layer needs: all three, or for an APPEND the KERNEL_IN of each layer that it names. -/
def jobKernels (d : Dev) (j : Job) (l : LayerRec) : List Nat :=
  if j.kind ≠ 5 then [l.kIn, l.kAtt, l.kOut]
  else match findModel d j.model with
    | some m => j.rows.filterMap (fun r => (m.layers[r.idx]?).map (·.kIn))
    | none => []

/-- Charge a job's scratch. -/
def chargeScratch (d : Dev) (j : Job) (l : LayerRec) : Option Dev :=
  (scratchNeeds d (jobKernels d j l)).foldl (fun acc x => acc.bind (fun a => allocMost a j.part x.2 (allocKey 0x30 j.num) x.1)) (some d)

/-- Clusters that a job can use now: one gang to a unit. -/
def clustersWanted (d : Dev) (j : Job) : Nat :=
  if !usesKernels j then 1
  else
    match jobLayer d j with
    | none => 1
    | some l =>
      let g := match findKernel d (phaseKernel l j.phase) with | some x => x.gangLog2 | none => 0
      let n := if j.state = 0 && j.kind = 0 then j.rows.length else (mainUnits (l.kind == 0) j).length
      Nat.max 1 (ceilDiv n (16 / 2 ^ g))

/-- The first dispatch of an attention job: its snapshot (06 R117). -/
def snapshotJob (d : Dev) (lenUs : Nat) (j : Job) (l : LayerRec) : Dev :=
  let thin := (j.rows.filter (rowThin l)).length
  let thinJob := decide (l.kind = 1) && l.thin == 1 && decide (thin ≤ l.thinMax)
  let rows := j.rows.map (snapRow d j l lenUs thinJob)
  updJob d j.num (fun x => { x with rows := rows, units := rowUnits { x with rows := rows }, dispClause := d.clk.count })

/-- The first dispatch of an APPEND's job: its rows see the session's layers as they stand. -/
def snapshotAppend (d : Dev) (j : Job) : Dev :=
  let see := fun (r : JobRow) => { r with layer := (findSess d r.handle).bind (fun s => s.layers[r.idx]?) }
  updJob d j.num (fun x => { x with rows := x.rows.map see, dispClause := d.clk.count })

/-- A job of a built-in kernel takes one cluster for one slice. [Log entry 45, DEDUCED.] -/
def startBuiltin (d : Dev) (j : Job) (clusters : List Nat) : Dev :=
  let s : Slice := { id := d.arr.nextSlice, job := j.num, channel := false, clusters := clusters
                     cores := clusters.flatMap (fun c => rangeFrom (16 * c) 16), cs := [], sems := [], barriers := 0 }
  updJob { d with arr.slices := d.arr.slices ++ [s], arr.nextSlice := s.id + 1 } j.num (fun x =>
    { x with state := 1, dispClause := if x.state = 0 then d.clk.count else x.dispClause })

/-- Whether the foreground time of the clause has room for a job: it has for the first of a partition (03 R37, R38). [Log entry 20, DESIGN CHOICE.] -/
def timeFits (d : Dev) (j : Job) : Bool :=
  !d.arr.jobs.any (fun x => x.part == j.part && !x.given.isEmpty) || Config.jobFits j.num d.clk.count

/-- Dispatch a job on clusters; none where it must be deferred. -/
def dispatchJob (d : Dev) (lenUs : Nat) (num : Nat) (clusters : List Nat) : Option Dev :=
  match findJob d num with
  | none => none
  | some j =>
    let give := fun (x : Dev) => updJob x num (fun y => { y with given := clusters, deferrals := 0 })
    if !timeFits d j then none
    else if !usesKernels j then some (startBuiltin (give d) j clusters)
    else
      match jobLayer d j with
      | none => some (finishJob d j stStale [])
      | some l =>
        if !canBind d (phaseKernel l j.phase) clusters.length then none
        else if j.state = 0 && j.kind = 5 then
          (chargeScratch d j l).map (fun a =>
            let a1 := snapshotAppend (give a) j
            match findJob a1 num with
            | some k => startMain a1 k l clusters
            | none => a1)
        else if j.state = 0 then
          (chargeScratch d j l).map (fun a =>
            let a1 := snapshotJob (give a) lenUs j l
            match findJob a1 num with
            | some k =>
              if (okRows k).isEmpty || l.kind = 2 then updJob a1 num (fun x => { x with state := 3 }) else startMain a1 k l clusters
            | none => a1)
        else some (startMain (give d) j l clusters)

/-- Jobs of a partition that may be dispatched at this boundary, in acceptance order: no earlier writer of a session is
unfinished (05 R95). -/
def readyJobs (d : Dev) (p : Nat) : List Job :=
  sortBy (fun a b => decide (a.seq ≤ b.seq)) (d.arr.jobs.filter (fun j => j.part == p &&
    ((j.state == 0 && j.sessions.all (fun h => !writersBefore d h j.seq)) || j.state == 2)))

/-- Effective priority: a job deferred in 64 consecutive clauses is raised to 0 (03 R39). -/
def effPrio (j : Job) : Nat := if 64 ≤ j.deferrals then 0 else j.prio

/-- Count a deferral. -/
def deferJob (d : Dev) (num : Nat) : Dev := updJob d num (fun j => { j with deferrals := j.deferrals + 1 })

/-- One turn of a context in the deficit round robin: it takes jobs while its deficit lasts. -/
def serveCtx (lenUs : Nat) : Nat → Dev → Nat → List Nat → List Job → Dev × List Nat × List Job
  | 0, d, _, free, js => (d, free, js)
  | k + 1, d, c, free, js =>
    match js.find? (fun j => j.ctx == c), findCtx d c with
    | some j, some x =>
      let n := Nat.min (clustersWanted d j) free.length
      if n = 0 || x.deficit < n then (d, free, js)
      else
        let rest := js.filter (fun y => y.num != j.num)
        match dispatchJob d lenUs j.num (free.take n) with
        | some d1 =>
          let d2 := { d1 with pool.ctxs := updWhere (fun (y : Ctx) => y.id == c) (fun y => { y with deficit := y.deficit - n }) d1.pool.ctxs }
          serveCtx lenUs k d2 c (free.drop n) rest
        | none => serveCtx lenUs k (deferJob d j.num) c free rest
    | _, _ => (d, free, js)

/-- Rounds of the deficit round robin over the contexts that have jobs of one priority. -/
def serveRounds (lenUs : Nat) : Nat → Dev → List Nat → List Job → Dev × List Nat
  | 0, d, free, js => (js.foldl (fun a j => deferJob a j.num) d, free)
  | k + 1, d, free, js =>
    if js.isEmpty || free.isEmpty then (js.foldl (fun a j => deferJob a j.num) d, free)
    else
      let cs := (js.map (·.ctx)).eraseDups
      let r := cs.foldl (fun (acc : Dev × List Nat × List Job) c =>
        let quantum := match findCtx acc.1 c with | some x => x.share | none => 0
        let a1 := { acc.1 with pool.ctxs := updWhere (fun (y : Ctx) => y.id == c) (fun y => { y with deficit := y.deficit + quantum }) acc.1.pool.ctxs }
        let s := serveCtx lenUs (acc.2.2.length + 1) a1 c acc.2.1 acc.2.2
        if s.2.2.any (fun j => j.ctx == c) then s
        else ({ s.1 with pool.ctxs := updWhere (fun (y : Ctx) => y.id == c) (fun y => { y with deficit := 0 }) s.1.pool.ctxs }, s.2))
        (d, free, js)
      serveRounds lenUs k r.1 r.2.1 r.2.2

/-- Whether a job that was ready has been left out of the clause for want of foreground time. -/
def timedOut (d : Dev) (js : List Job) : Bool :=
  js.any (fun j => match findJob d j.num with | some x => x.given.isEmpty && !timeFits d x | none => false)

/-- Dispatch the jobs of a partition, priority by priority. Once foreground time has run out for a job, every job of a lower priority is
deferred with it: the lowest priority is deferred first (03 R38). -/
def dispatchPart (d : Dev) (lenUs p : Nat) : Dev :=
  let js := readyJobs d p
  ((List.range 4).foldl (fun (acc : Dev × List Nat) q =>
    let mine := js.filter (fun j => effPrio j == q)
    if timedOut acc.1 (js.filter (fun j => decide (effPrio j < q))) then (mine.foldl (fun a j => deferJob a j.num) acc.1, acc.2)
    else serveRounds lenUs 300 acc.1 acc.2 mine) (d, partClusters d p)).1

/-- Dispatch at a boundary: waiting jobs by priority and round robin, and flash items of running jobs. [Log entry 20, DESIGN CHOICE.] -/
def dispatchAll (d : Dev) (lenUs : Nat) : Dev :=
  let d0 := { d with arr.jobs := d.arr.jobs.map (fun (j : Job) => { j with given := [] }) }
  let d1 := (d0.pool.parts.map (·.num)).foldl (fun a p => dispatchPart a lenUs p) d0
  d1.arr.jobs.foldl (fun a j0 =>
    match findJob a j0.num with
    | some j => (match jobLayer a j with
      | some l => if j.kind == 0 && (j.state = 4 || j.state = 1 || j.state = 2) then startFlash a j l else a
      | none => a)
    | none => a) d1

/-- At a boundary, jobs whose items became ready again (a refetch, a mismatch) are taken up (06 R128). -/
def wakeJobs (d : Dev) : Dev :=
  (d.arr.jobs.filter (fun j => j.kind == 0 && j.state == 4)).foldl (fun a j => advanceJob 4 a j.num false) d

/-- Run a core descriptor row: its body, what a completed movement releases, and jobs that it stopped. [Log entry 7, DESIGN CHOICE.] -/
def coreRow (op n : Nat) (body : Core → Nat → Dev → Except Nat Dev) (d : Dev) : Dev := endStopped (advanceCut (runDesc op n body d))

/-- JOB_OVERRUN_ABORT: a job that still runs 8 × L after its clause's planned end is aborted (03 R41). [Log entry 16, DEDUCED.] -/
def overrunAbort (job lenUs : Nat) (d : Dev) : Dev :=
  if jobRunning d job && decide (d.clk.start + d.clk.planned + 8000 * lenUs ≤ d.tim.elapsed) then
    endStopped (abortJob { d with clk.aborted := true } job)
  else d

end Sys2Proof.Machine
end

