-- ==== Sys2Proof/Machine/Sampler.lean ====
section
/-!
DEFINITION. Sampling and acceptance (11 R237-R252): SAMPLER_SET, SAMPLE with its chain and its walks, the commit operation, and
COMMIT.
-/

namespace Sys2Proof.Machine

/-! ### Parameters (11 Table 11-3) -/

def pF (ps : List Byte) (off : Nat) : Nat := fieldAt ps off 4
def pTemp (ps : List Byte) : Nat := pF ps 0
def pTopP (ps : List Byte) : Nat := pF ps 4
def pMinP (ps : List Byte) : Nat := pF ps 8
def pRep (ps : List Byte) : Nat := pF ps 12
def pTopK (ps : List Byte) : Nat := fieldAt ps 24 4
def pWindow (ps : List Byte) : Nat := fieldAt ps 28 2
def pAccept (ps : List Byte) : Nat := fieldAt ps 30 1
def pSeed (ps : List Byte) : Nat := fieldAt ps 32 8
def pMax (ps : List Byte) : Nat := fieldAt ps 40 4

/-- Whether a binary32 code encodes a zero. -/
def isZero32 (c : Nat) : Bool := fvIsZero (f32 c)

/-- Whether a code lies in [lo, hi]; false for a NaN. -/
def inF (c lo hi : Nat) : Bool := !fvIsNan (f32 c) && !f32Lt c lo && !f32Lt hi c

/-- Above 0 to hi. [Log entry 56, DEDUCED.] -/
def overZero (c hi : Nat) : Bool := f32Lt 0 c && inF c 0 hi

/-- Whether a parameter block may be set; the decimal bounds are the nearest binary32 values. [Log entry 56, DEDUCED.] -/
def paramsOk (ps : List Byte) : Bool :=
  let hundred := 0x42C80000
  let ten := 0x41200000
  let minusTen := 0xC1200000
  (isZero32 (pTemp ps) || inF (pTemp ps) 0x3A83126F hundred) && (isZero32 (pTopP ps) || overZero (pTopP ps) f32One) &&
    (isZero32 (pMinP ps) || (overZero (pMinP ps) f32One && f32Lt (pMinP ps) f32One)) &&
    (isZero32 (pRep ps) || inF (pRep ps) 0x3C23D70A hundred) && inF (pF ps 16) minusTen ten && inF (pF ps 20) minusTen ten &&
    decide (pTopK ps ≤ 524288) && decide (pAccept ps < 3) && decide (fieldAt ps 31 1 < 2) && fieldAt ps 52 4 == 0 &&
    (pAccept ps != 2 || (overZero (pF ps 44) f32One && overZero (pF ps 48) ten)) &&
    (List.range 4).all (fun i => bitsOf (fieldAt ps (56 + 4 * i) 4) 30 19 == 0) && allZero (ps.drop 72)

/-- SAMPLER_SET (11 R237). -/
def samplerSetBody (v : Verb) (d : Dev) : Except Fail Dev := do
  let h := fld v 16 4
  let off := fld v 24 8
  check4 v false [(20, 4), (32, 32)] [(24, off % 64 == 0 && argIn d v off 128), (24, structOk d v off 128 paramsOk)]
  let ps ← argRead d v off 128
  let s ← checkSess d v h 16
  needLive s v 16
  let put := fun (y : SynSt) =>
    { y with params := ps, finished := false, setPos := s.log.length,
             sinceSet := if bitSet (fieldAt ps 31 1) 0 then y.sinceSet else 0 }
  let clean := fun (m : Rederive) => !(m.kind == 3 && (m.first == 0x3040 || m.first == 0x3080))
  let d1 := updSess (updSyn d h put) h (fun x => { x with marks := x.marks.filter clean })
  .ok (finishOk d1 v [])

/-! ### Draws (11 R241) -/

def mul64 (a b : Nat) : Nat := a * b % 2 ^ 64

/-- Draw `j` for position `pos`: a binary32 code in [0, 1). -/
def drawU (seed pos j : Nat) : Nat :=
  let x0 := seed ^^^ mul64 pos 0x9E3779B97F4A7C15 ^^^ mul64 (j + 1) 0xD1B54A32D192ED03
  let x1 := mul64 (x0 ^^^ (x0 / 2 ^ 30)) 0xBF58476D1CE4E5B9
  let x2 := mul64 (x1 ^^^ (x1 / 2 ^ 27)) 0x94D049BB133111EB
  let x3 := x2 ^^^ (x2 / 2 ^ 31)
  enc32 (.fin false (x3 / 2 ^ 40) (-24))

/-! ### The chain (11 R240)

Logits and probabilities are lists of (token, binary32 code). -/

/-- Descending value, then ascending token. -/
def tokBefore (a b : Nat × Nat) : Bool := f32Lt b.2 a.2 || (!f32Lt a.2 b.2 && decide (a.1 ≤ b.1))

/-- An FP32 sum of terms: one term is itself, more are added in an order that is not stated (11 R240). [Log entry 55, DESIGN CHOICE.] -/
def sumTerms : List Nat → Nat
  | [] => 0
  | [x] => x
  | l => Config.chainSum l

/-- Step 1. -/
def maskLogits (g : Option (List Byte)) (ends : List Nat) (y : Syn) (ls : List (Nat × Nat)) : List (Nat × Nat) :=
  ls.map (fun x => if allowed g ends y x.1 then x else (x.1, f32NegInf))

/-- Step 2 for one logit of a token seen `c` times in the window. -/
def penalise (ps : List Byte) (c l : Nat) : Nat :=
  if c = 0 then l
  else
    let l1 := if isZero32 (pRep ps) then l else if f32Lt 0 l then f32Div l (pRep ps) else f32Mul l (pRep ps)
    f32Sub (f32Sub l1 (f32Mul (pF ps 16) (enc32 (fvOfInt c)))) (pF ps 20)

/-- Steps 1 and 2 for position `pos` of a log followed by the walk's new tokens. -/
def scored (g : Option (List Byte)) (ps : List Byte) (y : Syn) (log : List Nat) (pos : Nat) (ls : List (Nat × Nat)) : List (Nat × Nat) :=
  let win := ((log.take pos).drop (pos - pWindow ps)).map (· % 2 ^ 19)
  (maskLogits g (endTokens ps) y ls).map (fun x => (x.1, penalise ps (win.count x.1) x.2))

/-- Logits above minus infinity. -/
def alive (ls : List (Nat × Nat)) : List (Nat × Nat) := ls.filter (fun x => x.2 != f32NegInf)

/-- Step 3: the greedy result. -/
def greedyOf (ls : List (Nat × Nat)) : Option Nat := ((sortBy tokBefore (alive ls)).head?).map (·.1)

/-- Renormalise and put in the order of step 6. -/
def renorm (ps : List (Nat × Nat)) : List (Nat × Nat) :=
  let t := sumTerms (ps.map (·.2))
  sortBy tokBefore (ps.map (fun x => (x.1, f32Div x.2 t)))

/-- Step 4 and the softmax of step 6 over `ls` in descending order. -/
def softmaxOf (ls : List (Nat × Nat)) : List (Nat × Nat) :=
  match ls with
  | [] => []
  | (_, m) :: _ => renorm (ls.map (fun x => (x.1, f32Exp (f32Sub x.2 m))))

def tempered (ps : List Byte) (ls : List (Nat × Nat)) : List (Nat × Nat) :=
  sortBy tokBefore ((alive ls).map (fun x => (x.1, f32Div x.2 (pTemp ps))))

/-- The shortest prefix whose running sum reaches a bound. -/
def prefixTo (bound : Nat) : Nat → List (Nat × Nat) → List (Nat × Nat)
  | _, [] => []
  | run, x :: l => if f32Lt (f32Add run x.2) bound then x :: prefixTo bound (f32Add run x.2) l else [x]

/-- Steps 4 to 7: survivors in the order of step 6. -/
def survivors (ps : List Byte) (ls : List (Nat × Nat)) : List (Nat × Nat) :=
  let t := tempered ps ls
  let k := softmaxOf (if pTopK ps = 0 then t else t.take (pTopK ps))
  let q := if isZero32 (pTopP ps) then k else prefixTo (pTopP ps) 0 k
  if isZero32 (pMinP ps) then q
  else
    let r := renorm q
    let top := match r with
      | x :: _ => x.2
      | [] => 0
    r.filter (fun x => !f32Lt x.2 (f32Mul (pMinP ps) top))

/-- The first survivor whose running sum exceeds `u`, else the last. -/
def pickAbove (u : Nat) : Nat → List (Nat × Nat) → Nat → Nat
  | _, [], last => last
  | run, x :: l, _ => if f32Lt u (f32Add run x.2) then x.1 else pickAbove u (f32Add run x.2) l x.1

/-- Step 8 on survivors, with draw `j`. -/
def drawFrom (ps : List Byte) (pos j : Nat) (l : List (Nat × Nat)) : Nat := pickAbove (drawU (pSeed ps) pos j) 0 (renorm l) 0

/-- The whole chain on scored logits; none for MASK_EMPTY. -/
def chainResult (ps : List Byte) (pos : Nat) (ls : List (Nat × Nat)) : Option Nat :=
  match greedyOf ls with
  | none => none
  | some g => some (if isZero32 (pTemp ps) then g else drawFrom ps pos 0 (survivors ps ls))

/-! ### Acceptance (11 R242, R243) -/

/-- Probability of a token. -/
def probOf (ps : List (Nat × Nat)) (t : Nat) : Nat := match ps.find? (fun x => x.1 == t) with | some x => x.2 | none => 0

/-- Stochastic acceptance over the children (node, token), from draw `j`: the accepted child, or the modified p and the next
draw. -/
def stochastic (ps : List Byte) (pos : Nat) (q : List Nat) : List (Nat × Nat) → List (Nat × Nat) → Nat → Nat ⊕ (List (Nat × Nat) × Nat)
  | [], p, j => .inr (p, j)
  | (c, t) :: kids, p, j =>
    if isZero32 (probOf p t) then stochastic ps pos q kids p j
    else
      let r := f32Div (probOf p t) (nth q c f32One)
      let lim := if f32Lt f32One r then f32One else r
      if f32Lt (drawU (pSeed ps) pos j) lim then .inl c
      else
        let rest := p.filter (fun x => x.1 != t)
        stochastic ps pos q kids (if rest.isEmpty then rest else renorm rest) (j + 1)

/-- `choose` of R243 on scored logits: an accepted child, or the bonus token; none for MASK_EMPTY. [Log entry 56, DEDUCED.] -/
def chooseNode (ps : List Byte) (pos : Nat) (kids : List (Nat × Nat)) (q : List Nat) (ls : List (Nat × Nat)) : Option (Nat ⊕ Nat) :=
  match greedyOf ls with
  | none => none
  | some g =>
    if isZero32 (pTemp ps) || pAccept ps = 0 then
      match kids.find? (fun k => k.2 == g) with
      | some k => some (.inl k.1)
      | none => some (.inr g)
    else if pAccept ps = 1 then
      match stochastic ps pos q kids (renorm (survivors ps ls)) 0 with
      | .inl c => some (.inl c)
      | .inr (p, j) => some (.inr (if p.all (fun x => isZero32 x.2) then g else drawFrom ps pos j p))
    else
      let p := softmaxOf (tempered ps ls)
      let h := Config.entropy (p.map (·.2))
      let lim := enc32 (fvMin (f32 (pF ps 44)) (f32 (f32Mul (pF ps 48) (f32Exp (enc32 (fvNeg (f32 h)))))))
      let ok := kids.filter (fun k => f32Lt lim (probOf p k.2) && !isZero32 (probOf p k.2))
      match sortBy (fun a b => tokBefore (a.1, probOf p a.2) (b.1, probOf p b.2)) ok with
      | k :: _ => some (.inl k.1)
      | [] => some (.inr (drawFrom ps pos 0 (survivors ps ls)))

/-- A walk on its way. `last` is the node whose logits chose the last new token, `states` the grammar states whose masks were read, `barred` the
node whose mask left no token. -/
structure Walk where
  syn : Syn
  node : Nat
  path : List Nat
  new : List Nat
  last : Nat
  states : List Nat
  barred : Option Nat
  deriving DecidableEq, Repr

/-- `accept` of R242: `blocks` are the nodes' raw logits. `len` is LOG_LEN, one above FIRST_POS. A row without TREE takes the chain's result. -/
def acceptWalk (tree : Bool) (g : Option (List Byte)) (ps : List Byte) (t : Tree) (len budget : Nat) (log : List Nat) (q : List Nat)
    (blocks : List (List (Nat × Nat))) : Nat → Walk → Walk
  | 0, w => w
  | k + 1, w =>
    if budget ≤ w.new.length then w
    else
      let dep := treeDepths t.parent
      let pos := len + nth dep w.node 1 - 1
      let kids := ((List.range t.nodes).filter (fun c => decide (0 < c) && nth t.parent c 255 == w.node)).map (fun c => (c, nth t.token c 0))
      let w1 := { w with last := w.node, states := w.states ++ [w.syn.state] }
      let ls := scored g ps w.syn (log ++ w.new) pos (nth blocks w.node [])
      match (if tree then chooseNode ps pos kids q ls else (chainResult ps pos ls).map Sum.inr) with
      | none => { w1 with barred := some w.node }
      | some (.inl c) =>
        let tok := nth t.token c 0
        let y := advanceBound g (endTokens ps) w.syn tok
        let w2 := { w1 with node := c, path := w.path ++ [c], new := w.new ++ [tok], syn := y }
        if (endTokens ps).contains tok || y.mode == 2 then w2 else acceptWalk tree g ps t len budget log q blocks k w2
      | some (.inr tok) => { w1 with new := w.new ++ [tok], syn := advanceBound g (endTokens ps) w.syn tok }

/-! ### The commit operation (11 R244, R245) -/

/-- The first finish that the tokens themselves bring, token by token: reasons by position. `since` counts tokens since
SAMPLER_SET. [Log entry 59, DEDUCED.] -/
def finishAt (ps : List Byte) (g : Option (List Byte)) (y : Syn) (since tok : Nat) : Nat :=
  if (endTokens ps).contains tok then 3
  else if y.mode = 1 && g.isSome && (advanceBound g (endTokens ps) y tok).mode == 2 then 4
  else if pMax ps ≠ 0 && since + 1 = pMax ps then 5
  else 0

/-- What a commit's tokens do on the way: syntax state, detokenizer, first finish, whether a reason of Table 11-7 came. -/
structure CommitAcc where
  syn : Syn
  det : DetAcc
  since : Nat
  pos : Nat
  fin : Nat
  finished : Bool
  deriving DecidableEq, Repr

/-- One token of a commit: syntax, detokenizer, and the finish of R245. -/
def commitToken (ps : List Byte) (g : Option (List Byte)) (img : Option (List Byte)) (handle : Nat) (a : CommitAcc) (tok : Nat) : CommitAcc :=
  let r := finishAt ps g a.syn a.since tok
  let d1 := match img with
    | some i => detokToken i handle a.det (tok, a.pos)
    | none => a.det
  let stopNow := a.det.fin.isNone && d1.fin.isSome
  let d2 := if r ≠ 0 && img.isSome && d1.t.detok = 1 then
      let f := detokFlush handle r d1
      { f with t := { f.t with detok := 2 } }
    else d1
  let stopFlush := d1.fin.isNone && d2.fin.isSome
  let here := if stopNow || stopFlush then 1 else r
  { syn := advanceBound g (endTokens ps) a.syn tok, det := d2, since := a.since + 1, pos := a.pos + 1,
    fin := if a.fin = 0 then here else a.fin, finished := a.finished || r != 0 }

/-- The first position of a session's open tree: one below the log's length, where R242 holds. [Log entry 60, DEDUCED.] -/
def treeReady (m : Model) (s : Sess) (t : Tree) : Bool :=
  let first := s.log.length - 1
  decide (0 < s.log.length) && (nth s.log first 0) % 2 ^ 19 == nth t.token 0 0 % 2 ^ 19 &&
    (m.layers.zip s.layers).all (fun x =>
      match x.1.kind with
      | 0 => x.2.draftFirst == first && x.2.draft.length == (layerKinds x.1).length && x.2.draft.all (fun p => p.count == t.nodes)
      | 1 => (match x.2.recur with
        | some r => r.treeIn.length == t.nodes && r.len == first
        | none => false)
      | _ => true)

/-- One node's update of a recurrent state (06 R131, R132): S := diag(g) S + k vᵀ for each head, from the node's stored inputs. `at0` finds an input
(0 gate, 1 key, 2 value) by head and element; the product k v is rounded before the one rounding of the sum, as a near-bank MADD does. [Log entry 43, DESIGN CHOICE.] -/
def recurStep (l : LayerRec) (at0 : Nat → Nat → Nat → Nat) (st : Mem) (ins : List Byte) : Mem :=
  let inp := fun (what head i : Nat) => fieldAt ins (4 * (at0 head what i % (l.rh * (2 * l.rk + l.rv)))) 4
  let cell := fun (e : Nat) =>
    let head := e / (l.rk * l.rv)
    let i := e / l.rv % l.rk
    f32Fma (inp 0 head i) (leNat (memReadN st (4 * e) 4)) (f32Mul (inp 1 head i) (inp 2 head (e % l.rv)))
  memWriteN [] 0 ((List.range (l.rh * l.rk * l.rv)).flatMap (fun e => natLe (cell e) 4))

/-- One layer takes the accepted path (05 R99, 06 R132). -/
def commitLayer (s : Sess) (path : List Nat) (d : Dev) (layer : Nat) (l : LayerRec) (st : LayerSt) : Option (LayerSt × Dev) :=
  let a := path.length
  if a = 0 then some (st, d)
  else
    match l.kind with
    | 0 =>
      let of := fun (x : Phrase × List (Nat × Bool)) => path.map (fun n =>
        let mark := nth x.2 n (0, false)
        NewRow.mk (nth x.1.rows n ⟨[], []⟩) mark.1 mark.2)
      let rows := (List.range st.draft.length).map (fun i => of (nth st.draft i noPhrase, nth st.draftMarks i []))
      (appendRows s layer l (a / 64 + 2) d st rows a).map (fun x => (x.1, x.2.2))
    | 1 =>
      let kern := match findKernel d l.kAtt with | some k => k.digest | none => []
      let next := fun (r : RecSt) =>
        let ins := path.map (fun n => nth r.treeIn n [])
        { r with cur := ins.foldl (recurStep l (Config.treeInput kern)) r.cur, shadow := r.cur, len := r.len + a, shadowLen := some r.len
                 updates := r.updates + 1 }
      some ({ st with recur := st.recur.map next }, d)
    | _ => some (st, d)

def commitLayers (s : Sess) (path : List Nat) : Dev → Nat → List (LayerSt × LayerRec) → Option (List LayerSt × Dev)
  | d, _, [] => some ([], d)
  | d, i, (st, l) :: rest =>
    match commitLayer s path d i l st with
    | none => none
    | some (x, d1) =>
      match commitLayers s path d1 (i + 1) rest with
      | none => none
      | some (xs, d2) => some (x :: xs, d2)

/-- The commit operation: the device and the first finish, or ST_BUSY with EV_TEXT_BLOCKED, or ST_NOSPACE. -/
def commitOp (d : Dev) (m : Model) (s : Sess) (path new : List Nat) : Except (Nat × Dev) (Nat × Dev) :=
  let h := handleOf s
  let ps := s.syn.params
  let img := if s.tok.detok = 0 then none else (s.tok.lex.bind (findLex d)).map (·.img)
  let a0 : CommitAcc := { syn := synOf s.syn, det := detStart s.tok, since := s.syn.sinceSet, pos := s.log.length, fin := 0, finished := false }
  let a := new.foldl (commitToken ps (sessGram d s.syn) img h) a0
  let det := detEnd h a.det
  if img.isSome && !recsFit s.tok det.recs then .error (stBusy, textBlocked d s)
  else
    let grown := if new.isEmpty then some d
      else chargeLog d (ctxPart s.ctx) s.home (allocKey 1 h) (s.log.length + new.length)
    match grown.bind (fun d1 =>
      if s.tree.isSome then commitLayers s path d1 0 (s.layers.zip m.layers) else some (s.layers, d1)) with
    | none => .error (stNospace, d)
    | some (ls, d2) =>
      let d3 := updSess d2 h (fun x => { x with
        log := x.log ++ new
        layers := ls
        syn := { x.syn with
          mode := a.syn.mode, state := a.syn.state, stack := a.syn.stack, sinceSet := a.since
          finished := x.syn.finished || a.finished } })
      let d4 := if s.tree.isSome then freeDraft d3 h else d3
      let d5 := if img.isSome then postRecs (updTok d4 h (fun x => { det.t with pendingRecs := x.pendingRecs })) h det.recs else d4
      .ok (a.fin, d5)

/-! ### SAMPLE (11 R238-R247) -/

/-- Rows of a sample job's table (11 Table 11-5): `qcount` is NODES, `flags` MODE, `cached` COUNT, `aux` TREE_SEQ. -/
def sampleRows : List (List Byte) → Nat → List JobRow
  | [], _ => []
  | b :: bs, i =>
    { noJobRow with
      idx := i, slotWord := fieldAt b 0 4, qcount := fieldAt b 5 1, flags := fieldAt b 4 1, cached := fieldAt b 8 4, aux := fieldAt b 12 4 } ::
      sampleRows bs (i + 1)

def smpSparse (r : JobRow) : Bool := bitSet r.flags 0
def smpWide (r : JobRow) : Bool := bitSet r.flags 1
/-- Whether a sample row is a TREE row (11 Table 11-7). [Log entry 57, DEDUCED.] -/
def smpTree (r : JobRow) : Bool := bitSet r.flags 2

/-- DATA of row `i` of a table. -/
def smpData (table : List Byte) (i : Nat) : Nat := fieldAt table (32 * i + 16) 8
/-- Q_OFFSET of row `i` of a table. [Log entry 58, DEDUCED.] -/
def smpQ (table : List Byte) (i : Nat) : Nat := fieldAt table (32 * i + 24) 8

/-- Whether COUNT and NODES of a row are in their ranges. [Log entry 57, DEDUCED.] -/
def smpSized (r : JobRow) : Bool := inR r.qcount 1 64 && inR r.cached 1 (if smpSparse r then 4096 else 524288)

/-- Bytes of one node's block. [Log entry 57, DEDUCED.] -/
def smpBlock (r : JobRow) : Nat :=
  roundUp (if smpSparse r then 8 + 8 * r.cached else r.cached * (if smpWide r then 4 else 2)) 64

/-- Checks of a sample job before its context (11 R238, R247): its rows. `err` is the submission field that points to it. [Log entry 57, DEDUCED.] -/
def sampleHead (d : Dev) (a : Area) (b : List Byte) (err : Nat) : Except Fail (List JobRow × List Byte) := do
  let n := fieldAt b 0 4
  let ro := fieldAt b 16 8
  let base := fieldAt b 24 8
  let res := fieldAt b 32 8
  if !(inR n 1 16384 && fieldAt b 4 4 == 0 && decide (fieldAt b 8 4 < 2048) && fieldAt b 12 4 == 0 && ro % 64 == 0 && base % 64 == 0 &&
      res % 64 == 0 && allZero (b.drop 48) && inArea a ro (32 * n) && inAreaOut a res (128 * n)) then failRange err
  else
    let tb ← areaRead d a ro (32 * n)
    let rows := sampleRows (chunksOf 32 n tb) 0
    let ok := fun (r : JobRow) =>
      decide (r.slotWord < 2 ^ 26) && decide (r.flags < 8) && fieldAt tb (32 * r.idx + 6) 2 == 0 && decide (r.aux < 65536) &&
        (smpTree r || r.aux == 0) && smpData tb r.idx % 64 == 0 &&
        (!smpSized r || inArea a (base + smpData tb r.idx) (r.qcount * smpBlock r)) &&
        (smpQ tb r.idx == 0 || inArea a (smpQ tb r.idx) (4 * r.qcount))
    if rows.all ok then .ok (rows, tb) else failRange err

/-- Register a sample job; its table is kept after its descriptor. -/
def registerSample (d : Dev) (seq prio p : Nat) (launch : Option Launch) (b tb : List Byte) (rows : List JobRow) : Dev :=
  let ctx := fieldAt b 8 2 % 2048
  let mark := fun (r : JobRow) => { r with handle := ((rowSess d ctx r).map handleOf).getD 0 }
  let rs := rows.map mark
  let j : Job := { noJob with
    num := d.arr.nextJob, seq := seq, kind := 1, launch := launch, prio := prio, part := p, ctx := ctx, desc := b ++ tb
    sessions := ((rs.map (·.handle)).filter (· != 0)).eraseDups, rows := rs }
  { d with arr.jobs := d.arr.jobs ++ [j], arr.nextJob := (d.arr.nextJob + 1) % 2 ^ 32 }

/-- SAMPLE (11 R238). -/
def sampleBody (v : Verb) (d0 : Dev) : Except Fail Dev := do
  let off := fld v 16 8
  let d := placeBlock d0 v
  let a := verbArea d v
  check4 v false [(24, 40)] [(16, off % 64 == 0 && argIn d0 v off 64), (16, structOk d0 v off 64 (fun b => inRange (sampleHead d a b 16)))]
  let b ← areaRead d a off 64
  let (rows, tb) ← sampleHead d a b 16
  let ctx := fieldAt b 8 2 % 2048
  checkCtx d v ctx 16
  .ok (keepRunning (registerSample d v.seq (verbPrio d v) (ctxPart ctx) none b tb rows) v)

/-- The logits of a FULL block, or the candidates of a SPARSE block with their RESIDUAL; none where bytes 4-7 or a token word have
a reserved bit set, or a candidate repeats. -/
def blockLogits (r : JobRow) (bs : List Byte) : Option (List (Nat × Nat) × Nat) :=
  if smpSparse r then
    let es := (List.range r.cached).map (fun i => (fieldAt bs (8 + 8 * i) 4, fieldAt bs (12 + 8 * i) 4))
    let toks := es.map (·.1)
    if fieldAt bs 4 4 == 0 && toks.all (fun t => decide (t < 2 ^ 19)) && toks.eraseDups.length == toks.length then
      some (sortBy (fun a b => decide (a.1 ≤ b.1)) es, fieldAt bs 0 4)
    else none
  else
    let codes := if smpWide r then (chunksOf 4 r.cached bs).map leNat else (chunksOf 2 r.cached bs).map (fun c => leNat c * 65536)
    some (((List.range r.cached).zip codes), f32NegInf)

/-- A NaN or plus infinity. [Log entry 58, DEDUCED.] -/
def badLogit (c : Nat) : Bool :=
  match f32 c with
  | .nan => true
  | .inf neg => !neg
  | .fin _ _ _ => false

/-- What a row's evaluation gives: its walk, the raw logits of its nodes with their RESIDUALs. -/
structure RowRun where
  walk : Walk
  blocks : List (List (Nat × Nat) × Nat)
  deriving DecidableEq, Repr

/-- The preconditions of R242 and the state checks of Table 11-8, in the order of the codes, then the walk. `dup`: an earlier row
holds the slot. [Log entry 58, DEDUCED.] -/
def sampleRun (d : Dev) (j : Job) (dup : Bool) (r : JobRow) : Except (Nat × Nat) (Sess × Model × RowRun) :=
  let tb := j.desc.drop 64
  if dup then .error (5, 0)
  else
    match rowSess d j.ctx r with
    | none =>
      (match findSess d r.handle with
      | some s => if r.handle ≠ 0 && s.state = 4 then .error (2, s.state) else .error (1, 0)
      | none => .error (1, 0))
    | some s =>
      let y := s.syn
      let ps := y.params
      let g := sessGram d y
      let spent := decide (pMax ps ≠ 0) && decide (pMax ps ≤ y.sinceSet)
      match findModel d s.model with
      | none => .error (2, s.state)
      | some m =>
        if !liveFor s j.seq then .error (2, s.state)
        else if y.mode = 2 || y.mode = 3 then .error (2, 0x10 + y.mode)
        else if y.finished || spent then .error (2, 0x20)
        else if !(if smpTree r then (match s.tree with | some t => t.seq == r.aux && t.nodes == r.qcount && treeReady m s t | none => false)
            else s.tree.isNone && r.qcount == 1) then .error (4, 0)
        else
          let needQ := smpTree r && pAccept ps == 1 && !isZero32 (pTemp ps)
          let qo := smpQ tb r.idx
          let vocab := (g.map gVocab).getD 524288
          if 16777216 ≤ s.log.length || !smpSized r || (!smpSparse r && y.mode == 1 && r.cached != vocab) || (needQ && qo == 0) then .error (5, 0)
          else
            let base := jobBase d j
            let data := base + fieldAt j.desc 24 8 + smpData tb r.idx
            let n := smpBlock r
            if exPoisoned d data (r.qcount * n) || (needQ && exPoisoned d (base + qo) (4 * r.qcount)) ||
                s.marks.any (fun k => decide (2 ≤ k.kind)) || tablesHit d s j.seq r.idx then .error (9, 0)
            else
              let q := if needQ then (List.range r.qcount).map (fun i => leNat (memReadN d.exch (base + qo + 4 * i) 4)) else []
              let bl := (List.range r.qcount).map (fun i => blockLogits r (memReadN d.exch (data + i * n) n))
              if bl.any (·.isNone) || bl.any (fun b => (b.map (·.1)).any (fun l => l.any (fun x => decide (vocab ≤ x.1)))) ||
                  (q.drop 1).any (fun c => !overZero c f32One) then .error (5, 0)
              else
                let blocks := bl.filterMap id
                match (List.range blocks.length).find? (fun i =>
                  match blocks[i]? with
                  | some b => badLogit b.2 || b.1.any (fun x => badLogit x.2)
                  | none => false) with
                | some i => .error (6, i)
                | none =>
                  let lone : Tree := { seq := 0, nodes := 1, depth := 1, parent := [255], token := [0] }
                  let t := if smpTree r then s.tree.getD lone else lone
                  let cap := if pMax ps = 0 then 16 else Nat.min 16 (pMax ps - y.sinceSet)
                  let budget := Nat.min cap (16777216 - s.log.length)
                  let w0 : Walk := { syn := synOf y, node := 0, path := [0], new := [], last := 0, states := [], barred := none }
                  let w := acceptWalk (smpTree r) g ps t s.log.length budget s.log q (blocks.map (·.1)) 17 w0
                  .ok (s, m, { walk := if smpTree r then w else { w with path := [] }, blocks := blocks })

/-- A result record that holds only STATUS. -/
def statusRecord (code detail : Nat) : List Byte := natLe (code + detail % 2 ^ 24 * 256) 4 ++ List.replicate 124 0

/-- The result record of a row that committed (11 Table 11-8). -/
def okRecord (logLen fin : Nat) (x : RowRun) : List Byte :=
  let w := x.walk
  let b := nth x.blocks w.last ([], f32NegInf)
  let raw := probOf b.1 (w.new.getLast?.getD 0)
  let lp := f32Sub raw (Config.logSumExp (b.1.map (·.2)) b.2)
  natLe 0 4 ++ [byte w.new.length, byte w.path.length, byte fin, 0] ++ natLe logLen 4 ++ natLe lp 4 ++
    (w.path.map byte ++ List.replicate (16 - w.path.length) 255) ++ padTo (w.new.flatMap (fun t => natLe t 4)) 64 ++ List.replicate 32 0

/-- Totals of a sample job. -/
structure SampleAcc where
  dev : Dev
  recs : List (List Byte)
  ok : Nat
  failed : List Nat
  tokens : Nat
  empty : Nat
  slots : List Nat
  deriving DecidableEq, Repr

/-- One row at the boundary: its walk, its commit, its record and counters. [Log entry 60, DEDUCED.] -/
def sampleRow (j : Job) (a : SampleAcc) (r : JobRow) : SampleAcc :=
  let slot := r.slotWord % 2 ^ 18
  let p := j.part
  let a1 := { a with slots := slot :: a.slots }
  let fail := fun (d : Dev) (code det : Nat) =>
    { a1 with dev := d, recs := a.recs ++ [statusRecord code det], failed := a.failed ++ [r.idx], empty := a.empty + (if code = 3 then 1 else 0) }
  match sampleRun a.dev j (a.slots.contains slot) r with
  | .error (code, det) => fail a.dev code det
  | .ok (s, m, x) =>
    let d0 := touchMasks a.dev s.syn (if s.syn.mode = 1 then x.walk.states else [])
    let d1 := if smpTree r then bump d0 2 p 5 (r.qcount - 1) else d0
    match x.walk.barred, commitOp d1 m s x.walk.path x.walk.new with
    | some node, _ => fail (bump d1 2 p 4 1) 3 (node + (if smpSparse r then 0 else 256))
    | none, .error (st, d2) => fail d2 (if st = stBusy then 7 else 8) 0
    | none, .ok (fin, d2) =>
      let d3 := if smpTree r then bump d2 2 p 6 (x.walk.path.length - 1) else d2
      { a1 with dev := d3, recs := a.recs ++ [okRecord (s.log.length + x.walk.new.length) fin x], ok := a.ok + 1,
                tokens := a.tokens + x.walk.new.length }

/-- At the boundary after its slice a sample job commits its rows and completes (11 R246-R248). [Log entry 45, DEDUCED.] -/
def completeSample (d : Dev) (num : Nat) : Dev :=
  match findJob d num with
  | none => d
  | some j =>
    let a0 : SampleAcc := { dev := bump d 2 j.part 3 j.rows.length, recs := [], ok := 0, failed := [], tokens := 0, empty := 0, slots := [] }
    let a := j.rows.foldl (sampleRow j) a0
    let d1 := jobWrite a.dev j (fieldAt j.desc 32 8) a.recs.flatten
    let st := if a.failed.isEmpty then stOk else if a.empty = a.failed.length then stMaskEmpty else stPartial
    finishJob d1 j st [(8, 4, a.ok), (12, 4, a.failed.length), (16, 4, (a.failed.head?).getD 0xFFFFFFFF), (20, 4, a.tokens), (24, 4, a.empty)]

/-! ### COMMIT (11 R249) -/

/-- COMMIT: its checks of fields; it takes effect at a boundary. -/
def commitBody (v : Verb) (d : Dev) : Except Fail Dev := do
  let a := fld v 22 1
  let n := fld v 23 1
  let off := fld v 40 8
  check4 v false [(48, 16)] [(22, decide (a ≤ 16)), (23, decide (n ≤ 16)), (40, off % 64 == 0 && argIn d v off (4 * n))]
  let s ← checkSess d v (fld v 16 4) 16
  needLive s v 16
  let _ ← argRead d v off (4 * n)
  need stDamaged (!tablesHit d s v.seq 0)
  .ok (registerOp d v (.commit v.seq))

/-- Whether a path is a root-first chain of parent to child. -/
def pathOk (t : Tree) (path : List Nat) : Bool :=
  path.head? == some 0 && (path.zip (path.drop 1)).all (fun x =>
    decide (0 < x.2) && decide (x.2 < t.nodes) && nth t.parent x.2 255 == x.1)

/-- The grammar states whose masks a run of tokens reads (11 R234). -/
def maskStates (g : Option (List Byte)) (ends : List Nat) : List Nat → Syn → List Nat
  | [], _ => []
  | t :: ts, y => if g.isSome && y.mode == 1 then y.state :: maskStates g ends ts (advanceBound g ends y t) else []

/-- The first token not allowed when its turn comes. [Log entry 59, DEDUCED.] -/
def firstBarred (g : Option (List Byte)) (ends : List Nat) : List Nat → Nat → Syn → Option Nat
  | [], _, _ => none
  | t :: ts, i, y =>
    if y.mode = 2 || !allowed g ends y t then some i else firstBarred g ends ts (i + 1) (advanceBound g ends y t)

/-- COMMIT at its boundary (11 Table 11-10). [Log entry 59, DEDUCED.] -/
def commitAt (d : Dev) (seq : Nat) : Dev :=
  match findVerb d seq with
  | none => dropOp d seq
  | some v =>
    match findSess d (fld v 16 4) with
    | none => finishSeq d seq stStale []
    | some s =>
      match findModel d s.model, argRead d v (fld v 40 8) (4 * fld v 23 1) with
      | none, _ => finishSeq d seq stStale []
      | _, .error f => finishSeq d seq f.status []
      | some m, .ok bs =>
        let bad := fun (st i : Nat) => finishSeq d seq st [(17, 1, i)]
        let path := (List.range (fld v 22 1)).map (fun i => fld v (24 + i) 1)
        let toks := (List.range (fld v 23 1)).map (fun i => fieldAt bs (4 * i) 4)
        let ps := s.syn.params
        let g := sessGram d s.syn
        let want := (path.drop 1).map (fun c => match s.tree with | some t => nth t.token c 0 | none => 0)
        if !liveFor s seq || (!path.isEmpty && (s.tree.map (·.seq)) != some (fld v 20 2)) ||
            (match s.tree with | some t => !path.isEmpty && !treeReady m s t | none => false) ||
            (!toks.isEmpty && (s.syn.finished || s.syn.mode == 2 || s.syn.mode == 3)) then bad stState 255
        else if (match s.tree with | some t => !path.isEmpty && !pathOk t path | none => false) then bad stRange 255
        else if toks.length < want.length || want.length + 1 < toks.length || toks.take want.length ≠ want then bad stRange 255
        else
          match firstBarred g (endTokens ps) toks 0 (synOf s.syn) with
          | some i => bad stRange i
          | none =>
            if toks.any (fun t => !tokenOk t) then bad stRange ((toks.takeWhile tokenOk).length)
            else if 16777216 < s.log.length + toks.length ||
                (pMax ps ≠ 0 && pMax ps < s.syn.sinceSet + toks.length) then bad stRange 255
            else
              match commitOp d m s path toks with
              | .error (st, d1) => finishSeq d1 seq st [(17, 1, 255)]
              | .ok (fin, d1) =>
                finishSeq (touchMasks d1 s.syn (maskStates g (endTokens ps) toks (synOf s.syn))) seq stOk [(8, 4, s.log.length + toks.length), (12, 4, leastNow d1 (handleOf s)), (16, 1, fin), (17, 1, 255)]

end Sys2Proof.Machine
end

