-- ==== Sys2Proof/Machine/NetOps.lean ====
section
/-!
DEFINITION. The transport of the ports (16 R363-R378): packets that the device sends, the receive path, and queue pairs.
-/

namespace Sys2Proof.Machine

/-! ### Dyadic rationals (16 R378) -/

/-- Drop common factors of two. -/
def dyNormN : Nat → Nat → Nat → Dy
  | 0, m, e => ⟨m, e⟩
  | k + 1, m, e => if e = 0 then ⟨m, 0⟩ else if m % 2 = 0 then dyNormN k (m / 2) (e - 1) else ⟨m, e⟩

def dyNorm (m e : Nat) : Dy := dyNormN e m e
def dyNat (n : Nat) : Dy := ⟨n, 0⟩
/-- The exact sum of two dyadic rationals. [Log entry 71, DESIGN CHOICE.] -/
def dyAdd (a b : Dy) : Dy := dyNorm (a.m * 2 ^ b.e + b.m * 2 ^ a.e) (a.e + b.e)
/-- The exact product of two dyadic rationals. [Log entry 71, DESIGN CHOICE.] -/
def dyMul (a b : Dy) : Dy := dyNorm (a.m * b.m) (a.e + b.e)
def dyLe (a b : Dy) : Bool := decide (a.m * 2 ^ b.e ≤ b.m * 2 ^ a.e)
def dyMin (a b : Dy) : Dy := if dyLe a b then a else b
def dyMax (a b : Dy) : Dy := if dyLe a b then b else a

/-- 1 - x / 2^k, for x at most 1. -/
def dyOneMinus (x : Dy) (k : Nat) : Dy := dyNorm (2 ^ (x.e + k) - x.m) (x.e + k)

/-! ### Ports and sub-ports (16 R363-R365) -/

def findPort (d : Dev) (n : Nat) : Option EPort := d.net.ports.find? (fun p => p.num == n)

def updPort (d : Dev) (n : Nat) (f : EPort → EPort) : Dev :=
  { d with net.ports := updWhere (fun p => p.num == n) f d.net.ports }

def findSub (d : Dev) (s : Nat) : Option SubPort := d.net.subs.find? (fun p => p.id == s)

def updSub (d : Dev) (s : Nat) (f : SubPort → SubPort) : Dev :=
  { d with net.subs := updWhere (fun p => p.id == s) f d.net.subs }

/-- The sub-port numbers of a port's present mode (16 Table 16-1); a degraded port runs as sub-port 0. -/
def portSubs (p : EPort) : List Nat :=
  if p.half.isSome then [0]
  else
    match p.split with
    | 0 => [0]
    | 1 => [0, 2]
    | _ => [0, 1, 2, 3]

/-- Rate of the sub-ports of a port, in Gb/s. -/
def portRate (p : EPort) : Nat :=
  if p.half.isSome then 400
  else
    match p.split with
    | 0 => 800
    | 1 => 400
    | _ => 200

/-- Whether a PORT field names a sub-port that exists now (16 R364). -/
def subExists (d : Dev) (s : Nat) : Bool :=
  decide (s < 16) && (match findPort d (s / 4) with
    | some p => (portSubs p).contains (s % 4)
    | none => false)

/-- Rate of a sub-port in Gb/s. -/
def subRate (d : Dev) (s : Nat) : Nat := match findPort d (s / 4) with | some p => portRate p | none => 0

/-- Entry of a list of (key, value) pairs. -/
def pairOf (l : List (Nat × Nat)) (k : Nat) : Option Nat := (l.find? (fun x => x.1 == k)).map (·.2)

/-- Set an entry of a list of pairs. -/
def setPair (l : List (Nat × Nat)) (k v : Nat) : List (Nat × Nat) := upsert (fun x => x.1 == k) (k, v) l

/-- Remove an entry of a list of pairs. -/
def dropPair (l : List (Nat × Nat)) (k : Nat) : List (Nat × Nat) := dropWhere (fun x => x.1 == k) l

/-- A setting given as 0 acts at its default (16 Table 16-6). [Log entry 78, DEDUCED.] -/
def orDefault (n dflt : Nat) : Nat := if n = 0 then dflt else n

/-- Count on a sub-port (16 Table 16-13). -/
def countSub (d : Dev) (s num n : Nat) : Dev := bump d 5 s num n

/-! ### Frames -/

/-- Whether a sub-port sends IPv4, to a peer named as ::ffff:a.b.c.d. -/
def isV4 (ip : Nat) : Bool := ip / 2 ^ 32 == 0xFFFF

/-- Bytes of a RoCEv2 frame from destination address through FCS: Ethernet, tag, IP, UDP, BTH, extensions, padded payload, ICRC, FCS
(16 R381, Table 16-12). [Log entry 70, PRESUMED.] -/
def frameLen (tagged v4 : Bool) (ext payload : Nat) : Nat :=
  14 + (if tagged then 4 else 0) + (if v4 then 20 else 40) + 8 + 12 + ext + roundUp payload 4 + 4 + 4

/-- Extension header bytes of a packet: RETH 16, ImmDt 4, AETH 4. [Log entry 70, PRESUMED.] -/
def extBytes (k : PktKind) (first last : Bool) (imm : Option Nat) : Nat :=
  match k with
  | .write => (if first then 16 else 0) + (if last && imm.isSome then 4 else 0)
  | .send => if last && imm.isSome then 4 else 0
  | .readReq => 16
  | .readResp => if first || last then 4 else 0
  | .cnp => 16
  | _ => 4

/-- A packet of a QP with its frame length and marks. [Log entry 70, PRESUMED.] -/
def mkPacket (d : Dev) (q : Qp) (k : PktKind) (psn : Nat) (first last ackReq : Bool) (imm : Option Nat) (va rkey dmaLen : Nat)
    (payload : List Byte) : Packet :=
  let s := findSub d q.sub
  let tagged := match s with | some x => decide (0 < x.vlan) | none => false
  let cls := match k, s with
    | .cnp, some x => x.cls.cnpClass
    | _, _ => q.cls
  let pcp := match s with | some x => nth x.cls.classPcp cls 0 | none => 0
  { kind := k, dst := q.remoteQpn, psn := psn % 2 ^ 24, first := first, last := last, ackReq := ackReq, imm := imm, va := va % 2 ^ 64,
    rkey := rkey, dmaLen := dmaLen, msn := q.msn % 2 ^ 24, payload := payload, dscp := q.dscp, pcp := pcp,
    len := frameLen tagged (isV4 q.remoteIp) (extBytes k first last imm) payload.length, resent := false }

/-! ### Queue pairs -/

def findQp (d : Dev) (n : Nat) : Option Qp := d.net.qps.find? (fun q => q.qpn == n)

def updQp (d : Dev) (n : Nat) (f : Qp → Qp) : Dev := { d with net.qps := updWhere (fun q => q.qpn == n) f d.net.qps }

/-- The partition number whose egress queues carry a QP's packets: 32 for the device's own. [Log entry 73, DESIGN CHOICE.] -/
def qpQueue (q : Qp) : Nat := q.part.getD 32

/-- Send a frame through the control queue of a sub-port (16 R376). -/
def sendCtl (d : Dev) (s : Nat) (f : Frame) : Dev := updSub d s (fun x => if x.up then { x with ctl := x.ctl ++ [f] } else x)

/-- Split a payload into packets of the path MTU; an empty one is one packet. -/
def segments (pmtu : Nat) (bs : List Byte) : List (List Byte) :=
  if bs.isEmpty then [[]] else (List.range (ceilDiv bs.length pmtu)).map (fun i => (bs.drop (i * pmtu)).take pmtu)

/-- The packets of a WRITE or SEND from PSN `psn`. -/
def messagePackets (d : Dev) (q : Qp) (k : PktKind) (imm : Option Nat) (va rkey : Nat) (bs : List Byte) : List Packet :=
  let ss := segments q.pmtu bs
  ((List.range ss.length).zip ss).map (fun x =>
    let last := x.1 + 1 == ss.length
    mkPacket d q k (q.nextPsn + x.1) (x.1 == 0) last last (if last then imm else none) va rkey bs.length x.2)

/-- Queue a message on a QP in RTS; none where it is not in RTS. -/
def sendMsg (d : Dev) (qpn : Nat) (k : PktKind) (imm : Option Nat) (va rkey : Nat) (bs : List Byte) : Option Dev :=
  match findQp d qpn with
  | none => none
  | some q =>
    if q.state ≠ 1 then none
    else
      let ps := messagePackets d q k imm va rkey bs
      some (updQp d qpn (fun x => { x with outq := x.outq ++ ps, nextPsn := (x.nextPsn + ps.length) % 2 ^ 24 }))

/-- Issue an RDMA READ on a QP in RTS with fewer than 16 outstanding (16 R368). -/
def sendRead (d : Dev) (qpn va rkey len : Nat) (why : ReadWhy) : Option Dev :=
  match findQp d qpn with
  | none => none
  | some q =>
    if q.state ≠ 1 || 16 ≤ q.reads.length then none
    else
      let n := Nat.max 1 (ceilDiv len q.pmtu)
      let p := mkPacket d q .readReq q.nextPsn true true true none va rkey len []
      let r : ReadOut := { psn := q.nextPsn, count := n, len := len, got := [], why := why }
      some (updQp d qpn (fun x => { x with
        outq := x.outq ++ [p], nextPsn := (x.nextPsn + n) % 2 ^ 24, reads := x.reads ++ [r] }))

/-- A QP enters ERROR (16 R369, Table 16-14): its outbound work is discarded. [Log entry 77, DEDUCED.] -/
def qpError (d : Dev) (qpn cause : Nat) : Dev :=
  match findQp d qpn with
  | none => d
  | some q =>
    if q.state = 2 then d
    else
      let psn := match q.unacked with | p :: _ => p.psn | [] => (q.nextPsn + 2 ^ 24 - 1) % 2 ^ 24
      let d1 := updQp d qpn (fun x => { x with
        state := 2, unacked := [], outq := [], reads := [], rnrUntil := none, ackStart := none, ackDue := 0, ackSince := none, cur := none })
      match q.part with
      | some p => raise d1 0x0A13 (objIn 0x0D p qpn) (.part p) [(4, qpn), (1, cause), (4, psn)]
      | none => raiseDev d1 0x0A13 [(4, qpn), (1, cause), (4, psn)]

/-- The maximum rate of a QP in Mb/s (16 R378). -/
def qpMaxRate (d : Dev) (q : Qp) : Nat :=
  let r := subRate d q.sub * 1000
  if q.maxRate = 0 then r else Nat.min q.maxRate r

/-- Whether `a` comes before `b` in the circular PSN order. -/
def psnBefore (a b : Nat) : Bool := let x := (b + 2 ^ 24 - a) % 2 ^ 24; decide (0 < x) && decide (x < 2 ^ 23)

/-- Whether a packet is acknowledged by PSN `psn`: a READ request covers the PSNs of its response. -/
def pktDone (q : Qp) (psn : Nat) (p : Packet) : Bool :=
  let last := match p.kind with
    | .readReq => (p.psn + Nat.max 1 (ceilDiv p.dmaLen q.pmtu) - 1) % 2 ^ 24
    | _ => p.psn
  last == psn || psnBefore last psn

/-- Progress up to and with PSN `psn` (16 R369): acknowledged packets leave, RETRY is restored, the timer starts again. -/
def qpProgress (d : Dev) (qpn psn : Nat) : Dev :=
  updQp d qpn (fun q =>
    let left := q.unacked.filter (fun p => p.kind == .readReq || !pktDone q psn p)
    let outs := q.outq.filter (fun p => !p.resent || p.kind == .readReq || !pktDone q psn p)
    if left.length = q.unacked.length && outs.length = q.outq.length then q
    else { q with unacked := left, outq := outs, retry := q.retryCfg, rnrLeft := q.rnrCfg,
                  ackStart := if left.isEmpty then none else some d.tim.elapsed })

/-- Resend from the oldest unacknowledged packet on (16 R369); counted as RETRANSMITTED. -/
def qpResend (d : Dev) (qpn : Nat) : Dev :=
  match findQp d qpn with
  | none => d
  | some q =>
    let again := q.unacked.map (fun p => { p with resent := true })
    countSub (updQp d qpn (fun x => { x with unacked := [], outq := again ++ x.outq, ackStart := none })) q.sub 18 again.length

/-- A consecutive resend without progress takes one from RETRY; with none left the QP enters ERROR with `cause`. -/
def qpRetry (d : Dev) (qpn cause : Nat) : Dev :=
  match findQp d qpn with
  | none => d
  | some q =>
    if q.retry = 0 then qpError d qpn cause
    else qpResend (updQp d qpn (fun x => { x with retry := x.retry - 1 })) qpn

/-! ### Receiving (16 R366, R376-R378, R384) -/

/-- The class of a received packet (16 R376). -/
def rxClass (c : ClassCfg) (h : RxHead) : Nat :=
  if c.trustPcp && h.tagged then nth c.pcpMap h.pcp 0 else nth c.dscpMap h.dscp 0

/-- Bytes of a class in the ingress buffer. -/
def classBytes (s : SubPort) (c : Nat) : Nat := sumNat ((s.ingress.filter (fun x => x.1 == c)).map (·.2.2))

/-- Bytes in the ingress buffer. -/
def ingressBytes (s : SubPort) : Nat := sumNat (s.ingress.map (·.2.2))

/-- Time of a PFC quanta count at a rate in Gb/s, in ns (16 R377). -/
def quantaNs (q rate : Nat) : Nat := if rate = 0 then 0 else ceilDiv (q * 512) rate

/-- Send PFC for a class, where the sub-port is up. -/
def sendPfc (d : Dev) (s c quanta : Nat) : Dev :=
  match findSub d s with
  | some x => if x.up then countSub (sendCtl d s (.pfc c quanta)) s 12 1 else d
  | none => d

/-- The colour that a DSCP carries (16 R384): 0 green, 1 yellow, 2 red. -/
def dscpColour (n : Nat) : Nat :=
  if decide (8 ≤ n) && decide (n < 40) then
    (match n % 8 with
    | 4 => 1
    | 6 => 2
    | _ => 0)
  else 0

/-- Fill a meter's buckets up to now: rates in Mb/s fill 1/8,000 byte a nanosecond each. -/
def meterFill (m : Meter) (now : Nat) : Meter :=
  let dt := now - m.last
  { m with tc := Nat.min (m.cbs * 8000) (m.tc + m.cir * dt), tp := Nat.min (m.pbs * 8000) (m.tp + m.pir * dt), last := now }

/-- The colour that a meter gives a packet of `len` bytes (16 R384; RFC 2698, RFC 4115). -/
def meterColour (m : Meter) (len dscp : Nat) : Nat × Meter :=
  let pre := if m.aware then dscpColour dscp else 0
  let b := len * 8000
  match m.mode with
  | 1 =>
    if pre = 2 || m.tp < b then (2, m)
    else if pre = 1 || m.tc < b then (1, { m with tp := m.tp - b })
    else (0, { m with tp := m.tp - b, tc := m.tc - b })
  | 2 =>
    if pre = 0 && b ≤ m.tc then (0, { m with tc := m.tc - b })
    else if pre ≤ 1 && b ≤ m.tp then (1, { m with tp := m.tp - b })
    else (2, m)
  | _ => (0, m)

/-- An egress queue that holds nothing yet. -/
def freshQueue (p c : Nat) : EQueue :=
  { part := p, cls := c, frames := [], deficit := 0, quantum := 4608, newQuantum := none
    shaper := { cfg := { cir := 0, cbs := 0, pir := 0, pbs := 0, overhead := 20 }, c := 0, p := 0, new := none }
    txFrames := 0, txBytes := 0, drops := 0, samples := 0, depthHist := List.replicate 16 0
    delayHist := List.replicate 16 0 }

/-- The egress queue of a partition and class. -/
def queueOf (s : SubPort) (p c : Nat) : EQueue := (s.queues.find? (fun q => q.part == p && q.cls == c)).getD (freshQueue p c)

/-- Store an egress queue. -/
def putQueue (s : SubPort) (q : EQueue) : SubPort :=
  { s with queues := upsert (fun (x : EQueue) => x.part == q.part && x.cls == q.cls) q s.queues }

/-- Count a frame dropped at the tail (16 Table 16-10). -/
def countDrop (d : Dev) (s p c : Nat) : Dev :=
  updSub d s (fun x => let q := queueOf x p c; putQueue x { q with drops := satAdd q.drops 1 })

/-- Send XOFF for a class whose occupancy has reached XOFF_KIB (16 R377). [Log entry 78, DEDUCED.] -/
def checkXoff (d : Dev) (s c : Nat) : Dev :=
  match findSub d s with
  | none => d
  | some x =>
    if bitSet x.cls.pfcMask c && decide (x.cls.xoffKib * 1024 ≤ classBytes x c) && (pairOf x.xoff c).isNone then
      let next := d.tim.elapsed + quantaNs 0xFFFF (subRate d s) / 2
      sendPfc (updSub d s (fun y => { y with xoff := setPair y.xoff c next })) s c 0xFFFF
    else d

/-- The meter of a partition and class. -/
def findMeter (s : SubPort) (p c : Nat) : Option Meter := s.meters.find? (fun m => m.part == p && m.cls == c)

/-- Police a packet: answers its colour, and whether it is dropped, with the count of the drop. -/
def police (d : Dev) (s : Nat) (x : SubPort) (q : Qp) (c : Nat) (h : RxHead) : Option Nat × Dev :=
  match q.part with
  | none => (some 0, d)
  | some p =>
    match findMeter x p c with
    | none => (some 0, d)
    | some m0 =>
      if m0.mode = 0 then (some 0, d)
      else
        let (col, m) := meterColour (meterFill m0 d.tim.elapsed) h.len h.dscp
        let put := fun (y : SubPort) => { y with meters := upsert (fun (z : Meter) => z.part == p && z.cls == c) m y.meters }
        let d1 := updSub d s put
        let act := if col = 1 then m.yellow else if col = 2 then m.red else 0
        match act with
        | 2 => (none, countSub d1 s 19 1)
        | 1 =>
          if 0 < col && x.cls.xonKib * 1024 ≤ classBytes x c then (none, countSub d1 s 20 1) else (some col, d1)
        | _ => (some 0, d1)

/-- A RoCEv2 frame arrives for a QP: counted, classified, metered and taken into the ingress buffer. None where it is dropped. One for a
buddy QP shows that the partner is there (14 R328). [Log entry 72, DESIGN CHOICE.] -/
def rxPacket (d0 : Dev) (h : RxHead) : Option Qp × Dev :=
  match findSub d0 h.sub with
  | none => (none, d0)
  | some x =>
    if !x.up then (none, d0)
    else
      let d1 := countSub (countSub d0 h.sub 1 1) h.sub 3 h.len
      if !h.fcsOk then (none, countSub d1 h.sub 5 1)
      else if 4224 < h.len then (none, countSub d1 h.sub 6 1)
      else if !h.icrcOk then (none, countSub d1 h.sub 8 1)
      else
        match findQp d1 h.qpn with
        | none => (none, d1)
        | some q =>
          let c := rxClass x.cls h % 8
          if q.sub ≠ h.sub then (none, d1)
          else
            match police d1 h.sub x q c h with
            | (none, d2) => (none, d2)
            | (some col, d2) =>
              if 4 * 2 ^ 20 < ingressBytes x + h.len then (none, countDrop d2 h.sub (qpQueue q) c)
              else
                let d3 := checkXoff (updSub d2 h.sub (fun y => { y with ingress := y.ingress ++ [(c, col, h.len)] })) h.sub c
                let d4 := if q.part.isNone then { d3 with buddy.lastRx := d3.tim.elapsed } else d3
                if q.state = 1 then (some q, d4) else (none, d4)

/-- A packet marked CE: a CNP to the source, at most once in CNP_INTERVAL_US for each QP (16 R378). -/
def ceSeen (d : Dev) (q : Qp) (h : RxHead) : Dev :=
  if !h.ce then d
  else
    let gap := 1000 * orDefault (match findSub d h.sub with | some x => x.cls.cnpUs | none => 0) 50
    let due := match q.lastCnp with | some t => decide (t + gap ≤ d.tim.elapsed) | none => true
    if due then
      let p := mkPacket d q .cnp 0 true true false none 0 0 0 []
      countSub (sendCtl (updQp d q.qpn (fun x => { x with lastCnp := some d.tim.elapsed })) h.sub (.rdma p)) h.sub 14 1
    else d

/-- INGRESS_BUFFER_DRAIN: the oldest packet leaves a sub-port's ingress buffer (16 R377). [Log entry 72, DESIGN CHOICE.] -/
def ingressDrain (s : Nat) (d : Dev) : Dev :=
  match findSub d s with
  | none => d
  | some x =>
    match x.ingress with
    | [] => d
    | (c, _, _) :: rest =>
      let y := { x with ingress := rest }
      let d1 := updSub d s (fun _ => y)
      if (pairOf y.xoff c).isSome && decide (classBytes y c < y.cls.xonKib * 1024) then
        sendPfc (updSub d1 s (fun z => { z with xoff := dropPair z.xoff c })) s c 0
      else d1

/-! ### Acknowledging (16 R369, R370) -/

/-- Send an ACK up to the last packet taken. -/
def sendAck (d : Dev) (qpn : Nat) : Dev :=
  match findQp d qpn with
  | none => d
  | some q =>
    let p := mkPacket d q .ack (q.expPsn + 2 ^ 24 - 1) true true false none 0 0 0 []
    sendCtl (updQp d qpn (fun x => { x with ackDue := 0, ackSince := none })) q.sub (.rdma p)

/-- Send a NAK for the expected PSN. [Log entry 74, DEDUCED.] -/
def sendNak (d : Dev) (qpn : Nat) (k : PktKind) : Dev :=
  match findQp d qpn with
  | none => d
  | some q =>
    let p := mkPacket d q k q.expPsn true true false none 0 0 0 []
    let d1 := sendCtl (updQp d qpn (fun x => { x with ackDue := 0, ackSince := none })) q.sub (.rdma p)
    match k with
    | .rnr _ => countSub d1 q.sub 17 1
    | _ => countSub d1 q.sub 16 1

/-- A fatal NAK to the peer: the message in progress ends. [Log entry 74, DEDUCED.] -/
def refuse (d : Dev) (qpn : Nat) (k : PktKind) : Dev := sendNak (updQp d qpn (fun x => { x with cur := none })) qpn k

/-- A request packet taken in order: the expected PSN advances by `n`, and an ACK is due at the latest after 16 packets. -/
def takeInOrder (d : Dev) (qpn n : Nat) (h : RxHead) : Dev :=
  let d1 := updQp d qpn (fun x => { x with
    expPsn := (x.expPsn + n) % 2 ^ 24
    nakSent := false
    msn := if h.last then (x.msn + 1) % 2 ^ 24 else x.msn
    ackDue := x.ackDue + 1
    ackSince := some (x.ackSince.getD d.tim.elapsed) })
  match findQp d1 qpn with
  | some q => if h.ackReq || decide (16 ≤ q.ackDue) then sendAck d1 qpn else d1
  | none => d1

/-- The place of a request's PSN: 0 expected, 1 ahead, 2 a duplicate. -/
def psnPlace (q : Qp) (psn : Nat) : Nat :=
  if psn % 2 ^ 24 = q.expPsn then 0 else if psnBefore q.expPsn (psn % 2 ^ 24) then 1 else 2

/-- Sort out a request packet: `ok` runs on one in order; one ahead gets one sequence-error NAK; a duplicate is acknowledged again. -/
def inOrder (d0 : Dev) (h : RxHead) (ok dup : Qp → Dev → Dev) : Dev :=
  match rxPacket d0 h with
  | (none, d) => d
  | (some q, d1) =>
    let d := ceSeen d1 q h
    match psnPlace q h.psn with
    | 0 => ok q d
    | 1 => if q.nakSent then d else sendNak (updQp d q.qpn (fun x => { x with nakSent := true })) q.qpn .nakSeq
    | _ => dup q d

/-- ACK_COALESCE_EXPIRY (16 R369). -/
def ackCoalesce (qpn dt : Nat) (d0 : Dev) : Dev :=
  let d := advance d0 dt
  match findQp d qpn with
  | some q =>
    (match q.ackSince with
    | some t => if t + 2000 ≤ d.tim.elapsed then sendAck d qpn else d
    | none => d)
  | none => d

/-- ACK_RECEIVE. -/
def ackReceive (h : RxHead) (d0 : Dev) : Dev :=
  match rxPacket d0 h with
  | (none, d) => d
  | (some q, d) => qpProgress (ceSeen d q h) q.qpn (h.psn % 2 ^ 24)

/-- NAK_RECEIVE: `code` 0 sequence error, 1 RNR with its timer, 2 a fatal NAK (16 R369, R370). -/
def nakReceive (h : RxHead) (code timerNs : Nat) (d0 : Dev) : Dev :=
  match rxPacket d0 h with
  | (none, d) => d
  | (some q, d1) =>
    let d := countSub (ceSeen d1 q h) q.sub 15 1
    let before := (h.psn + 2 ^ 24 - 1) % 2 ^ 24
    match code with
    | 0 => qpRetry (qpProgress d q.qpn before) q.qpn 1
    | 1 =>
      let d2 := qpProgress d q.qpn before
      (match findQp d2 q.qpn with
      | none => d2
      | some y =>
        if y.rnrCfg ≠ 7 && y.rnrLeft = 0 then qpError d2 q.qpn 2
        else updQp d2 q.qpn (fun x => { x with
          rnrLeft := if x.rnrCfg = 7 then x.rnrLeft else x.rnrLeft - 1
          rnrUntil := some (d2.tim.elapsed + timerNs)
          ackStart := none }))
    | _ => qpError d q.qpn 3

/-- RNR_RETRY_EXPIRY: the request is retried (16 R369). -/
def rnrExpiry (qpn dt : Nat) (d0 : Dev) : Dev :=
  let d := advance d0 dt
  match findQp d qpn with
  | some q =>
    (match q.rnrUntil with
    | some t => if t ≤ d.tim.elapsed then qpResend (updQp d qpn (fun x => { x with rnrUntil := none })) qpn else d
    | none => d)
  | none => d

/-- ACK_TIMEOUT: 4.096 µs × 2^TIMEOUT without an acknowledgement (16 R369). -/
def ackTimeout (qpn dt : Nat) (d0 : Dev) : Dev :=
  let d := advance d0 dt
  match findQp d qpn with
  | some q =>
    (match q.ackStart with
    | some t => if q.state = 1 && t + 4096 * 2 ^ q.timeout ≤ d.tim.elapsed then qpRetry d qpn 1 else d
    | none => d)
  | none => d

/-! ### Rate control and the pacer (16 R378) -/

/-- CNP_RECEIVE. [Log entry 71, DESIGN CHOICE.] -/
def cnpReceive (h : RxHead) (d0 : Dev) : Dev :=
  match rxPacket d0 h with
  | (none, d) => d
  | (some q, d1) =>
    let d := countSub d1 q.sub 13 1
    match findSub d q.sub with
    | none => d
    | some s =>
      let g := orDefault s.cls.gShift 8
      let a := dyAdd (dyMul (dyOneMinus (dyNat 1) g) q.alpha) ⟨1, g⟩
      let r := dyMax (dyNat (orDefault s.cls.rateMin 100)) (dyMul q.rate (dyOneMinus a 1))
      updQp d q.qpn (fun x => { x with alpha := a, target := x.rate, rate := r, quiet := 0, cnpSeen := true })

/-- T_INC_EXPIRY of a QP in RTS. [Log entry 71, DESIGN CHOICE.] -/
def tIncExpiry (qpn dt : Nat) (d0 : Dev) : Dev :=
  let d := advance d0 dt
  match findQp d qpn with
  | none => d
  | some q =>
    match findSub d q.sub with
    | none => d
    | some s =>
      if q.state ≠ 1 || d.tim.elapsed < q.tIncAt then d
      else
        let g := orDefault s.cls.gShift 8
        let a := if q.cnpSeen then q.alpha else dyMul (dyOneMinus (dyNat 1) g) q.alpha
        let q1 := { q with alpha := a, cnpSeen := false, maxRate := q.newMax.getD q.maxRate, newMax := none
                           tIncAt := q.tIncAt + 1000 * orDefault s.cls.tIncUs 55 }
        let mx := dyNat (qpMaxRate d q1)
        let q2 := if dyLe mx q1.rate then { q1 with rate := dyMin q1.rate mx }
          else
            let n := q1.quiet + 1
            let t := if 5 < n then dyMin mx (dyAdd q1.target (dyNat (orDefault s.cls.rAi 5000))) else q1.target
            { q1 with quiet := n, target := t, rate := dyMin mx (dyMul (dyAdd q1.rate t) ⟨1, 1⟩) }
        updQp d qpn (fun _ => q2)

/-- Unacknowledged bytes of a QP. -/
def unackedBytes (q : Qp) : Nat := sumNat (q.unacked.map (fun p => p.len))

/-- Whether a packet awaits an acknowledgement. -/
def tracked (k : PktKind) : Bool := match k with | .write | .send | .readReq => true | _ => false

/-- QP_PACER_RELEASE: the pacing delay has passed and the next packet enters its class queue. -/
def pacerRelease (qpn dt : Nat) (d0 : Dev) : Dev :=
  let d := advance d0 dt
  match findQp d qpn with
  | none => d
  | some q =>
    match q.outq with
    | [] => d
    | p :: rest =>
      let track := tracked p.kind
      if q.state ≠ 1 || d.tim.elapsed < q.readyAt || q.rnrUntil.isSome || (track && decide (4 * 2 ^ 20 < unackedBytes q + p.len)) then d
      else
        let gap := ceilDiv (p.len * 8000 * 2 ^ q.rate.e) (Nat.max 1 q.rate.m)
        let d1 := updQp d qpn (fun x => { x with
          outq := rest
          readyAt := d.tim.elapsed + gap
          unacked := if track then x.unacked ++ [p] else x.unacked
          ackStart := if track then some (x.ackStart.getD d.tim.elapsed) else x.ackStart })
        updSub d1 q.sub (fun s =>
          let e := queueOf s (qpQueue q) q.cls
          putQueue s { e with frames := e.frames ++ [{ pkt := p, at' := d.tim.elapsed }] })

end Sys2Proof.Machine
end

