-- ==== Sys2Proof/Machine/Windows.lean ====
section
/-!
DEFINITION. Exchange windows (16 R371-R375): their memory, RDMA into and out of them, launched jobs and their returns.
-/

namespace Sys2Proof.Machine

/-- Key of a window's first byte in the exchange memory: a place of its own, beyond the LDs' areas. -/
def windowKey (id : Nat) : Nat := exKey (2 ^ 64 + id) 0

/-- Key of the buddy area's first byte (14 R327). -/
def areaKey : Nat := exKey (2 ^ 65) 0

def findWindow (d : Dev) (id : Nat) : Option Window := d.net.windows.find? (fun w => w.id == id)

def updWindow (d : Dev) (id : Nat) (f : Window → Window) : Dev :=
  { d with net.windows := updWhere (fun w => w.id == id) f d.net.windows }

/-- The device place of `len` bytes at virtual address `va` under an R_Key on a QP, and the window where it is one (16 R370, R371;
14 R328). -/
def rdmaTarget (d : Dev) (q : Qp) (rkey va len : Nat) : Option (Nat × Option Window) :=
  match q.part with
  | none =>
    match d.buddy.area with
    | some g => if rkey = d.buddy.rkey && va + len ≤ g * 2 ^ 30 then some (areaKey + va, none) else none
    | none => none
  | some _ =>
    match findWindow d (rkey / 2 ^ 16) with
    | some w =>
      if w.rkey = rkey && w.qpn = q.qpn && !w.closed && decide (w.va ≤ va) && decide (va + len ≤ w.va + w.size) then
        some (windowKey w.id + (va - w.va), some w)
      else none
    | none => none

/-- Jobs launched from a window that have not completed (16 R373). -/
def launchedJobs (d : Dev) (id : Nat) : Nat :=
  (d.arr.jobs.filter (fun j => match j.launch with | some l => l.window == id | none => false)).length

/-! ### Returns and completions (16 R373, R374) -/

/-- Queue a list of messages on a QP; none where it is not in RTS. -/
def sendAll (d : Dev) (qpn : Nat) : List (Option Nat × Nat × Nat × List Byte) → Option Dev
  | [] => some d
  | (imm, va, rkey, bs) :: rest =>
    match sendMsg d qpn .write imm va rkey bs with
    | none => none
    | some d1 => sendAll d1 qpn rest

/-- Return a launch's result (16 R374): its output regions, then the zero-length WRITE with the return immediate. A QP that is not in RTS
drops it (R375). -/
def sendReturn (d : Dev) (w : Window) (outcome imm : Nat) (outs : List (Nat × List Byte)) : Dev :=
  if !w.ret then d
  else
    let msgs := outs.map (fun x => (none, w.raddr + x.1, w.rrkey, x.2)) ++
      [(some (outcome * 2 ^ 28 + imm % 2 ^ 28), w.raddr, w.rrkey, [])]
    match sendAll d w.qpn msgs with
    | some d1 => d1
    | none => match findQp d w.qpn with
      | some q => countSub d q.sub 23 1
      | none => d

/-- The outcome code of a completion status (16 Table 16-5). -/
def outcomeOf (status : Nat) : Nat :=
  if status = stOk then 0 else if status = stPartial || status = stMaskEmpty then 1 else 2

/-- Post a launched job's completion to its window's ring, with TAG equal to the immediate value (16 R373). [Log entry 75, DEDUCED.] -/
def postLaunch (d : Dev) (w : Window) (imm status : Nat) (fields : List (Nat × Nat × Nat)) : Dev :=
  if !w.cq then d
  else
    match findRing d w.ring with
    | none => d
    | some _ =>
      let body := fields.foldl (fun acc f => putBytes acc (f.1 - 8) (natLe f.2.2 f.2.1)) (List.replicate 24 0)
      let bs := natLe imm 4 ++ natLe status 2 ++ [0, 0xFF] ++ body.take 24
      let d1 := updRing d w.ring (fun r => { r with held := r.held ++ [HeldCpl.mk bs false d.tur.nextSeq] })
      settleRing (drainHeld 65536 d1 w.ring) w.ring

/-- The output regions of a job that has finished: OUT and STATUS of an attention job, the records of a sample job, as (offset,
bytes) of its window. -/
def launchOuts (d : Dev) (j : Job) (l : Launch) : List (Nat × List Byte) :=
  let grab := fun off n => (off, memReadN d.exch (l.base + off) n)
  if j.kind = 0 then
    match findModel d j.model with
    | some m => [grab (fieldAt j.desc 40 8) (fieldAt j.desc 8 4 * m.hidden * outBytes j), grab (fieldAt j.desc 64 8) (4 * j.rows.length)]
    | none => []
  else [grab (fieldAt j.desc 32 8) (128 * j.rows.length)]

/-- What a job's boundary would make of it: its status and output regions, final once its last slice has ended (16 R374). [Log entry 76, DEDUCED.] -/
def previewJob (d : Dev) (j : Job) (l : Launch) : Option (Nat × List (Nat × List Byte)) :=
  let d1 := if j.kind = 0 then completeAttend d j.num else completeSample d j.num
  match findJob d1 j.num with
  | some k => some (k.status, launchOuts d1 k l)
  | none => none

/-- Return the output of a launched job whose last slice has ended, once. [Log entry 76, DEDUCED.] -/
def returnJob (d : Dev) (j : Job) : Dev :=
  match j.launch with
  | none => d
  | some l =>
    match findWindow d l.window with
    | none => d
    | some w =>
      if w.returned.contains j.num then d
      else
        match previewJob d j l with
        | none => d
        | some (st, outs) =>
          let o := outcomeOf st
          let d1 := updWindow d w.id (fun x => { x with returned := j.num :: x.returned })
          sendReturn d1 w o l.imm (if o < 2 then outs else [])

/-- Return every launched job that has reached its last slice's end. -/
def returnJobs (d : Dev) : Dev := (d.arr.jobs.filter (fun j => j.state == 3 && j.launch.isSome)).foldl returnJob d

/-- Remove a window whose close has finished and complete its verb (16 R388). [Log entry 76, DEDUCED.] -/
def settleWindow (d : Dev) (id : Nat) : Dev :=
  match findWindow d id with
  | none => d
  | some w =>
    if !w.closed || 0 < launchedJobs d id then d
    else
      let d1 := stampFree d 0x0E id
      let d2 := freeAllocs { d1 with net.windows := dropWhere (fun x => x.id == id) d1.net.windows } (allocKey 0x0E id)
      let d3 := { d2 with exch := memClear d2.exch (windowKey id) w.size }
      match w.closing.bind (findVerb d3) with
      | some v => finishOk d3 v [(8, 4, w.done)]
      | none => d3

/-- A launched job that is done: one that was stopped returns its immediate, its completion is posted, and it leaves. -/
def finishLaunch (d : Dev) (j : Job) : Dev :=
  match j.launch with
  | none => d
  | some l =>
    match findWindow d l.window with
    | none => freeJob d j.num
    | some w =>
      let d1 := if w.returned.contains j.num then d else sendReturn d w (Nat.max 2 (outcomeOf j.status)) l.imm []
      let d2 := updWindow d1 w.id (fun x => { x with
        returned := x.returned.filter (· != j.num), done := if x.closed then x.done + 1 else x.done })
      settleWindow (freeJob (postLaunch d2 w l.imm j.status j.result) j.num) w.id

/-- What follows a change to the jobs at a boundary: stopped jobs end, launched jobs return and complete. -/
def settleLaunches (d : Dev) : Dev :=
  let d1 := returnJobs (endStopped d)
  (d1.arr.jobs.filter (fun j => j.state == 6)).foldl finishLaunch d1

/-- What follows a change to the jobs between two boundaries: windows that it frees are released at one instant of their own (02 R20). -/
def settleJobs (d : Dev) : Dev :=
  settleLaunches (if d.arr.jobs.any (fun j => j.launch.isSome) then nextRelease d else d)

/-! ### Launches (16 R372, R373) -/

/-- A launch that its verb's rules refuse completes at once. [Log entry 75, DEDUCED.] -/
def launchFailed (d : Dev) (w : Window) (imm status : Nat) : Dev := postLaunch (sendReturn d w (outcomeOf status) imm []) w imm status []

/-- The area that a window's job names. -/
def windowArea (w : Window) : Area := { base := windowKey w.id, size := w.size, outSize := w.size }

/-- The checks of a launched job's descriptor, and its job (16 R373; 06 R116, 11 R238). -/
def launchBody (d : Dev) (seq : Nat) (w : Window) (q : Qp) (imm : Nat) : Except Fail Dev := do
  let off := imm % 2 ^ 28 * 64
  let a := windowArea w
  let l : Launch := { window := w.id, qp := q.qpn, imm := imm, base := windowKey w.id, size := w.size }
  if imm / 2 ^ 28 = 1 then
    let b ← areaRead d a off 128
    let rows ← attendHead d a b 0xFF
    let ctx := fieldAt b 12 2 % 2048
    if ctx ≠ w.ctx then failSt stDenied
    else if (findCtx d ctx).isNone then failSt stStale
    else
      match findModel d (fieldAt b 0 1) with
      | none => failSt stStale
      | some m =>
        if m.part ≠ w.part then failSt stDenied
        else
          attendRest d a b 0xFF rows m
          .ok (registerJob d seq w.prio w.part (some l) b rows m)
  else
    let b ← areaRead d a off 64
    let (rows, tb) ← sampleHead d a b 0xFF
    let ctx := fieldAt b 8 2 % 2048
    if ctx ≠ w.ctx then failSt stDenied
    else if (findCtx d ctx).isNone then failSt stStale
    else .ok (registerSample d seq w.prio w.part (some l) b tb rows)

/-- Whether an immediate value names a launch: a KIND that is not reserved, and a descriptor that lies whole in the window (16 R372). -/
def launches (w : Window) (imm : Nat) : Bool :=
  let kind := imm / 2 ^ 28 % 16
  inR kind 1 2 && decide (imm % 2 ^ 28 * 64 + (if kind = 1 then 128 else 64) ≤ w.size)

/-- A WRITE with immediate has completed: the launch that its immediate value names (16 Table 16-4). [Log entry 75, DEDUCED.] -/
def launch (d : Dev) (w : Window) (q : Qp) (imm : Nat) : Dev :=
  if imm / 2 ^ 28 % 16 = 0 then d
  else if !launches w imm then sendReturn (countSub d q.sub 22 1) w 3 imm []
  else
    let d1 := countSub d q.sub 21 1
    let d2 := { d1 with tur.nextSeq := d1.tur.nextSeq + 1 }
    let d3 := if w.cq then updRing d2 w.ring (fun r => { r with inFlight := r.inFlight + 1 }) else d2
    match launchBody d3 d1.tur.nextSeq w q imm with
    | .ok d4 => d4
    | .error f => launchFailed d3 w imm f.status

/-! ### RDMA requests of peers (16 R370; 14 R328) -/

/-- An RDMA WRITE packet, with an immediate value where it is the last of such a message. `onImm` runs once a buddy message with immediate
is whole. [Log entry 79, DEDUCED.] -/
def writeReceive (h : RxHead) (va rkey dmaLen : Nat) (imm : Option Nat) (payload : List Byte) (onImm : Nat → Nat → Nat → Dev → Dev)
    (d0 : Dev) : Dev :=
  let dup := fun (q : Qp) (d : Dev) => sendAck d q.qpn
  let ok := fun (q : Qp) (d : Dev) =>
    let cur := if h.first then some (va, rkey, dmaLen) else q.cur
    match cur with
    | none => refuse d q.qpn .nakInvalid
    | some (a, k, left) =>
      if left < payload.length || (h.last && left != payload.length) then refuse d q.qpn .nakInvalid
      else
        match rdmaTarget d q k a left with
        | none => if left = 0 && q.part.isNone && h.first then takeInOrder d q.qpn 1 h else refuse d q.qpn .nakAccess
        | some (key, w) =>
          let full := match w, imm with
            | some x, some i => h.last && launches x i && (decide (64 ≤ launchedJobs d x.id) || d.boot.powerFail)
            | _, _ => false
          if full then sendNak d q.qpn (.rnr 10000)
          else
            let d1 := exWrite d key payload
            let next := if h.last then none else some (a + payload.length, k, left - payload.length)
            let d2 := takeInOrder (updQp d1 q.qpn (fun x => { x with cur := next })) q.qpn 1 h
            match imm, h.last with
            | some i, true =>
              (match w with
              | some x => launch d2 x q i
              | none => onImm i q.qpn (key + payload.length - areaKey) d2)
            | _, _ => d2
  inOrder d0 h ok dup

/-- The packets that answer a READ: the data in packets of the path MTU under the request's PSNs. -/
def readAnswer (d : Dev) (q : Qp) (psn key len : Nat) : Dev :=
  let ss := segments q.pmtu (memReadN d.exch key len)
  let ps := ((List.range ss.length).zip ss).map (fun x =>
    mkPacket d q .readResp (psn + x.1) (x.1 == 0) (x.1 + 1 == ss.length) false none 0 0 0 x.2)
  updQp d q.qpn (fun x => { x with outq := x.outq ++ ps })

/-- RDMA_READ_REQUEST (16 R370): of a window with READ_OK, or of the buddy area. A duplicate is answered again. -/
def readRequest (h : RxHead) (va rkey len : Nat) (d0 : Dev) : Dev :=
  let serve := fun (q : Qp) (d : Dev) (fresh : Bool) =>
    match rdmaTarget d q rkey va len with
    | some (key, w) =>
      if (match w with | some x => x.readOk | none => true) then
        let n := Nat.max 1 (ceilDiv len q.pmtu)
        let d1 := readAnswer d q (h.psn % 2 ^ 24) key len
        if fresh then
          updQp d1 q.qpn (fun x => { x with
            expPsn := (x.expPsn + n) % 2 ^ 24, nakSent := false, msn := (x.msn + 1) % 2 ^ 24, ackDue := 0, ackSince := none })
        else d1
      else if fresh then refuse d q.qpn .nakAccess else d
    | none => if fresh then refuse d q.qpn .nakAccess else d
  inOrder d0 h (fun q d => serve q d true) (fun q d => serve q d false)

end Sys2Proof.Machine
end

