-- ==== Sys2Proof/Machine/Egress.lean ====
section
/-!
DEFINITION. What leaves and steers a sub-port (16 R365, R366, R376-R385): the egress scheduler, shapers, gates, flow control, sampling,
port training and lane failures.
-/

namespace Sys2Proof.Machine

/-! ### Egress scheduling (16 R379, R380) -/

/-- The partition shaper of a sub-port. -/
def partShaper (s : SubPort) (p : Nat) : Shaper := ((s.partShapers.find? (fun x => x.1 == p)).map (·.2)).getD (freshQueue 0 0).shaper

/-- Whether a shaper lets a frame start. -/
def shaperOpen (x : Shaper) : Bool := x.cfg.pir == 0 || decide (0 ≤ x.p)

/-- Whether a shaper counts a frame as committed: a CIR of 0 makes every frame excess. -/
def shaperCommits (x : Shaper) : Bool := x.cfg.cir != 0 && decide (0 ≤ x.c)

/-- Counted length of a frame for a shaper. -/
def countedLen (x : Shaper) (len : Nat) : Int := (len : Int) + x.cfg.overhead

/-- Charge a frame to a shaper. -/
def shaperCharge (x : Shaper) (len : Nat) : Shaper := { x with c := x.c - 1024 * countedLen x len, p := x.p - 1024 * countedLen x len }

/-- The class mask of the current gate entry; every gate is open while the list is empty. -/
def gateMask (s : SubPort) : Nat := match s.gates[s.gateIdx]? with | some g => g.1 | none => 255

/-- Transmission time of a frame in ns, with preamble and gap. -/
def frameNs (rate len : Nat) : Nat := ceilDiv ((len + 20) * 8) (Nat.max 1 rate)

/-- Time from now until a class's gate next closes; none while it stays open. `k` bounds the entries looked at. -/
def gateLeft (s : SubPort) (c : Nat) (now : Nat) : Nat → Nat → Nat → Option Nat
  | 0, _, _ => none
  | k + 1, i, at' =>
    match s.gates[i]? with
    | none => none
    | some g =>
      if !bitSet g.1 c then some (at' - now)
      else gateLeft s c now k (if i + 1 = s.gates.length then 0 else i + 1) (at' + g.2)

/-- Whether a class may start a frame under the gates (16 R382). -/
def gateAllows (s : SubPort) (c now ns : Nat) : Bool :=
  match gateLeft s c now (s.gates.length + 1) s.gateIdx s.gateStart with
  | none => true
  | some left => bitSet (gateMask s) c && decide (ns ≤ left)

/-- Whether a class is paused (16 R377). -/
def classPaused (s : SubPort) (c : Nat) : Bool := (pairOf s.pauseUntil c).isSome

/-- Whether a queue is eligible, and whether its frame is committed (16 R379, R380). [Log entry 78, DEDUCED.] -/
def queueTurn (s : SubPort) (rate now : Nat) (q : EQueue) : Option Bool :=
  match q.frames with
  | [] => none
  | f :: _ =>
    let ps := partShaper s q.part
    if classPaused s q.cls || !gateAllows s q.cls now (frameNs rate f.pkt.len) || !shaperOpen q.shaper || !shaperOpen ps then none
    else some (shaperCommits q.shaper && shaperCommits ps)

/-- The queues of a set in round-robin order from the one after the partition last served. -/
def roundFrom (last : Nat) (qs : List EQueue) : List EQueue :=
  let s := sortBy (fun (a b : EQueue) => decide (a.part ≤ b.part)) qs
  s.filter (fun q => decide (last < q.part)) ++ s.filter (fun q => decide (q.part ≤ last))

/-- Deficit round robin over a set of queues of one class: the queue served before goes on while its deficit lasts. Answers the queue
with its deficit for this frame. [Log entry 78, DEDUCED.] -/
def drrPick (last : Nat) (qs : List EQueue) : Option EQueue :=
  let need := fun (q : EQueue) => match q.frames with | f :: _ => countedLen q.shaper f.pkt.len | [] => 0
  match qs.find? (fun q => q.part == last && decide (need q ≤ q.deficit)) with
  | some q => some q
  | none =>
    match roundFrom last qs with
    | q :: _ => some { q with deficit := q.deficit + q.quantum }
    | [] => none

/-- The queue that the scheduler picks at a frame start (16 R379). -/
def pickQueue (s : SubPort) (rate now : Nat) : Option EQueue :=
  let el := s.queues.filterMap (fun q => (queueTurn s rate now q).map (fun c => (q, c)))
  match maxBy (fun (x : EQueue × Bool) => x.1.cls) el with
  | none => none
  | some (q0, _) =>
    let mine := el.filter (fun x => x.1.cls == q0.cls)
    let com := (mine.filter (fun x => x.2)).map (·.1)
    drrPick ((pairOf s.turn q0.cls).getD 0) (if com.isEmpty then mine.map (·.1) else com)

/-- Length of a control frame. -/
def ctlLen (f : Frame) : Nat :=
  match f with
  | .rdma p => p.len
  | .neighborAdv _ _ => 90
  | .ptp _ _ _ => 90
  | _ => 64

/-- A frame starts on a sub-port: it leaves, is counted, and occupies the wire. -/
def startFrame (d : Dev) (s : Nat) (f : Frame) (len : Nat) : Dev :=
  let d1 := countSub (countSub d s 2 1) s 4 len
  updSub { d1 with outs.frames := d1.outs.frames ++ [(s, f)] } s (fun x => { x with busyUntil := d1.tim.elapsed + frameNs (subRate d1 s) len })

/-- EGRESS_FRAME_START: a frame starts on an idle sub-port, control frames first. -/
def egressStart (s dt : Nat) (d0 : Dev) : Dev :=
  let d := advance d0 dt
  match findSub d s with
  | none => d
  | some x =>
    if !x.up || d.tim.elapsed < x.busyUntil then d
    else
      match x.ctl with
      | f :: rest => startFrame (updSub d s (fun y => { y with ctl := rest })) s f (ctlLen f)
      | [] =>
        match pickQueue x (subRate d s) d.tim.elapsed with
        | none => d
        | some q =>
          match q.frames with
          | [] => d
          | f :: rest =>
            let len := f.pkt.len
            let q1 := { q with
              frames := rest
              deficit := if rest.isEmpty then 0 else q.deficit - countedLen q.shaper len
              shaper := shaperCharge q.shaper len
              txFrames := satAdd q.txFrames 1
              txBytes := (q.txBytes + len) % 2 ^ 64 }
            let ps := shaperCharge (partShaper x q.part) len
            let d1 := updSub d s (fun y => { putQueue y q1 with
              turn := setPair y.turn q.cls q.part
              partShapers := upsert (fun (z : Nat × Shaper) => z.1 == q.part) (q.part, ps) y.partShapers })
            startFrame d1 s (.rdma f.pkt) len

/-! ### Shapers (16 R381) -/

/-- The least of a bucket and its size. -/
def clip (x : Int) (size : Nat) : Int := if (1024 * size : Nat) < x then (1024 * size : Nat) else x

/-- One refill: a new setting takes effect with the buckets kept and clipped, then both buckets fill. -/
def shaperRefill (x : Shaper) : Shaper :=
  let cfg := x.new.getD x.cfg
  { cfg := cfg, c := clip (clip x.c cfg.cbs + 128 * cfg.cir) cfg.cbs, p := clip (clip x.p cfg.pbs + 128 * cfg.pir) cfg.pbs, new := none }

/-- Refill a sub-port's shapers and take up its new class settings (16 R381, R386). -/
def refillSub (s : SubPort) : SubPort :=
  { s with
    queues := s.queues.map (fun q => { q with shaper := shaperRefill q.shaper, quantum := q.newQuantum.getD q.quantum, newQuantum := none })
    partShapers := s.partShapers.map (fun x => (x.1, shaperRefill x.2))
    cls := s.newCls.getD s.cls
    newCls := none }

/-- SHAPER_REFILL: every 1,000 ns of device time; SHAPER_SETs and POLICER_SETs that wait for it complete (16 R381, R389). -/
def refill (dt : Nat) (d0 : Dev) : Dev :=
  let d := advance d0 dt
  if d.tim.now < d.net.refillAt then d
  else
    let next := (d.tim.now / 1000 + 1) * 1000
    let d1 := { d with net.subs := d.net.subs.map refillSub, net.refillAt := next }
    let d2 := d1.net.meterWaits.foldl (fun (a : Dev) x =>
      let m := { x.2.meter with tc := x.2.meter.cbs * 8000, tp := x.2.meter.pbs * 8000, last := a.tim.elapsed }
      updSub a x.1 (fun y => { y with meters := upsert (fun (z : Meter) => z.part == m.part && z.cls == m.cls) m y.meters })) d1
    let seqs := d2.net.shaperWaits ++ d2.net.meterWaits.map (·.2.seq)
    let d3 := { d2 with net.shaperWaits := [], net.meterWaits := [] }
    seqs.foldl (fun a q => match findVerb a q with | some v => finishOk a v [(8, 8, a.tim.now)] | none => a) d3

/-! ### Gates (16 R382, R383) -/

/-- Account for classes whose gate opens or closes at elapsed time `now`. -/
def gateAccount (s : SubPort) (now : Nat) : SubPort :=
  (List.range 8).foldl (fun (a : SubPort) c =>
    match pairOf a.gatedSince c, bitSet (gateMask a) c with
    | some t, true => { a with gatedSince := dropPair a.gatedSince c, gatedNs := setNth a.gatedNs c ((nth a.gatedNs c 0 + (now - t)) % 2 ^ 64) }
    | none, false => { a with gatedSince := setPair a.gatedSince c now }
    | _, _ => a) s

/-- GATE_ENTRY_EXPIRY: the next entry of the list becomes current. -/
def gateExpiry (s dt : Nat) (d0 : Dev) : Dev :=
  let d := advance d0 dt
  match findSub d s with
  | none => d
  | some x =>
    match x.gates[x.gateIdx]? with
    | none => d
    | some g =>
      if d.tim.elapsed < x.gateStart + g.2 then d
      else updSub d s (fun y => gateAccount { y with
        gateIdx := if y.gateIdx + 1 = y.gates.length then 0 else y.gateIdx + 1, gateStart := y.gateStart + g.2 } d.tim.elapsed)

/-- GATE_LIST_TAKEOVER: at its BASE_TIME the pending list replaces the current one. -/
def gateTakeover (s dt : Nat) (d0 : Dev) : Dev :=
  let d := advance d0 dt
  match findSub d s with
  | none => d
  | some x =>
    match x.pendGate with
    | none => d
    | some p =>
      if d.tim.now < p.base then d
      else
        let d1 := updSub d s (fun y => gateAccount { y with
          gates := p.entries, gateIdx := 0, gateStart := d.tim.elapsed, pendGate := none } d.tim.elapsed)
        deferredDone d1 p.ring p.tag 0x0A09 stOk objDevice .device []

/-! ### Priority flow control (16 R377) -/

/-- A class's pause begins. -/
def pauseBegin (s : SubPort) (c now : Nat) : SubPort :=
  if (pairOf s.pauseSince c).isSome then s else { s with pauseSince := setPair s.pauseSince c now }

/-- A class's pause ends. -/
def pauseEnd (s : SubPort) (c now : Nat) : SubPort :=
  match pairOf s.pauseSince c with
  | none => s
  | some t =>
    { s with
      pauseSince := dropPair s.pauseSince c
      pauseUntil := dropPair s.pauseUntil c
      pauseHeld := s.pauseHeld.filter (· != c)
      pausedNs := setNth s.pausedNs c ((nth s.pausedNs c 0 + (now - t)) % 2 ^ 64) }

/-- PFC_FRAME_RECEIVE: (class, quanta) pairs of the classes that the frame enables. [Log entry 77, DEDUCED.] -/
def pfcReceive (s len : Nat) (cs : List (Nat × Nat)) (d0 : Dev) : Dev :=
  match findSub d0 s with
  | none => d0
  | some x0 =>
    if !x0.up then d0
    else
      let d := countSub (countSub (countSub d0 s 1 1) s 3 len) s 11 1
      let rate := subRate d s
      let now := d.tim.elapsed
      updSub d s (fun x => cs.foldl (fun (a : SubPort) y =>
        let c := y.1 % 8
        if !bitSet a.cls.pfcMask c then a
        else if y.2 = 0 then pauseEnd a c now
        else
          let b := pauseBegin a c now
          { b with pauseUntil := setPair b.pauseUntil c (now + quantaNs y.2 rate) }) x)

/-- PFC_PAUSE_EXPIRY: a received pause time runs out. -/
def pauseExpiry (s c dt : Nat) (d0 : Dev) : Dev :=
  let d := advance d0 dt
  match (findSub d s).bind (fun x => pairOf x.pauseUntil c) with
  | some t => if t ≤ d.tim.elapsed then updSub d s (fun x => pauseEnd x c d.tim.elapsed) else d
  | none => d

/-- PFC_XOFF_REFRESH: PFC is repeated every half pause time while the occupancy stays at or above XON_KIB. -/
def xoffRefresh (s c dt : Nat) (d0 : Dev) : Dev :=
  let d := advance d0 dt
  match (findSub d s).bind (fun x => pairOf x.xoff c) with
  | some t =>
    if t ≤ d.tim.elapsed then
      sendPfc (updSub d s (fun x => { x with xoff := setPair x.xoff c (t + quantaNs 0xFFFF (subRate d s) / 2) })) s c 0xFFFF
    else d
  | none => d

/-- PAUSE_HELD_TIMEOUT: a class paused for 100 ms is reported once. -/
def pauseHeld (s c dt : Nat) (d0 : Dev) : Dev :=
  let d := advance d0 dt
  match findSub d s with
  | none => d
  | some x =>
    match pairOf x.pauseSince c with
    | none => d
    | some t =>
      if d.tim.elapsed < t + 100000000 || x.pauseHeld.contains c then d
      else raiseDev (updSub d s (fun y => { y with pauseHeld := c :: y.pauseHeld })) 0x0A14 [(1, s / 4), (1, s % 4), (1, c)]

/-! ### Sampling (16 R385) -/

/-- The bin of a value: bin 0 below 2 * `unit`, bin i of [unit * 2^i, unit * 2^(i+1)), bin 15 the rest. -/
def binOf (unit v : Nat) : Nat := if v < 2 * unit then 0 else Nat.min 15 (Nat.log2 (v / unit))

/-- Sample one queue. -/
def sampleQueue (now : Nat) (q : EQueue) : EQueue :=
  let depth := sumNat (q.frames.map (fun f => f.pkt.len))
  let delay := match q.frames with | f :: _ => now - f.at' | [] => 0
  let add := fun (l : List Nat) (i : Nat) => setNth l i (satAdd (nth l i 0) 1)
  { q with samples := satAdd q.samples 1, depthHist := add q.depthHist (binOf 64 depth), delayHist := add q.delayHist (binOf 128 delay) }

/-- Whether a probe selects a queue. -/
def probeSelects (p part mask c : Nat) : Bool := (p == 0xFF || p == part) && bitSet mask c

/-- The selected queues of the 256 of a sub-port. -/
def selected (p mask : Nat) : List (Nat × Nat) :=
  (List.range 256).filterMap (fun i => if probeSelects p (i / 8) mask (i % 8) then some (i / 8, i % 8) else none)

/-- LATENCY_PROBE_SAMPLE. Instants that a step of device time skips give one sample, at the step (03 R47). -/
def probeSample (s dt : Nat) (d0 : Dev) : Dev :=
  let d := advance d0 dt
  match (findSub d s).bind (·.probe) with
  | none => d
  | some p =>
    if d.tim.now < p.next then d
    else updSub d s (fun x =>
      let y := (selected p.part p.mask).foldl (fun (a : SubPort) k => putQueue a (sampleQueue d.tim.elapsed (queueOf a k.1 k.2))) x
      { y with probe := some { p with next := p.next + ((d.tim.now - p.next) / Nat.max 1 p.period + 1) * p.period } })

/-! ### Training and lanes (16 R365, R386) -/

/-- Lanes of a sub-port of a port. -/
def subLanes (p : EPort) (k : Nat) : List Nat :=
  match p.half with
  | some h => rangeFrom (4 * h) 4
  | none =>
    match p.split with
    | 0 => rangeFrom 0 8
    | 1 => rangeFrom (2 * k) 4
    | _ => rangeFrom (2 * k) 2

/-- A link is lost: the frames of the queues wait, what the sub-port had to say through its control queue is lost, and so are its pauses. [Log entry 72, DESIGN CHOICE.] -/
def linkLost (s : SubPort) (now : Nat) : SubPort :=
  (List.range 8).foldl (fun a c => pauseEnd a c now) { s with up := false, ctl := [], ingress := [], xoff := [] }

/-- A sub-port goes down. -/
def subDown (d : Dev) (s cause : Nat) : Dev :=
  match findSub d s with
  | none => d
  | some x =>
    if !x.up then d
    else raiseDev (updSub d s (fun y => linkLost y d.tim.elapsed)) 0x0A11
      [(1, s / 4), (1, s % 4), (1, cause)]

/-- The state of a port by its sub-ports. -/
def portStateOf (d : Dev) (p : EPort) : Nat :=
  if (portSubs p).any (fun k => match findSub d (p.num * 4 + k) with | some x => x.up | none => false) then
    (if p.half.isSome then 3 else 2)
  else 4

/-- PORT_TRAINING_COMPLETE: training of a port's sub-ports ends; `ok` is the mask of those that trained. -/
def portTrained (n ok dt : Nat) (d0 : Dev) : Dev :=
  let d := advance d0 dt
  match findPort d n with
  | none => d
  | some p =>
    if p.state = 0 then d
    else
      let one := fun (a : Dev) (k : Nat) =>
        let s := n * 4 + k
        match findSub a s with
        | none => a
        | some x =>
          if x.up then a
          else if bitSet ok k then raiseDev (updSub a s (fun y => { y with up := true, busyUntil := a.tim.elapsed })) 0x0A10 [(1, n), (1, k), (2, portRate p)]
          else raiseDev a 0x0A11 [(1, n), (1, k), (1, 2)]
      let d1 := (portSubs p).foldl one d
      updPort d1 n (fun x => { x with state := portStateOf d1 x })

/-- ETH_LANE_FAILURE: a lane loses lock, or uncorrectable codewords exceed the limit (16 R365); the FEC counts of the interval come with it. [Log entry 104, DESIGN CHOICE.] -/
def laneFailed (n lane corrected uncorrectable : Nat) (d0 : Dev) : Dev :=
  match findPort d0 n with
  | none => d0
  | some p0 =>
    let hit := (portSubs p0).find? (fun k => (subLanes p0 k).contains lane)
    match hit with
    | none => d0
    | some k =>
      let s := n * 4 + k
      let d := countSub (countSub d0 s 9 corrected) s 10 uncorrectable
      if p0.state = 0 then d
      else
        let p := { p0 with badLanes := upsert (· == lane) lane p0.badLanes }
        let keep := if lane < 4 then 1 else 0
        let clean := p.badLanes.all (fun l => l / 4 != keep)
        if p.split = 0 && p.degrade && p.half.isNone && clean then
          let d1 := updSub d s (fun y => linkLost y d.tim.elapsed)
          let d2 := updPort d1 n (fun _ => { p with half := some keep, state := 1 })
          raiseDev d2 0x0A12 [(1, n), (1, lane), (1, keep)]
        else
          let d1 := subDown (updPort d n (fun _ => p)) s 1
          updPort d1 n (fun x => { x with state := portStateOf d1 x })

/-! ### Other frames (16 R366) -/

/-- Whether a sub-port is up; a received frame of `len` bytes is counted. [Log entry 72, DESIGN CHOICE.] -/
def rxFrame (d : Dev) (s len : Nat) : Option SubPort × Dev :=
  match findSub d s with
  | none => (none, d)
  | some x => if x.up then (some x, countSub (countSub d s 1 1) s 3 len) else (none, d)

/-- ARP_REQUEST for `target`: answered where it is the sub-port's address, else dropped. -/
def arpRequest (s len mac ip target : Nat) (d0 : Dev) : Dev :=
  match rxFrame d0 s len with
  | (some x, d) => if x.ipv4 ≠ 0 && x.ipv4 = target then sendCtl d s (.arpReply mac ip) else countSub d s 7 1
  | (none, d) => d

/-- NEIGHBOR_SOLICITATION for `target`. -/
def neighborSolicit (s len mac ip target : Nat) (d0 : Dev) : Dev :=
  match rxFrame d0 s len with
  | (some x, d) => if x.ipv6 ≠ 0 && x.ipv6 = target then sendCtl d s (.neighborAdv mac ip) else countSub d s 7 1
  | (none, d) => d

/-- OTHER_FRAME_RECEIVE: dropped and counted by cause. -/
def otherFrame (s len : Nat) (fcsOk : Bool) (d0 : Dev) : Dev :=
  match rxFrame d0 s len with
  | (some _, d) => countSub d s (if !fcsOk then 5 else if 4224 < len then 6 else 7) 1
  | (none, d) => d

end Sys2Proof.Machine
end

