-- ==== Sys2Proof/Machine/PortVerbs.lean ====
section
/-!
DEFINITION. The verbs of the ports and their traffic (16 R386-R392).
-/

namespace Sys2Proof.Machine

/-! ### Common checks -/

/-- The block of a verb that has no offset field for it (15 R342): on ring 16 the tunnel payload, on the admin ring of a single LD 0 the
area at BLOCK_OFFSET. -/
def blockOff (v : Verb) : Nat := if v.ring = 16 then 0 else fld v 56 8

def blockArg (d : Dev) (v : Verb) (len : Nat) : Except Fail (List Byte) := if len = 0 then .ok [] else argRead d v (blockOff v) len

/-- Reserved bytes 56-63 on ring 16; elsewhere BLOCK_OFFSET, a multiple of 64. A block of `len` bytes lies inside what the verb's offsets may
reach. -/
def blockField (d : Dev) (v : Verb) (len : Nat) : List (Nat × Bool) :=
  (if v.ring = 16 then reservedChecks v [(56, 8)] else [(56, fld v 56 8 % 64 == 0)]) ++ [(56, len == 0 || argIn d v (blockOff v) len)]

/-- A sub-port named at `off` (16 R364). -/
def subField (d : Dev) (v : Verb) (off : Nat) : Nat × Bool := (off, subExists d (fld v off 1))

/-- The CONTEXT field at bytes 24-25 of a verb that makes a partition object: on a context ring its own. -/
def ctxField (v : Verb) : Nat := if v.admin then fld v 24 2 else v.ctx

/-- The state byte of a port and its sub-ports up. -/
def portReport (d : Dev) (n : Nat) : List (Nat × Nat × Nat) :=
  let up := sumNat ((List.range 4).map (fun k => match findSub d (n * 4 + k) with | some x => if x.up then 2 ^ k else 0 | none => 0))
  [(8, 1, match findPort d n with | some p => p.state | none => 0), (9, 1, up)]

/-- Whether a port's number is in a partition's mask; the device's own QPs use any. -/
def portUsed (d : Dev) (n : Nat) : Bool := d.net.qps.any (fun q => q.sub / 4 == n)

/-! ### PORT_SET (16 R386) -/

/-- The CLASSES settings of a block and whether they are in range. -/
def classCfgOf (b : List Byte) : ClassCfg :=
  let f := fun o n => fieldAt b o n
  { trustPcp := bitSet (f 2 1) 2, pfcMask := f 3 1, xoffKib := f 4 2, xonKib := f 6 2, cnpUs := f 36 4, tIncUs := f 40 4, rAi := f 44 4,
    rateMin := f 48 4, gShift := f 52 1, cnpClass := f 53 1
    dscpMap := (List.range 64).map (fun i => f (64 + i) 1)
    pcpMap := (List.range 8).map (fun i => f (128 + i) 1)
    classPcp := (List.range 8).map (fun i => f (136 + i) 1) }

def classCfgOk (b : List Byte) (c : ClassCfg) : Bool :=
  fieldAt b 2 1 % 4 == 0 && decide (fieldAt b 2 1 < 8) && inR c.xoffKib 16 3072 && inR c.xonKib 8 (c.xoffKib - 8) &&
    decide (c.cnpUs ≤ 1000) && decide (c.tIncUs ≤ 1000) && decide (c.rAi ≤ 100000) && decide (c.rateMin ≤ 10000) &&
    decide (c.gShift ≤ 15) && decide (c.cnpClass < 8) && (c.dscpMap ++ c.pcpMap ++ c.classPcp).all (fun n => decide (n < 8))

/-- Drop what the queues of a port hold. -/
def portStop (d : Dev) (n : Nat) : Dev :=
  let clear := fun (s : SubPort) => { s with queues := s.queues.map (fun q => { q with frames := [], deficit := 0 }), busyUntil := 0 }
  (List.range 4).foldl (fun a k => updSub (subDown a (n * 4 + k) 3) (n * 4 + k) clear) d

/-- Whether the block of a PORT_SET action is well formed (16 Table 16-6). -/
def portBlockOk (act : Nat) (b : List Byte) : Bool :=
  let mac := fieldAt b 8 6
  [(54, 10), (144, 112)].all (fun (x : Nat × Nat) => allZero ((b.drop x.1).take x.2)) &&
    (match act with
    | 1 => decide (fieldAt b 0 1 < 3) && decide (fieldAt b 1 1 < 3) && decide (fieldAt b 2 1 < 4) && !(fieldAt b 1 1 == 0 && bitSet (fieldAt b 2 1) 0)
    | 2 => fieldAt b 14 2 / 2 ^ 12 == 0 && mac % 2 == 0 && mac != 0 && (fieldAt b 16 4 != 0 || fieldAt b 20 16 != 0)
    | 3 => classCfgOk b (classCfgOf b)
    | _ => true)

/-- PORT_SET. [Log entry 77, DEDUCED.] -/
def portSetBody (v : Verb) (d : Dev) : Except Fail Dev := do
  let s := fld v 16 1
  let act := fld v 17 1
  let whole := act = 1 || act = 4 || act = 5
  let len := if act ≤ 3 then 256 else 0
  check4 v false [(18, 38)] ([(16, decide (s < 16) && (if whole then s % 4 == 0 else subExists d s)), (17, inR act 1 5)] ++ blockField d v len ++
    [(56, len == 0 || structOk d v (blockOff v) len (portBlockOk act))])
  let b ← blockArg d v len
  let n := s / 4
  match findPort d n with
  | none => failRange 16
  | some p =>
    let done := fun (a : Dev) => .ok (finishOk a v (portReport a n))
    match act with
    | 1 =>
      let fl := fieldAt b 2 1
      need stBusy (!portUsed d n)
      need stState (p.state == 0)
      done (updPort d n (fun x => { x with
        configured := true, split := fieldAt b 0 1, media := fieldAt b 1 1, autoneg := bitSet fl 0, degrade := bitSet fl 1, half := none }))
    | 2 =>
      let mac := fieldAt b 8 6
      need stState p.configured
      done (updSub d s (fun x => { x with mac := mac, vlan := fieldAt b 14 2, ipv4 := fieldAt b 16 4, ipv6 := fieldAt b 20 16 }))
    | 3 =>
      let c := classCfgOf b
      need stState p.configured
      done (updSub d s (fun x => { x with newCls := some c }))
    | 4 =>
      need stState p.configured
      done (if p.state = 0 then updPort d n (fun x => { x with state := 1 }) else d)
    | _ =>
      need stBusy (!portUsed d n)
      done (updPort (portStop d n) n (fun x => { x with state := 0, half := none, badLanes := [] }))

/-! ### Queue pairs (16 R387) -/

/-- A QP table entry is taken: the number with its next incarnation (02 R20). [Log entry 11, DESIGN CHOICE.] -/
def takeQpn (d : Dev) : Option (Nat × Dev) :=
  (longestFree d 0x0D (d.net.qps.map (fun q => q.qpn % 16384)) 0 16384).map (fun e =>
    let old := (pairOf d.net.incarnations e).getD 0
    let inc := if old = 1023 then 1 else old + 1
    (inc * 16384 + e, { d with net.incarnations := setPair d.net.incarnations e inc }))

/-- A new QP in INIT with a PSN drawn for it. -/
def newQp (d : Dev) (qpn : Nat) (part : Option Nat) (ctx sub cls pmtu dscp maxRate psn : Nat) : Qp :=
  { qpn := qpn, part := part, ctx := ctx, sub := sub, cls := cls, pmtu := pmtu, dscp := dscp, maxRate := maxRate, newMax := none, state := 0,
    timeout := 0, retryCfg := 0, rnrCfg := 0, retry := 0, rnrLeft := 0, remoteQpn := 0, remoteMac := 0, remoteIp := 0
    sport := 0, startPsn := psn, nextPsn := psn, unacked := [], outq := [], rnrUntil := none, ackStart := none, reads := [], rate := dyNat 0
    target := dyNat 0, alpha := dyNat 1, quiet := 0, cnpSeen := false, readyAt := 0, tIncAt := d.tim.elapsed, expPsn := 0, msn := 0
    nakSent := false, ackDue := 0, ackSince := none, cur := none, lastCnp := none }

/-- Partition checks of a port (16 R393): outside the partition's mask it is denied. -/
def checkPort (d : Dev) (p s off : Nat) : Except Fail Unit :=
  match findPart d p with
  | some x => if bitSet x.ports (s / 4) then .ok () else failId stDenied off
  | none => failId stStale off

/-- QP_CREATE. [Log entry 77, DEDUCED.] -/
def qpCreateBody (v : Verb) (d : Dev) : Except Fail Dev := do
  let s := fld v 16 1
  let c := ctxField v
  check4 v false [(26, 38)] [subField d v 16, (17, decide (fld v 17 1 < 8)), (18, inR (fld v 18 1) 1 3), (19, decide (fld v 19 1 < 64)),
    (24, if v.admin then decide (fld v 24 2 < 2048) else fld v 24 2 == 0 || fld v 24 2 == v.ctx)]
  checkPort d (ctxPart c) s 16 |> fun (r : Except Fail Unit) => (match partError d v (ctxPart c) with | some _ => .ok () | none => r)
  checkCtx d v c 24
  match findPart d (ctxPart c) with
  | none => failId stStale 24
  | some p =>
    let mine := (d.net.qps.filter (fun q => q.part == some p.num)).length
    need stLimit (decide (mine < p.qps))
    match takeQpn d with
    | none => failSt stLimit
    | some (qpn, d1) =>
      let (r, d2) := drawNat d1
      let q := newQp d2 qpn (some p.num) c s (fld v 17 1) (512 * 2 ^ fld v 18 1) (fld v 19 1) (fld v 20 4) (r % 2 ^ 24)
      let d3 := setOwner { d2 with net.qps := d2.net.qps ++ [q] } 0x0D (qpn % 16384) c
      .ok (finishOk d3 v [(8, 4, qpn), (12, 4, q.startPsn)])

/-- Identifier checks of a QP named at byte 16: a buddy QP is denied (16 R387). -/
def checkQp (d : Dev) (v : Verb) : Except Fail Qp :=
  let n := fld v 16 4
  match findQp d n with
  | some q =>
    if q.part.isNone then failId stDenied 16
    else
      (match checkOwned d v 0x0D (n % 16384) 16 true with
      | .error f => .error f
      | .ok _ => .ok q)
  | none =>
    match checkOwned d v 0x0D (n % 16384) 16 false with
    | .error f => .error f
    | .ok _ => failId stStale 16

/-- CONNECT of a QP to its peer's values (16 R387, R378; 14 R327). -/
def qpConnect (d : Dev) (q : Qp) (timeout retry rnr rqpn rpsn rmac rip sport : Nat) : Dev :=
  let rate := dyNat (qpMaxRate d q)
  updQp d q.qpn (fun x => { x with
    state := 1, timeout := timeout, retryCfg := retry, rnrCfg := rnr, retry := retry, rnrLeft := rnr, remoteQpn := rqpn, expPsn := rpsn
    remoteMac := rmac, remoteIp := rip, sport := if sport = 0 then 0xC000 ||| (q.qpn % 2 ^ 14) else sport
    rate := rate, target := rate, alpha := dyNat 1, quiet := 0, cnpSeen := false, tIncAt := d.tim.elapsed, readyAt := d.tim.elapsed
    nakSent := false, msn := 0 })

/-- QP_MODIFY. -/
def qpModifyBody (v : Verb) (d : Dev) : Except Fail Dev := do
  let mode := fld v 20 1
  let con := mode = 1
  check4 v false [(23, 1), (56, 8)] [(16, decide (fld v 16 4 < 2 ^ 24)), (20, inR mode 1 4), (21, !con || decide (fld v 21 1 < 32)),
    (22, decide (fld v 22 1 < 64)), (24, !con || decide (fld v 24 4 < 2 ^ 24)), (28, !con || decide (fld v 28 4 < 2 ^ 24))]
  let q ← checkQp d v
  let done := fun (a : Dev) (psn : Nat) => .ok (finishOk a v [(8, 1, match findQp a q.qpn with | some x => x.state | none => 0), (12, 4, psn)])
  match mode with
  | 1 =>
    need stState (q.state == 0)
    done (qpConnect d q (fld v 21 1) (fld v 22 1 % 8) (fld v 22 1 / 8) (fld v 24 4) (fld v 28 4) (fld v 32 6) (fld v 40 16) (fld v 38 2)) 0
  | 2 => done (qpError d q.qpn 4) 0
  | 3 =>
    need stState (q.state == 2)
    let (r, d1) := drawNat d
    let psn := r % 2 ^ 24
    done (updQp d1 q.qpn (fun x => { x with state := 0, startPsn := psn, nextPsn := psn })) psn
  | _ => done (updQp d q.qpn (fun x => { x with newMax := some (fld v 24 4) })) 0

/-- Remove a QP. -/
def dropQp (d : Dev) (qpn : Nat) : Dev :=
  stampFree { d with net.qps := dropWhere (fun q => q.qpn == qpn) d.net.qps } 0x0D (qpn % 16384)

/-- QP_DESTROY. -/
def qpDestroyBody (v : Verb) (d : Dev) : Except Fail Dev := do
  check4 v false [(20, 44)] [(16, decide (fld v 16 4 < 2 ^ 24))]
  let q ← checkQp d v
  need stBusy (!d.net.windows.any (fun w => w.qpn == q.qpn))
  .ok (finishOk (dropQp (nextRelease d) q.qpn) v [])

/-! ### Windows (16 R388) -/

/-- WINDOW_OPEN. [Log entry 5, DESIGN CHOICE; entry 76, DEDUCED.] -/
def windowOpenBody (v : Verb) (d : Dev) : Except Fail Dev := do
  let c := ctxField v
  let kib := fld v 20 4
  let fl := fld v 26 1
  check4 v false [(27, 1), (30, 2), (44, 4), (56, 8)] [(16, decide (fld v 16 4 < 2 ^ 24)), (20, inR kib 64 1048576 && kib % 64 == 0),
    (24, if v.admin then decide (fld v 24 2 < 2048) else fld v 24 2 == v.ctx), (26, decide (fl < 32)), (48, fld v 48 8 % 65536 == 0)]
  let q ← checkQp d v
  checkCtx d v c 24
  let p := ctxPart c
  if q.part ≠ some p then failId stDenied 24
  else
    checkPort d p q.sub 16
    let ring := fld v 28 2
    needRange 28 (match findRing d ring with | some r => r.ctx == c && !r.admin | none => false)
    match findPart d p with
    | none => failId stStale 24
    | some x =>
      need stLimit (decide ((d.net.windows.filter (fun w => w.part == p)).length < x.windows))
      need stLimit (decide ((d.net.windows.filter (fun w => w.qpn == q.qpn)).length < 16))
      match longestFree d 0x0E (d.net.windows.map (·.id)) 0 65535 with
      | none => failSt stLimit
      | some id =>
        match allocMost d p (kib * 1024) (allocKey 0x0E id) 0 with
        | none => failSt stNospace
        | some d1 =>
          need stState (q.state != 2)
          let (r, d2) := drawNat d1
          let (bs, d3) := drawBytes d2 (kib * 1024)
          let rkey := id * 2 ^ 16 + r % 2 ^ 16
          let w : Window := { id := id, part := p, ctx := c, qpn := q.qpn, size := kib * 1024, va := fld v 48 8, rkey := rkey, cq := bitSet fl 0,
                              ret := bitSet fl 1, readOk := bitSet fl 2, prio := fl / 8 % 4, ring := ring, raddr := fld v 32 8
                              rrkey := fld v 40 4, closed := false, closing := none, done := 0, returned := [] }
          let d4 := setOwner (exWrite { d3 with net.windows := d3.net.windows ++ [w] } (windowKey id) bs) 0x0E id c
          .ok (finishOk d4 v [(8, 2, id), (12, 4, rkey)])

/-- WINDOW_CLOSE: accesses end now; it completes when the launched jobs have completed. -/
def windowCloseBody (v : Verb) (d : Dev) : Except Fail Dev := do
  check4 v false [(18, 46)] []
  let id := fld v 16 2
  if id = 0xFFFF then failId stRange 16 else
  checkOwned d v 0x0E id 16 (match findWindow d id with | some w => !w.closed | none => false)
  .ok (settleWindow (keepRunning (updWindow (nextRelease d) id (fun w => { w with closed := true, closing := some v.seq })) v) id)

/-! ### Shapers and meters (16 R389) -/

/-- SHAPER_SET: it completes at the refill at which its values take effect. -/
def shaperSetBody (v : Verb) (d : Dev) : Except Fail Dev := do
  let s := fld v 16 1
  let t := fld v 18 1
  let oh := toSigned 8 (fld v 19 1)
  let max := subRate d s * 1000
  let cir := fld v 20 4
  let pir := fld v 28 4
  let qn := fld v 36 4
  check4 v false [(40, 24)] [subField d v 16, (18, decide (t ≤ 8)), (19, decide (-32 ≤ oh) && decide (oh ≤ 63)),
    (20, decide (cir ≤ max) && (pir == 0 || decide (cir ≤ pir))), (24, decide (fld v 24 4 < 2 ^ 24)), (28, decide (pir ≤ max)),
    (32, decide (fld v 32 4 < 2 ^ 24)), (36, t == 8 || qn == 0 || inR qn 4608 65536)]
  let p ← checkPart d v (fld v 17 1) 17
  checkPort d p.num s 16
  let cfg : ShaperCfg := { cir := cir, cbs := fld v 24 4, pir := pir, pbs := fld v 32 4, overhead := oh }
  let d1 := updSub d s (fun x =>
    if t = 8 then
      let sh := { partShaper x p.num with new := some cfg }
      { x with partShapers := upsert (fun (z : Nat × Shaper) => z.1 == p.num) (p.num, sh) x.partShapers }
    else
      let q := queueOf x p.num t
      putQueue x { q with shaper := { q.shaper with new := some cfg }, newQuantum := if qn = 0 then q.newQuantum else some qn })
  .ok (keepRunning { d1 with net.shaperWaits := d1.net.shaperWaits ++ [v.seq] } v)

/-- POLICER_SET. -/
def policerSetBody (v : Verb) (d : Dev) : Except Fail Dev := do
  let s := fld v 16 1
  let mode := fld v 19 1 % 4
  let max := subRate d s * 1000
  let cir := fld v 20 4
  let pir := fld v 28 4
  check4 v false [(38, 26)] [subField d v 16, (18, decide (fld v 18 1 < 8)), (19, decide (fld v 19 1 < 8) && decide (mode < 3)),
    (20, decide (cir ≤ max) && (mode != 1 || decide (cir ≤ pir))), (28, decide (pir ≤ max)), (36, decide (fld v 36 1 < 3)),
    (37, decide (fld v 37 1 < 3))]
  let p ← checkPart d v (fld v 17 1) 17
  checkPort d p.num s 16
  let m : Meter := { part := p.num, cls := fld v 18 1, mode := mode, aware := bitSet (fld v 19 1) 2, cir := cir, cbs := fld v 24 4, pir := pir,
                     pbs := fld v 32 4, yellow := fld v 36 1, red := fld v 37 1, tc := 0, tp := 0, last := d.tim.elapsed }
  .ok (keepRunning { d with net.meterWaits := d.net.meterWaits ++ [(s, { seq := v.seq, meter := m })] } v)

/-! ### Gate lists (16 R390) -/

/-- The entries of a payload: (index, mask, ns), and whether each is in range. -/
def gateEntries (b : List Byte) (first n : Nat) : List (Nat × Nat × Nat) × Bool :=
  let es := (List.range n).map (fun i => fieldAt b (8 * i) 8)
  (((List.range n).zip es).map (fun x => (first + x.1, x.2 / 2 ^ 32 % 256, x.2 % 2 ^ 32)),
    es.all (fun e => e / 2 ^ 40 == 0 && inR (e % 2 ^ 32) 100 1000000000))

/-- A part of a gate list joins what a sub-port has gathered; START begins anew, and without a START before it there is no list to join
(16 R390). -/
def gatherPart (x : SubPort) (fl total : Nat) (es : List (Nat × Nat × Nat)) : Option Gather :=
  (if bitSet fl 0 then some { total := total, entries := [] } else x.gather).map (fun (g : Gather) =>
    { g with entries := es.foldl (fun l e => upsert (fun (y : Nat × Nat × Nat) => y.1 == e.1) e l) g.entries })

/-- The entries of a gathered list in order, as far as they are there. -/
def gatherList (g : Gather) : List (Nat × Nat) :=
  (List.range g.total).filterMap (fun i => (g.entries.find? (fun e => e.1 == i)).map (·.2))

/-- Whether the part that a FINAL verb brings makes the list whole, as far as its block can be read. -/
def gateWhole (d : Dev) (v : Verb) : Bool :=
  let n := fld v 22 2
  match findSub d (fld v 16 1), (if n = 0 then some [] else argPeek d v (blockOff v) (8 * n)) with
  | some x, some b =>
    (match gatherPart x (fld v 17 1) (fld v 18 2) (gateEntries b (fld v 20 2) n).1 with
    | some g => (gatherList g).length == g.total && g.total == fld v 18 2
    | none => false)
  | _, _ => true

/-- GATE_LIST_SET. -/
def gateListBody (v : Verb) (d : Dev) : Except Fail Dev := do
  let s := fld v 16 1
  let fl := fld v 17 1
  let total := fld v 18 2
  let first := fld v 20 2
  let n := fld v 22 2
  check4 v false [(32, 24)] ([subField d v 16, (17, decide (fl < 4)), (18, decide (total ≤ 1024)), (20, decide (first + n ≤ total)),
    (22, decide (n ≤ 512)), (18, !bitSet fl 1 || gateWhole d v), (24, !bitSet fl 1 || decide (v.accTime + 100000 ≤ fld v 24 8))] ++
    blockField d v (8 * n) ++ [(56, n == 0 || structOk d v (blockOff v) (8 * n) (fun b => (gateEntries b first n).2))])
  let b ← blockArg d v (8 * n)
  match findSub d s with
  | none => failRange 16
  | some x =>
    let g := gatherPart x fl total (gateEntries b first n).1
    if !bitSet fl 1 then
      .ok (finishOk (updSub d s (fun y => { y with gather := g })) v [])
    else
      let base := fld v 24 8
      let list := (g.map gatherList).getD []
      let d1 := match x.pendGate with
        | some p => deferredDone d p.ring p.tag 0x0A09 stAborted objDevice .device []
        | none => d
      let pend : PendGate := { base := base, entries := list, ring := v.ring, tag := fld v 4 4 }
      let d2 := updSub d1 s (fun y => { y with pendGate := some pend, gather := none })
      .ok (finish d2 v stDeferred 0xFF [(8, 8, base)])

/-! ### Statistics and sampling (16 R391, R392) -/

/-- One block of Table 16-10. -/
def statsBlock (x : SubPort) (now p c : Nat) : List Byte :=
  let q := queueOf x p c
  let open' := fun (l : List (Nat × Nat)) => match pairOf l c with | some t => now - t | none => 0
  padTo (natLe q.txFrames 8 ++ natLe q.txBytes 8 ++ natLe q.drops 8 ++ natLe (sumNat (q.frames.map (fun f => f.pkt.len))) 4 ++ natLe 0 4 ++
    natLe (nth x.pausedNs c 0 + open' x.pauseSince) 8 ++ natLe (nth x.gatedNs c 0 + open' x.gatedSince) 8 ++ natLe q.samples 8 ++ natLe 0 8 ++
    q.depthHist.flatMap (fun n => natLe n 8) ++ q.delayHist.flatMap (fun n => natLe n 8)) 512

/-- Clear the histograms of a queue. -/
def clearHist (q : EQueue) : EQueue := { q with depthHist := List.replicate 16 0, delayHist := List.replicate 16 0 }

/-- QUEUE_STATS. [Log entry 77, DEDUCED.] -/
def queueStatsBody (v : Verb) (d : Dev) : Except Fail Dev := do
  let s := fld v 16 1
  let mask := fld v 18 1
  let off := fld v 24 8
  let cs := (List.range 8).filter (bitSet mask)
  check4 v false [(20, 4), (32, 32)] [subField d v 16, (19, decide (fld v 19 1 < 2)),
    (24, (if v.ring = 16 then off == 0 else off % 64 == 0) && outIn d v off (512 * cs.length))]
  let p ← checkPart d v (fld v 17 1) 17
  checkPort d p.num s 16
  if outPartial d v off (512 * cs.length) then failSt stDamaged
  else
    match findSub d s with
    | none => failRange 16
    | some x =>
      let d1 := outWrite d v off (cs.flatMap (statsBlock x d.tim.elapsed p.num))
      let d2 := if bitSet (fld v 19 1) 0 then
          updSub d1 s (fun y => cs.foldl (fun (a : SubPort) c => putQueue a (clearHist (queueOf a p.num c))) y)
        else d1
      .ok (finishOk d2 v [(8, 1, match findPort d (s / 4) with | some z => z.state | none => 0)])

/-- LATENCY_PROBE_SET. -/
def probeSetBody (v : Verb) (d : Dev) : Except Fail Dev := do
  let s := fld v 16 1
  let p := fld v 17 1
  let period := fld v 20 4
  check4 v false [(24, 40)] [subField d v 16, (17, decide (p < 32) || p == 0xFF), (19, decide (fld v 19 1 < 2)),
    (20, period == 0 || inR period 1000 1000000000)]
  (if p = 0xFF then .ok () else (checkPart d v p 17).bind (fun x => checkPort d x.num s 16))
  let sel := selected p (fld v 18 1)
  let pr : Option Probe := if period = 0 then none
    else some { part := p, mask := fld v 18 1, period := period, next := d.tim.now + period }
  let d1 := updSub d s (fun x =>
    let y := if bitSet (fld v 19 1) 0 then sel.foldl (fun (a : SubPort) k => putQueue a (clearHist (queueOf a k.1 k.2))) x else x
    { y with probe := pr })
  .ok (finishOk d1 v [])

end Sys2Proof.Machine
end

