-- ==== Sys2Proof/Machine/Unpack.lean ====
section
/-!
DEFINITION. Reading stored state back from its bytes (05 R85-R88, 09 R190, 10 R223, 11 R251), and the session image of a checkpoint
with its DRAFT section (14 R316).
-/

namespace Sys2Proof.Machine

/-! ### Phrases -/

/-- The codes of 32 elements of one tile row. -/
def tileCodes (fmt : Nat) (bs : List Byte) : List Nat :=
  match fmt with
  | 1 => (List.range 32).map (fun i => fieldAt bs i 1)
  | 2 => (List.range 32).map (fun i => fieldAt bs (i / 2) 1 / (if i % 2 = 0 then 1 else 16) % 16)
  | _ => (List.range 32).map (fun i => fieldAt bs (2 * i) 2)

/-- Bytes of a tile row. -/
def tileRowBytes (fmt : Nat) : Nat := if fmt = 1 then 32 else if fmt = 2 then 16 else 64

/-- One row of a stored phrase. -/
def unpackRow (fmt j : Nat) (bs : List Byte) (i : Nat) : KvRow :=
  let place := fun b => (i / 32 * j + b) * 32 + i % 32
  let tb := tileRowBytes fmt
  { elems := (List.range j).flatMap (fun b => tileCodes fmt ((bs.drop (256 + place b * tb)).take tb))
    scales := if fmt = 3 then [] else (List.range j).map (fun b => fieldAt bs (256 + 64 * j * tb + place b) 1) }

/-- A phrase from its bytes. -/
def unpackPhrase (part ctx : Nat) (bs : List Byte) : Phrase :=
  let f := fun o n => fieldAt bs o n
  let fl := f 5 1
  let p : Phrase := { noPhrase with
    part := part, ctx := ctx, id := f 0 4, fmt := f 4 1, kind := fl % 16, layer := f 6 2, firstPos := f 8 4, count := f 12 2
    model := f 14 1, version := f 16 4, dimA := f 20 2, dimB := f 22 2, saturated := f 28 4, clamped := bitSet fl 5, replaced := bitSet fl 4
    sealed := bitSet fl 6, draft := bitSet fl 7, creator := f 40 4 }
  { p with rows := (List.range p.count).map (unpackRow p.fmt (phraseElems p / 32) bs) }

/-- SIZE_KIB of a stored phrase, in bytes. -/
def storedSize (bs : List Byte) : Nat := fieldAt bs 24 2 * 1024

/-- The phrases stored one after another in a byte string. -/
def unpackPhrases (part ctx : Nat) : Nat → List Byte → List Phrase
  | 0, _ => []
  | k + 1, bs =>
    if bs.length < 256 || storedSize bs = 0 || bs.length < storedSize bs then []
    else unpackPhrase part ctx (bs.take (storedSize bs)) :: unpackPhrases part ctx k (bs.drop (storedSize bs))

/-! ### The session block -/

/-- The pending records of a queue of `n` bytes. -/
def unpackRecs : Nat → List Byte → List TextRec
  | 0, _ => []
  | k + 1, bs =>
    if bs.length < 32 || fieldAt bs 0 1 = 0 then []
    else
      let len := 32 + fieldAt bs 2 2
      { kind := fieldAt bs 0 1, body := bs.take len } :: unpackRecs k (bs.drop (roundUp len 64))

/-- The token state of a session block; digests come from the image header. -/
def unpackTok (b lexDigest : List Byte) : TokSt :=
  let f := fun o n => fieldAt b o n
  let hold := f 6 1
  { tokZero with
    detok := f 0 1, lex := if bitSet (f 1 1) 7 then some (f 1 1 % 8) else none, lexDigest := lexDigest
    showSpecial := bitSet (f 2 1) 0, rawBytes := bitSet (f 2 1) 1, includeStop := bitSet (f 2 1) 2, ringNamed := bitSet (f 2 1) 3
    stopCount := f 3 1, stopMax := f 4 1, offset := f 8 8, seq := f 16 4, lastPos := some (f 20 4), dropped := f 24 8
    ringAddr := f 0x40 8, ringLog2 := f 0x48 1, ringPhase := bitSet (f 0x49 1) 0, vector := f 0x4A 2, headAddr := f 0x50 8
    written := f 0x58 8, headRead := f 0x60 8, pendingRecs := unpackRecs 256 ((b.drop 0x1000).take (f 0x6A 2))
    utfHold := (b.drop 0x80).take (f 5 1), utfPos := f 0x83 4
    stopHold := (List.range hold).map (fun i => ((b[0x88 + i]?).getD 0, f (0x100 + 4 * i) 4))
    stops := (List.range (f 3 1)).map (fun i => (b.drop (0x400 + 64 * i)).take (f (0x300 + i) 1))
    tkOpen := bitSet (f 0x200 1) 0, tkPolicy := f 0x200 1 / 2, tkClass := f 0x201 1, tkUtf := (b.drop 0x203).take (f 0x202 1)
    tkHold := (b.drop 0x280).take (f 0x206 1), tkOffset := f 0x208 8, tkLex := f 1 1 % 8 }

/-- The grammar and sampler state of a session block. -/
def unpackSyn (b gramDigest : List Byte) : SynSt :=
  let f := fun o n => fieldAt b (0x3000 + o) n
  { mode := f 0 1, grammar := if bitSet (f 1 1) 7 then some (f 1 1 % 64) else none, gramDigest := gramDigest, state := f 2 2
    stack := (List.range (f 4 2)).map (fun i => f (0x100 + 2 * i) 2), finished := bitSet (f 6 1) 0, bindPos := f 8 4, sinceSet := f 12 4
    params := if allZero ((b.drop 0x3040).take 0x80) then [] else (b.drop 0x3040).take 0x80, setPos := 0 }

/-! ### The DRAFT section (14 R316) -/

/-- The bytes of a DRAFT section: the tree, then each layer's draft phrases and tree inputs. [Log entry 82, DESIGN CHOICE.] -/
def draftSection (s : Sess) : List Byte :=
  match s.tree with
  | none => []
  | some t =>
    natLe t.seq 4 ++ natLe t.nodes 4 ++ natLe t.depth 4 ++ natLe s.layers.length 4 ++ padTo (t.parent.map byte) 64 ++
      padTo (t.token.flatMap (fun x => natLe x 4)) 256 ++
      s.layers.flatMap (fun l =>
        let ins := match l.recur with | some r => r.treeIn | none => []
        natLe l.draftFirst 4 ++ natLe l.draft.length 4 ++ natLe ins.length 4 ++ natLe 0 4 ++ l.draft.flatMap phraseImage ++
          ins.flatMap (fun x => natLe x.length 4 ++ x))

/-- Byte strings that each follow their length of 4 bytes; answers them and what is left. -/
def unpackLens : Nat → List Byte → List (List Byte) × List Byte
  | 0, bs => ([], bs)
  | k + 1, bs =>
    let n := fieldAt bs 0 4
    let r := unpackLens k (bs.drop (4 + n))
    ((bs.drop 4).take n :: r.1, r.2)

/-- Draft phrases one after another; answers them and what is left. [Log entry 82, DESIGN CHOICE.] -/
def unpackDrafts (part ctx : Nat) : Nat → List Byte → List Phrase × List Byte
  | 0, bs => ([], bs)
  | k + 1, bs =>
    let n := storedSize bs
    let r := unpackDrafts part ctx k (bs.drop n)
    (unpackPhrase part ctx (bs.take n) :: r.1, r.2)

/-- Per layer (first position, draft phrases, tree inputs). -/
def unpackLayers (part ctx : Nat) : Nat → List Byte → List (Nat × List Phrase × List (List Byte))
  | 0, _ => []
  | k + 1, bs =>
    let ds := unpackDrafts part ctx (Nat.min 8 (fieldAt bs 4 4)) (bs.drop 16)
    let ins := unpackLens (Nat.min 64 (fieldAt bs 8 4)) ds.2
    (fieldAt bs 0 4, ds.1, ins.1) :: unpackLayers part ctx k ins.2

/-- The tree of a DRAFT section. -/
def unpackTree (bs : List Byte) : Option Tree :=
  if bs.isEmpty then none
  else
    let n := fieldAt bs 4 4
    some { seq := fieldAt bs 0 4, nodes := n, depth := fieldAt bs 8 4, parent := (List.range n).map (fun i => fieldAt bs (16 + i) 1)
           token := (List.range n).map (fun i => fieldAt bs (80 + 4 * i) 4) }

/-! ### Images -/

/-- A session image of a checkpoint (14 R316): the park image with FLAGS bit 2, no recurrent section, and a DRAFT section. -/
def checkpointImage (im0 : ParkImage) (draft : List Byte) : List Byte :=
  let im := { im0 with flags := 4 }
  let ss := imageSections im [] ++ [draft]
  let body := padTo (im.lens.flatMap (fun n => natLe n 4)) (16384 - 1024) ++ ss.flatMap (fun s => padTo s (sectionPages s.length * 16384))
  let h := imageHeader im [] (sha512 body)
  h.take 80 ++ sectionTable 1 ss ++ h.drop 176 ++ body

/-- Section `i` of an image's bytes. -/
def imageSection (bs : List Byte) (i : Nat) : List Byte :=
  (bs.drop (16384 * fieldAt bs (80 + 16 * i) 8)).take (fieldAt bs (88 + 16 * i) 8)

/-- What a session image of a checkpoint holds. -/
structure SessImage where
  handle : Nat
  modelDigest : List Byte
  lexDigest : List Byte
  gramDigest : List Byte
  log : List Nat
  lens : List Nat
  list : List (Nat × Nat × Nat × Nat × Nat)
  tails : List Phrase
  tok : TokSt
  syn : SynSt
  tree : Option Tree
  drafts : List (Nat × List Phrase × List (List Byte))
  deriving DecidableEq, Repr

/-- Read a session image; none where its digest, version or sizes do not hold. -/
def unpackImage (part ctx layers : Nat) (bs : List Byte) : Option SessImage :=
  if bs.length < 16384 || fieldAt bs 0 4 ≠ 1 || sha512 (bs.drop 1024) ≠ (bs.drop 960).take 64 then none
  else
    let logB := imageSection bs 1
    let listB := imageSection bs 2
    let blk := imageSection bs 0
    let dr := imageSection bs 5
    let ent := fun i =>
      let n := fieldAt listB (16 * i) 16
      (n / 2 ^ 48 % 2 ^ 16, n / 2 ^ 46 % 4, n / 2 ^ 64 % 2 ^ 32, n / 2 ^ 96, if bitSet n 45 then 2 ^ 34 + n % 2 ^ 34 else 0)
    some {
      handle := fieldAt bs 4 4, modelDigest := (bs.drop 32).take 16, lexDigest := (bs.drop 48).take 16, gramDigest := (bs.drop 64).take 16
      log := (List.range (logB.length / 4)).map (fun i => fieldAt logB (4 * i) 4)
      lens := (List.range layers).map (fun i => fieldAt bs (1024 + 4 * i) 4)
      list := (List.range (listB.length / 16)).map ent
      tails := unpackPhrases part ctx 4096 (imageSection bs 3)
      tok := unpackTok blk ((bs.drop 48).take 16), syn := unpackSyn blk ((bs.drop 64).take 16)
      tree := unpackTree dr, drafts := if dr.isEmpty then [] else unpackLayers part ctx layers (dr.drop 336) }

end Sys2Proof.Machine
end

