-- ==== Sys2Proof/Machine/Zblock.lean ====
section
/-!
DEFINITION. Compressed blocks of Zstandard, decoded as RFC 8878 defines them (14 R318): Huffman-coded literals, FSE-coded sequences and
their execution.
-/

namespace Sys2Proof.Machine

/-! ### Bit streams -/

/-- The bits of a stream still to be read, the first one highest: `left` of them, the low bits of `val`. `past` counts bits read beyond the end,
which read 0. -/
structure ZBits where
  val : Nat
  left : Nat
  past : Nat
  deriving DecidableEq, Repr

/-- The next `k` bits, without taking them. -/
def zPeek (b : ZBits) (k : Nat) : Nat :=
  if k ≤ b.left then b.val / 2 ^ (b.left - k) % 2 ^ k else b.val % 2 ^ b.left * 2 ^ (k - b.left)

/-- Take `k` bits. -/
def zSkip (b : ZBits) (k : Nat) : ZBits := { b with left := b.left - k, past := b.past + (k - b.left) }

/-- A stream that is read from its end: the highest set bit of its last byte only marks where it begins; none where that byte is 0. -/
def zReverse (bs : List Byte) : Option ZBits :=
  match bs.getLast? with
  | none => none
  | some l => if l = 0 then none else some { val := leNat bs, left := 8 * (bs.length - 1) + Nat.log2 l.toNat, past := 0 }

/-! ### FSE tables -/

/-- One cell of a decoding table: its symbol, the bits that the next state takes, and what is added to them. -/
structure FseCell where
  sym : Nat
  bits : Nat
  base : Nat
  deriving DecidableEq, Repr

/-- A decoding table of 2^log cells. -/
structure FseTable where
  log : Nat
  cells : List FseCell
  deriving DecidableEq, Repr

/-- Zeros that follow a zero probability: pairs of bits, of which 3 asks for another. The new position and how many. -/
def fseZeros (n : Nat) : Nat → Nat → Nat → Nat × Nat
  | 0, at', got => (at', got)
  | k + 1, at', got =>
    let r := n / 2 ^ at' % 4
    if r = 3 then fseZeros n k (at' + 2) (got + 3) else (at' + 2, got + r)

/-- The probabilities of a table description from bit `at'` of `n` on, -1 for a symbol with less than one cell: them and where they end. -/
def fseProbs (n : Nat) : Nat → Nat → Nat → List Int → Option (List Int × Nat)
  | 0, _, _, _ => none
  | k + 1, left, at', ps =>
    if left = 0 then some (ps, at')
    else
      let w := Nat.log2 (left + 1) + 1
      let v := n / 2 ^ at' % 2 ^ w
      let low := v % 2 ^ (w - 1)
      let few := 2 ^ w - 1 - (left + 1)
      let short := decide (low < few)
      let x := if short then low else if 2 ^ (w - 1) ≤ v then v - few else v
      let p : Int := (x : Int) - 1
      let at1 := if short then at' + w - 1 else at' + w
      if left < p.natAbs then none
      else if p = 0 then
        let (at2, z) := fseZeros n 128 at1 0
        fseProbs n k left at2 (ps ++ List.replicate (z + 1) 0)
      else fseProbs n k (left - p.natAbs) at1 (ps ++ [p])

/-- The decoding table of a distribution: symbols of less than one cell at the end, the others spread by the table's step. -/
def fseBuild (log : Nat) (ps : List Int) : FseTable :=
  let size := 2 ^ log
  let syms := (List.range ps.length).zip ps
  let rare := (syms.filter (fun x => x.2 = -1)).map (·.1)
  let high := size - rare.length
  let step := size / 2 + size / 8 + 3
  let places := ((List.range size).map (fun i => i * step % size)).filter (fun x => decide (x < high))
  let spread := places.zip (syms.flatMap (fun x => if 0 < x.2 then List.replicate x.2.toNat x.1 else []))
  let symAt := fun i => if i < high then (match spread.find? (fun x => x.1 == i) with | some x => x.2 | none => 0) else nth rare (size - 1 - i) 0
  let all := (List.range size).map symAt
  let cell := fun i =>
    let s := nth all i 0
    let next := (nth ps s 0).natAbs + (all.take i).count s
    let b := log - Nat.log2 next
    FseCell.mk s b (next * 2 ^ b - size)
  { log := log, cells := (List.range size).map cell }

/-- A table description at the front of `bs`: the table and the bytes it takes; none where it is malformed. -/
def fseRead (bs : List Byte) (maxLog maxSym : Nat) : Option (FseTable × Nat) :=
  let n := leNat (bs.take 512)
  let log := n % 16 + 5
  if bs.isEmpty || maxLog < log then none
  else
    match fseProbs n (maxSym + 2) (2 ^ log) 4 [] with
    | none => none
    | some (ps, e) => if maxSym + 1 < ps.length || bs.length < ceilDiv e 8 then none else some (fseBuild log ps, ceilDiv e 8)

/-- The cell of a state. -/
def fseCell (t : FseTable) (s : Nat) : FseCell := nth t.cells s ⟨0, 0, 0⟩

/-- The state after a symbol. -/
def fseNext (t : FseTable) (s : Nat) (b : ZBits) : Nat × ZBits :=
  let c := fseCell t s
  (c.base + zPeek b c.bits, zSkip b c.bits)

/-! ### Huffman codes -/

/-- The weights of an FSE-compressed tree, two states in turn until the stream runs out. -/
def hufFse (t : FseTable) : Nat → Nat → Nat → ZBits → List Nat → Option (List Nat)
  | 0, _, _, _, _ => none
  | k + 1, a, other, b, out =>
    let out1 := out ++ [(fseCell t a).sym]
    let (a', b') := fseNext t a b
    if 0 < b'.past then some (out1 ++ [(fseCell t other).sym]) else hufFse t k other a' b' out1

/-- A Huffman table: the bits of its longest code, and for each value of that many bits the symbol and the bits of its code. -/
structure HufTable where
  log : Nat
  cells : List (Nat × Nat)
  deriving DecidableEq, Repr

/-- The table of the weights of all symbols but the last, whose weight completes the code. -/
def hufBuild (ws : List Nat) : Option HufTable :=
  let sum := sumNat (ws.map (fun w => if w = 0 then 0 else 2 ^ (w - 1)))
  let log := Nat.log2 sum + 1
  let rest := 2 ^ log - sum
  if sum = 0 || 11 < log || 2 ^ Nat.log2 rest ≠ rest || 255 < ws.length then none
  else
    let all := ws ++ [Nat.log2 rest + 1]
    let of := fun w => ((List.range all.length).filter (fun s => nth all s 0 == w)).flatMap (fun s => List.replicate (2 ^ (w - 1)) (s, log + 1 - w))
    some { log := log, cells := (rangeFrom 1 log).flatMap of }

/-- A tree description at the front of `bs`: the table and the bytes it takes. -/
def hufRead (bs : List Byte) : Option (HufTable × Nat) :=
  let h := fieldAt bs 0 1
  if 128 ≤ h then
    let n := h - 127
    let size := 1 + ceilDiv n 2
    let w := fun i => if i % 2 = 0 then fieldAt bs (1 + i / 2) 1 / 16 else fieldAt bs (1 + i / 2) 1 % 16
    if bs.length < size then none else (hufBuild ((List.range n).map w)).map (fun t => (t, size))
  else if h = 0 || bs.length < 1 + h then none
  else
    let body := (bs.drop 1).take h
    match fseRead body 6 255 with
    | none => none
    | some (t, n) =>
      match zReverse (body.drop n) with
      | none => none
      | some b0 =>
        let a := zPeek b0 t.log
        let b1 := zSkip b0 t.log
        let o := zPeek b1 t.log
        let b2 := zSkip b1 t.log
        if 0 < b2.past then none
        else ((hufFse t 256 a o b2 []).bind hufBuild).map (fun x => (x, 1 + h))

/-- `n` symbols of a stream; none where the stream is not used up by exactly them. -/
def hufStream (t : HufTable) : Nat → ZBits → List Byte → Option (List Byte)
  | 0, b, out => if b.left = 0 && b.past = 0 then some out.reverse else none
  | n + 1, b, out =>
    let c := nth t.cells (zPeek b t.log) (0, 0)
    if b.left < c.2 then none else hufStream t n (zSkip b c.2) (byte c.1 :: out)

/-- The literals of one stream or of four. -/
def hufLiterals (t : HufTable) (four : Bool) (n : Nat) (bs : List Byte) : Option (List Byte) :=
  let one := fun (k : Nat) (x : List Byte) => (zReverse x).bind (fun b => hufStream t k b [])
  if !four then one n bs
  else
    let s1 := fieldAt bs 0 2
    let s2 := fieldAt bs 2 2
    let s3 := fieldAt bs 4 2
    let part := (n + 3) / 4
    if bs.length < 6 + s1 + s2 + s3 || n < 3 * part then none
    else
      let body := bs.drop 6
      match one part (body.take s1), one part ((body.drop s1).take s2), one part ((body.drop (s1 + s2)).take s3),
          one (n - 3 * part) (body.drop (s1 + s2 + s3)) with
      | some a, some b, some c, some d => some (a ++ b ++ c ++ d)
      | _, _, _, _ => none

/-- What blocks of a frame hand on: the last Huffman table, the last tables of literal lengths, offsets and match lengths, and the three
repeated offsets. -/
structure ZState where
  huf : Option HufTable
  ll : Option FseTable
  off : Option FseTable
  ml : Option FseTable
  reps : Nat × Nat × Nat
  deriving DecidableEq, Repr

/-- Before the first block of a frame. -/
def zStart : ZState := { huf := none, ll := none, off := none, ml := none, reps := (1, 4, 8) }

/-- The literals section of a block: the literals, the bytes that it takes and the Huffman table from here on. -/
def zLiterals (st : ZState) (bs : List Byte) : Option (List Byte × Nat × ZState) :=
  let h := fieldAt bs 0 1
  let fmt := h / 4 % 4
  if h % 4 < 2 then
    let (n, size) := if fmt % 2 = 0 then (h / 8, 1) else if fmt = 1 then (fieldAt bs 0 2 / 16, 2) else (fieldAt bs 0 3 / 16, 3)
    let body := (bs.drop size).take (if h % 4 = 0 then n else 1)
    if bs.length < size || body.length < (if h % 4 = 0 then n else 1) then none
    else some (if h % 4 = 0 then body else List.replicate n ((body.head?).getD 0), size + body.length, st)
  else
    let (w, size) := if fmt < 2 then (10, 3) else if fmt = 2 then (14, 4) else (18, 5)
    let v := fieldAt bs 0 size / 16
    let n := v % 2 ^ w
    let c := v / 2 ^ w % 2 ^ w
    let body := (bs.drop size).take c
    if bs.length < size + c then none
    else
      match (if h % 4 = 2 then hufRead body else st.huf.map (fun t => (t, 0))) with
      | none => none
      | some (t, k) => (hufLiterals t (fmt != 0) n (body.drop k)).map (fun x => (x, size + c, { st with huf := some t }))

/-! ### Sequences -/

/-- Baseline and extra bits of a literal length code. -/
def zLitLen (c : Nat) : Nat × Nat :=
  if c < 16 then (c, 0)
  else nth [(16, 1), (18, 1), (20, 1), (22, 1), (24, 2), (28, 2), (32, 3), (40, 3), (48, 4), (64, 6)] (c - 16) (2 ^ (c - 19), c - 19)

/-- Baseline and extra bits of a match length code. -/
def zMatchLen (c : Nat) : Nat × Nat :=
  if c < 32 then (c + 3, 0)
  else nth [(35, 1), (37, 1), (39, 1), (41, 1), (43, 2), (47, 2), (51, 3), (59, 3), (67, 4), (83, 4), (99, 5)] (c - 32) (2 ^ (c - 36) + 3, c - 36)

/-- The distributions that a block names as predefined, with their accuracy. -/
def zDefaultLl : FseTable :=
  fseBuild 6 ([4, 3] ++ List.replicate 11 2 ++ [1, 1, 1] ++ List.replicate 9 2 ++ [3, 2, 1, 1, 1, 1, 1, -1, -1, -1, -1])

def zDefaultOff : FseTable := fseBuild 5 (List.replicate 6 1 ++ [2, 2, 2] ++ List.replicate 15 1 ++ List.replicate 5 (-1))

def zDefaultMl : FseTable := fseBuild 6 ([1, 4, 3] ++ List.replicate 6 2 ++ List.replicate 37 1 ++ List.replicate 7 (-1))

/-- The table of one kind of code by its mode: predefined, one symbol, described, or the last one used; with the bytes it takes. -/
def zTable (mode : Nat) (dflt : FseTable) (last : Option FseTable) (maxLog maxSym : Nat) (bs : List Byte) : Option (FseTable × Nat) :=
  match mode with
  | 0 => some (dflt, 0)
  | 1 => if bs.isEmpty || maxSym < fieldAt bs 0 1 then none else some ({ log := 0, cells := [⟨fieldAt bs 0 1, 0, 0⟩] }, 1)
  | 2 => fseRead bs maxLog maxSym
  | _ => last.map (fun t => (t, 0))

/-- The offset of an offset value after a literal length, and the repeated offsets from then on. -/
def zOffset (v lit : Nat) (r : Nat × Nat × Nat) : Nat × (Nat × Nat × Nat) :=
  if 3 < v then (v - 3, (v - 3, r.1, r.2.1))
  else
    let pick := if lit = 0 then v else v - 1
    match pick with
    | 0 => (r.1, r)
    | 1 => (r.2.1, (r.2.1, r.1, r.2.2))
    | 2 => (r.2.2, (r.2.2, r.1, r.2.1))
    | _ => (r.1 - 1, (r.1 - 1, r.1, r.2.1))

/-- Copy a match: the content is held last byte first. -/
def zCopy (off : Nat) : Nat → List Byte → List Byte
  | 0, out => out
  | k + 1, out => zCopy off k (nth out (off - 1) 0 :: out)

/-- A decode on its way: the content so far, last byte first, the literals left and the repeated offsets. -/
structure ZRun where
  out : List Byte
  lits : List Byte
  reps : Nat × Nat × Nat
  deriving DecidableEq, Repr

/-- Run one sequence. An offset of 0, or one that reaches before the content or the window, is malformed. -/
def zSequence (window lit len v : Nat) (r : ZRun) : Option ZRun :=
  let (off, reps) := zOffset v lit r.reps
  if r.lits.length < lit then none
  else
    let out := (r.lits.take lit).reverse ++ r.out
    if off = 0 || out.length < off || window < off then none
    else some { out := zCopy off len out, lits := r.lits.drop lit, reps := reps }

/-- The sequences of a block: for each the offset, match and literal bits, then the three states, of which the last sequence reads none. -/
def zSequences (window : Nat) (ll off ml : FseTable) : Nat → Nat → Nat → Nat → ZBits → ZRun → Option (ZBits × ZRun)
  | 0, _, _, _, b, r => some (b, r)
  | k + 1, sl, so, sm, b, r =>
    let oc := (fseCell off so).sym
    let v := 2 ^ oc + zPeek b oc
    let b1 := zSkip b oc
    let (mb, mx) := zMatchLen (fseCell ml sm).sym
    let len := mb + zPeek b1 mx
    let b2 := zSkip b1 mx
    let (lb, lx) := zLitLen (fseCell ll sl).sym
    let lit := lb + zPeek b2 lx
    let b3 := zSkip b2 lx
    match zSequence window lit len v r with
    | none => none
    | some r1 =>
      if k = 0 then some (b3, r1)
      else
        let (sl', b4) := fseNext ll sl b3
        let (sm', b5) := fseNext ml sm b4
        let (so', b6) := fseNext off so b5
        zSequences window ll off ml k sl' so' sm' b6 r1

/-- Number of sequences and the bytes that give it. -/
def zCount (bs : List Byte) : Nat × Nat :=
  let h := fieldAt bs 0 1
  if h < 128 then (h, 1) else if h < 255 then ((h - 128) * 256 + fieldAt bs 1 1, 2) else (fieldAt bs 1 2 + 0x7F00, 3)

/-- The sequences section of a block, run over its literals. -/
def zExecute (window : Nat) (st : ZState) (bs lits out : List Byte) : Option (List Byte × ZState) :=
  let (n, h) := zCount bs
  if bs.length < h then none
  else if n = 0 then (if bs.length = 1 then some (lits.reverse ++ out, st) else none)
  else
    let m := fieldAt bs h 1
    if bs.length < h + 1 || m % 4 ≠ 0 then none
    else
      let t0 := bs.drop (h + 1)
      match zTable (m / 64) zDefaultLl st.ll 9 35 t0 with
      | none => none
      | some (ll, a) =>
        match zTable (m / 16 % 4) zDefaultOff st.off 8 31 (t0.drop a) with
        | none => none
        | some (off, b) =>
          match zTable (m / 4 % 4) zDefaultMl st.ml 9 52 (t0.drop (a + b)) with
          | none => none
          | some (ml, c) =>
            match zReverse (t0.drop (a + b + c)) with
            | none => none
            | some b0 =>
              let sl := zPeek b0 ll.log
              let b1 := zSkip b0 ll.log
              let so := zPeek b1 off.log
              let b2 := zSkip b1 off.log
              let sm := zPeek b2 ml.log
              match zSequences window ll off ml n sl so sm (zSkip b2 ml.log) { out := out, lits := lits, reps := st.reps } with
              | none => none
              | some (e, r) =>
                if e.left = 0 && e.past = 0 then
                  some (r.lits.reverse ++ r.out, { st with ll := some ll, off := some off, ml := some ml, reps := r.reps })
                else none

/-- What a compressed block adds to the content `out` (held last byte first), and what it hands on; none where it is malformed. -/
def zBlock (window : Nat) (st : ZState) (bs out : List Byte) : Option (List Byte × ZState) :=
  match zLiterals st bs with
  | none => none
  | some (lits, n, st1) => zExecute window st1 (bs.drop n) lits out

end Sys2Proof.Machine
end

