-- ==== Sys2Proof/Machine/Zstd.lean ====
section
/-!
DEFINITION. The frames of checkpoint shards (14 R318): Zstandard frames of RFC 8878 and their content checksum XXH64.
-/

namespace Sys2Proof.Machine

/-! ### XXH64, seed 0 -/

def xxA : Nat := 11400714785074694791
def xxB : Nat := 14029467366897019727
def xxC : Nat := 1609587929392839161
def xxD : Nat := 9650029242287828579
def xxE : Nat := 2870177450012600261

/-- A number modulo 2^64. -/
def m64 (n : Nat) : Nat := n % 2 ^ 64

/-- Rotate left. -/
def rol64 (n k : Nat) : Nat := m64 (n * 2 ^ k) ||| (n / 2 ^ (64 - k))

def xxRound (acc lane : Nat) : Nat := m64 (rol64 (m64 (acc + lane * xxB)) 31 * xxA)

def xxMerge (acc v : Nat) : Nat := m64 ((acc ^^^ xxRound 0 v) * xxA + xxD)

/-- The stripes of 32 bytes: four accumulators. -/
def xxStripes : Nat → List Byte → (Nat × Nat × Nat × Nat) → (Nat × Nat × Nat × Nat) × List Byte
  | 0, bs, a => (a, bs)
  | k + 1, bs, (p, q, r, s) =>
    xxStripes k (bs.drop 32) (xxRound p (fieldAt bs 0 8), xxRound q (fieldAt bs 8 8), xxRound r (fieldAt bs 16 8), xxRound s (fieldAt bs 24 8))

/-- The last bytes: 8, 4 and 1 at a time. -/
def xxTail : Nat → List Byte → Nat → Nat
  | 0, _, h => h
  | k + 1, bs, h =>
    if 8 ≤ bs.length then xxTail k (bs.drop 8) (m64 (rol64 (h ^^^ xxRound 0 (fieldAt bs 0 8)) 27 * xxA + xxD))
    else if 4 ≤ bs.length then xxTail k (bs.drop 4) (m64 (rol64 (h ^^^ m64 (fieldAt bs 0 4 * xxA)) 23 * xxB + xxC))
    else
      match bs with
      | [] => h
      | b :: rest => xxTail k rest (m64 (rol64 (h ^^^ m64 (b.toNat * xxE)) 11 * xxA))

/-- XXH64 of a byte string. -/
def xxh64 (bs : List Byte) : Nat :=
  let n := bs.length
  let st := xxStripes (n / 32) bs (m64 (xxA + xxB), xxB, 0, 2 ^ 64 - xxA)
  let (p, q, r, s) := st.1
  let h0 := if n < 32 then xxE
    else xxMerge (xxMerge (xxMerge (xxMerge (m64 (rol64 p 1 + rol64 q 7 + rol64 r 12 + rol64 s 18)) p) q) r) s
  let h1 := xxTail (st.2.length + 1) st.2 (m64 (h0 + n))
  let h2 := m64 ((h1 ^^^ (h1 / 2 ^ 33)) * xxB)
  let h3 := m64 ((h2 ^^^ (h2 / 2 ^ 29)) * xxC)
  h3 ^^^ (h3 / 2 ^ 32)

/-! ### Frames -/

/-- Bytes of a block's content. -/
def blockSize : Nat := 131072

/-- One block of a frame: the compressed form that the encoder chooses where it is shorter and decodes to the content, else raw. With it what the
blocks hand on. -/
def encodeBlock (st : ZState) (before chunk : List Byte) (last : Bool) : List Byte × ZState :=
  let l := if last then 1 else 0
  let c := Config.zstdPack before chunk
  match zBlock (8 * 2 ^ 20) st c before.reverse with
  | some (out, st') =>
    if c.length < chunk.length && out == (before ++ chunk).reverse then (natLe (l + 4 + 8 * c.length) 3 ++ c, st')
    else (natLe (l + 8 * chunk.length) 3 ++ chunk, st)
  | none => (natLe (l + 8 * chunk.length) 3 ++ chunk, st)

/-- The blocks of a frame from content offset `off` on. -/
def encodeBlocks (raw : List Byte) : Nat → Nat → ZState → List Byte → List Byte
  | 0, _, _, out => out
  | k + 1, off, st, out =>
    let x := encodeBlock st (raw.take off) ((raw.drop off).take blockSize) (k == 0)
    encodeBlocks raw k (off + blockSize) x.2 (out ++ x.1)

/-- The frame of a shard's raw content (14 R318): Frame_Content_Size of 8 bytes, a checksum, no dictionary, a window of 8 MiB. [Log entry 80, DESIGN CHOICE.] -/
def zstdFrame (raw : List Byte) : List Byte :=
  encodeBlocks raw (Nat.max 1 (ceilDiv raw.length blockSize)) 0 zStart (natLe 0xFD2FB528 4 ++ [0xC4, 0x68] ++ natLe raw.length 8) ++
    natLe (xxh64 raw % 2 ^ 32) 4

/-- The blocks of a frame: the content, last byte first, and where the last block ends. A block holds no more content than its frame allows. -/
def decodeBlocks (window : Nat) (whole : List Byte) : Nat → Nat → ZState → List Byte → Option (List Byte × Nat)
  | 0, _, _, _ => none
  | k + 1, off, st, out =>
    let h := fieldAt whole off 3
    let n := h / 8
    let len := if h / 2 % 4 = 1 then 1 else n
    let body := (whole.drop (off + 3)).take len
    let most := Nat.min window blockSize
    if whole.length < off + 3 || body.length < len || most < n then none
    else
      let r := match h / 2 % 4 with
        | 0 => some (body.reverse ++ out, st)
        | 1 => some (List.replicate n ((body.head?).getD 0) ++ out, st)
        | 2 => zBlock window st body out
        | _ => none
      match r with
      | none => none
      | some (out', st') =>
        if most < out'.length - out.length then none
        else if h % 2 = 1 then some (out', off + 3 + len)
        else decodeBlocks window whole k (off + 3 + len) st' out'

/-- Bytes of the Frame_Content_Size field. -/
def fcsBytes (flag : Nat) (single : Bool) : Nat :=
  match flag with
  | 0 => if single then 1 else 0
  | 1 => 2
  | 2 => 4
  | _ => 8

/-- What a frame decodes to (14 R318): `error true` where it lacks a property of R318, `error false` where its checksum fails. -/
def zstdDecode (f : List Byte) : Except Bool (List Byte) :=
  let d := fieldAt f 4 1
  let single := bitSet d 5
  let n := fcsBytes (d / 64) single
  let wb := fieldAt f 5 1
  let fo := if single then 5 else 6
  let size := fieldAt f fo n + (if d / 64 = 1 then 256 else 0)
  let base := 2 ^ (10 + wb / 8)
  let window := if single then size else base + base / 8 * (wb % 8)
  if fieldAt f 0 4 ≠ 0xFD2FB528 || n = 0 || !bitSet d 2 || d % 4 ≠ 0 || bitSet d 3 || 8 * 2 ^ 20 < window then .error true
  else
    match decodeBlocks window f f.length (fo + n) zStart [] with
    | none => .error true
    | some (rev, e) =>
      let c := rev.reverse
      if f.length ≠ e + 4 || c.length ≠ size then .error true
      else if fieldAt f e 4 ≠ xxh64 c % 2 ^ 32 then .error false
      else .ok c

end Sys2Proof.Machine
end

