-- ==== Sys2Proof/Machine/Checkpoint.lean ====
section
/-!
DEFINITION. Checkpoints (14 R312-R326): what a snapshot captures, shards and manifest, staging, the flash region and the host copy, and
the verbs CKPT_BEGIN, CKPT_STATUS and CKPT_DRAIN.
-/

namespace Sys2Proof.Machine

/-! ### Signing (14 R321, 15 R356) -/

/-- An RSASSA-PSS signature under the device's identity key with a salt (07 R155). [Log entry 81, PRESUMED.] -/
def identitySign (pub salt msg : List Byte) : List Byte :=
  match parseKey pub with
  | none => List.replicate 512 0
  | some (n, _) =>
    let h := sha512 (List.replicate 8 0 ++ sha512 msg ++ salt)
    let db := xorBytes (List.replicate 382 0 ++ [1] ++ salt) (mgf1 h 447)
    let em := ((db.headD 0 &&& 0x7F) :: db.drop 1) ++ h ++ [0xBC]
    beBytes (modPow 4096 (natBe em) (Config.identityExponent pub) n) 512

/-- The signature block of a manifest, with its signature (14 R321). -/
def signatureBlock (pub sig : List Byte) : List Byte :=
  natLe 1 2 ++ List.replicate 6 0 ++ (sha512 pub).take 32 ++ List.replicate 24 0 ++ padTo sig 512

/-! ### Shards and the manifest (14 R316-R322) -/

def findCkpt (d : Dev) (ctx step : Nat) : Option Ckpt := d.ckpts.find? (fun c => c.ctx == ctx && c.step == step)

def updCkpt (d : Dev) (ctx step : Nat) (f : Ckpt → Ckpt) : Dev :=
  { d with ckpts := updWhere (fun c => c.ctx == ctx && c.step == step) f d.ckpts }

/-- The number by which movers and charges name a checkpoint. -/
def ckptNum (ctx step : Nat) : Nat := ctx * 2 ^ 48 + step

/-- The name of a checkpoint's staging charges: sub 0 the manifest, sub n + 1 shard n. -/
def ckptKey (ctx step : Nat) : Nat := allocKey 0x1000 (ckptNum ctx step)

/-- Object reference of a checkpoint. -/
def objCkpt (c : Ckpt) : Nat := objRef 5 c.ctx c.step

/-- The frame of a shard. -/
def shardFrame (s : Shard) : List Byte := zstdFrame s.raw

/-- Bytes 0-63 of a shard header (14 Table 14-2), which a manifest entry repeats. -/
def shardHead (s : Shard) (frameBytes : Nat) : List Byte :=
  [byte s.kind, if s.last then 1 else 0] ++ natLe s.part 2 ++ natLe 0 4 ++ natLe s.object 8 ++ natLe s.layerFirst 2 ++ natLe s.layerCount 2 ++
    natLe s.posFirst 4 ++ natLe s.posCount 4 ++ natLe s.headFirst 2 ++ natLe s.headCount 2 ++ natLe s.raw.length 8 ++ natLe frameBytes 8 ++
    padTo s.modelDigest 16

/-- A stored shard: its header of 128 bytes and its frame. -/
def shardBytes (c : Ckpt) (s : Shard) : List Byte :=
  let f := shardFrame s
  padTo (shardHead s f.length ++ natLe c.step 8 ++ [byte c.lpart]) 128 ++ f

/-- Bytes of a manifest. -/
def manifestSize (signed : Bool) (n : Nat) : Nat := 256 + 128 * n + (if signed then 576 else 0)

/-- Offsets of the items of a region from `at'` on, each at the next 16 KiB boundary, and the end of the last (14 R322). -/
def regionOffsets : Nat → List Nat → List Nat × Nat
  | at', [] => ([], at')
  | at', n :: ns =>
    let o := roundUp at' 16384
    let r := regionOffsets (o + n) ns
    (o :: r.1, r.2)

/-- Where a checkpoint's shards lie in its region, and the region's bytes. [Log entry 84, DEDUCED.] -/
def ckptLayout (c : Ckpt) : List Nat × Nat :=
  regionOffsets (manifestSize c.signed c.shards.length) (c.shards.map (fun s => 128 + (shardFrame s).length))

/-- The manifest before its signature block (14 Table 14-3). -/
def manifestHead (d : Dev) (c : Ckpt) : List Byte :=
  padTo (natLe 1 4 ++ natLe c.shards.length 4 ++ natLe c.step 8 ++ natLe c.clause 8 ++ natLe c.time 8 ++ natLe c.ctx 2 ++ [byte c.lpart,
    byte ((if c.signed then 1 else 0) + (if c.full then 2 else 0))] ++ natLe c.sessions 4 ++
    natLe (sumNat (c.shards.map (fun s => s.raw.length))) 8 ++ natLe (ckptLayout c).2 8 ++ natLe d.boot.serial 8) 256 ++
    c.shards.flatMap (fun s => shardHead s (shardFrame s).length ++ sha512 (shardBytes c s))

/-- The whole manifest. [Log entry 86, DEDUCED.] -/
def manifestBytes (d : Dev) (c : Ckpt) : List Byte :=
  manifestHead d c ++ (if c.signed then signatureBlock d.boot.publicKey c.signature else [])

/-- Bytes of a region. -/
def regionBytes (c : Ckpt) : Nat := (ckptLayout c).2

/-! ### Capture (14 R312-R316) -/

/-- A shard of one whole object. -/
def plainShard (kind object sess : Nat) (digest raw : List Byte) : Shard :=
  { kind := kind, part := 0, last := true, object := object, sess := sess, layerFirst := 0, layerCount := 0, posFirst := 0, posCount := 0,
    headFirst := 0, headCount := 0, raw := raw, modelDigest := digest, holds := [], staged := false }

/-- Split a shard above 1 GiB into parts of 1 GiB (14 R316). -/
def splitShard (s : Shard) : List Shard :=
  let n := Nat.max 1 (ceilDiv s.raw.length (2 ^ 30))
  (List.range n).map (fun i => { s with
    part := i, last := i + 1 == n, raw := (s.raw.drop (i * 2 ^ 30)).take (2 ^ 30), holds := if i + 1 = n then s.holds else [] })

/-- Whether a phrase is listed by reference (14 R314). -/
def ckptRefers (full : Bool) (x : Phrase) : Bool := !full && x.flash.isSome

/-- Runs of whole 64-position blocks of at most 1 GiB: first block, blocks and their phrases. -/
def blockRuns (size : Nat → Nat) : Nat → Nat → Nat → Nat → List (Nat × Nat)
  | 0, _, start, n => if n = 0 then [] else [(start, n)]
  | k + 1, b, start, n =>
    let used := sumNat ((rangeFrom start n).map size)
    if n ≠ 0 && 2 ^ 30 < used + size b then (start, n) :: blockRuns size k (b + 1) b 1
    else blockRuns size k (b + 1) start (n + 1)

/-- The PHRASES shards of a session: its copied phrases by runs of blocks, in layer, kind and position order. [Log entry 86, DEDUCED.] -/
def phraseShards (object sess layers : Nat) (digest : List Byte) (xs : List Phrase) : List Shard :=
  let blocks := xs.foldl (fun a x => Nat.max a (x.firstPos / 64 + 1)) 0
  let size := fun b => sumNat ((xs.filter (fun x => x.firstPos / 64 == b)).map (fun x => phraseSize x * 1024))
  (blockRuns size blocks 0 0 0).filterMap (fun r =>
    let own := xs.filter (fun x => decide (r.1 ≤ x.firstPos / 64) && decide (x.firstPos / 64 < r.1 + r.2))
    if own.isEmpty then none
    else some { plainShard 5 object sess digest (own.flatMap phraseImage) with
      layerCount := layers, posFirst := 64 * r.1, posCount := 64 * r.2, holds := own.map (·.id) })

/-- The shards of one session (14 R316): SESSION, RSTATE and PHRASES. [Log entry 86, DEDUCED.] -/
def sessionShards (d : Dev) (full : Bool) (s : Sess) (m : Model) : List Shard :=
  let im0 := snapImage d s m 4
  let mark := fun (e : Nat × Nat × Nat × Nat × Nat) =>
    match findPhrase d (ctxPart s.ctx) e.2.2.1 with
    | some x => if ckptRefers full x then e else (e.1, e.2.1, e.2.2.1, e.2.2.2.1, 0)
    | none => e
  let im := { im0 with phrases := im0.phrases.map mark }
  let digest := m.digest.take 16
  let obj := objSess s
  let h := handleOf s
  let rst := ((s.layers.zip m.layers).filter (fun x => x.2.kind == 1)).flatMap (fun x =>
    match x.1.recur with
    | some r => memReadN r.cur 0 (recBytes x.2)
    | none => [])
  let heads := (m.layers.map (·.rh)).foldl Nat.max 0
  let copied := (sessPhrases s).filterMap (fun i =>
    match findPhrase d (ctxPart s.ctx) i with
    | some x => if ckptRefers full x then none else some x
    | none => none)
  splitShard (plainShard 3 obj h digest (checkpointImage im (draftSection s))) ++
    (if rst.isEmpty then [] else splitShard { plainShard 4 obj h digest rst with layerCount := m.layers.length, headCount := heads }) ++
    phraseShards obj h m.layers.length digest copied

/-- One region of a captured job: its offset in the memory that the job names, and its bytes. -/
structure JobPart where
  off : Nat
  bytes : List Byte
  deriving DecidableEq, Repr

/-- The bytes of a span of the memory that a job names. -/
def jobSpan (d : Dev) (base off n : Nat) : JobPart := { off := off, bytes := memReadN d.exch (base + off) n }

/-- The least span that holds a list of (offset, bytes) ranges. -/
def spanOf (l : List (Nat × Nat)) : Nat × Nat :=
  match l with
  | [] => (0, 0)
  | x :: xs =>
    let lo := (xs.map (·.1)).foldl Nat.min x.1
    let hi := (xs.map (fun y => y.1 + y.2)).foldl Nat.max (x.1 + x.2)
    (lo, hi - lo)

/-- The regions of a captured job: descriptor, table, input or data, scales or Q, tokens, trees, and the handles of its rows. [Log entry 86, DEDUCED.] -/
def jobParts (d : Dev) (j : Job) : List JobPart :=
  let base := jobBase d j
  let handles : JobPart := { off := 0, bytes := j.rows.flatMap (fun r => natLe r.handle 4) }
  if j.kind = 0 then
    let b := j.desc
    let q := fieldAt b 8 4
    let fp8 := bitSet (fieldAt b 1 1) 2
    let hidden := match findModel d j.model with | some m => m.hidden | none => 0
    let toks := spanOf ((j.rows.filter rowLogs).map (fun r => (fieldAt b 48 8 + 4 * r.aux, 4 * r.qcount)))
    let trees := spanOf ((j.rows.filter rowTree).map (fun r => (fieldAt b 56 8 + 384 * (r.aux / 65536), 384)))
    [{ off := 0, bytes := b }, jobSpan d base (fieldAt b 16 8) (16 * j.rows.length),
      jobSpan d base (fieldAt b 24 8) (q * hidden * (if fp8 then 1 else 2)), jobSpan d base (fieldAt b 32 8) (if fp8 then 4 * q else 0),
      jobSpan d base toks.1 toks.2, jobSpan d base trees.1 (if fieldAt b 56 8 = 0 then 0 else trees.2), handles]
  else
    let b := j.desc.take 64
    let tb := j.desc.drop 64
    let data := spanOf ((j.rows.filter smpSized).map (fun r => (fieldAt b 24 8 + smpData tb r.idx, r.qcount * smpBlock r)))
    let qs := spanOf ((j.rows.filter (fun r => smpQ tb r.idx != 0)).map (fun r => (smpQ tb r.idx, 4 * r.qcount)))
    [{ off := 0, bytes := b }, { off := fieldAt b 16 8, bytes := tb }, jobSpan d base data.1 data.2, jobSpan d base qs.1 qs.2,
      { off := 0, bytes := [] }, { off := 0, bytes := [] }, handles]

/-- JOB_SEQ of a job's descriptor. -/
def jobSeqOf (j : Job) : Nat := if j.kind = 0 then fieldAt j.desc 72 8 else fieldAt j.desc 40 8

/-- The job record of 256 bytes and its regions (14 Table 14-1). [Log entry 82, DESIGN CHOICE.] -/
def jobRecord (d : Dev) (j : Job) : List Byte :=
  let ps := jobParts d j
  let who := match j.launch with
    | some l => (match findWindow d l.window with | some w => (if w.cq then w.ring else 0xFFFF, l.imm, l.window) | none => (0xFFFF, l.imm, l.window))
    | none => match findVerb d j.seq with
      | some v => (v.ring, fld v 4 4, 0xFFFF)
      | none => (0xFFFF, 0, 0xFFFF)
  padTo ([byte (j.kind + 1), 0] ++ natLe who.1 2 ++ natLe who.2.1 4 ++ natLe (jobSeqOf j) 8 ++ natLe who.2.2 2 ++ natLe 0 6 ++
    ps.flatMap (fun p => natLe p.off 8 ++ natLe p.bytes.length 8)) 256 ++ ps.flatMap (fun p => p.bytes)

/-- The ATTEND and SAMPLE jobs of a context that have been accepted and have not completed, with the device that holds them: those of verbs
that have not been taken up yet too (14 R312). [Log entry 86, DEDUCED.] -/
def ckptJobs (d : Dev) (ctx : Nat) : Dev × List Job :=
  let waits := d.tur.verbs.filter (fun v => (v.op == 0x0405 || v.op == 0x0605) && verbContext d v == some ctx && !d.arr.jobs.any (fun j => j.seq == v.seq))
  let take := fun (a : Dev) (v : Verb) => match (if v.op = 0x0405 then attendBody v a else sampleBody v a) with
    | .ok b => b
    | .error _ => a
  let d1 := waits.foldl take d
  (d1, sortBy (fun (a b : Job) => decide (a.seq ≤ b.seq))
    (d1.arr.jobs.filter (fun j => j.ctx == ctx && decide (j.kind < 2) && j.state != 6 && j.state != 5)))

/-- The QUEUE content (14 Table 14-1): up to 1,024 unreplayed verbs, then the jobs in acceptance order. -/
def queueRaw (d : Dev) (ctx seq : Nat) (js : List Job) : List Byte :=
  let vs := d.tur.verbs.filter (fun v => verbContext d v == some ctx && v.seq != seq && v.op != 0x0405 && v.op != 0x0605)
  padTo ((vs.take 1024).flatMap (fun v => natLe v.ring 4 ++ natLe (fld v 4 4) 4)) 16384 ++ js.flatMap (jobRecord d)

/-- The CONTEXT content. -/
def contextRaw (d : Dev) (ctx captured omitted damaged : Nat) : List Byte :=
  padTo (natLe ctx 4 ++ natLe 0 4 ++ natLe d.clk.count 8 ++ natLe d.tim.now 8 ++ natLe captured 4 ++ natLe omitted 4 ++ natLe damaged 4) 16384

/-! ### Holds (02 R30, 14 R314) -/

/-- Add a checkpoint hold to each phrase of a list without repeats: a checkpoint holds a phrase once, however many of its sessions share it. -/
def holdPhrases (d : Dev) (p : Nat) (ids : List Nat) : Dev := ids.foldl (fun a i => updPhrase a p i (fun x => { x with holds := x.holds + 1 })) d

/-- Release a checkpoint hold of each phrase of a list (02 R33). -/
def unholdPhrases (d : Dev) (p : Nat) (ids : List Nat) : Dev :=
  ids.foldl (fun a i =>
    let a1 := updPhrase a p i (fun x => { x with holds := x.holds - 1 })
    { a1 with kv.releases := a1.kv.releases ++ [(p, i, a1.clk.count, 0)] }) d

/-! ### The flash region (14 R322, R323, R326) -/

/-- The pages of a byte string. -/
def pagesOf (bs : List Byte) : List (List Byte) := (List.range (ceilDiv bs.length 16384)).map (fun i => padTo (bs.drop (16384 * i)) 16384)

/-- Take a run of LPNs for a checkpoint's region. [Log entry 84, DEDUCED.] -/
def takeRegion (d : Dev) (c : Ckpt) : Option Dev :=
  let p := ctxPart c.ctx
  let n := ceilDiv (regionBytes c) 16384
  (flashRun d p n).map (fun l =>
    updCkpt { d with ckptRuns := d.ckptRuns ++ [(p, l, n)] } c.ctx c.step (fun x => { x with region := some l, regionPages := n }))

/-- Write shard `n` of a checkpoint to its flash region. -/
def regionShard (d : Dev) (ctx step n : Nat) : Dev :=
  match findCkpt d ctx step with
  | none => d
  | some c =>
    match c.region, c.shards[n]? with
    | some l, some s =>
      if c.writtenFlash.contains n || !flashWritable d then d
      else
        let off := nth (ckptLayout c).1 n 0 / 16384
        let d1 := flashWrite d (ctxPart ctx) (l + off) 0 (objCkpt c) true (pagesOf (shardBytes c s))
        updCkpt d1 ctx step (fun x => { x with writtenFlash := x.writtenFlash ++ [n] })
    | _, _ => d

/-- Write the manifest last and ask for durability of the region and of every referenced phrase. -/
def regionSeal (d : Dev) (ctx step : Nat) : Dev :=
  match findCkpt d ctx step with
  | none => d
  | some c =>
    match c.region with
    | none => d
    | some l =>
      if c.sealedFlash || c.state ≠ 1 || c.writtenFlash.length < c.shards.length || !flashWritable d then d
      else
        let p := ctxPart ctx
        let d1 := flashWrite d p l 0 (objCkpt c) true (pagesOf (manifestBytes d c))
        let d2 := wantDurable d1 p l c.regionPages
        let d3 := c.refs.foldl (fun a i =>
          match findPhrase a p i with
          | some x => (match x.flash with
            | some f => wantDurable a p f (ceilDiv (phraseSize x) 16)
            | none => a)
          | none => a) d2
        updCkpt d3 ctx step (fun x => { x with sealedFlash := true })

/-- Write whatever of a checkpoint is staged and not yet in its region. -/
def regionCatchUp (d : Dev) (ctx step : Nat) : Dev :=
  match findCkpt d ctx step with
  | none => d
  | some c =>
    regionSeal ((List.range c.shards.length).foldl (fun a n =>
      match c.shards[n]? with
      | some s => if s.staged then regionShard a ctx step n else a
      | none => a) d) ctx step

/-- The event of a checkpoint. -/
def raiseCkpt (d : Dev) (c : Ckpt) (code : Nat) (vals : List (Nat × Nat)) : Dev :=
  raise d code (objCkpt c) (.part (ctxPart c.ctx)) ((8, c.step) :: vals)

/-- Answer a deferred verb. -/
def answer (d : Dev) (w : Waiter) (status obj : Nat) (p : Nat) (result : List Byte) : Dev :=
  deferredDone d w.ring w.tag w.op status obj (.part p) result

/-- Answer every drain that waits for a checkpoint's flash region. [Log entry 85, DEDUCED.] -/
def answerDrains (d : Dev) (c : Ckpt) (status : Nat) : Dev :=
  let d1 := c.drainWaits.foldl (fun a w => answer a w status (objCkpt c) (ctxPart c.ctx) (natLe (c.region.getD 0) 8)) d
  updCkpt d1 c.ctx c.step (fun x => { x with drainWaits := [] })

/-- Free a checkpoint's staging. -/
def freeStaging (d : Dev) (c : Ckpt) : Dev := updCkpt (freeAllocs d (ckptKey c.ctx c.step)) c.ctx c.step (fun x => { x with freed := true })

/-! ### Staging (14 R323, R324) -/

/-- A checkpoint fails (14 Table 14-4): no further progress. [Log entry 85, DEDUCED.] -/
def ckptFail (d : Dev) (c : Ckpt) (cause : Nat) : Dev :=
  let d1 := { d with kv.movers := dropWhere (fun w => match w.what with | .shard k _ => k == ckptNum c.ctx c.step | _ => false) d.kv.movers }
  let d2 := answerDrains (updCkpt (freeStaging d1 c) c.ctx c.step (fun x => { x with state := 2, hosts := [] })) c stNospace
  let d2 := c.hosts.foldl (fun a h => answer a h.who stNospace (objCkpt c) (ctxPart c.ctx) []) d2
  raiseCkpt d2 c 0x0913 [(1, cause)]

/-- A shard's copy into staging has finished (14 R314, R323). `sendShard` mirrors it. -/
def shardStaged (sendShard : Dev → Nat → Nat → Nat → Dev) (d : Dev) (ctx step n : Nat) : Dev :=
  match findCkpt d ctx step with
  | none => d
  | some c =>
    match c.shards[n]? with
    | none => d
    | some s =>
      if c.state ≠ 0 || s.staged then d
      else
        let p := ctxPart ctx
        let key := ckptKey ctx step
        let charged := if d.pool.allocs.any (fun a => a.obj == key && a.sub == n + 1) then some d
          else allocDdr d p (roundUp (128 + (shardFrame s).length) 16384) key (n + 1)
        match (match charged with | some a => some a | none => if c.region.isSome then some d else none) with
        | none => ckptFail d c 1
        | some d1 =>
          let others := ((List.range c.shards.length).zip c.shards).flatMap (fun x => if x.1 = n || x.2.staged then [] else x.2.holds)
          let d2 := updCkpt (unholdPhrases d1 p (s.holds.filter (fun i => !others.contains i))) ctx step (fun x => { x with shards := setNth x.shards n { s with staged := true } })
          sendShard (regionShard d2 ctx step n) ctx step n

/-- CKPT_STAGED: every shard has been formed; the manifest is written and the checkpoint is STAGED (14 R323). -/
def ckptStaged (sendManifest : Dev → Nat → Nat → Dev) (ctx step : Nat) (d : Dev) : Dev :=
  match findCkpt d ctx step with
  | none => d
  | some c =>
    if c.state ≠ 0 || !c.shards.all (·.staged) then d
    else
      let n := manifestSize c.signed c.shards.length
      match (match allocDdr d (ctxPart ctx) (roundUp n 16384) (ckptKey ctx step) 0 with
        | some a => some a
        | none => if c.region.isSome then some d else none) with
      | none => ckptFail d c 1
      | some d1 =>
        let d2 := updCkpt d1 ctx step (fun x => { x with state := 1 })
        let d3 := raiseCkpt d2 c 0x0910 [(4, c.shards.length), (8, sumNat (c.shards.map (fun s => s.raw.length)))]
        sendManifest (regionSeal d3 ctx step) ctx step

/-! ### CKPT_BEGIN (14 R324) -/

/-- The context that a checkpoint verb names at bytes 24-25: on a context ring 0, its own. -/
def ckptCtx (v : Verb) : Nat := if v.admin then fld v 24 2 else v.ctx

/-- Check 4 of the CONTEXT field at bytes 24-25. -/
def ckptCtxField (v : Verb) : Nat × Bool := (24, if v.admin then decide (fld v 24 2 < 2048) else fld v 24 2 == 0)

/-- Whether the identity key can sign (15 R356): a state of IDENTITY_GET of 1 or 2. -/
def canSign (d : Dev) : Bool := d.boot.identity == 1 || d.boot.identity == 2

def ckptBeginBody (v : Verb) (d : Dev) : Except Fail Dev := do
  let fl := fld v 26 1
  let n := fld v 28 4
  let list := bitSet fl 3
  let off := fld v 32 8
  let ctx := ckptCtx v
  let step := fld v 16 8
  check4 v false [(40, 24)] [(16, decide (step < 2 ^ 48)), ckptCtxField v, (26, decide (fl < 32)), (27, decide (fld v 27 1 < 32)),
    (28, if list then inR n 1 262144 else n == 0), (32, if list then off % 64 == 0 && argIn d v off (4 * n) else off == 0)]
  let hs ← if list then argRead d v off (4 * n) else .ok []
  checkCtx d v ctx 24
  let handles := (List.range n).map (fun i => fieldAt hs (4 * i) 4)
  if handles.any (fun h => match findSess d h with | some s => s.ctx != ctx | none => true) then failId stStale 32
  else
    let mine := d.ckpts.filter (fun c => c.ctx == ctx)
    let begun := (d.kv.ops.filter (fun o => match o with | .ckpt _ _ => true | _ => false)).length
    need stLimit (decide (mine.length < 4) && decide (d.ckpts.length + begun < 256))
    need stState (!mine.any (fun c => c.step == step) && (!bitSet fl 2 || canSign d))
    need stBusy (!mine.any (fun c => c.state == 0) && !d.kv.ops.any (fun o => match o with
      | .ckpt q _ => (match findVerb d q with | some w => ckptCtx w == ctx | none => false)
      | _ => false))
    .ok (registerOp d v (.ckpt v.seq handles))

/-- The sessions of a checkpoint at B: captured, omitted and damaged. -/
def ckptSessions (d : Dev) (ctx : Nat) (handles : List Nat) : List Sess × Nat × Nat :=
  let all := d.kv.cat.filter (fun s => s.ctx == ctx && s.state != 0 && !s.retired && (handles.isEmpty || handles.contains (handleOf s)))
  let live := all.filter (fun s => s.state == 1 || s.state == 2 || s.state == 5)
  let good := live.filter (fun s => !sessDamaged s)
  (sortBy (fun (a b : Sess) => decide (handleOf a ≤ handleOf b)) good, all.length - live.length, live.length - good.length)

/-- The snapshot at B (14 R312-R314). `sendOpen` asks the buddy for an extent. [Log entry 85, DEDUCED.] -/
def ckptAt (sendOpen : Dev → Nat → Nat → Dev) (d : Dev) (seq : Nat) (handles : List Nat) : Dev :=
  match findVerb d seq with
  | none => dropOp d seq
  | some v =>
    let ctx := ckptCtx v
    let step := fld v 16 8
    let fl := fld v 26 1
    let p := ctxPart ctx
    let full := bitSet fl 4
    let (ss, omitted, damaged) := ckptSessions d ctx handles
    let (dj, js) := ckptJobs d ctx
    let withM := ss.filterMap (fun s => (findModel d s.model).map (fun m => (s, m)))
    let obj := objRef 15 ctx 0
    let shards := [plainShard 1 obj 0 [] (contextRaw d ctx ss.length omitted damaged)] ++ splitShard (plainShard 2 obj 0 [] (queueRaw dj ctx seq js)) ++
      withM.flatMap (fun x => sessionShards d full x.1 x.2)
    let listed := (ss.flatMap sessPhrases).eraseDups
    let refs := listed.filter (fun i => match findPhrase d p i with | some x => ckptRefers full x | none => false)
    let (salt, d0) := drawBytes d 64
    let c0 : Ckpt := {
      ctx := ctx, step := step, lpart := fld v 27 1, state := 0, mirrored := false, durable := false, hosted := false, signed := bitSet fl 2
      full := full, mirrorFailed := false, clause := d.clk.count, time := d.tim.now, sessions := ss.length, omitted := omitted
      damaged := damaged, jobs := js.length, shards := shards, refs := refs, signature := [], mirror := 0, mirrorOff := 0
      mirrorSent := [], region := none, regionPages := 0, writtenFlash := [], sealedFlash := false, drainWaits := [], hosts := []
      freed := false }
    let c := { c0 with signature := if c0.signed then identitySign d0.boot.publicKey salt (manifestHead d0 c0) else [] }
    let charged := ((List.range shards.length).zip shards).foldl (fun (acc : Option Dev) x =>
      if x.2.kind = 5 then acc
      else acc.bind (fun a => allocDdr a p (roundUp (128 + (shardFrame x.2).length) 16384) (ckptKey ctx step) (x.1 + 1))) (some d0)
    if handles.any (fun h => match findSess d h with | some s => s.ctx != ctx | none => true) then finishSeq d seq stStale []
    else
    match charged with
    | none => finishSeq d0 seq stNospace []
    | some d1 =>
      let d2 := holdPhrases { d1 with ckpts := d1.ckpts ++ [c] } p listed
      let d3 := (List.range shards.length).foldl (fun a n => queueMover a seq 2 (.shard (ckptNum ctx step) n)) d2
      let d4 := if bitSet fl 1 && flashWritable d3 then (takeRegion d3 c).getD d3 else d3
      let d5 := finishSeq d4 seq stOk [(8, 8, d.clk.count), (16, 4, ss.length), (20, 4, omitted), (24, 4, js.length)]
      if bitSet fl 0 then sendOpen d5 ctx step else d5

/-! ### CKPT_STATUS and CKPT_DRAIN (14 R325, R326) -/

/-- A retained checkpoint named by STEP and CONTEXT. -/
def checkCkpt (d : Dev) (v : Verb) : Except Fail Ckpt := do
  checkCtx d v (ckptCtx v) 24
  match findCkpt d (ckptCtx v) (fld v 16 8) with
  | some c => .ok c
  | none => failId stStale 16

def ckptStatusBody (v : Verb) (d : Dev) : Except Fail Dev := do
  let off := fld v 32 8
  let n := fld v 40 8
  check4 v false [(26, 6), (48, 16)] [(16, decide (fld v 16 8 < 2 ^ 48)), ckptCtxField v, (32, off % 64 == 0)]
  let c ← checkCkpt d v
  need stState (c.state != 2)
  let m := manifestBytes d c
  needRange 40 (off == 0 || decide (m.length ≤ n))
  needRange 32 (off == 0 || outIn d v off m.length)
  if off ≠ 0 && outPartial d v off m.length then failSt stDamaged
  else
    let d1 := if off = 0 then d else outWrite d v off m
    let b := fun (x : Bool) k => if x then 2 ^ k else 0
    .ok (finishOk d1 v [(8, 1, c.state), (9, 1, b c.mirrored 0 + b c.durable 1 + b c.hosted 2 + b c.signed 3 + b c.mirrorFailed 4),
      (12, 4, (c.shards.filter (·.staged)).length), (16, 8, c.region.getD 0), (24, 4, c.damaged), (28, 4, m.length)])

/-- End a checkpoint (14 R315, R326): its staging and holds go, the region stays mapped. `sendRelease` frees the mirror. -/
def ckptEnd (sendRelease : Dev → Ckpt → Dev) (d : Dev) (c : Ckpt) : Dev :=
  let p := ctxPart c.ctx
  let mine := fun (w : Mover) => match w.what with | .shard k _ => k == ckptNum c.ctx c.step | _ => false
  let held := (c.refs ++ (c.shards.filter (fun s => !s.staged)).flatMap (·.holds)).eraseDups
  let d1 := unholdPhrases (freeStaging { d with kv.movers := dropWhere mine d.kv.movers } c) p held
  let d2 := c.hosts.foldl (fun a h => answer a h.who stAborted (objCkpt c) p []) d1
  let d3 := answerDrains d2 c stAborted
  let runs := match c.region with
    | some l => dropWhere (fun (r : Nat × Nat × Nat) => r.1 == p && r.2.1 == l) d3.ckptRuns
    | none => d3.ckptRuns
  sendRelease { d3 with ckptRuns := runs, ckpts := dropWhere (fun x => x.ctx == c.ctx && x.step == c.step) d3.ckpts } c

/-- Whether a checkpoint's region can be had: from its staging, or once that is freed from flash (14 R323). [Log entry 85, DEDUCED.] -/
def ckptReadable (d : Dev) (c : Ckpt) : Bool := !c.freed || (c.region.isSome && flashReadable d)

/-- Whether a checkpoint whose staging is freed has lost pages of its flash region. -/
def regionLost (d : Dev) (c : Ckpt) : Bool :=
  c.freed && (match c.region with | some l => runLost d (ctxPart c.ctx) l c.regionPages | none => false)

/-- The verb as one that EV_DEFERRED_DONE answers. -/
def waiterOf (v : Verb) : Waiter := { ring := v.ring, tag := fld v 4 4, op := v.op }

/-- CKPT_DRAIN (14 R325, R326). [Log entry 84, DEDUCED.] -/
def ckptDrainBody (sendRelease : Dev → Ckpt → Dev) (v : Verb) (d : Dev) : Except Fail Dev := do
  let mode := fld v 26 1
  let host := mode = 2
  check4 v false ([(27, 5), (48, 16)] ++ (if host then [] else [(32, 16)]))
    [(16, decide (fld v 16 8 < 2 ^ 48)), ckptCtxField v, (26, inR mode 1 3), (32, fld v 32 8 % 4096 == 0)]
  let c ← checkCkpt d v
  let p := ctxPart c.ctx
  match mode with
  | 3 => .ok (finishOk (ckptEnd sendRelease d c) v [])
  | 2 =>
    need stState (c.state != 2 && ckptReadable d c)
    need stNospace (decide (regionBytes c ≤ fld v 40 8))
    let h : HostDrain := { who := waiterOf v, ld := partLd d p, addr := fld v 32 8, bytes := fld v 40 8 }
    .ok (finish (updCkpt d c.ctx c.step (fun x => { x with hosts := x.hosts ++ [h] })) v stDeferred 0xFF [])
  | _ =>
    need stState (c.state != 2)
    need stState (c.durable || (flashWritable d && (c.region.isSome || ckptReadable d c)))
    match (if c.region.isSome then some d else takeRegion d c) with
    | none => failSt stNospace
    | some d1 =>
      let d2 := updCkpt d1 c.ctx c.step (fun x => { x with drainWaits := x.drainWaits ++ [waiterOf v] })
      let d3 := finish d2 v stDeferred 0xFF []
      .ok (match findCkpt d3 c.ctx c.step with
        | some x => if x.durable then answerDrains d3 x stOk else regionCatchUp d3 c.ctx c.step
        | none => d3)

/-! ### Progress at a boundary (14 R323) -/

/-- Write a host copy: shards first, manifest last (14 R322, R326). [Log entry 86, DEDUCED.] -/
def hostCopy (d : Dev) (c : Ckpt) (h : HostDrain) : Option Dev :=
  let offs := (ckptLayout c).1
  let items := (offs.zip c.shards).map (fun x => (x.1, shardBytes c x.2)) ++ [(0, manifestBytes d c)]
  items.foldl (fun acc x => acc.bind (fun a => busWrite a h.ld (h.addr + x.1) x.2)) (some d)

/-- One checkpoint at a boundary. -/
def ckptStep (d0 : Dev) (c0 : Ckpt) : Dev :=
  let p := ctxPart c0.ctx
  let d := regionCatchUp d0 c0.ctx c0.step
  match findCkpt d c0.ctx c0.step with
  | none => d
  | some c =>
    let one := fun (b : Dev) (h : HostDrain) =>
      if !ckptReadable b c || regionLost b c then answer b h.who stMedia (objCkpt c) p []
      else
        match hostCopy b c h with
        | some a => answer (updCkpt a c.ctx c.step (fun x => { x with hosted := true })) h.who stOk (objCkpt c) p []
        | none => answer (busFailed b h.ld) h.who stAborted (objCkpt c) p []
    let d1 := if c.state ≠ 1 then d else c.hosts.foldl one (updCkpt d c.ctx c.step (fun x => { x with hosts := [] }))
    let whole := match c.region with
      | some l => c.sealedFlash && runDurable d1 p l c.regionPages && c.refs.all (fun i =>
          match findPhrase d1 p i with
          | some x => (match x.flash with | some f => runDurable d1 p f (ceilDiv (phraseSize x) 16) | none => false)
          | none => false)
      | none => false
    let broken := match c.region with
      | some l => c.sealedFlash && !c.durable && runLost d1 p l c.regionPages
      | none => false
    let d2 := if whole && !c.durable then
        raiseCkpt (answerDrains (updCkpt d1 c.ctx c.step (fun x => { x with durable := true })) c stOk) c 0x0912 [(8, c.region.getD 0)]
      else if broken then answerDrains d1 c stMedia
      else d1
    match findCkpt d2 c.ctx c.step with
    | some x => if (x.durable || x.hosted) && (x.mirror = 0 || x.mirror = 4) && !x.freed then freeStaging d2 x else d2
    | none => d2

/-- Every retained checkpoint at a boundary. -/
def ckptBoundary (d : Dev) : Dev := d.ckpts.foldl ckptStep d

end Sys2Proof.Machine
end

