-- ==== Sys2Proof/Machine/Buddy.lean ====
section
/-!
DEFINITION. Buddy pairing and mirroring (14 R327-R330): control messages, the source's mirrors, the holder's area.
-/

namespace Sys2Proof.Machine

/-! ### Control messages (14 R328, Tables 14-7, 14-8) -/

/-- A mirror's key: SOURCE_SERIAL, STEP, CONTEXT, LPART. -/
structure MirrorKey where
  serial : Nat
  step : Nat
  ctx : Nat
  lpart : Nat
  deriving DecidableEq, Repr

/-- The 64 bytes of a control message. -/
def ctlMsg (type seq : Nat) (k : MirrorKey) (status off bytes : Nat) (digest : List Byte) : List Byte :=
  [byte type, 0, 0, 0] ++ natLe seq 4 ++ natLe k.serial 8 ++ natLe k.step 8 ++ natLe k.ctx 2 ++ [byte k.lpart, byte status, 0, 0, 0, 0] ++
    natLe off 8 ++ natLe bytes 8 ++ padTo digest 16

/-- The key of a message. -/
def msgKey (m : List Byte) : MirrorKey := { serial := fieldAt m 8 8, step := fieldAt m 16 8, ctx := fieldAt m 24 2, lpart := fieldAt m 26 1 }

def msgType (m : List Byte) : Nat := fieldAt m 0 1
def msgStatus (m : List Byte) : Nat := fieldAt m 27 1
def msgOff (m : List Byte) : Nat := fieldAt m 32 8
def msgBytes (m : List Byte) : Nat := fieldAt m 40 8

/-- The key of a checkpoint of this device. -/
def ckptMirrorKey (d : Dev) (c : Ckpt) : MirrorKey := { serial := d.boot.serial, step := c.step, ctx := c.ctx, lpart := c.lpart }

/-- The buddy port on a sub-port. [Log entry 73, DESIGN CHOICE.] -/
def buddyPort (d : Dev) (s : Nat) : Option BuddyPort := d.buddy.ports.find? (fun p => p.sub == s)

/-- The port that carries mirrors: the lowest-numbered connected one. [Log entry 83, DEDUCED.] -/
def mirrorPort (d : Dev) : Option BuddyPort :=
  let up := fun (p : BuddyPort) => p.connected && (match findQp d p.qpn with | some q => q.state == 1 | none => false)
  minBy (fun (p : BuddyPort) => p.sub) (d.buddy.ports.filter up)

/-- Send a control message on a buddy port (14 R328). [Log entry 73, DESIGN CHOICE.] -/
def sendControl (d : Dev) (p : BuddyPort) (m : List Byte) : Dev := (sendMsg d p.qpn .send none 0 0 m).getD d

/-- Send a request and remember it until it is answered. -/
def sendRequest (d : Dev) (p : BuddyPort) (type : Nat) (k : MirrorKey) (off bytes : Nat) (digest : List Byte) : Dev :=
  let m := ctlMsg type d.buddy.nextSeq k 0 off bytes digest
  let r : CtlReq := { seq := d.buddy.nextSeq, msg := m, sub := p.sub, at' := d.tim.elapsed, resent := 0 }
  sendControl { d with buddy.reqs := d.buddy.reqs ++ [r], buddy.nextSeq := (d.buddy.nextSeq + 1) % 2 ^ 32 } p m

/-- Send an answer or a heartbeat. -/
def sendAnswer (d : Dev) (p : BuddyPort) (type : Nat) (k : MirrorKey) (status off bytes : Nat) : Dev :=
  let m := ctlMsg type d.buddy.nextSeq k status off bytes []
  sendControl { d with buddy.nextSeq := (d.buddy.nextSeq + 1) % 2 ^ 32 } p m

/-- The request that an answer of a type and key settles. -/
def settleRequest (d : Dev) (type : Nat) (k : MirrorKey) : Dev :=
  { d with buddy.reqs := dropWhere (fun r => msgType r.msg == type && (type == 1 || msgKey r.msg == k)) d.buddy.reqs }

/-! ### The source (14 R329) -/

/-- A mirror ends without success: EV_MIRROR_REFUSED (14 Table 14-13). [Log entry 83, DEDUCED.] -/
def mirrorFail (d : Dev) (c : Ckpt) (status : Nat) : Dev :=
  raiseCkpt (updCkpt d c.ctx c.step (fun x => { x with mirror := 4, mirrorFailed := true })) c 0x0914 [(1, status)]

/-- Ask for an extent of REGION_BYTES. -/
def sendOpen (d : Dev) (ctx step : Nat) : Dev :=
  match findCkpt d ctx step with
  | none => d
  | some c =>
    match mirrorPort d with
    | none => mirrorFail d c 6
    | some p =>
      sendRequest (updCkpt d ctx step (fun x => { x with mirror := 1 })) p 4 (ckptMirrorKey d c) 0 (regionBytes c) []

/-- Write shard `n` to the holder: its last write carries the entry number (14 R329). -/
def sendShard (d : Dev) (ctx step n : Nat) : Dev :=
  match findCkpt d ctx step with
  | none => d
  | some c =>
    match mirrorPort d, c.shards[n]? with
    | some p, some s =>
      if c.mirror ≠ 2 || c.mirrorSent.contains n || !s.staged then d
      else
        match sendMsg d p.qpn .write (some n) (c.mirrorOff + nth (ckptLayout c).1 n 0) d.buddy.peerRkey (shardBytes c s) with
        | some d1 => updCkpt d1 ctx step (fun x => { x with mirrorSent := x.mirrorSent ++ [n] })
        | none => d
    | _, _ => d

/-- Write the manifest to the holder and send SEAL, once every shard has been sent. -/
def sendManifest (d : Dev) (ctx step : Nat) : Dev :=
  match findCkpt d ctx step with
  | none => d
  | some c =>
    match mirrorPort d with
    | some p =>
      if c.mirror ≠ 2 || c.state ≠ 1 || c.mirrorSent.length < c.shards.length then d
      else
        let m := manifestBytes d c
        (match sendMsg d p.qpn .write none c.mirrorOff d.buddy.peerRkey m with
        | some d1 =>
          sendRequest (updCkpt d1 ctx step (fun x => { x with mirror := 3 })) p 6 (ckptMirrorKey d c) c.mirrorOff (regionBytes c) ((sha512 m).take 16)
        | none => d)
    | none => d

/-- The checkpoint of this device that a key names. -/
def ckptOfKey (d : Dev) (k : MirrorKey) : Option Ckpt :=
  if k.serial = d.boot.serial then d.ckpts.find? (fun c => c.ctx == k.ctx && c.step == k.step && c.lpart == k.lpart) else none

/-- GRANT: the extent of a mirror, or its refusal. -/
def onGrant (m : List Byte) (d0 : Dev) : Dev :=
  let d := settleRequest d0 4 (msgKey m)
  match ckptOfKey d (msgKey m) with
  | none => d
  | some c =>
    if c.mirror ≠ 1 then d
    else if msgStatus m ≠ 0 then mirrorFail d c (msgStatus m)
    else
      let d1 := updCkpt d c.ctx c.step (fun x => { x with mirror := 2, mirrorOff := msgOff m })
      sendManifest ((List.range c.shards.length).foldl (fun a n => sendShard a c.ctx c.step n) d1) c.ctx c.step

/-- SEALED: the mirror is whole, or refused. -/
def onSealed (m : List Byte) (d0 : Dev) : Dev :=
  let d := settleRequest d0 6 (msgKey m)
  match ckptOfKey d (msgKey m) with
  | none => d
  | some c =>
    if c.mirror ≠ 3 then d
    else if msgStatus m ≠ 0 then mirrorFail d c (msgStatus m)
    else
      raiseCkpt (updCkpt d c.ctx c.step (fun x => { x with mirror := 4, mirrored := true })) c 0x0911 [(8, d.buddy.peer.getD 0)]

/-- Ask for the release of a checkpoint's mirror (14 R326, R330). -/
def sendRelease (d : Dev) (c : Ckpt) : Dev :=
  match mirrorPort d with
  | some p => if c.mirrored || (decide (0 < c.mirror) && decide (c.mirror < 4)) then sendRequest d p 8 (ckptMirrorKey d c) 0 0 [] else d
  | none => d

/-! ### The holder (14 R329, R330) -/

def findHeld (d : Dev) (k : MirrorKey) : Option HeldMirror :=
  d.buddy.held.find? (fun h => h.serial == k.serial && h.ctx == k.ctx && h.lpart == k.lpart && h.step == k.step)

/-- The lowest place of the area where `n` bytes are free. `fuel` bounds the extents passed. -/
def firstFit (held : List HeldMirror) (limit n : Nat) : Nat → Nat → Option Nat
  | 0, _ => none
  | k + 1, at' =>
    if limit < at' + n then none
    else
      match held.find? (fun h => decide (at' < h.off + h.bytes) && decide (h.off < at' + n)) with
      | some h => firstFit held limit n k (roundUp (h.off + h.bytes) 16384)
      | none => some at'

/-- Free a held extent. -/
def dropHeld (d : Dev) (k : MirrorKey) : Dev :=
  { d with buddy.held := dropWhere (fun h => h.serial == k.serial && h.ctx == k.ctx && h.lpart == k.lpart && h.step == k.step) d.buddy.held }

/-- OPEN: grant or refuse an extent. -/
def onOpen (p : BuddyPort) (m : List Byte) (d : Dev) : Dev :=
  let k := msgKey m
  let n := msgBytes m
  if (findHeld d k).isSome then sendAnswer d p 5 k 3 0 n
  else if 256 ≤ d.buddy.held.length then sendAnswer d p 5 k 2 0 n
  else
    match firstFit d.buddy.held ((d.buddy.area.getD 0) * 2 ^ 30) n (d.buddy.held.length + 1) 0 with
    | none => sendAnswer d p 5 k 1 0 n
    | some off =>
      let h : HeldMirror := { serial := k.serial, ctx := k.ctx, lpart := k.lpart, step := k.step, off := off, bytes := n, isSealed := false,
                              arrived := [], sealWait := none }
      sendAnswer { d with buddy.held := d.buddy.held ++ [h] } p 5 k 0 off n

/-- Whether every shard of a region's bytes agrees with its manifest (14 R320, R322). -/
def regionChecks (bs : List Byte) : Bool :=
  let n := fieldAt bs 4 4
  let size := manifestSize (bitSet (fieldAt bs 35 1) 0) n
  let frames := (List.range n).map (fun i => 128 + fieldAt bs (256 + 128 * i + 40) 8)
  let offs := (regionOffsets size frames).1
  fieldAt bs 0 4 == 1 && (List.range n).all (fun i =>
    sha512 ((bs.drop (nth offs i 0)).take (nth frames i 0)) == (bs.drop (256 + 128 * i + 64)).take 64)

/-- Answer a SEAL whose shards have all arrived. -/
def trySeal (d : Dev) (k : MirrorKey) : Dev :=
  match findHeld d k with
  | none => d
  | some h =>
    match h.sealWait with
    | none => d
    | some (sub, _, digest) =>
      let bs := memReadN d.exch (areaKey + h.off) h.bytes
      let n := fieldAt bs 4 4
      let size := manifestSize (bitSet (fieldAt bs 35 1) 0) n
      let mOk := decide (size ≤ h.bytes) && (sha512 (bs.take size)).take 16 == digest
      if mOk && !(List.range n).all (fun i => h.arrived.contains i) then d
      else
        match buddyPort d sub with
        | none => d
        | some p =>
          if mOk && regionChecks bs then
            let done := fun (x : HeldMirror) => { x with isSealed := true, sealWait := none }
            sendAnswer { d with buddy.held := updWhere (fun x => x == h) done d.buddy.held } p 7 k 0 h.off h.bytes
          else sendAnswer (dropHeld d k) p 7 k 4 h.off h.bytes

/-- SEAL: the manifest has been written; the answer waits for the shards to arrive. -/
def onSeal (p : BuddyPort) (m : List Byte) (d : Dev) : Dev :=
  let k := msgKey m
  match findHeld d k with
  | none => sendAnswer d p 7 k 4 0 0
  | some h =>
    if h.isSealed then sendAnswer d p 7 k 0 h.off h.bytes
    else
      let wait := fun (x : HeldMirror) => { x with sealWait := some (p.sub, fieldAt m 4 4, (m.drop 48).take 16) }
      trySeal { d with buddy.held := updWhere (fun x => x == h) wait d.buddy.held } k

/-- RELEASE: the extent is freed. -/
def onRelease (p : BuddyPort) (m : List Byte) (d : Dev) : Dev := sendAnswer (dropHeld d (msgKey m)) p 9 (msgKey m) 0 0 0

/-- FIND: a sealed mirror's extent. -/
def onFind (p : BuddyPort) (m : List Byte) (d : Dev) : Dev :=
  match findHeld d (msgKey m) with
  | some h => if h.isSealed then sendAnswer d p 11 (msgKey m) 0 h.off h.bytes else sendAnswer d p 11 (msgKey m) 5 0 0
  | none => sendAnswer d p 11 (msgKey m) 5 0 0

/-- The last write of a shard arrives with its entry number: `endOff` is the area offset after it (14 R329). [Log entry 79, DEDUCED.] -/
def shardArrived (imm endOff : Nat) (d : Dev) : Dev :=
  match d.buddy.held.find? (fun h => decide (h.off < endOff) && decide (endOff ≤ h.off + h.bytes)) with
  | none => d
  | some h =>
    let note := fun (x : HeldMirror) => { x with arrived := upsert (· == imm) imm x.arrived }
    trySeal { d with buddy.held := updWhere (fun x => x == h) note d.buddy.held }
      { serial := h.serial, step := h.step, ctx := h.ctx, lpart := h.lpart }

/-! ### Connecting and losing the partner (14 R327, R328) -/

/-- HELLO: answered with HELLO_ACK, which carries AREA_GIB. -/
def onHello (p : BuddyPort) (m : List Byte) (d : Dev) : Dev := sendAnswer d p 2 (msgKey m) 0 0 (d.buddy.area.getD 0)

/-- Ports connected. -/
def connectedPorts (d : Dev) : Nat := (d.buddy.ports.filter (·.connected)).length

/-- HELLO_ACK: the port is connected and its CONNECT completes. -/
def onHelloAck (p : BuddyPort) (d0 : Dev) : Dev :=
  let d := { d0 with buddy.reqs := dropWhere (fun r => msgType r.msg == 1 && r.sub == p.sub) d0.buddy.reqs }
  if p.connected then d
  else
    let up := fun (x : BuddyPort) => { x with connected := true, connecting := none }
    let d1 := { d with buddy.ports := updWhere (fun x => x.sub == p.sub) up d.buddy.ports, buddy.lost := false }
    let d2 := raiseDev d1 0x0916 [(8, d1.buddy.peer.getD 0), (1, p.sub)]
    match p.connecting.bind (findVerb d2) with
    | some v => finishOk d2 v [(20, 4, d2.buddy.area.getD 0), (24, 1, connectedPorts d2)]
    | none => d2

/-- The effect of a control message by its type; `onFound` serves a RESTORE (14 R331). -/
def onControl (onFound : List Byte → Dev → Dev) (p : BuddyPort) (m : List Byte) (d : Dev) : Dev :=
  match msgType m with
  | 1 => onHello p m d
  | 2 => onHelloAck p d
  | 4 => onOpen p m d
  | 5 => onGrant m d
  | 6 => onSeal p m d
  | 7 => onSealed m d
  | 8 => onRelease p m d
  | 9 => settleRequest d 8 (msgKey m)
  | 10 => onFind p m d
  | 11 => onFound m (settleRequest d 10 (msgKey m))
  | _ => d

/-- SEND_RECEIVE (16 R370; 14 R328): on a partition QP an invalid-request NAK; on a buddy QP a control message. `type` restricts the
message to one type, 0 for any. -/
def sendReceive (onFound : List Byte → Dev → Dev) (type : Nat) (h : RxHead) (m : List Byte) (d0 : Dev) : Dev :=
  let ok := fun (q : Qp) (d : Dev) =>
    if q.part.isSome then refuse d q.qpn .nakInvalid
    else
      let d1 := takeInOrder d q.qpn 1 h
      match d1.buddy.ports.find? (fun p => p.qpn == q.qpn) with
      | some p => if type = 0 || msgType m = type then onControl onFound p m d1 else d1
      | none => d1
  inOrder d0 h ok (fun q d => sendAck d q.qpn)

/-- BUDDY_HEARTBEAT_TIMER: every 1 ms each connected port sends HEARTBEAT. -/
def heartbeat (dt : Nat) (d0 : Dev) : Dev :=
  let d := advance d0 dt
  if d.tim.elapsed < d.buddy.beatAt || connectedPorts d = 0 then d
  else
    let k : MirrorKey := { serial := d.boot.serial, step := 0, ctx := 0, lpart := 0 }
    (d.buddy.ports.filter (·.connected)).foldl (fun a p => sendAnswer a p 3 k 0 0 0) { d with buddy.beatAt := d.tim.elapsed + 1000000 }

/-- What an unanswered request ends in: a mirror without its partner's answer is refused. [Log entry 83, DEDUCED.] -/
def requestLost (d : Dev) (r : CtlReq) : Dev :=
  match ckptOfKey d (msgKey r.msg) with
  | some c => if c.mirror = 1 || c.mirror = 3 then mirrorFail d c 6 else d
  | none => d

/-- BUDDY_REQUEST_RESEND: a request unanswered for 10 ms is sent again, at most three times. -/
def resendRequest (seq dt : Nat) (d0 : Dev) : Dev :=
  let d := advance d0 dt
  match d.buddy.reqs.find? (fun r => r.seq == seq) with
  | none => d
  | some r =>
    if d.tim.elapsed < r.at' + 10000000 then d
    else if 3 ≤ r.resent then requestLost { d with buddy.reqs := dropWhere (fun x => x.seq == seq) d.buddy.reqs } r
    else
      let again := fun (x : CtlReq) => { x with at' := d.tim.elapsed, resent := x.resent + 1 }
      let d1 := { d with buddy.reqs := updWhere (fun x => x.seq == seq) again d.buddy.reqs }
      match buddyPort d1 r.sub with
      | some p => sendControl d1 p r.msg
      | none => d1

/-- Every mirror in progress toward the partner fails. -/
def failMirrors (d : Dev) : Dev := d.ckpts.foldl (fun a c => if 0 < c.mirror && c.mirror < 4 then mirrorFail a c 6 else a) d

/-- BUDDY_LOSS_TIMEOUT: nothing has come from the partner for 100 ms. -/
def buddyLoss (dt : Nat) (d0 : Dev) : Dev :=
  let d := advance d0 dt
  let n := connectedPorts d
  if n = 0 || d.tim.elapsed < d.buddy.lastRx + 100000000 then d
  else
    let off := fun (p : BuddyPort) => { p with connected := false }
    let d1 := { d with buddy.ports := d.buddy.ports.map off, buddy.lost := true, buddy.reqs := []
                       buddy.held := d.buddy.held.filter (·.isSealed) }
    failMirrors (raiseDev d1 0x0915 [(8, d.buddy.peer.getD 0), (1, n)])

/-! ### BUDDY_PAIR and BUDDY_UNPAIR (14 R327, R330) -/

/-- DDR granules of 4 GiB that the flash map and the 256 MiB write buffer take (13 R289, 15 R340): 20 MiB of map for each flash granule.
They are the highest-numbered ones. [Log entry 108, DEDUCED.] -/
def mapDdr (d : Dev) : Nat := if d.flash.formatted then ceilDiv (d.flash.granules * 20 + 256) 4096 else 0

/-- DDR granules outside every partition, clearing and reservation, lowest first. [Log entry 108, DEDUCED.] -/
def freeDdr (d : Dev) : List Nat :=
  let used := d.pool.parts.flatMap (·.ddr) ++ d.pool.clearings.flatMap (·.ddr) ++ d.buddy.granules ++ d.pool.exchDdr
  (List.range (d.pool.ddrGranules - mapDdr d)).filter (fun g => !used.contains g)

/-- BUDDY_PAIR (14 R327). [Log entry 83, DEDUCED.] -/
def buddyPairBody (v : Verb) (d : Dev) : Except Fail Dev := do
  let mode := fld v 16 1
  let s := fld v 17 1
  let gib := fld v 20 4
  let prep := mode = 1
  check4 v false [(19, 1), (36, 4)]
    [(16, inR mode 1 2), subField d v 17, (18, decide (fld v 18 1 < 8)), (20, !prep || (decide (gib ≤ 512) && gib % 4 == 0)),
     (24, prep || decide (fld v 24 4 < 2 ^ 24)), (28, prep || decide (fld v 28 4 < 2 ^ 24)),
     (20, !prep || (match d.buddy.area with | some a => gib == 0 || gib == a | none => true))]
  if prep then
    need stState ((buddyPort d s).isNone)
    let have' := freeDdr d
    let n := gib / 4
    need stNospace (d.buddy.area.isSome || decide (n ≤ have'.length))
    match takeQpn d with
    | none => failSt stLimit
    | some (qpn, d1) =>
      let (psn, d2) := drawNat d1
      let (key, d3) := drawNat d2
      let q := newQp d3 qpn none 0 s (fld v 18 1) 4096 0 0 (psn % 2 ^ 24)
      let d4 := if d3.buddy.area.isSome then d3
        else { d3 with buddy.area := some gib, buddy.granules := have'.take n, buddy.rkey := key % 2 ^ 32 }
      let bp : BuddyPort := { sub := s, qpn := qpn, tclass := fld v 18 1, connected := false, connecting := none }
      let d5 := { d4 with net.qps := d4.net.qps ++ [q], buddy.ports := d4.buddy.ports ++ [bp] }
      .ok (finishOk d5 v [(8, 4, qpn), (12, 4, q.startPsn), (16, 4, d5.buddy.rkey), (20, 4, d5.buddy.area.getD 0), (24, 8, d5.boot.serial)])
  else
    match buddyPort d s with
    | none => failSt stState
    | some p =>
      match findQp d p.qpn with
      | none => failSt stState
      | some q =>
        let serial := fld v 56 8
        need stState (q.state == 0 && (match d.buddy.peer with | some x => x == serial | none => true))
        let (mac, d1) := drawNat d
        let d2 := qpConnect d1 q 14 7 7 (fld v 24 4) (fld v 28 4) (mac % 2 ^ 48) (fld v 40 16) 0
        let wait := fun (x : BuddyPort) => { x with connecting := some v.seq }
        let d3 := keepRunning { d2 with
          buddy.ports := updWhere (fun x => x.sub == s) wait d2.buddy.ports
          buddy.peer := some serial
          buddy.peerRkey := fld v 32 4
          buddy.lastRx := d2.tim.elapsed } v
        .ok (sendRequest d3 { p with connecting := some v.seq } 1 { serial := d.boot.serial, step := 0, ctx := 0, lpart := 0 } 0 (d.buddy.area.getD 0) [])

/-- BUDDY_UNPAIR: QPs close, mirrors in progress fail; DROP_HELD gives up the area. -/
def buddyUnpairBody (v : Verb) (d : Dev) : Except Fail Dev := do
  check4 v false [(17, 47)] [(16, decide (fld v 16 1 < 2))]
  let d1 := failMirrors (nextRelease d)
  let d2 := d1.buddy.ports.foldl (fun a p => dropQp a p.qpn) d1
  let b := d2.buddy
  let b1 := { b with ports := [], peer := none, reqs := [], lost := false, held := b.held.filter (·.isSealed) }
  let b2 := if bitSet (fld v 16 1) 0 then { b1 with held := [], area := none, granules := [] } else b1
  let d3 := { d2 with buddy := b2 }
  let d4 := if bitSet (fld v 16 1) 0 then { d3 with exch := memClear d3.exch areaKey (2 ^ 40) } else d3
  .ok (finishOk d4 v [])

end Sys2Proof.Machine
end

