-- ==== Sys2Proof/Machine/Restore.lean ====
section
/-!
DEFINITION. RESTORE (14 R331-R336): reading a checkpoint region from its source, its checks, linking its sessions, and the jobs that
it requeues.
-/

namespace Sys2Proof.Machine

/-! ### The region's layout, from its bytes (14 R320, R322) -/

/-- A field of a restore's parameter block. -/
def rprm (r : RestoreOp) (off len : Nat) : Nat := fieldAt r.prm off len

def rPerSession (r : RestoreOp) : Bool := bitSet (rprm r 1 1) 0
def rVerify (r : RestoreOp) : Bool := bitSet (rprm r 1 1) 1
def rRequeue (r : RestoreOp) : Bool := bitSet (rprm r 1 1) 2

/-- Bytes of the manifest that a header announces. -/
def manifestLen (bs : List Byte) : Nat := manifestSize (bitSet (fieldAt bs 35 1) 0) (fieldAt bs 4 4)

/-- Whether a manifest header is one of version 1 that fits its region. -/
def headerSound (bs : List Byte) : Bool :=
  fieldAt bs 0 4 == 1 && decide (fieldAt bs 8 8 < 2 ^ 48) && decide (fieldAt bs 32 2 < 2048) && decide (fieldAt bs 34 1 < 32) &&
    decide (fieldAt bs 35 1 < 4) && decide (2 ≤ fieldAt bs 4 4) && decide (manifestLen bs ≤ fieldAt bs 48 8) &&
    allZero ((bs.drop 64).take 192)

/-- A shard as its manifest entry places it: the header's first 64 bytes, DIGEST, region offset and bytes. -/
structure ShardSlot where
  head : List Byte
  digest : List Byte
  off : Nat
  len : Nat
  deriving DecidableEq, Repr

/-- The shards that a manifest lists, in entry order. -/
def manifestSlots (bs : List Byte) : List ShardSlot :=
  let n := fieldAt bs 4 4
  let ent := fun i => (bs.drop (256 + 128 * i)).take 128
  let offs := (regionOffsets (manifestLen bs) ((List.range n).map (fun i => 128 + fieldAt (ent i) 40 8))).1
  (List.range n).map (fun i =>
    { head := (ent i).take 64, digest := (ent i).drop 64, off := nth offs i 0, len := 128 + fieldAt (ent i) 40 8 })

/-- The end of a region, from its manifest. -/
def regionEnd (bs : List Byte) : Nat := (manifestSlots bs).foldl (fun a s => Nat.max a (s.off + s.len)) (manifestLen bs)

def slotKind (s : ShardSlot) : Nat := fieldAt s.head 0 1

/-- The source handle of a shard of KIND 3 to 5. -/
def slotSess (s : ShardSlot) : Nat := fieldAt s.head 8 8 % 2 ^ 32

/-- Whether the entries of a manifest are well formed and in their order (14 R320). [Log entry 88, DEDUCED.] -/
def entriesSound (bs : List Byte) : Bool :=
  let ss := manifestSlots bs
  let ks := ss.map slotKind
  let own := ss.filter (fun s => decide (3 ≤ slotKind s))
  nth ks 0 0 == 1 && nth ks 1 0 == 2 && ks.all (fun k => inR k 1 5) &&
    ss.all (fun s => decide (fieldAt s.head 1 1 < 2) && fieldAt s.head 4 4 == 0 && (decide (slotKind s < 3) || fieldAt s.head 8 8 / 2 ^ 59 == 1)) &&
    (own.zip (own.drop 1)).all (fun x => decide (slotSess x.1 ≤ slotSess x.2)) && regionEnd bs == fieldAt bs 48 8

/-- How many bytes of a region are needed beyond those at hand: its header, then its manifest, then its shards. -/
def regionNeed (bs : List Byte) : Nat :=
  if bs.length < 256 then 256
  else if !headerSound bs then bs.length
  else if bs.length < manifestLen bs then manifestLen bs
  else if !entriesSound bs then bs.length
  else regionEnd bs

/-! ### Operations in progress -/

def findRestore (d : Dev) (seq : Nat) : Option RestoreOp := d.restores.find? (fun r => r.seq == seq)

def putRestore (d : Dev) (r : RestoreOp) : Dev := { d with restores := updWhere (fun x => x.seq == r.seq) (fun _ => r) d.restores }

/-- End a RESTORE. -/
def endRestore (d : Dev) (seq status : Nat) (fields : List (Nat × Nat × Nat)) : Dev :=
  let d1 := { d with restores := dropWhere (fun r => r.seq == seq) d.restores
                     kv.movers := dropWhere (fun w => w.seq == seq) d.kv.movers
                     bus := dropWhere (fun b => b.why == .restoreRead seq) d.bus }
  finishSeq d1 seq status fields

/-- The key of the mirror that a restore names. -/
def rKey (r : RestoreOp) : MirrorKey := { serial := rprm r 32 8, step := rprm r 40 8, ctx := rprm r 48 2, lpart := rprm r 50 1 }

/-- A context ring of a context. -/
def ctxRing (d : Dev) (n ctx : Nat) : Bool :=
  match findRing d n with
  | some x => !x.admin && x.ctx == ctx
  | none => false

/-- Whether a mover can serve the source: it lies inside the device. -/
def rLocal (r : RestoreOp) : Bool := [1, 2, 4, 6].contains (rprm r 0 1)

/-- The checks of a source before a restore is taken up. [Log entry 87, DEDUCED.] -/
def sourceReady (d : Dev) (v : Verb) (r : RestoreOp) : Except Fail Unit :=
  match rprm r 0 1 with
  | 1 => need stState (flashReadable d)
  | 4 =>
    (match findHeld d (rKey r) with
    | some h => need stState h.isSealed
    | none => failId stStale 16)
  | 5 => need stState (mirrorPort d).isSome
  | 6 =>
    (match findCkpt d (rprm r 48 2) (rprm r 40 8) with
    | some c =>
      if !v.admin && c.ctx ≠ v.ctx then failId stDenied 16
      else do
        need stState (c.state == 1)
        need stState (ckptReadable d c)
    | none => failId stStale 16)
  | _ => .ok ()

/-- Whether the parameter block of a RESTORE is well formed (14 Table 14-9). -/
def restoreBlockOk (d : Dev) (v : Verb) (b : List Byte) : Bool :=
  let src := fieldAt b 0 1
  let ctx := if v.admin then fieldAt b 2 2 else v.ctx
  let ld := partLd d (ctxPart ctx)
  let z := fun o n => allZero ((b.drop o).take n)
  inR src 1 6 && decide (fieldAt b 1 1 < 8) && (if v.admin then decide (ctx < 2048) else z 2 2) && decide (fieldAt b 4 1 < 8) &&
    z 5 3 && z 28 4 && z 51 5 && z 82 46 && decide (fieldAt b 40 8 < 2 ^ 48) && decide (fieldAt b 48 2 < 2048) &&
    decide (fieldAt b 50 1 < 32) && (src != 6 || z 32 8) && fieldAt b 56 8 % 64 == 0 && outIn d v (fieldAt b 56 8) 64 &&
    (!bitSet (fieldAt b 1 1) 1 || fieldAt b 16 8 == 0 || argIn d v (fieldAt b 16 8) (fieldAt b 24 4)) &&
    (src != 1 || decide (fieldAt b 8 8 < 2 ^ 34)) && (src != 2 || argIn d v (fieldAt b 8 8) 256) &&
    (!bitSet (fieldAt b 1 1) 2 || decide (fieldAt b 64 8 + fieldAt b 72 8 ≤ exSize d ld))

/-- RESTORE (14 R331, Table 14-9). [Log entry 87, DEDUCED.] -/
def restoreBody (v : Verb) (d : Dev) : Except Fail Dev := do
  let off := fld v 16 8
  check4 v false [(24, 40)] [(16, off % 64 == 0 && argIn d v off 128), (16, structOk d v off 128 (restoreBlockOk d v))]
  let b ← argRead d v off 128
  let ctx := if v.admin then fieldAt b 2 2 else v.ctx
  checkCtx d v ctx 16
  needRange 16 (!bitSet (fieldAt b 1 1) 2 || ctxRing d (fieldAt b 80 2) ctx)
  let r : RestoreOp := { seq := v.seq, ctx := ctx, prm := b, stage := 0, data := [], bad := [], base := fieldAt b 8 8, size := 0, status := stOk }
  sourceReady d v r
  .ok (registerOp { d with restores := d.restores ++ [r] } v (.restore v.seq))

/-! ### Reading the source -/

/-- Bytes of a flash run of a partition, and what of them cannot be read. -/
def flashSpan (d : Dev) (p lpn off n : Nat) : List Byte × List (Nat × Nat × Nat) :=
  let first := off / 16384
  let ls := rangeFrom first (ceilDiv (off + n) 16384 - first)
  let page := fun l => match gpageOf d p (lpn + l) with
    | some g => livePage d g
    | none => none
  let bytes := ls.flatMap (fun l => match page l with
    | some x => padTo x.data 16384
    | none => List.replicate 16384 0)
  let bad := ls.filterMap (fun l => match page l with
    | some x => if pageFails x then some (16384 * l, 16384, 6) else none
    | none => some (16384 * l, 16384, 6))
  ((bytes.drop (off - 16384 * first)).take n, bad)

/-- Bytes of a span of the device's memory, and its poisoned sectors. -/
def memSpan (d : Dev) (base off n : Nat) : List Byte × List (Nat × Nat × Nat) :=
  let bad := (sectorsOf (base + off) n).filterMap (fun s => if exPoisoned d s 1 then some (s - base, 64, 3) else none)
  (memReadN d.exch (base + off) n, bad)

/-- Bytes `off` to `off + n` of a source that a mover serves; none where the region reaches past it. -/
def sourceSpan (d : Dev) (v : Verb) (r : RestoreOp) (off n : Nat) : Option (List Byte × List (Nat × Nat × Nat)) :=
  match rprm r 0 1 with
  | 1 => if r.base + ceilDiv (off + n) 16384 ≤ 2 ^ 34 then some (flashSpan d (ctxPart r.ctx) r.base off n) else none
  | 2 =>
    if argLimit d v < r.base + off + n then none
    else if v.ring = 16 then some ((padTo v.block (r.base + off + n)).drop (r.base + off), [])
    else some (memSpan d (exKey v.ld r.base) off n)
  | 4 =>
    (match findHeld d (rKey r) with
    | some h => if h.bytes < off + n then none else some (memSpan d (areaKey + h.off) off n)
    | none => none)
  | _ =>
    (match findCkpt d (rprm r 48 2) (rprm r 40 8) with
    | some c =>
      if regionBytes c < off + n then none
      else
        (match c.region with
        | some l => if c.freed then some (flashSpan d (ctxPart c.ctx) l off n)
            else some (((regionImage d c).drop off).take n, [])
        | none => some (((regionImage d c).drop off).take n, []))
    | none => none)
where
  /-- The region that staging holds. -/
  regionImage (d : Dev) (c : Ckpt) : List Byte :=
    ((ckptLayout c).1.zip c.shards).foldl (fun a x => putBytes (padTo a (Nat.max a.length (x.1 + 128 + (shardFrame x.2).length))) x.1 (shardBytes c x.2))
      (manifestBytes d c)

/-- Read a local source as far as the region needs; `fuel` bounds the steps (header, manifest, shards). -/
def readLocal (d : Dev) (v : Verb) : Nat → RestoreOp → RestoreOp
  | 0, r => { r with stage := 4 }
  | k + 1, r =>
    let need' := regionNeed r.data
    if need' ≤ r.data.length then { r with stage := 4 }
    else
      match sourceSpan d v r r.data.length (need' - r.data.length) with
      | none => { r with stage := 4, status := stRange }
      | some (bs, bad) => readLocal d v k { r with data := r.data ++ bs, bad := r.bad ++ bad }

/-- Ask for the next bytes of a source outside the device: 4 KiB of host memory, 1 MiB of the partner's area. [Log entry 88, DEDUCED.] -/
def readMore (d : Dev) (r : RestoreOp) : Dev :=
  let have' := r.data.length
  let need' := regionNeed r.data
  if need' ≤ have' then putRestore d { r with stage := 4 }
  else if rprm r 0 1 = 3 then
    let ld := partLd d (ctxPart r.ctx)
    match busRead d ld (r.base + have') (Nat.min 4096 (need' - have')) (.restoreRead r.seq) with
    | some d1 => putRestore d1 { r with stage := 3 }
    | none => putRestore (busFailed d ld) { r with stage := 4, status := stMedia }
  else if r.size < need' then putRestore d { r with stage := 4, status := stRange }
  else
    match mirrorPort d with
    | none => putRestore d { r with stage := 4, status := stDamaged }
    | some p =>
      match sendRead d p.qpn (r.base + have') d.buddy.peerRkey (Nat.min (2 ^ 20) (need' - have')) (.restore r.seq have') with
      | some d1 => putRestore d1 { r with stage := 3 }
      | none => putRestore d { r with stage := 4, status := stDamaged }

/-- Bytes of a source have come. -/
def restoreData (seq : Nat) (bs : List Byte) (d : Dev) : Dev :=
  match findRestore d seq with
  | none => d
  | some r => if r.stage = 3 then readMore d { r with data := r.data ++ bs } else d

/-- FOUND answers the FIND of a restore of source 5 (14 Table 14-8). -/
def restoreFound (m : List Byte) (d : Dev) : Dev :=
  match d.restores.find? (fun r => r.stage == 5 && rKey r == msgKey m) with
  | none => d
  | some r =>
    if msgStatus m ≠ 0 then putRestore d { r with stage := 4, status := stStale }
    else readMore d { r with base := msgOff m, size := msgBytes m }

/-- RDMA_READ_RESPONSE (16 R368): data of a read that this device has issued; its last packet hands the data on. -/
def readResponse (h : RxHead) (payload : List Byte) (d0 : Dev) : Dev :=
  match rxPacket d0 h with
  | (none, d) => d
  | (some q, d) =>
    let next := fun (r : ReadOut) => (r.psn + r.got.length / Nat.max 1 q.pmtu) % 2 ^ 24
    match q.reads.find? (fun r => next r == h.psn % 2 ^ 24) with
    | none => ceSeen d q h
    | some r =>
      let d1 := ceSeen d q h
      let got := (r.got ++ payload).take r.len
      if got.length < r.len then
        updQp d1 q.qpn (fun x => { x with reads := updWhere (fun y => y == r) (fun y => { y with got := got }) x.reads })
      else
        let d2 := updQp d1 q.qpn (fun x => { x with reads := dropWhere (fun y => y == r) x.reads })
        let d3 := qpProgress d2 q.qpn (h.psn % 2 ^ 24)
        match r.why with
        | .restore seq _ => restoreData seq got d3

/-! ### Checking shards (14 R332 steps 3 and 4) -/

/-- What a shard's checks give. -/
inductive ShardRead where
  | bad (code : Nat)
  | stale (step : Nat)
  | malformed
  | unsupported
  | ok (raw : List Byte)
  deriving DecidableEq, Repr

/-- The first unreadable range that touches a span: its code. -/
def badAt (r : RestoreOp) (off n : Nat) : Option Nat :=
  (r.bad.find? (fun b => decide (b.1 < off + n) && decide (off < b.1 + b.2.1))).map (·.2.2)

/-- Read and check one shard. [Log entry 88, DEDUCED.] -/
def readShard (r : RestoreOp) (s : ShardSlot) : ShardRead :=
  let bs := (r.data.drop s.off).take s.len
  let step := fieldAt bs 64 8
  match badAt r s.off 128 with
  | some c => .bad c
  | none =>
    if step ≠ fieldAt r.data 8 8 then .stale step
    else
      match badAt r s.off s.len with
      | some c => .bad c
      | none =>
        if sha512 bs ≠ s.digest then .bad 2
        else if bs.take 64 ≠ s.head || !allZero ((bs.drop 73).take 55) then .malformed
        else
          match zstdDecode (bs.drop 128) with
          | .error true => .unsupported
          | .error false => .bad 3
          | .ok raw => if raw.length = fieldAt s.head 32 8 then .ok raw else .bad 3

/-- The failure of a group of shards, 0 for none: a mismatched step first. -/
def groupCode (rs : List ShardRead) : Nat :=
  if rs.any (fun x => match x with | .stale _ => true | _ => false) then 1
  else (rs.findSome? (fun x => match x with | .bad c => some c | _ => none)).getD 0

/-- The raw content of a group of shards of one kind, parts joined. -/
def groupRaw (xs : List (ShardSlot × ShardRead)) (kind : Nat) : List Byte :=
  (xs.filter (fun x => slotKind x.1 == kind)).flatMap (fun x => match x.2 with | .ok raw => raw | _ => [])

/-! ### Linking a session (14 R332 steps 5 to 7, R335) -/

/-- The ST status of a session's failure code (14 Table 14-10). -/
def codeStatus (c : Nat) : Nat :=
  match c with
  | 1 => stStepMismatch
  | 2 => stDigest
  | 3 => stDamaged
  | 4 => stNospace
  | 5 => stDigest
  | _ => stMedia

/-- Place a copied phrase under a new ID (14 R335). [Log entry 89, DEDUCED.] -/
def placeCopied (d : Dev) (ctx model home mask : Nat) (x : Phrase) : Except Nat (Nat × Dev) :=
  let p := ctxPart ctx
  match takePhraseId d p with
  | none => .error 4
  | some (id, d1) =>
    let y := { x with part := p, ctx := ctx, id := id, model := model, refs := 1 }
    let d2 := { d1 with kv.phrases := d1.kv.phrases ++ [y] }
    let tiers := if mask = 0 then [0] else (List.range 3).filter (bitSet mask)
    let one := fun (acc : Except Nat Dev) t =>
      match acc with
      | .error e => .error e
      | .ok a => (match chargeCopy a y t home with
        | .ok (b, run) => .ok (recordCopy b p id t (match run with | some r => r.2.1 | none => 0))
        | .error _ => .error 4)
    match tiers.foldl one (.ok d2) with
    | .ok d3 => .ok (id, d3)
    | .error e => .error e

/-- Take a reference on a phrase that an image lists by its flash copy; its header must equal the entry's (14 R332 step 5). -/
def linkReferred (d : Dev) (ctx model handle firstPos : Nat) (e : Nat × Nat × Nat × Nat × Nat) : Except Nat (Nat × Dev) :=
  let r : ReviveOp := { seq := 0, handle := handle, fromImage := true, release := false, promote := 0, model := model, ref := 0, check := 0,
                        ctx := ctx, slot := 0, idx := 0, stage := 0, status := stOk }
  match revivePhrase d r handle e with
  | .error st => .error (if st = stLimit || st = stNospace then 4 else 3)
  | .ok (id, d1) =>
    match findPhrase d1 (ctxPart ctx) id with
    | none => .error 3
    | some x =>
      if flashLost d1 x then .error 6
      else if x.layer = e.1 && x.kind = e.2.1 && x.version = e.2.2.2.1 && x.firstPos = firstPos then .ok (id, d1)
      else .error 3

/-- The phrase lists of a restored session: (layer, kind, ID) in order. `done` counts the entries so far by layer and kind. -/
def linkPhrases (ctx model handle home mask : Nat) (copied : List Phrase) (ids : List Nat) :
    List (Nat × Nat × Nat × Nat × Nat) → List (Nat × Nat) → Dev → Except Nat (List (Nat × Nat × Nat) × Dev)
  | [], _, d => .ok ([], d)
  | e :: es, done, d =>
    let first := 64 * (done.filter (fun x => x == (e.1, e.2.1))).length
    let one := if 2 ^ 34 ≤ e.2.2.2.2 then linkReferred d ctx model handle first e
      else
        match (ids.zip copied).find? (fun x => x.1 == e.2.2.1 && x.2.layer == e.1 && x.2.kind == e.2.1 && x.2.firstPos == first) with
        | some x => if x.2.version = e.2.2.2.1 then placeCopied d ctx model home mask x.2 else .error 3
        | none => .error 3
    match one with
    | .error c => .error c
    | .ok (id, d1) =>
      match linkPhrases ctx model handle home mask copied ids es (done ++ [(e.1, e.2.1)]) d1 with
      | .error c => .error c
      | .ok (l, d2) => .ok ((e.1, e.2.1, id) :: l, d2)

/-- The recurrent contents of a session, layer by layer, from its RSTATE bytes. -/
def recContents : List LayerRec → List Byte → List Mem
  | [], _ => []
  | l :: ls, bs =>
    if l.kind = 1 then memWriteN [] 0 (bs.take (recBytes l)) :: recContents ls (bs.drop (recBytes l)) else [] :: recContents ls bs

/-- Charge what a restored session holds in HBM beyond its slot's objects: log, tails, draft area. -/
def chargeRestored (d : Dev) (s : Sess) (m : Model) (im : SessImage) : Option Dev :=
  let p := ctxPart s.ctx
  let obj := allocKey 1 (handleOf s)
  let d0 := (allocSlot d p s.home obj m.layers).bind (fun a => chargeLog a p s.home obj im.log.length)
  let d1 := im.tails.foldl (fun acc t => acc.bind (fun a => allocHome a p s.home (phraseSize t * 1024) obj (tailSub t.layer t.kind))) d0
  match im.tree with
  | none => d1
  | some t =>
    ((List.range m.layers.length).zip (m.layers.zip im.drafts)).foldl (fun acc x =>
      if x.2.2.2.1.isEmpty && x.2.2.2.2.isEmpty then acc
      else acc.bind (fun a => chargeDraft a s x.1 x.2.1 t.nodes)) d1

/-- Whether a session's lexicon and grammar are loaded in the target partition: their IDs there. -/
def imageTables (d : Dev) (p : Nat) (im : SessImage) : Option (Option Nat × Option Nat) :=
  let lex := (d.lexicons.find? (fun x => x.part == p && x.digest.take 16 == im.lexDigest)).map (·.id)
  let gram := (d.grammars.find? (fun x => x.part == p && x.digest.take 16 == im.gramDigest)).map (·.id)
  if (im.tok.lex.isSome && lex.isNone) || (im.syn.grammar.isSome && gram.isNone) then none else some (lex, gram)

/-- A restored session: its model, source handle and the session. -/
structure Restored where
  source : Nat
  code : Nat
  handle : Nat
  slot : Nat
  model : Nat
  deriving DecidableEq, Repr

/-- A session that was not restored. -/
def lostSess (source code : Nat) : Restored := { source := source, code := code, handle := 0, slot := 0, model := 0 }

/-- Link one session; its failure code otherwise. [Log entry 89, DEDUCED.] -/
def linkSess (d : Dev) (ctx mask : Nat) (source : Nat) (digest : List Byte) (image rstate phrases : List Byte) : Except Nat (Restored × Dev) :=
  let p := ctxPart ctx
  match d.kv.models.find? (fun m => m.part == p && m.digest.take 16 == digest) with
  | none => .error 5
  | some m =>
    match unpackImage p ctx m.layers.length image with
    | none => .error 3
    | some im =>
      if im.handle ≠ source || im.modelDigest ≠ digest then .error 3
      else
        match imageTables d p im with
        | none => .error 5
        | some (lex, gram) =>
          match pickEntry d, pickSlot d p with
          | some i, some slot =>
            let home := mostFree d p
            let s0 := newSess i (entryGen d i + 1) 1 ctx slot m.id home m.layers
            match chargeRestored d s0 m im with
            | none => .error 4
            | some d1 =>
              let d2 := putEntry d1 s0
              let h := handleOf s0
              let copied := unpackPhrases p ctx (phrases.length / 1024 + 1) phrases
              match linkPhrases ctx m.id h home mask copied (copied.map (·.id)) im.list [] d2 with
              | .error c => .error c
              | .ok (ids, d3) =>
                let pick := fun layer kind => (ids.filter (fun x => x.1 == layer && x.2.1 == kind)).map (·.2.2)
                let recs := recContents m.layers rstate
                let layer := fun (x : Nat × LayerRec) =>
                  let len := nth im.lens x.1 0
                  let own := (im.tails.filter (fun t => t.layer == x.1)).map (fun t => { t with model := m.id })
                  let dr := nth im.drafts x.1 (0, [], [])
                  let rec' := if x.2.kind = 1 then
                      some { cur := nth recs x.1 [], shadow := [], len := len, shadowLen := none, updates := 0, treeIn := dr.2.2, poisoned := false }
                    else none
                  let tf := match own with
                    | t :: _ => t.firstPos
                    | [] => len
                  { stem := pick x.1 0, direct := pick x.1 1, tailFirst := tf, tails := own, draftFirst := dr.1, draft := dr.2.1, draftMarks := [], recur := rec' }
                let layers := ((List.range m.layers.length).zip m.layers).map layer
                let tok := { noRing im.tok with lex := if im.tok.lex.isSome then lex else none, tkLex := streamLex im.tok lex }
                let syn := { im.syn with grammar := if im.syn.grammar.isSome then gram else none }
                let s1 := { s0 with layers := layers, log := im.log, tok := tok, syn := syn, tree := im.tree }
                let s2 := { s1 with state := residency d3 s1 }
                .ok ({ source := source, code := 0, handle := h, slot := slot, model := m.id }, putEntry d3 s2)
          | _, _ => .error 4

/-! ### Requeueing (14 R336) -/

/-- A captured job: kind 1 ATTEND or 2 SAMPLE, its TAG, and its regions with their offsets. -/
structure CapJob where
  kind : Nat
  tag : Nat
  parts : List JobPart
  deriving DecidableEq, Repr

/-- Cut regions of given (offset, length) off a byte string; answers them and what is left. -/
def cutParts : List (Nat × Nat) → List Byte → List JobPart × List Byte
  | [], bs => ([], bs)
  | x :: xs, bs =>
    let r := cutParts xs (bs.drop x.2)
    ({ off := x.1, bytes := bs.take x.2 } :: r.1, r.2)

/-- The jobs of a queue shard, after its first page. `fuel` bounds them. -/
def capJobs : Nat → List Byte → List CapJob
  | 0, _ => []
  | k + 1, bs =>
    if bs.length < 256 then []
    else
      let r := cutParts ((List.range 7).map (fun i => (fieldAt bs (24 + 16 * i) 8, fieldAt bs (32 + 16 * i) 8))) (bs.drop 256)
      { kind := fieldAt bs 0 1, tag := fieldAt bs 4 4, parts := r.1 } :: capJobs k r.2

def capPart (j : CapJob) (i : Nat) : JobPart := nth j.parts i { off := 0, bytes := [] }

/-- Bytes of the source memory that a captured region holds. -/
def capSpan (j : CapJob) (i off n : Nat) : List Byte :=
  let p := capPart j i
  padTo ((p.bytes.drop (off - p.off)).take n) n

/-- The restored session of row `i` of a captured job. -/
def capSess (ss : List Restored) (j : CapJob) (i : Nat) : Option Restored :=
  let h := fieldAt (capPart j 6).bytes (4 * i) 4
  ss.find? (fun x => x.source == h && x.code == 0 && h != 0)

/-- SLOT of a row for a restored session (06 Table 6-7). -/
def slotWordOf (x : Restored) : Nat := x.slot + 2 ^ 18 * (x.handle / 2 ^ 24)

/-- Lay byte regions out from `at'` on, each at a multiple of 64: their offsets and the end. [Log entry 89, DEDUCED.] -/
def layOut : Nat → List (List Byte) → List Nat × Nat
  | at', [] => ([], at')
  | at', b :: bs =>
    let r := layOut (roundUp (at' + b.length) 64) bs
    (at' :: r.1, r.2)

/-- A job ready to be submitted: opcode, TAG, descriptor offset, what is written where, the end of its regions, and its rows and
dropped rows. -/
structure ReadyJob where
  op : Nat
  tag : Nat
  desc : Nat
  writes : List (Nat × List Byte)
  endOff : Nat
  dropped : Nat
  deriving DecidableEq, Repr

/-- Set fields of a descriptor. -/
def setFields (b : List Byte) (fs : List (Nat × Nat × Nat)) : List Byte := fs.foldl (fun a f => putBytes a f.1 (natLe f.2.2 f.2.1)) b

/-- Running sums. -/
def prefixSums : Nat → List Nat → List Nat
  | _, [] => []
  | a, n :: ns => a :: prefixSums (a + n) ns

/-- An ATTEND without the rows of lost sessions, laid out from `at'` (14 R336). None: no row is left. -/
def readyAttend (d : Dev) (ctx at' : Nat) (ss : List Restored) (j : CapJob) : Option ReadyJob :=
  let b := (capPart j 0).bytes
  let n := fieldAt b 4 4
  let rows := jobRows (chunksOf 16 n (capPart j 1).bytes) 0 0
  let kept := rows.filterMap (fun r => (capSess ss j r.idx).map (fun x => (r, x)))
  match kept with
  | [] => none
  | (_, x0) :: _ =>
    let hidden := match findModel d x0.model with | some m => m.hidden | none => 0
    let fp8 := bitSet (fieldAt b 1 1) 2
    let inB := hidden * (if fp8 then 1 else 2)
    let outB := hidden * (if bitSet (fieldAt b 1 1) 3 then 4 else 2)
    let input := kept.flatMap (fun k => capSpan j 2 (fieldAt b 24 8 + k.1.first * inB) (k.1.qcount * inB))
    let scales := if fp8 then kept.flatMap (fun k => capSpan j 3 (fieldAt b 32 8 + 4 * k.1.first) (4 * k.1.qcount)) else []
    let logs := kept.map (fun k => if rowLogs k.1 then k.1.qcount else 0)
    let tokens := kept.flatMap (fun k => if rowLogs k.1 then capSpan j 4 (fieldAt b 48 8 + 4 * k.1.aux) (4 * k.1.qcount) else [])
    let hasTree := fun (r : JobRow) => rowTree r && fieldAt b 56 8 != 0
    let trees := kept.flatMap (fun k => if hasTree k.1 then capSpan j 5 (fieldAt b 56 8 + 384 * (k.1.aux / 65536)) 384 else [])
    let treeIdx := prefixSums 0 (kept.map (fun k => if hasTree k.1 then 1 else 0))
    let row := fun (x : (JobRow × Restored) × (Nat × Nat)) =>
      let r := x.1.1
      let aux := if rowLogs r then x.2.1 else if rowTree r then r.aux % 65536 + 65536 * x.2.2 else r.aux
      natLe (slotWordOf x.1.2) 4 ++ natLe r.qcount 2 ++ natLe r.flags 2 ++ natLe r.cached 4 ++ natLe aux 4
    let table := (kept.zip ((prefixSums 0 logs).zip treeIdx)).flatMap row
    let q := sumNat (kept.map (fun k => k.1.qcount))
    let lay := layOut (at' + 128) [table, input, scales, tokens, trees]
    let o := fun i => nth lay.1 i 0
    let status := lay.2
    let out := roundUp (status + 4 * kept.length) 64
    let desc := setFields b [(0, 1, x0.model), (4, 4, kept.length), (8, 4, q), (12, 4, ctx), (16, 8, o 0), (24, 8, o 1),
      (32, 8, if fp8 then o 2 else 0), (40, 8, out), (48, 8, if tokens.isEmpty then 0 else o 3), (56, 8, if trees.isEmpty then 0 else o 4),
      (64, 8, status)]
    some { op := 0x0405, tag := j.tag, desc := at', endOff := roundUp (out + q * outB) 64, dropped := rows.length - kept.length
           writes := [(at', desc), (o 0, table), (o 1, input), (o 2, scales), (o 3, tokens), (o 4, trees)] }

/-- A SAMPLE without the rows of lost sessions, laid out from `at'`. -/
def readySample (ctx at' : Nat) (ss : List Restored) (j : CapJob) : Option ReadyJob :=
  let b := (capPart j 0).bytes
  let tb := (capPart j 1).bytes
  let n := fieldAt b 0 4
  let rows := sampleRows (chunksOf 32 n tb) 0
  let kept := rows.filterMap (fun r => (capSess ss j r.idx).map (fun x => (r, x)))
  if kept.isEmpty then none
  else
    let size := fun (r : JobRow) => if smpSized r then r.qcount * smpBlock r else 0
    let qsize := fun (r : JobRow) => if smpQ tb r.idx = 0 then 0 else roundUp (4 * r.qcount) 64
    let data := kept.flatMap (fun k => capSpan j 2 (fieldAt b 24 8 + smpData tb k.1.idx) (size k.1))
    let qs := kept.flatMap (fun k => padTo (capSpan j 3 (smpQ tb k.1.idx) (Nat.min (qsize k.1) (4 * k.1.qcount))) (qsize k.1))
    let offs := prefixSums 0 (kept.map (fun k => size k.1))
    let lay := layOut (at' + 64) [List.replicate (32 * kept.length) 0, data, qs]
    let o := fun i => nth lay.1 i 0
    let qoffs := prefixSums (o 2) (kept.map (fun k => qsize k.1))
    let row := fun (x : (JobRow × Restored) × (Nat × Nat)) =>
      let r := x.1.1
      setFields ((tb.drop (32 * r.idx)).take 32) [(0, 4, slotWordOf x.1.2), (16, 8, x.2.1), (24, 8, if qsize r = 0 then 0 else x.2.2)]
    let table := (kept.zip (offs.zip qoffs)).flatMap row
    let res := lay.2
    let desc := setFields b [(0, 4, kept.length), (8, 4, ctx), (16, 8, o 0), (24, 8, o 1), (32, 8, res)]
    some { op := 0x0605, tag := j.tag, desc := at', endOff := roundUp (res + 128 * kept.length) 64, dropped := rows.length - kept.length
           writes := [(at', desc), (o 0, table), (o 1, data), (o 2, qs)] }

/-- The jobs to submit, laid out one after another, with the jobs and rows dropped, and the end. -/
def laidJobs (d : Dev) (ctx : Nat) (ss : List Restored) : Nat → List CapJob → List ReadyJob × Nat × Nat × Nat
  | at', [] => ([], 0, 0, at')
  | at', j :: js =>
    match (if j.kind = 1 then readyAttend d ctx at' ss j else readySample ctx at' ss j) with
    | none =>
      let r := laidJobs d ctx ss at' js
      (r.1, r.2.1 + 1, r.2.2.1 + (capPart j 6).bytes.length / 4, r.2.2.2)
    | some x =>
      let r := laidJobs d ctx ss x.endOff js
      (x :: r.1, r.2.1, r.2.2.1 + x.dropped, r.2.2.2)

/-- Accept a verb that the device itself submits on a ring (14 R336). -/
def submitVerb (d : Dev) (ring op tag ctx desc : Nat) : Dev :=
  match findRing d ring with
  | none => d
  | some x =>
    let n := op + 2 ^ 24 + tag * 2 ^ 32 + ctx * 2 ^ 96 + desc * 2 ^ 128
    let v : Verb := { seq := d.tur.nextSeq, ring := ring, op := op, entry := BitVec.ofNat 512 n, block := [], blockEnd := 0, submit := 0, ld := x.ld
                      part := x.part, ctx := x.ctx, admin := false, accClause := d.clk.count, accTime := d.tim.now, started := none, running := false
                      event := false }
    let d1 := { d with tur.verbs := d.tur.verbs ++ [v], tur.nextSeq := d.tur.nextSeq + 1 }
    updRing d1 ring (fun y => { y with inFlight := y.inFlight + 1 })

/-- Write and submit the requeued jobs. [Log entry 89, DEDUCED.] -/
def submitJobs (d : Dev) (ld ring ctx : Nat) (js : List ReadyJob) : Dev :=
  js.foldl (fun a j =>
    submitVerb (j.writes.foldl (fun a1 w => if w.2.isEmpty then a1 else exWrite a1 (exKey ld w.1) w.2) a) ring j.op j.tag ctx j.desc) d

/-! ### The link (14 R332, R333) -/

/-- The captured sessions of a manifest, in order. -/
def manifestSessions (ss : List ShardSlot) : List Nat := ((ss.filter (fun s => decide (3 ≤ slotKind s))).map slotSess).eraseDups

/-- Whether a manifest's signature holds (14 R321, R332 step 2). -/
def manifestVerifies (d : Dev) (v : Verb) (r : RestoreOp) : Except Fail Bool := do
  let key ← if rprm r 16 8 = 0 then .ok d.boot.publicKey else argRead d v (rprm r 16 8) (rprm r 24 4)
  let n := manifestLen r.data
  let blk := (r.data.drop (n - 576)).take 576
  let body := r.data.take (n - 576)
  let form := fieldAt blk 0 2 == 1 && allZero ((blk.drop 2).take 6) && allZero ((blk.drop 40).take 24)
  match parseKey key with
  | none => failRange 16
  | some k => .ok (bitSet (fieldAt r.data 35 1) 0 && form && (blk.drop 8).take 32 == (sha512 key).take 32 && rsaVerify k body (blk.drop 64))

/-- The map summary (14 R334). -/
def mapSummary (restored failed requeued dropped rows : Nat) (globalOk : Bool) (steps : List Nat) : List Byte :=
  padTo (natLe restored 4 ++ natLe failed 4 ++ natLe requeued 4 ++ natLe dropped 4 ++ natLe rows 4 ++ [if globalOk then 1 else 0, 0, 0, 0] ++
    (steps.take 4).flatMap (fun s => natLe s 8)) 64

/-- A map entry (14 R334). [Log entry 89, DEDUCED.] -/
def mapEntry (x : Restored) : List Byte :=
  natLe x.source 4 ++ natLe x.handle 4 ++ natLe (if x.code = 0 then x.slot + 2 ^ 31 else 0) 4 ++ natLe x.code 4

/-- Link the sessions one after another; each failure leaves the device as it was. -/
def linkAll (r : RestoreOp) (xs : List (ShardSlot × ShardRead)) : List Nat → Dev → List Restored × Dev
  | [], d => ([], d)
  | h :: hs, d =>
    let mine := xs.filter (fun x => decide (3 ≤ slotKind x.1) && slotSess x.1 == h)
    let code := groupCode (mine.map (·.2))
    let digest := match mine with | x :: _ => (x.1.head.drop 48).take 16 | [] => []
    let one := if code ≠ 0 then .error code
      else linkSess d r.ctx (rprm r 4 1) h digest (groupRaw mine 3) (groupRaw mine 4) (groupRaw mine 5)
    match one with
    | .error c =>
      let t := linkAll r xs hs d
      (lostSess h c :: t.1, t.2)
    | .ok (x, d1) =>
      let t := linkAll r xs hs d1
      (x :: t.1, t.2)

/-- RESTORE with its region read: the checks, the link, the map and the completion. -/
def restoreLink (d : Dev) (v : Verb) (r : RestoreOp) : Dev :=
  let fail := fun st => endRestore d r.seq st []
  if r.status ≠ stOk then fail r.status
  else if (badAt r 0 256).isSome || (badAt r 0 (manifestLen r.data)).isSome then
    fail (if rprm r 0 1 = 1 || badAt r 0 (manifestLen r.data) = some 6 then stMedia else stDamaged)
  else if !headerSound r.data || r.data.length < manifestLen r.data || !entriesSound r.data then fail stRange
  else
    match (if rVerify r then manifestVerifies d v r else .ok true) with
    | .error f => endRestore d r.seq f.status f.fields
    | .ok false => fail stDigest
    | .ok true =>
      let slots := manifestSlots r.data
      let xs := slots.map (fun s => (s, readShard r s))
      let step := fieldAt r.data 8 8
      let steps := (xs.filterMap (fun x => match x.2 with | .stale s => some s | _ => none)).eraseDups
      let hs := manifestSessions slots
      let other := match steps with | s :: _ => s + 2 ^ 63 | [] => 0
      let mapOff := rprm r 56 8
      let mapLen := 64 + 16 * hs.length
      let fields := fun ok => [(8, 8, step), (16, 8, other), (24, 4, ok), (28, 4, hs.length - ok)]
      let glob := groupCode ((xs.filter (fun x => decide (slotKind x.1 < 3))).map (·.2))
      if xs.any (fun x => x.2 == .malformed) || !outIn d v mapOff mapLen then fail stRange
      else if outPartial d v mapOff mapLen then fail stDamaged
      else
        let stop := fun st => endRestore (outWrite d v mapOff (mapSummary 0 hs.length 0 0 0 false steps)) r.seq st (fields 0)
        if !rPerSession r && !steps.isEmpty then stop stStepMismatch
        else if xs.any (fun x => x.2 == .unsupported) then stop stUnsupported
        else
          let (ss, d1) := linkAll r xs hs d
          let codes := (if glob = 0 then [] else [glob]) ++ (ss.filter (fun x => x.code != 0)).map (·.code)
          match codes, rPerSession r with
          | c :: _, false => stop (codeStatus c)
          | _, _ =>
            let globOk := glob = 0
            let ready := if rRequeue r && globOk then
                laidJobs d1 r.ctx ss (roundUp (rprm r 64 8) 64) (capJobs (r.data.length + 1) ((groupRaw xs 2).drop 16384))
              else ([], 0, 0, 0)
            if rprm r 64 8 + rprm r 72 8 < ready.2.2.2 then stop stNospace
            else
              let ok := (ss.filter (fun x => x.code == 0)).length
              let d2 := submitJobs d1 (partLd d1 (ctxPart r.ctx)) (rprm r 80 2) r.ctx ready.1
              let summary := mapSummary ok (ss.length - ok) ready.1.length ready.2.1 ready.2.2.1 globOk steps
              let d3 := outWrite d2 v mapOff (summary ++ ss.flatMap mapEntry)
              endRestore d3 r.seq (if codes.isEmpty then stOk else stPartial) (fields ok)

/-! ### RESTORE at a boundary -/

/-- Start reading a restore's source. [Log entry 88, DEDUCED.] -/
def restoreStart (d : Dev) (r : RestoreOp) : Dev :=
  if rLocal r then putRestore (queueMover d r.seq 2 (.restore r.seq 0)) { r with stage := 1 }
  else if rprm r 0 1 = 3 then readMore d r
  else
    match mirrorPort d with
    | none => endRestore d r.seq stState []
    | some p => sendRequest (putRestore d { r with stage := 5 }) p 10 (rKey r) 0 0 []

/-- Whether something that a restore waits for is still outstanding. -/
def restoreWaits (d : Dev) (r : RestoreOp) : Bool :=
  d.bus.any (fun b => b.why == .restoreRead r.seq) ||
    (rprm r 0 1 == 5 && d.net.qps.any (fun q => q.reads.any (fun x => match x.why with | .restore s _ => s == r.seq))) ||
    (r.stage == 5 && d.buddy.reqs.any (fun q => msgType q.msg == 10 && msgKey q.msg == rKey r))

/-- A RESTORE at a boundary. -/
def restoreAt (d : Dev) (seq : Nat) : Dev :=
  match findRestore d seq, findVerb d seq with
  | some r, some v =>
    (match r.stage with
    | 0 => restoreStart d r
    | 1 =>
      let ws := d.kv.movers.filter (fun w => w.what == .restore seq 0)
      if ws.any (fun w => w.state == 0) then d
      else if ws.any (fun w => w.state == 2) then endRestore d seq (if rprm r 0 1 = 1 then stMedia else stDamaged) []
      else restoreLink d v (readLocal d v 4 r)
    | 4 => restoreLink d v r
    | _ => if restoreWaits d r then d else endRestore d seq (if rprm r 0 1 = 3 then stMedia else stDamaged) [])
  | _, _ => dropOp { d with restores := dropWhere (fun r => r.seq == seq) d.restores } seq

end Sys2Proof.Machine
end

