-- ==== Sys2Proof/Machine/Index.lean ====
section
/-!
DEFINITION. Memory indexes (12 R253-R259, R262): parameters, records on flash, vectors and distances, and predicates.
-/

namespace Sys2Proof.Machine

def findIndex (d : Dev) (i : Nat) : Option Index := d.indexes.find? (fun x => x.id == i)

def updIndex (d : Dev) (i : Nat) (f : Index → Index) : Dev := { d with indexes := updWhere (fun (x : Index) => x.id == i) f d.indexes }

/-! ### Parameters and layout (12 Tables 12-1, 12-2, 12-4) -/

def ixMode (ps : List Byte) : Nat := fieldAt ps 0 1
def ixMetric (ps : List Byte) : Nat := fieldAt ps 1 1
def ixFmt (ps : List Byte) : Nat := fieldAt ps 2 1
def ixDegree (ps : List Byte) : Nat := fieldAt ps 3 1
def ixDims (ps : List Byte) : Nat := fieldAt ps 4 2
def ixPq (ps : List Byte) : Nat := fieldAt ps 6 2
def ixCap (ps : List Byte) : Nat := fieldAt ps 8 8
def ixBuildL (ps : List Byte) : Nat := fieldAt ps 16 2
def ixAttr (ps : List Byte) : Nat := fieldAt ps 18 1
def ixSideCap (ps : List Byte) : Nat := fieldAt ps 24 4
def ixScan (ps : List Byte) : Nat := if fieldAt ps 20 4 = 0 then 1048576 else fieldAt ps 20 4

/-- Bytes of one stored element. -/
def elemSize (fmt : Nat) : Nat := if fmt = 1 then 4 else if fmt ≤ 3 then 2 else 1

/-- Whether a parameter block lies within Table 12-1. -/
def ixParamsOk (ps : List Byte) : Bool :=
  decide (ixMode ps < 2) && decide (ixMetric ps < 3) && inR (ixFmt ps) 1 5 && inR (ixDegree ps) 4 64 && inR (ixDims ps) 1 4096 &&
    inR (ixPq ps) 1 256 && ixDims ps % ixPq ps == 0 && inR (ixCap ps) 1 (if ixMode ps = 0 then 268435456 else 17179869184) &&
    inR (ixBuildL ps) 16 1024 && decide (ixAttr ps ≤ 64) && fieldAt ps 19 1 == 0 && decide (fieldAt ps 20 4 ≤ 16777216) &&
    (if ixMode ps = 0 then inR (ixSideCap ps) 1 4194304 else ixSideCap ps == 0) && allZero (ps.drop 28)

/-- Offsets within a record (12 R256). -/
def ixNb (ps : List Byte) : Nat := roundUp (64 + ixPq ps + ixAttr ps) 8
def ixVec (ps : List Byte) : Nat := roundUp (ixNb ps + 8 * ixDegree ps) 64
def ixRecBytes (ps : List Byte) : Nat := ixVec ps + ixDims ps * elemSize (ixFmt ps)

/-- RS: sectors of a record (12 R255). -/
def ixRs (ps : List Byte) : Nat :=
  let n := ceilDiv (ixRecBytes ps) 4096
  if n ≤ 2 then n else roundUp n 4

def ixCbLpns (ps : List Byte) : Nat := ceilDiv (1024 * ixDims ps) 16384

/-- LPNs of a region. -/
def ixPages (ps : List Byte) : Nat := 1 + ixCbLpns ps + ceilDiv (ixCap ps * ixRs ps) 4

/-- The least power of two not below `n`; `k` bounds the search. -/
def pow2From : Nat → Nat → Nat → Nat
  | 0, p, _ => p
  | k + 1, p, n => if n ≤ p then p else pow2From k (2 * p) n

/-- DDR bytes of the structures of Table 12-4, bitmaps apart. -/
def ixDdr (ps : List Byte) : Nat :=
  let c := ixCap ps
  c * ixPq ps + ceilDiv c 4 + 16 * pow2From 64 1 (ceilDiv (3 * c) 2) +
    ixSideCap ps * roundUp (128 + ixDims ps * elemSize (ixFmt ps)) 64 + 1024 * ixDims ps

/-! ### Vectors (12 R258) -/

def fmtF16 : Fmt := { eb := 5, mb := 10, bias := 15, top := 0 }

/-- An integer nearest to a value, ties to even, within ±127. -/
def roundI8 (v : Fv) : Int :=
  match v with
  | .fin s m e =>
    let n := if 0 ≤ e then m * 2 ^ e.toNat else shiftRne m (-e).toNat
    let i : Int := if s then -(n : Int) else (n : Int)
    max (-127) (min 127 i)
  | .inf s => if s then -127 else 127
  | .nan => 0

/-- Elements in FP32 of a source of FP32 or BF16. -/
def sourceCodes (bf16 : Bool) (dims : Nat) (bs : List Byte) : List Nat :=
  if bf16 then (chunksOf 2 dims bs).map (fun c => leNat c * 65536) else (chunksOf 4 dims bs).map leNat

/-- A query vector: FP32, scaled to unit norm under COSINE. None: a zero vector under COSINE, or a value that is not finite. -/
def queryVec (ps : List Byte) (xs : List Nat) : Option (List Nat) :=
  if !xs.all finite32 then none
  else if ixMetric ps ≠ 2 then some xs
  else if xs.all isZero' then none
  else some (xs.map (fun x => f32Div x (Config.normOf xs)))
where
  isZero' (c : Nat) : Bool := fvIsZero (f32 c)

/-- A stored vector: VSCALE, its element bytes, and its values. -/
structure StoredVec where
  vscale : Nat
  bytes : List Byte
  vals : List Nat
  deriving DecidableEq, Repr

/-- The greatest magnitude of a vector. -/
def amax32 (xs : List Nat) : Nat := xs.foldl (fun a x => if f32Lt a (x % 2 ^ 31) then x % 2 ^ 31 else a) 0

/-- The value of one stored element, without VSCALE. -/
def storedElem (fmt code : Nat) : Fv :=
  match fmt with
  | 1 => f32 code
  | 2 => fvDecode fmtBf16 code
  | 3 => fvDecode fmtF16 code
  | 4 => fvDecode fmtE4m3 code
  | _ => fvOfInt (toSigned 8 code)

/-- The values of stored bytes. -/
def storedVals (fmt dims vscale : Nat) (bs : List Byte) : List Nat :=
  (chunksOf (elemSize fmt) dims bs).map (fun c => enc32 (fvMul (storedElem fmt (leNat c)) (f32 vscale)))

/-- Store a vector in ELEM_FMT; none where it is refused. -/
def storeVec (ps : List Byte) (xs : List Nat) : Option StoredVec :=
  match queryVec ps xs with
  | none => none
  | some ys =>
    let fmt := ixFmt ps
    let top := amax32 ys
    let vs := match fmt with
      | 4 => if top = 0 then f32One else f32Div top 0x43E00000
      | 5 => if top = 0 then f32One else f32Div top 0x42FE0000
      | _ => f32One
    let code := fun (y : Nat) => match fmt with
      | 1 => y
      | 2 => fvEncode fmtBf16 (f32 y)
      | 3 => fvEncode fmtF16 (f32 y)
      | 4 => (fvClamp fmtE4m3 (fvDiv (f32 y) (f32 vs))).1
      | _ => ofSigned 8 (roundI8 (fvDiv (f32 y) (f32 vs)))
    let codes := ys.map code
    if decide (fmt ≤ 3) && codes.any (fun c => !fvFinite (storedElem fmt c)) then none
    else
      let bs := codes.flatMap (fun c => natLe c (elemSize fmt))
      some { vscale := vs, bytes := bs, vals := storedVals fmt (ixDims ps) vs bs }

/-! ### Distances (12 R259) -/

/-- An FP32 sum whose order of additions the spec does not state. [Log entry 68, DESIGN CHOICE.] -/
def openSum : List Nat → Nat
  | [] => 0
  | [x] => x
  | l => Config.chainSum l

/-- Terms of a distance: squares of differences for L2, products otherwise. -/
def distTerms (l2 : Bool) (q x : List Nat) : List Nat :=
  (q.zip x).map (fun p => if l2 then f32Mul (f32Sub p.1 p.2) (f32Sub p.1 p.2) else f32Mul p.1 p.2)

/-- The negation of a binary32 code. -/
def neg32 (c : Nat) : Nat := enc32 (fvNeg (f32 c))

/-- The exact distance of a query to stored values. -/
def exactDist (ps : List Byte) (q x : List Nat) : Nat :=
  match ixMetric ps with
  | 0 => openSum (distTerms true q x)
  | 1 => neg32 (openSum (distTerms false q x))
  | _ => f32Sub f32One (openSum (distTerms false q x))

/-- The centroid `c` of subspace `m`. -/
def centroid (ps : List Byte) (cb : List Byte) (m c : Nat) : List Nat :=
  let n := ixDims ps / Nat.max 1 (ixPq ps)
  (List.range n).map (fun j => fieldAt cb (4 * ((m * 256 + c) * n + j)) 4)

/-- Elements of a vector in subspace `m`. -/
def subVec (ps : List Byte) (x : List Nat) (m : Nat) : List Nat :=
  let n := ixDims ps / Nat.max 1 (ixPq ps)
  (x.drop (m * n)).take n

/-- Least key under the FP32 order, the first on ties. -/
def minF (key : Nat → Nat) : List Nat → Nat
  | [] => 0
  | x :: l => l.foldl (fun a y => if f32Lt (key y) (key a) then y else a) x

/-- The PQ code of stored values. -/
def pqCode (ps cb : List Byte) (x : List Nat) : List Byte :=
  (List.range (ixPq ps)).map (fun m =>
    byte (minF (fun c => openSum (distTerms true (subVec ps x m) (centroid ps cb m c))) (List.range 256)))

/-- The PQ distance of a query to a code: a sum of PQ_M entries of the query's table, plus 1 for COSINE. -/
def pqDist (ps cb : List Byte) (q : List Nat) (code : List Byte) : Nat :=
  let part := fun (m : Nat) =>
    let t := openSum (distTerms (ixMetric ps == 0) (subVec ps q m) (centroid ps cb m (nth code m 0).toNat))
    if ixMetric ps = 0 then t else neg32 t
  let s := openSum ((List.range (ixPq ps)).map part)
  if ixMetric ps = 2 then f32Add s f32One else s

/-- DIST of a neighbour entry: squared L2 in BF16, whatever the metric. -/
def linkDist (a b : List Nat) : Nat := fvEncode fmtBf16 (f32 (openSum (distTerms true a b)))

/-! ### Records (12 R255, R256) -/

/-- A node record. -/
structure NodeRec where
  item : Nat
  node : Nat
  state : Nat
  vscale : Nat
  version : Nat
  pq : List Byte
  attrs : List Byte
  nbrs : List (Nat × Nat)
  vec : List Byte
  deriving DecidableEq, Repr

/-- The bytes of a record, filled to its sectors. -/
def recordBytes (ix : Index) (r : NodeRec) : List Byte :=
  let ps := ix.params
  let head := natLe r.item 8 ++ natLe r.node 8 ++ [byte r.state, byte r.nbrs.length, byte (ixFmt ps), 0] ++ natLe r.vscale 4 ++
    natLe r.version 4 ++ natLe ix.tag 4 ++ List.replicate 32 0 ++ padTo r.pq (ixPq ps) ++ padTo r.attrs (ixAttr ps)
  let nb := r.nbrs.flatMap (fun n => natLe (n.1 * 2 ^ 48 + n.2) 8)
  padTo (putBytes (putBytes (padTo head (ixNb ps)) (ixNb ps) (padTo nb (8 * ixDegree ps))) (ixVec ps) r.vec) (4096 * ix.rs)

/-- A record as read: none where it is no record of the index. -/
def parseRecord (ix : Index) (bs : List Byte) : Option NodeRec :=
  let ps := ix.params
  if fieldAt bs 28 4 ≠ ix.tag || !inR (fieldAt bs 16 1) 1 3 then none
  else
    let nb := (List.range (Nat.min (fieldAt bs 17 1) (ixDegree ps))).map (fun i =>
      let w := fieldAt bs (ixNb ps + 8 * i) 8
      (w / 2 ^ 48, w % 2 ^ 34))
    some { item := fieldAt bs 0 8 % 2 ^ 40, node := fieldAt bs 8 8 % 2 ^ 34, state := fieldAt bs 16 1, vscale := fieldAt bs 20 4,
           version := fieldAt bs 24 4, pq := (bs.drop 64).take (ixPq ps), attrs := (bs.drop (64 + ixPq ps)).take (ixAttr ps),
           nbrs := nb, vec := (bs.drop (ixVec ps)).take (ixDims ps * elemSize (ixFmt ps)) }

/-- First LPN of a node's record, and its byte offset in that page. -/
def recordAt (ix : Index) (n : Nat) : Nat × Nat :=
  let base := ix.lpn + 1 + ixCbLpns ix.params
  if ix.rs < 4 then (base + n * ix.rs / 4, n * ix.rs % 4 * 4096) else (base + n * (ix.rs / 4), 0)

/-- LPNs that a record touches. -/
def recordLpns (ix : Index) (n : Nat) : List Nat := rangeFrom (recordAt ix n).1 (if ix.rs < 4 then 1 else ix.rs / 4)

/-- The bytes of a partition's page for a reader of some of its codewords: zeros where unmapped; none where one of them cannot be read. -/
def codewordBytes (d : Dev) (p : Nat) (cws : List Nat) (lpn : Nat) : Option (List Byte) :=
  match (gpageOf d p lpn).bind (livePage d) with
  | none => some (List.replicate 16384 0)
  | some x => if x.lost || cws.any (fun c => x.bad.contains c) then none else some (padTo x.data 16384)

/-- The bytes of a partition's page. -/
def pageBytes (d : Dev) (p lpn : Nat) : Option (List Byte) := codewordBytes d p (List.range 4) lpn

/-- The codewords of its pages that a node's record takes. -/
def recordCws (ix : Index) (n : Nat) : List Nat := if ix.rs < 4 then rangeFrom ((recordAt ix n).2 / 4096) ix.rs else List.range 4

/-- What a read of a record gives. -/
inductive RecRead where
  | lost
  | absent
  | found (r : NodeRec)
  deriving DecidableEq, Repr

/-- Read a node's record. -/
def readRecord (d : Dev) (ix : Index) (n : Nat) : RecRead :=
  let pages := (recordLpns ix n).map (codewordBytes d ix.part (recordCws ix n))
  if pages.any (·.isNone) then .lost
  else
    match parseRecord ix (((pages.filterMap id).flatten).drop (recordAt ix n).2) with
    | some r => .found r
    | none => .absent

/-- Write a record: the pages that hold it are rewritten with durability requested. The codewords of other records stay as they were. -/
def writeRecord (d : Dev) (ix : Index) (r : NodeRec) : Dev :=
  let a := recordAt ix r.node
  let bs := recordBytes ix r
  let obj := objIn 0x0A ix.part ix.id
  if ix.rs < 4 then
    let old := (gpageOf d ix.part a.1).bind (livePage d)
    let data := match old with | some x => x.data | none => []
    let kept := match old with | some x => (if x.lost then List.range 4 else x.bad).filter (fun c => !(recordCws ix r.node).contains c) | none => []
    let d1 := flashWrite d ix.part a.1 0 obj true [putBytes (padTo data 16384) a.2 bs]
    let stay := fun (x : FPage) => x.gone == 0 && some x.gpage == gpageOf d ix.part a.1
    { d1 with flash.pages := updWhere stay (fun x => { x with bad := kept }) d1.flash.pages }
  else flashWrite d ix.part a.1 0 obj true (chunksOf 16384 (ix.rs / 4) bs)

/-- The descriptor page (12 R255): parameters, tag, entry node and epoch. [Log entry 67, DESIGN CHOICE.] -/
def descriptorPage (ix : Index) : List Byte :=
  let e := match ix.entry with | some n => n + 2 ^ 40 | none => 0
  padTo (padTo ix.params 64 ++ natLe ix.tag 4 ++ natLe ix.epoch 4 ++ natLe e 8) 16384

/-- Write the descriptor page. [Log entry 67, DESIGN CHOICE.] -/
def writeDescriptor (d : Dev) (ix : Index) : Dev :=
  flashWrite d ix.part ix.lpn 0 (objIn 0x0A ix.part ix.id) true [descriptorPage ix]

/-! ### Node states -/

def nodeState (ix : Index) (n : Nat) : Nat := ((ix.nodes.find? (fun x => x.1 == n)).map (·.2)).getD 0
def isLive (ix : Index) (n : Nat) : Bool := nodeState ix n == 1
def liveCount (ix : Index) : Nat := (ix.nodes.filter (fun x => x.2 == 1)).length
def deadCount (ix : Index) : Nat := (ix.nodes.filter (fun x => decide (1 < x.2))).length
def itemNode (ix : Index) (item : Nat) : Option Nat := (ix.items.find? (fun x => x.1 == item)).map (·.2)
def nodeItem (ix : Index) (n : Nat) : Nat := ((ix.items.find? (fun x => x.2 == n)).map (·.1)).getD (2 ^ 40 - 1)
def nodePq (ix : Index) (n : Nat) : List Byte := ((ix.pq.find? (fun x => x.1 == n)).map (·.2)).getD (List.replicate (ixPq ix.params) 0)

/-- POPULATION of a bitmap: LIVE nodes that it allows (12 R276). -/
def mapPopulation (ix : Index) (m : NamedMap) : Nat := (m.allow.filter (isLive ix)).length

/-- A record that could not be read: counted, and told at most once per node per clause (12 R280). -/
def tellLost (x : Index) (jobSeq : Nat) (d : Dev) (n : Nat) : Dev :=
  let d1 := bump d 4 x.id 5 1
  let seen := match findIndex d1 x.id with | some y => y.lostSeen.contains (n, d1.clk.count) | none => true
  if seen then d1
  else
    let obj := objIn 0x0B x.part (x.id * 2 ^ 40 + nodeItem x n)
    raise (updIndex d1 x.id (fun y => { y with lostSeen := (n, d1.clk.count) :: y.lostSeen.filter (fun z => z.2 == d1.clk.count) }))
      0x0710 obj (.part x.part) [(8, n), (8, jobSeq)]

/-- A record read for other work than a search's: one that flash cannot read is told with JOB_SEQ 0 (12 R280, Table 12-12). -/
def tellRead (x : Index) (d : Dev) (n : Nat) : Dev :=
  match readRecord d x n with
  | .lost => tellLost x 0 d n
  | _ => d

/-! ### Predicates (12 R262) -/

/-- One comparison of a predicate block. -/
def cmpAt (pb : List Byte) (i : Nat) : List Byte := (pb.drop (16 * i)).take 16

/-- Whether a predicate block is within its ranges. -/
def predOk (pb : List Byte) (attr : Nat) : Bool :=
  (List.range 16).all (fun i =>
    let c := cmpAt pb i
    let w := fieldAt c 2 1
    fieldAt c 0 1 == 0 || (decide (fieldAt c 0 1 ≤ 8) && decide (fieldAt c 1 1 < 3) && [1, 2, 4, 8].contains w &&
      (fieldAt c 1 1 != 2 || w == 4) && fieldAt c 3 1 / 4 % 32 == 0 && decide (fieldAt c 4 2 + w ≤ attr) && fieldAt c 6 2 == 0))

/-- The three-way order of a comparison: less, equal; both false for greater, and for a NaN with the flag set. -/
def cmpOrder (type w a b : Nat) : Bool × Bool × Bool :=
  if type = 2 then (f32Lt a b, !f32Lt a b && !f32Lt b a, fvIsNan (f32 a) || fvIsNan (f32 b))
  else if type = 1 then (decide (toSigned (8 * w) a < toSigned (8 * w) b), a == b, false)
  else (decide (a < b), a == b, false)

/-- Whether one comparison holds, before NEGATE. -/
def cmpHolds (c attrs : List Byte) : Bool :=
  let w := fieldAt c 2 1
  let a := fieldAt attrs (fieldAt c 4 2) w
  let k := fieldAt c 8 8 % 2 ^ (8 * w)
  let (lt, eq, nan) := cmpOrder (fieldAt c 1 1) w a k
  match fieldAt c 0 1 with
  | 1 => !nan && eq
  | 2 => nan || !eq
  | 3 => !nan && lt
  | 4 => !nan && (lt || eq)
  | 5 => !nan && !lt && !eq
  | 6 => !nan && !lt
  | 7 => Nat.land a k == k
  | _ => Nat.land a k != 0

/-- Whether attributes pass a predicate: every group in use has a comparison that holds. -/
def predPass (pb attrs : List Byte) : Bool :=
  let used := (List.range 16).filter (fun i => fieldAt (cmpAt pb i) 0 1 != 0)
  let group := fun (i : Nat) => fieldAt (cmpAt pb i) 3 1 % 4
  let holds := fun (i : Nat) => cmpHolds (cmpAt pb i) attrs != bitSet (fieldAt (cmpAt pb i) 3 1) 7
  (List.range 4).all (fun g =>
    let mine := used.filter (fun i => group i == g)
    mine.isEmpty || mine.any holds)

/-! ### Candidates (12 R263) -/

/-- Candidate order: PQ distance, then node number. [Log entry 68, DESIGN CHOICE.] -/
def candLe (a b : Nat × Nat) : Bool := f32Lt a.1 b.1 || (!f32Lt b.1 a.1 && decide (a.2 ≤ b.2))

/-- Insert a node into the candidates, at most 4,096. -/
def candInsert (ix : Index) (q : List Nat) (cand : List (Nat × Nat)) (n : Nat) : List (Nat × Nat) :=
  if cand.any (fun c => c.2 == n) then cand
  else (insertBy candLe (pqDist ix.params ix.codebook q (nodePq ix n), n) cand).take 4096

/-- The order of found nodes: distance, then `tie`. -/
def foundLe (tie : Found → Nat) (a b : Found) : Bool := f32Lt a.dist b.dist || (!f32Lt b.dist a.dist && decide (tie a ≤ tie b))

/-- The unvisited nodes of a window, at most W. -/
def nextBatch (cand : List (Nat × Nat)) (window w : Nat) (visited : List Nat) : List Nat :=
  (((cand.take window).map (·.2)).filter (fun n => !visited.contains n)).take w

end Sys2Proof.Machine
end

