-- ==== Sys2Proof/Machine/IdxVerbs.lean ====
section
/-!
DEFINITION. Memory indexes as the verbs change them (12 R270-R281): creating, attaching and dropping, inserts and deletes, merges and
repair passes, named bitmaps and statistics.
-/

namespace Sys2Proof.Machine

/-! ### Shared -/

/-- Whether an IDX_DROP accepted before acceptance number `seq` has marked the index as dropping (02 R24). -/
def droppedBefore (x : Index) (seq : Nat) : Bool := match x.dropSeq with | some n => decide (n < seq) | none => false

/-- The index that byte 16 names, with the identifier checks of R22. -/
def checkIndex (d : Dev) (v : Verb) : Except Fail Index := do
  let i := fld v 16 1 % 64
  let live := match findIndex d i with | some x => x.state != 4 && !droppedBefore x v.seq | none => false
  checkOwned d v 10 i 16 live
  match findIndex d i with
  | some x => .ok x
  | none => failId stStale 16

/-- Writers and searches need a READY index (12 R277, R280, Table 12-11). -/
def needReady (x : Index) : Except Fail Unit := need stState (x.state == 0)

/-- EV_DEFERRED_DONE of a job of an index. -/
def idxDone (d : Dev) (x : Index) (j : IdxJob) (status : Nat) (result : List Byte) : Dev :=
  deferredDone d j.ring j.tag j.op status (objIn 0x0A x.part x.id) (.part x.part) result

/-! ### IDX_CREATE (12 R277) -/

/-- Whether an index region overlaps one that an index of the partition holds. -/
def overlaps (d : Dev) (p lpn pages : Nat) : Bool :=
  (indexRegions d p).any (fun r => decide (r.1 < lpn + pages) && decide (lpn < r.1 + r.2))

/-- The fields of an IDX_CREATE completion. -/
def createFields (x : Index) : List (Nat × Nat × Nat) :=
  [(8, 1, x.id), (9, 1, x.rs), (12, 4, x.tag), (16, 8, x.pages), (24, 8, ceilDiv x.ddr 1024)]

/-- A new index with its structures charged; none where the DDR grant cannot hold them. -/
def makeIndex (d : Dev) (id ctx lpn tag state : Nat) (ps cb : List Byte) (entry : Option Nat) (epoch : Nat) : Option (Index × Dev) :=
  let x : Index :=
    { id := id, part := ctxPart ctx, ctx := ctx, params := ps, codebook := cb, tag := tag, lpn := lpn, pages := ixPages ps,
      rs := ixRs ps, ddr := ixDdr ps, epoch := epoch, parity := 0, state := state, entry := entry, nodes := [], items := [], pq := [],
      side := [], maps := [], job := none, writer := none, lostSeen := [], dropSeq := none }
  (allocDdr d x.part x.ddr (allocKey 10 id) 0).map (fun a =>
    let clear := dropWhere (fun (c : Ctr) => c.scope == 4 && c.unit == id) a.tur.ctrs
    (x, setOwner { a with indexes := a.indexes ++ [x], regions := a.regions ++ [(x.part, lpn, x.pages)], tur.ctrs := clear } 10 id ctx))

/-- IDX_CREATE, NEW form: the index exists from its completion boundary on. -/
def createNew (v : Verb) (d : Dev) (c id : Nat) (ps cb : List Byte) : Except Fail Dev :=
  let lpn := fld v 24 8
  let tag := Config.indexTag d.draws % (2 ^ 32 - 1) + 1
  match makeIndex { d with draws := d.draws + 1 } id c lpn tag 4 ps cb none 0 with
  | none => failSt stNospace
  | some (x, d1) =>
    let d2 := writeDescriptor d1 x
    let cbPages := (List.range (ixCbLpns ps)).map (fun i => padTo ((cb.drop (16384 * i)).take 16384) 16384)
    let d3 := flashWrite d2 x.part (lpn + 1) 0 (objIn 0x0A x.part id) true cbPages
    let w : IdxWriter := { seq := v.seq, kind := 3, lpns := rangeFrom lpn (1 + ixCbLpns ps), changes := [], results := [], offset := 0,
                           status := stOk, fields := createFields x, entry := none }
    let d4 := parityStep (updIndex d3 id (fun y => { y with writer := some w }))
    .ok (keepRunning d4 v)

/-- The descriptor page of a region: parameters, tag, entry node, epoch; none where it holds no valid tag. [Log entry 67, DESIGN CHOICE.] -/
def readDescriptor (d : Dev) (p lpn : Nat) : Option (List Byte × Nat × Option Nat × Nat) :=
  match pageBytes d p lpn with
  | none => none
  | some bs =>
    let ps := bs.take 64
    let e := fieldAt bs 72 8
    if fieldAt bs 64 4 = 0 || !ixParamsOk ps then none
    else some (ps, fieldAt bs 64 4, if bitSet e 40 then some (e % 2 ^ 34) else none, fieldAt bs 68 4)

/-- IDX_CREATE, ATTACH form: it completes at once with ST_DEFERRED and an ATTACHING index. [Log entry 67, DESIGN CHOICE.] -/
def createAttach (v : Verb) (d : Dev) (c id : Nat) : Except Fail Dev := do
  let lpn := fld v 24 8
  let p := ctxPart c
  match readDescriptor d p lpn with
  | none => failSt stRange
  | some (ps, tag, entry, epoch) =>
    need stRange (decide (lpn + ixPages ps ≤ 2 ^ 34) && !reachesEmpty d p lpn (ixPages ps) && !overlaps d p lpn (ixPages ps))
    let cb := ((rangeFrom (lpn + 1) (ixCbLpns ps)).map (fun l => (pageBytes d p l).getD [])).flatten.take (1024 * ixDims ps)
    match makeIndex d id c lpn tag 1 ps cb entry epoch with
    | none => failSt stNospace
    | some (x, d1) =>
      let j : IdxJob := { kind := 3, ring := v.ring, tag := fld v 4 4, op := v.op, cut := 0, done := 0, total := ixCap ps, merged := 0,
                          pass := false, old := 0, sweep := 0, stop := false, linking := none }
      .ok (finish (updIndex d1 id (fun y => { y with job := some j })) v stDeferred 0xFF (createFields x))

/-- IDX_CREATE. A field of the other form is not read. -/
def idxCreateBody (v : Verb) (d : Dev) : Except Fail Dev := do
  let form := fld v 16 1
  let lpn := fld v 24 8
  let po := fld v 32 8
  let co := fld v 40 8
  check4 v true [(17, 7), (48, 16)]
    [(16, decide (form < 2)), (24, decide (lpn < 2 ^ 34)), (32, form != 0 || (po % 64 == 0 && argIn d v po 64)),
      (40, form != 0 || co % 64 == 0), (32, form != 0 || structOk d v po 64 ixParamsOk),
      (40, form != 0 || structOk d v po 64 (fun ps => argIn d v co (1024 * ixDims ps)))]
  let c ← checkCtx73 d v
  need stLimit (decide (d.indexes.length < 64))
  match longestFree d 10 (d.indexes.map (·.id)) 0 64 with
  | none => failSt stLimit
  | some id =>
    if form = 1 then
      needMedia d false
      createAttach v d c id
    else
      let ps ← argRead d v po 64
      let cb ← argRead d v co (1024 * ixDims ps)
      need stNospace (decide (ixDdr ps ≤ freeIn d (ctxPart c) 8))
      needMedia d true
      let p := ctxPart c
      need stRange (decide (lpn + ixPages ps ≤ 2 ^ 34) && !reachesEmpty d p lpn (ixPages ps) && !overlaps d p lpn (ixPages ps))
      createNew v d c id ps cb

/-- The nodes whose records lie in a page of a region. -/
def nodesOfLpn (x : Index) (lpn : Nat) : List Nat :=
  let k := lpn - (x.lpn + 1 + ixCbLpns x.params)
  if x.rs < 4 then (rangeFrom (ceilDiv (4 * k) x.rs) (4 / Nat.max 1 x.rs)).filter (fun n => (recordAt x n).1 == lpn)
  else if k % (x.rs / 4) = 0 then [k / (x.rs / 4)] else []

/-- The nodes of a region that pages hold, in node-number order. -/
def regionNodes (d : Dev) (x : Index) : List Nat :=
  let base := x.lpn + 1 + ixCbLpns x.params
  let lpns := (d.flash.pages.filter (fun g => g.kind == 1 && g.gone == 0)).filterMap (fun g => lpnOf d x.part g.gpage)
  let mine := (lpns.filter (fun l => decide (base ≤ l) && decide (l < x.lpn + x.pages))).eraseDups
  sortBy (fun (a b : Nat) => decide (a ≤ b)) ((mine.flatMap (nodesOfLpn x)).filter (fun n => decide (n < ixCap x.params)))

/-- The records of a region, in node-number order. -/
def regionRecords (d : Dev) (x : Index) : List NodeRec :=
  (regionNodes d x).filterMap (fun n => match readRecord d x n with
    | .found r => some { r with node := n }
    | _ => none)

/-- A side-list insert entry. -/
def insertEntry (item node vscale : Nat) (attrs vec : List Byte) : SideEnt :=
  { item := item, node := node, del := false, merged := false, cancelled := false, vscale := vscale, attrs := attrs, vec := vec }

/-- ATTACH_COMPLETE (12 R277): the structures have been rebuilt from the records. -/
def attachComplete (id : Nat) (d : Dev) : Dev :=
  match findIndex d id with
  | none => d
  | some x =>
    match x.job with
    | none => d
    | some j =>
      if j.kind ≠ 3 then d
      else
        let rs := regionRecords d x
        let live := rs.filter (fun r => r.state != 2)
        let y := { x with
          state := 0, job := none, parity := 0
          nodes := rs.map (fun r => (r.node, if r.state = 2 then 2 else 1))
          items := live.map (fun r => (r.item, r.node))
          pq := rs.map (fun r => (r.node, r.pq))
          side := if ixMode x.params = 0 then (rs.filter (fun r => r.state == 3)).map (fun r => insertEntry r.item r.node r.vscale r.attrs r.vec)
            else [] }
        let d1 := (regionNodes d x).foldl (tellRead x) d
        idxDone (updIndex d1 id (fun z => { y with lostSeen := z.lostSeen })) y j stOk []

/-! ### IDX_DROP (12 R278) -/

/-- End an index: its job, structures and bitmaps; with `erase` its pages. -/
def dropIndex (d : Dev) (x : Index) (erase : Bool) : Dev :=
  let d1 := match x.job with
    | some j => idxDone d x j stAborted []
    | none => d
  let d2 := { d1 with
    indexes := dropWhere (fun (y : Index) => y.id == x.id) d1.indexes
    regions := d1.regions.filter (fun r => !(r.1 == x.part && r.2.1 == x.lpn)) }
  let d3 := x.maps.foldl (fun a m => stampFree a 12 (x.id * 1024 + m.num)) (stampFree d2 10 x.id)
  let d4 := freeAllocs d3 (allocKey 10 x.id)
  if erase then discardRange d4 x.part x.lpn x.pages (skipRuns d4 x.part) else d4

/-- The checks of IDX_DROP: its index. -/
def idxDropCheck (v : Verb) (d : Dev) : Except Fail Index := do
  check4 v false [(18, 46)] [(16, decide (fld v 16 1 < 64)), (17, decide (fld v 17 1 < 2))]
  checkIndex d v

/-- IDX_DROP. -/
def idxDropBody (v : Verb) (d : Dev) : Except Fail Dev := do
  let x ← idxDropCheck v d
  .ok (finishOk (dropIndex (nextRelease d) x (fld v 17 1 == 1)) v [])

/-! ### Linking (12 R272) -/

/-- A linking search on its way. -/
structure LinkSt where
  cand : List (Nat × Nat)
  window : Nat
  visited : List Nat
  found : List (Nat × Nat × List Nat)
  ok : Nat
  deriving DecidableEq, Repr

/-- The graph search of R263 for a vector that is inserted: visited nodes with their distances and stored values. -/
def linkSearch (d : Dev) (x : Index) (q : List Nat) (budget : Nat) : Nat → LinkSt → LinkSt
  | 0, s => s
  | k + 1, s =>
    match nextBatch s.cand s.window 8 s.visited with
    | [] =>
      if s.ok < Config.linkK && decide (s.window < 4096) && decide (s.visited.length < budget) then
        linkSearch d x q budget k { s with window := Nat.min (2 * s.window) 4096 }
      else s
    | batch =>
      let s1 := batch.foldl (fun (a : LinkSt) n =>
        let a1 := { a with visited := n :: a.visited }
        match readRecord d x n with
        | .found r =>
          let vals := storedVals (ixFmt x.params) (ixDims x.params) r.vscale r.vec
          let near := (r.nbrs.map (·.2)).filter (fun m => !a1.visited.contains m)
          { a1 with
            cand := near.foldl (candInsert x q) a1.cand
            found := (exactDist x.params q vals, n, vals) :: a1.found
            ok := if r.state = 2 then a1.ok else a1.ok + 1 }
        | _ => a1) s
      if budget ≤ s1.visited.length then s1 else linkSearch d x q budget k s1

/-- The search of a linked insert, from the entry node, with L = BUILD_L, W = 8 and a budget of 8 × BUILD_L; it visits nothing where there is no
entry node. -/
def linkVisit (d : Dev) (x : Index) (q : List Nat) : LinkSt :=
  let l := ixBuildL x.params
  let s0 : LinkSt := { cand := match x.entry with | some e => candInsert x q [] e | none => [], window := l, visited := [], found := [], ok := 0 }
  linkSearch d x q (8 * l) (8 * l + 32) s0

/-- The neighbours of a new node: the D nearest nodes that its search visited and that were LIVE, and earlier items of the batch. -/
def linkNeighbours (x : Index) (live : Nat → Bool) (q : List Nat) (batch : List (Nat × List Nat)) (s : LinkSt) : List (Nat × List Nat) :=
  let seen := s.found.filter (fun f => live f.2.1)
  let mine := batch.map (fun b => (exactDist x.params q b.2, b.1, b.2))
  let all := (mine ++ seen.filter (fun f => !batch.any (fun b => b.1 == f.2.1)))
  let le := fun (a b : Nat × Nat × List Nat) => f32Lt a.1 b.1 || (!f32Lt b.1 a.1 && decide (a.2.1 ≤ b.2.1))
  ((sortBy le all).take (ixDegree x.params)).map (fun f => (f.2.1, f.2.2))

/-- A BF16 DIST below another. -/
def distLt (a b : Nat) : Bool := f32Lt (a * 65536) (b * 65536)

/-- Add a back-edge to a neighbour list: append, or replace the entry of largest DIST, the later on ties; none: unchanged. -/
def addBack (deg : Nat) (nb : List (Nat × Nat)) (e : Nat × Nat) : Option (List (Nat × Nat)) :=
  if nb.length < deg then some (nb ++ [e])
  else
    let worst := (List.range nb.length).foldl (fun w i => if distLt (nth nb i (0, 0)).1 (nth nb w (0, 0)).1 then w else i) 0
    if distLt e.1 (nth nb worst (0, 0)).1 then some (nb.set worst e) else none

/-- Write the back-edges of a new node: the device, and the nodes rewritten. -/
def writeBacks (x : Index) (node : Nat) (vals : List Nat) (d : Dev) (ns : List (Nat × List Nat)) : Dev × List Nat :=
  ns.foldl (fun (a : Dev × List Nat) c =>
    match readRecord a.1 x c.1 with
    | .found r =>
      (match addBack (ixDegree x.params) r.nbrs (linkDist vals c.2, node) with
      | some nb => (writeRecord a.1 x { r with node := c.1, nbrs := nb, version := r.version + 1 }, a.2 ++ [c.1])
      | none => a)
    | _ => a) (d, [])

/-! ### IDX_INSERT (12 R271) -/

/-- One item of an insert batch. -/
structure InsItem where
  pos : Nat
  item : Nat
  attrs : List Byte
  links : List Nat
  vec : Option StoredVec
  query : List Nat
  status : Nat
  node : Nat
  deriving DecidableEq, Repr

/-- Bytes of a source item. -/
def insItemBytes (ps : List Byte) (prebuilt bf16 : Bool) : Nat :=
  roundUp (8 + roundUp (ixAttr ps) 8 + (if prebuilt then 8 * ixDegree ps else 0) + ixDims ps * (if bf16 then 2 else 4)) 64

/-- Read one source item. -/
def insItem (ps : List Byte) (prebuilt bf16 : Bool) (pos : Nat) (bs : List Byte) : InsItem :=
  let ao := roundUp (ixAttr ps) 8
  let lo := 8 + ao
  let vo := lo + (if prebuilt then 8 * ixDegree ps else 0)
  let links := if prebuilt then ((List.range (ixDegree ps)).map (fun i => fieldAt bs (lo + 8 * i) 8)).filter (· != 2 ^ 40 - 1) else []
  let src := sourceCodes bf16 (ixDims ps) (bs.drop vo)
  { pos := pos, item := fieldAt bs 0 8, attrs := (bs.drop 8).take (ixAttr ps), links := links, vec := storeVec ps src,
    query := (queryVec ps src).getD [], status := 0, node := 0 }

/-- Own checks of the items in order: reserved IDs, duplicates, vectors, repeated links, a full side list. [Log entry 68, DESIGN CHOICE.] -/
def insChecks (x : Index) : List InsItem → List Nat → Nat → List InsItem
  | [], _, _ => []
  | i :: is, seen, room =>
    let st :=
      if 2 ^ 40 - 1 ≤ i.item then 6
      else if (itemNode x i.item).isSome || seen.contains i.item then 1
      else if i.vec.isNone then 4
      else if i.links.eraseDups.length ≠ i.links.length then 5
      else if ixMode x.params = 0 && room = 0 then 3
      else 0
    { i with status := st } :: insChecks x is (i.item :: seen) (if st = 0 then room - 1 else room)

/-- The lowest-numbered FREE nodes, `n` of them at most, from `from'` on; `fuel` bounds the search. -/
def freeNodes (x : Index) : Nat → Nat → Nat → List Nat
  | 0, _, _ => []
  | _, 0, _ => []
  | fuel + 1, n + 1, from' =>
    if ixCap x.params ≤ from' then []
    else if nodeState x from' = 0 then from' :: freeNodes x fuel n (from' + 1)
    else freeNodes x fuel (n + 1) (from' + 1)

/-- Give nodes to the items accepted so far, in order. -/
def giveNodes : List InsItem → List Nat → List InsItem
  | [], _ => []
  | i :: is, ns =>
    if i.status ≠ 0 then i :: giveNodes is ns
    else
      match ns with
      | [] => { i with status := 2 } :: giveNodes is []
      | n :: r => { i with node := n } :: giveNodes is r

/-- Refuse the items whose links name neither a LIVE item nor an accepted item of the batch. -/
def refuseLinks (x : Index) (is : List InsItem) : List InsItem :=
  let names := (is.filter (fun i => i.status == 0)).map (·.item)
  is.map (fun i => if i.status = 0 && i.links.any (fun l => (itemNode x l).isNone && !names.contains l) then { i with status := 5 } else i)

/-- Links and nodes together, until nothing more is refused. -/
def settleBatch (x : Index) (free : List Nat) : Nat → List InsItem → List InsItem
  | 0, is => giveNodes is free
  | k + 1, is =>
    let r := refuseLinks x (giveNodes is free)
    settleBatch x free k ((is.zip r).map (fun p => if p.2.status = 5 then { p.1 with status := 5 } else p.1))

/-- A batch on its way to flash. -/
structure InsAcc where
  dev : Dev
  ix : Index
  nodes : List Nat
  changes : List IdxChange
  writes : Nat
  batch : List (Nat × List Nat)
  deriving DecidableEq, Repr

/-- The stored values of a node that a link names. -/
def nodeVals (d : Dev) (x : Index) (batch : List (Nat × List Nat)) (n : Nat) : List Nat :=
  match batch.find? (fun b => b.1 == n) with
  | some b => b.2
  | none => (match readRecord d x n with
    | .found r => storedVals (ixFmt x.params) (ixDims x.params) r.vscale r.vec
    | _ => [])

/-- Write one accepted item. `all`: nodes and values of the whole batch, for PREBUILT links. -/
def insertOne (prebuilt : Bool) (x0 : Index) (all : List (Nat × Nat × List Nat)) (a : InsAcc) (i : InsItem) : InsAcc :=
  match i.vec with
  | none => a
  | some sv =>
    let ps := x0.params
    let pq := pqCode ps x0.codebook sv.vals
    let side := ixMode ps = 0
    let walk := if side || prebuilt then none else some (linkVisit a.dev a.ix i.query)
    let d0 := (walk.map (·.visited)).getD [] |>.foldl (tellRead x0) a.dev
    let near : List (Nat × List Nat) :=
      if side then []
      else if prebuilt then i.links.filterMap (fun l =>
        match itemNode x0 l with
        | some n => some (n, nodeVals a.dev x0 [] n)
        | none => (all.find? (fun b => b.1 == l)).map (fun b => (b.2.1, b.2.2)))
      else if a.ix.entry.isNone then []
      else (walk.map (linkNeighbours a.ix (isLive x0) i.query a.batch)).getD []
    let r : NodeRec := { item := i.item, node := i.node, state := if side then 3 else 1, vscale := sv.vscale, version := 0, pq := pq,
                         attrs := i.attrs, nbrs := near.map (fun c => (linkDist sv.vals c.2, c.1)), vec := sv.bytes }
    let d1 := writeRecord d0 x0 r
    let back := if side || prebuilt then (d1, []) else writeBacks x0 i.node sv.vals d1 near
    let ix1 := { a.ix with pq := (i.node, pq) :: a.ix.pq, entry := if side then a.ix.entry else some (a.ix.entry.getD i.node) }
    let ch : IdxChange := { node := i.node, item := i.item, dead := false, pq := pq,
                            side := if side then some (insertEntry i.item i.node sv.vscale i.attrs sv.bytes) else none }
    { dev := back.1, ix := ix1, nodes := a.nodes ++ i.node :: back.2, changes := a.changes ++ [ch], writes := a.writes + 1 + back.2.length,
      batch := a.batch ++ [(i.node, sv.vals)] }

/-- The items of an IDX_INSERT block, each with its status and, where it is accepted, its node (12 R271). -/
def batchItems (x : Index) (v : Verb) (bs : List Byte) : List InsItem :=
  let n := fld v 20 4
  let pre := bitSet (fld v 17 1) 0
  let size := insItemBytes x.params pre (bitSet (fld v 17 1) 1)
  let items := ((List.range n).zip (chunksOf size n bs)).map (fun p => insItem x.params pre (bitSet (fld v 17 1) 1) p.1 p.2)
  settleBatch x (freeNodes x (x.nodes.length + n + 1) n 0) (if pre then n else 1) (insChecks x items [] (ixSideCap x.params - x.side.length))

/-- The accepted items of an IDX_INSERT, written in turn (12 R271). -/
def insertRun (d : Dev) (x : Index) (v : Verb) (bs : List Byte) : InsAcc :=
  let good := (batchItems x v bs).filter (fun i => i.status == 0)
  let all := good.filterMap (fun i => i.vec.map (fun sv => (i.item, i.node, sv.vals)))
  good.foldl (insertOne (bitSet (fld v 17 1) 0) x all) { dev := d, ix := x, nodes := [], changes := [], writes := 0, batch := [] }

/-- The result of each item of an IDX_INSERT, 16 bytes: its node, all ones where there is none, and its status (12 R271). -/
def insertResults (is : List InsItem) : List Byte :=
  is.flatMap (fun i => natLe (if i.status = 0 then i.node else 2 ^ 64 - 1) 8 ++ [byte i.status] ++ List.replicate 7 0)

/-- IDX_INSERT. -/
def idxInsertBody (v : Verb) (d : Dev) : Except Fail Dev := do
  let fl := fld v 17 1
  let n := fld v 20 4
  let src := fld v 24 8
  let len := fld v 32 8
  let res := fld v 40 8
  check4 v false [(18, 2), (48, 16)]
    [(16, decide (fld v 16 1 < 64)), (17, decide (fl < 4)), (20, inR n 1 4096), (24, src % 64 == 0 && argIn d v src len), (32, argIn d v 0 len),
      (40, outIn d v res (16 * n))]
  let x ← checkIndex d v
  let ps := x.params
  let pre := bitSet fl 0
  needReady x
  need stRange (!pre || ixMode ps == 1)
  need stRange (len == n * insItemBytes ps pre (bitSet fl 1))
  needMedia d true
  let bs ← argRead d v src len
  need stDamaged (!outPartial d v res (16 * n))
  let is := batchItems x v bs
  let a := insertRun d x v bs
  let entry' := if a.ix.entry = x.entry then none else a.ix.entry
  let d1 := if entry'.isSome then writeDescriptor a.dev { x with entry := entry' } else a.dev
  let bad := is.filter (fun i => i.status != 0)
  let w : IdxWriter :=
    { seq := v.seq, kind := 1, lpns := (a.nodes.flatMap (recordLpns x)).eraseDups, changes := a.changes, results := insertResults is, offset := res,
      status := if bad.isEmpty then stOk else stPartial
      fields := [(8, 4, (is.filter (fun i => i.status == 0)).length), (12, 4, bad.length), (16, 4, (bad.head?.map (·.pos)).getD 0xFFFFFFFF), (20, 4, a.writes), (24, 4, x.epoch)]
      entry := entry' }
  .ok (keepRunning (parityStep (updIndex d1 x.id (fun y => { y with writer := some w }))) v)

/-! ### IDX_DELETE (12 R273) -/

/-- One deletion: device, statuses, changes. -/
structure DelAcc where
  dev : Dev
  statuses : List Nat
  changes : List IdxChange
  gone : List Nat
  room : Nat
  deriving DecidableEq, Repr

/-- Delete one item: its record becomes a tombstone. -/
def deleteOne (x : Index) (a : DelAcc) (item : Nat) : DelAcc :=
  match itemNode x item with
  | none => { a with statuses := a.statuses ++ [1] }
  | some n =>
    let side := ixMode x.params = 0
    if a.gone.contains item then { a with statuses := a.statuses ++ [1] }
    else if side && a.room = 0 then { a with statuses := a.statuses ++ [3] }
    else
      let r := match readRecord a.dev x n with
        | .found r => { r with node := n, state := 2, version := r.version + 1 }
        | _ => { item := item, node := n, state := 2, vscale := f32One, version := 1, pq := nodePq x n, attrs := [], nbrs := [], vec := [] }
      let entry : SideEnt := { item := item, node := n, del := true, merged := false, cancelled := false, vscale := 0, attrs := [], vec := [] }
      let ch : IdxChange := { node := n, item := item, dead := true, pq := [], side := if side then some entry else none }
      { dev := writeRecord (tellRead x a.dev n) x r, statuses := a.statuses ++ [0], changes := a.changes ++ [ch], gone := item :: a.gone,
        room := a.room - 1 }

/-- The item IDs of an IDX_DELETE block, taken in turn (12 R273). -/
def deleteRun (d : Dev) (x : Index) (v : Verb) (bs : List Byte) : DelAcc :=
  ((List.range (fld v 20 4)).map (fun i => fieldAt bs (8 * i) 8)).foldl (deleteOne x)
    { dev := d, statuses := [], changes := [], gone := [], room := ixSideCap x.params - x.side.length }

/-- IDX_DELETE. -/
def idxDeleteBody (v : Verb) (d : Dev) : Except Fail Dev := do
  let n := fld v 20 4
  let src := fld v 24 8
  let res := fld v 32 8
  check4 v false [(17, 3), (40, 24)]
    [(16, decide (fld v 16 1 < 64)), (20, inR n 1 65536), (24, argIn d v src (8 * n)), (32, outIn d v res n)]
  let x ← checkIndex d v
  needReady x
  needMedia d true
  let bs ← argRead d v src (8 * n)
  need stDamaged (!outPartial d v res n)
  let a := deleteRun d x v bs
  let w : IdxWriter :=
    { seq := v.seq, kind := 2, lpns := (a.changes.flatMap (fun c => recordLpns x c.node)).eraseDups, changes := a.changes,
      results := a.statuses.map byte, offset := res, status := if a.statuses.all (· == 0) then stOk else stPartial
      fields := [(8, 4, a.changes.length), (12, 4, (a.statuses.filter (· == 1)).length)], entry := none }
  .ok (keepRunning (parityStep (updIndex a.dev x.id (fun y => { y with writer := some w }))) v)

/-! ### Writers at a boundary -/

/-- Apply one change of a writer. -/
def applyChange (x : Index) (c : IdxChange) : Index :=
  if c.dead then
    let cancel := fun (e : SideEnt) => if e.node = c.node && !e.del && !e.merged then { e with cancelled := true } else e
    { x with
      nodes := upsert (fun y => y.1 == c.node) (c.node, 2 + x.parity) x.nodes
      items := x.items.filter (fun y => y.1 != c.item)
      side := x.side.map cancel ++ (match c.side with | some e => [e] | none => []) }
  else
    { x with
      nodes := upsert (fun y => y.1 == c.node) (c.node, 1) x.nodes
      items := upsert (fun y => y.1 == c.item) (c.item, c.node) x.items
      pq := upsert (fun y => y.1 == c.node) (c.node, c.pq) x.pq
      side := x.side ++ (match c.side with | some e => [e] | none => []) }

/-- Finish a writer with its results. -/
def finishWriter (d : Dev) (x : Index) (w : IdxWriter) (status : Nat) : Dev :=
  let y := w.changes.foldl applyChange { x with
    writer := none, state := if x.state = 4 then 0 else x.state, entry := if w.entry.isSome then w.entry else x.entry }
  let d1 := updIndex d x.id (fun _ => y)
  match findVerb d1 w.seq with
  | none => d1
  | some v =>
    let d2 := if w.results.isEmpty then d1 else outWrite d1 v w.offset w.results
    finish d2 v status 0xFF w.fields

/-- A writer that ends early: items whose records were programmed stay, the others are refused and keep their former state; an index that is being
created goes (12 R281, Table 12-11). -/
def cutWriter (d : Dev) (x : Index) (w : IdxWriter) : Dev :=
  if w.kind = 3 then dropIndex d x false
  else
    let kept := w.changes.filter (fun c => (recordLpns x c.node).all (fun l => runProgrammed d x.part l 1))
    let entry' := match w.entry with | some e => if kept.any (fun c => c.node == e) then some e else x.entry | none => x.entry
    let y := kept.foldl applyChange { x with writer := none, entry := entry' }
    updIndex d x.id (fun _ => y)

/-- A writer that reached its limit. -/
def writerTimeout (d : Dev) (seq : Nat) : Dev :=
  match d.indexes.find? (fun x => (x.writer.map (·.seq)) == some seq) with
  | none => d
  | some x => (match x.writer with | none => d | some w => cutWriter d x w)

/-- Writers whose records are durable take effect; media that takes no more programs fails them, and a DAMAGED index completes them with ST_STATE
(12 R271, R273, R277, R280). [Log entry 69, DEDUCED.] -/
def settleWriter (d : Dev) (x : Index) : Dev :=
  match x.writer with
  | none => d
  | some w =>
    let ready := w.lpns.all (fun l => if w.kind = 3 then runProgrammed d x.part l 1 else runDurable d x.part l 1)
    let fail := fun (a : Dev) (st : Nat) => match findVerb a w.seq with | some v => finish a v st 0xFF [] | none => a
    if x.state = 3 then fail (updIndex d x.id (fun y => { y with writer := none })) stState
    else if ready then finishWriter d x w w.status
    else if flashReadable d && d.flash.state ≠ 2 then d
    else fail (cutWriter d x w) stMedia

def settleWriters (d : Dev) : Dev := d.indexes.foldl (fun a x => match findIndex a x.id with | some y => settleWriter a y | none => a) d

/-! ### Merges and repair passes (12 R274, R275) -/

/-- Start a pass: the parity flips. -/
def passStart (x : Index) (j : IdxJob) : Index × IdxJob :=
  ({ x with parity := 1 - x.parity }, { j with pass := true, old := x.parity, sweep := 0 })

/-- Sweep one LIVE node: its edges to nodes that are not LIVE are replaced or removed. [Log entry 69, DEDUCED.] -/
def sweepNode (d : Dev) (x : Index) (n : Nat) : Dev :=
  match readRecord d x n with
  | .found r =>
    if r.nbrs.all (fun e => isLive x e.2) then d
    else
      let mine := storedVals (ixFmt x.params) (ixDims x.params) r.vscale r.vec
      let step := fun (acc : List (Nat × Nat)) (e : Nat × Nat) =>
        if isLive x e.2 then acc ++ [e]
        else
          let taken := fun (m : Nat) => acc.any (fun y => y.2 == m) || r.nbrs.any (fun y => y.2 == m)
          let best := match readRecord d x e.2 with
            | .found t => t.nbrs.foldl (fun (b : Option (Nat × Nat)) (y : Nat × Nat) =>
                if !isLive x y.2 || taken y.2 then b
                else match b with
                  | none => some y
                  | some z => if distLt y.1 z.1 then some y else b) none
            | _ => none
          match best with
          | some y => acc ++ [(linkDist mine (nodeVals d x [] y.2), y.2)]
          | none => acc
      let d1 := ((r.nbrs.map (·.2)).filter (fun t => !isLive x t)).foldl (tellRead x) d
      writeRecord d1 x { r with node := n, nbrs := r.nbrs.foldl step [], version := r.version + 1 }
  | _ => tellRead x d n

/-- The next LIVE node of a sweep. -/
def nextLive (x : Index) (from' : Nat) : Option Nat :=
  minBy (fun (n : Nat) => n) (((x.nodes.filter (fun y => y.2 == 1)).map (·.1)).filter (fun n => decide (from' ≤ n)))

/-- The next entry that a merge links. -/
def nextMerge (x : Index) (cut : Nat) : Option Nat :=
  (List.range cut).find? (fun i => match x.side[i]? with
    | some e => !e.del && !e.merged && !e.cancelled
    | none => false)

/-- Link one side-list entry (12 R274 step 1): it becomes MERGED at the boundary after its records are programmed. -/
def mergeEntryAt (d : Dev) (x : Index) (i : Nat) : Dev :=
  match x.side[i]? with
  | none => d
  | some e =>
    let ps := x.params
    let vals := storedVals (ixFmt ps) (ixDims ps) e.vscale e.vec
    let linked := fun (n : Nat) => isLive x n && !x.side.any (fun s => s.node == n && !s.del && !s.merged && !s.cancelled)
    let walk := linkVisit d x vals
    let near := linkNeighbours x linked vals [] walk
    let r : NodeRec := { item := e.item, node := e.node, state := 1, vscale := e.vscale
                         version := match readRecord d x e.node with | .found r => r.version + 1 | _ => 1
                         pq := nodePq x e.node, attrs := e.attrs, nbrs := near.map (fun c => (linkDist vals c.2, c.1)), vec := e.vec }
    let back := writeBacks x e.node vals (writeRecord (walk.visited.foldl (tellRead x) d) x r) near
    let lpns := ((e.node :: back.2).flatMap (recordLpns x)).eraseDups
    let d1 := updIndex back.1 x.id (fun y => { y with
      job := y.job.map (fun j => { j with linking := some (i, lpns) }), entry := some (y.entry.getD e.node) })
    if x.entry.isNone then writeDescriptor d1 { x with entry := some e.node } else d1

def putIdxJob (d : Dev) (id : Nat) (j : IdxJob) : Dev := updIndex d id (fun y => { y with job := some j })

/-- One unit of an index's background work. -/
def idxUnit (d : Dev) (id : Nat) : Dev :=
  match findIndex d id with
  | none => d
  | some x =>
    match x.job with
    | none => d
    | some j =>
      match (if j.kind = 1 && !j.pass then nextMerge x j.cut else none) with
      | some i => if j.linking.isSome then d else mergeEntryAt d x i
      | none =>
        if j.kind = 3 || j.linking.isSome then d
        else if !j.pass then
          if j.kind = 1 && deadCount x = 0 then d
          else
            let (y, k) := passStart x j
            updIndex d id (fun _ => { y with job := some { k with total := j.total + liveCount x } })
        else
          match nextLive x j.sweep with
          | some n => putIdxJob (sweepNode d x n) id { j with sweep := n + 1, done := j.done + 1 }
          | none => d

/-- The entry that a merge has linked becomes MERGED once its records are programmed (12 R274). -/
def settleLinking (d : Dev) (x : Index) (j : IdxJob) : Dev :=
  match j.linking with
  | none => d
  | some (i, lpns) =>
    if !lpns.all (fun l => runProgrammed d x.part l 1) then d
    else updIndex d x.id (fun y => { y with
      side := (match y.side[i]? with | some e => setNth y.side i { e with merged := true } | none => y.side)
      job := some { j with linking := none, merged := j.merged + 1, done := j.done + 1 } })

/-- End a stopped job at a boundary: merged entries are freed; no node is (12 R274, R275). [Log entry 69, DEDUCED.] -/
def stopIdxJob (d : Dev) (x : Index) (j : IdxJob) : Dev :=
  let y := { x with job := none, side := x.side.filter (fun e => !e.merged) }
  idxDone (updIndex d x.id (fun _ => y)) y j stAborted (natLe j.merged 4)

/-- Background work on indexes at a boundary. -/
def idxBoundary (d : Dev) : Dev :=
  (d.indexes.map (·.id)).foldl (fun a id =>
    match findIndex a id with
    | none => a
    | some x =>
      match x.job with
      | none => a
      | some j =>
        if j.stop then stopIdxJob a x j
        else parityStep ((List.range (Config.indexPace id a.clk.count % 1048576)).foldl (fun b _ => idxUnit b id) (settleLinking a x j))) d

/-- The end of a pass (12 R275 steps 3 and 4): the entry node, the nodes freed, the epoch. -/
def passEnd (d : Dev) (x : Index) (j : IdxJob) : Nat × Dev :=
  let freed := (x.nodes.filter (fun n => n.2 == 2 + j.old)).map (·.1)
  let liveNs := sortBy (fun (a b : Nat) => decide (a ≤ b)) ((x.nodes.filter (fun n => n.2 == 1)).map (·.1))
  let entry' := match x.entry with
    | none => none
    | some e =>
      if isLive x e then some e
      else
        let best := match readRecord d x e with
          | .found r => (r.nbrs.filter (fun (y : Nat × Nat) => isLive x y.2)).foldl (fun (b : Option (Nat × Nat)) (y : Nat × Nat) =>
              match b with
              | none => some y
              | some z => if distLt y.1 z.1 then some y else b) none
          | _ => none
        match best with
        | some y => some y.2
        | none => liveNs.head?
  let y := { x with
    entry := entry'
    nodes := x.nodes.filter (fun n => n.2 != 2 + j.old)
    pq := x.pq.filter (fun n => !freed.contains n.1)
    maps := x.maps.map (fun m => { m with allow := m.allow.filter (fun n => !freed.contains n) })
    epoch := if freed.isEmpty then x.epoch else x.epoch + 1 }
  let d0 := match x.entry with | some e => if isLive x e then d else tellRead x d e | none => d
  let d1 := updIndex d0 x.id (fun z => { y with lostSeen := z.lostSeen })
  let d2 := if y.entry = x.entry && y.epoch = x.epoch then d1 else writeDescriptor d1 y
  let d3 := if freed.isEmpty then d2
    else raise d2 0x0711 (objIn 0x0A x.part x.id) (.part x.part) [(1, x.id), (4, y.epoch), (8, freed.length)]
  (freed.length, parityStep d3)

/-- MERGE_COMPLETE (12 R274 step 3). -/
def mergeComplete (id : Nat) (d : Dev) : Dev :=
  match findIndex d id with
  | none => d
  | some x =>
    match x.job with
    | none => d
    | some j =>
      let swept := j.pass && (nextLive x j.sweep).isNone
      if j.kind ≠ 1 || j.linking.isSome || (nextMerge x j.cut).isSome || !(swept || (!j.pass && deadCount x = 0)) then d
      else
        let (freed, d1) := if j.pass then passEnd d x j else (0, d)
        let d2 := updIndex d1 id (fun y => { y with job := none, side := y.side.drop j.cut })
        idxDone d2 x j stOk (natLe j.merged 4 ++ natLe freed 8)

/-- REPAIR_PASS_END (12 R275). -/
def repairPassEnd (id : Nat) (d : Dev) : Dev :=
  match findIndex d id with
  | none => d
  | some x =>
    match x.job with
    | none => d
    | some j =>
      if j.kind ≠ 2 || !j.pass || (nextLive x j.sweep).isSome then d
      else
        let (_, d1) := passEnd d x j
        idxDone (updIndex d1 id (fun y => { y with job := none })) x j stOk []

/-- Start (mode 0) or stop (mode 1) a merge or a pass. -/
def idxJobBody (kind : Nat) (v : Verb) (d : Dev) : Except Fail Dev := do
  check4 v false [(18, 46)] [(16, decide (fld v 16 1 < 64)), (17, decide (fld v 17 1 < 2))]
  let x ← checkIndex d v
  needReady x
  need stState (ixMode x.params == kind - 1)
  if fld v 17 1 = 1 then
    match x.job with
    | none => failSt stState
    | some j => .ok (finishOk (putIdxJob d x.id { j with stop := true }) v [])
  else
    need stBusy x.job.isNone
    needMedia d true
    let cut := if kind = 1 then x.side.length else 0
    let j0 : IdxJob := { kind := kind, ring := v.ring, tag := fld v 4 4, op := v.op, cut := cut, done := 0, total := cut, merged := 0,
                         pass := false, old := 0, sweep := 0, stop := false, linking := none }
    let (y, j) := if kind = 2 then passStart x { j0 with total := liveCount x } else (x, j0)
    .ok (finish (updIndex d x.id (fun _ => { y with job := some j })) v stDeferred 0xFF (if kind = 1 then [(8, 4, cut)] else []))

/-- IDX_MERGE. [Log entry 69, DEDUCED.] -/
def idxMergeBody (v : Verb) (d : Dev) : Except Fail Dev := idxJobBody 1 v d

/-- IDX_REPAIR. -/
def idxRepairBody (v : Verb) (d : Dev) : Except Fail Dev := idxJobBody 2 v d

/-! ### BITMAP_LOAD and IDX_STATS (12 R276, R279) -/

/-- BITMAP_LOAD: its checks; it takes effect at a boundary. A field of another form is not read. -/
def bitmapLoadBody (v : Verb) (d : Dev) : Except Fail Dev := do
  let num := fld v 18 2
  let form := fld v 20 1
  let cnt := fld v 28 4
  let src := fld v 32 8
  let i := fld v 16 1 % 64
  let cap := match findIndex d i with | some x => ixCap x.params | none => 0
  let len := if form = 0 then roundUp (ceilDiv cap 8) 1 else if form = 1 then 8 * cnt else 0
  check4 v false [(17, 1), (21, 3), (40, 24)]
    [(16, decide (fld v 16 1 < 64)), (18, decide (num < 1024) || (num == 0xFFFF && form != 2)), (20, decide (form < 3)),
      (28, form != 1 || inR cnt 1 16777216), (32, form == 2 || (src % 64 == 0 && argIn d v src len))]
  let x ← checkIndex d v
  if num ≠ 0xFFFF then checkOwned d v 12 (i * 1024 + num) 18 (x.maps.any (fun m => m.num == num))
  needReady x
  if form = 0 then needRange 24 (fld v 24 4 == x.epoch)
  let _ ← argRead d v src len
  if num = 0xFFFF then
    need stLimit (decide (x.maps.length < 1024))
    need stNospace (decide (roundUp (ceilDiv cap 8) 64 ≤ freeIn d x.part 8))
  .ok (registerOp d v (.bitmap v.seq))

/-- The nodes that a BITMAP_LOAD allows, and the listed IDs that name no LIVE item. -/
def bitmapNodes (x : Index) (form cnt : Nat) (bs : List Byte) : List Nat × Nat :=
  if form = 0 then ((List.range (ixCap x.params)).filter (fun n => bitSet (nth bs (n / 8) 0).toNat (n % 8)), 0)
  else
    let ids := (List.range cnt).map (fun k => fieldAt bs (8 * k) 8)
    ((ids.filterMap (itemNode x)).eraseDups, (ids.filter (fun k => (itemNode x k).isNone)).length)

/-- BITMAP_LOAD at its boundary. [Log entry 69, DEDUCED.] -/
def bitmapAt (d : Dev) (seq : Nat) : Dev :=
  match findVerb d seq with
  | none => dropOp d seq
  | some v =>
    match findIndex d (fld v 16 1 % 64) with
    | none => finishSeq d seq stStale []
    | some x =>
      let form := fld v 20 1
      let num0 := fld v 18 2
      let cap := ixCap x.params
      let bytes := roundUp (ceilDiv cap 8) 64
      let len := if form = 0 then ceilDiv cap 8 else if form = 1 then 8 * fld v 28 4 else 0
      if x.state ≠ 0 then finishSeq d seq stState []
      else if form = 0 && fld v 24 4 != x.epoch then finishSeq d seq stRange []
      else if form = 2 then
        let d1 := stampFree d 12 (x.id * 1024 + num0)
        let d2 := freeAlloc d1 (allocKey 10 x.id) (1 + num0)
        finishSeq (updIndex d2 x.id (fun y => { y with maps := y.maps.filter (fun m => m.num != num0) })) seq stOk [(8, 2, x.id * 1024 + num0)]
      else
        match argRead d v (fld v 32 8) len with
        | .error f => finishSeq d seq f.status []
        | .ok bs =>
          let (allow, missing) := bitmapNodes x form (fld v 28 4) bs
          let pick := if num0 ≠ 0xFFFF then some (num0, d)
            else (longestFree d 12 (x.maps.map (fun m => x.id * 1024 + m.num)) (x.id * 1024) 1024).bind (fun r =>
              (allocDdr d x.part bytes (allocKey 10 x.id) (1 + r % 1024)).map (fun a => (r % 1024, setOwner a 12 r x.ctx)))
          match pick with
          | none => finishSeq d seq stNospace []
          | some (num, d1) =>
            let m : NamedMap := { num := num, allow := allow, bytes := bytes }
            let d2 := updIndex d1 x.id (fun y => { y with maps := upsert (fun (z : NamedMap) => z.num == num) m y.maps })
            finishSeq d2 seq stOk [(8, 2, x.id * 1024 + num), (16, 8, mapPopulation x m), (24, 4, missing)]

/-- IDX_STATS. -/
def idxStatsBody (v : Verb) (d : Dev) : Except Fail Dev := do
  let off := fld v 24 8
  check4 v false [(17, 7), (32, 32)] [(16, decide (fld v 16 1 < 64)), (24, off % 64 == 0 && outIn d v off 64)]
  let x ← checkIndex d v
  let free := ixCap x.params - x.nodes.length
  let job := match x.job with | some j => j.kind | none => 0
  let jd := match x.job with | some j => (j.done, j.total) | none => (0, 0)
  let bytes := natLe (liveCount x) 8 ++ natLe (deadCount x) 8 ++ natLe free 8 ++ natLe x.side.length 4 ++ natLe x.epoch 4 ++
    [byte (if x.dropSeq.isSome then 2 else x.state), byte job, byte x.parity, if x.entry.isSome then 1 else 0] ++ List.replicate 4 0 ++ natLe jd.1 8 ++ natLe jd.2 8 ++
    natLe (x.entry.getD 0) 8
  .ok (finishOk (outWrite d v off bytes) v [])

end Sys2Proof.Machine
end

