-- ==== Sys2Proof/Machine/Parts.lean ====
section
/-!
DEFINITION. Partitions and contexts (15 R339-R354): grants, creating, resizing and ending, clearing of released memory, and rebinding.
-/

namespace Sys2Proof.Machine

/-! ### Granules (15 R339-R344) -/

/-- HBM granules of a stack outside every partition and clearing, lowest first. -/
def freeHbm (d : Dev) (st : Nat) : List (Nat × Nat) :=
  let used := d.pool.parts.flatMap (·.hbm) ++ d.pool.clearings.flatMap (·.hbm) ++ d.pool.exchHbm
  ((List.range (nth d.pool.hbmGranules st 0)).map (fun g => (st, g))).filter (fun g => !used.contains g)

/-- Granules of a stack, or of DDR (8), that are still being cleared. -/
def clearingCount (d : Dev) (st : Nat) : Nat :=
  if st = 8 then (d.pool.clearings.flatMap (·.ddr)).length
  else ((d.pool.clearings.flatMap (·.hbm)).filter (fun g => g.1 == st)).length

/-- The totals that PART_CREATE and PART_RESIZE ask for (15 Table 15-2). -/
structure Totals where
  groups : Nat
  hbm : List Nat
  ddr : Nat
  slots : Nat
  lexicons : Nat
  grammars : Nat
  ports : Nat
  qps : Nat
  windows : Nat
  deriving DecidableEq, Repr

def totalsOf (v : Verb) : Totals :=
  { groups := fld v 16 4, hbm := (List.range 8).map (fun s => fld v (20 + s) 1), ddr := fld v 28 2, slots := fld v 32 4, lexicons := fld v 36 1
    grammars := fld v 37 1, ports := fld v 38 1, qps := fld v 40 2, windows := fld v 42 2 }

/-- Check 4 of the totals. -/
def totalsFields (v : Verb) : List (Nat × Bool) :=
  [(16, fld v 16 4 != 0)] ++ (List.range 8).map (fun s => (20 + s, decide (fld v (20 + s) 1 ≤ 64))) ++
    [(28, decide (fld v 28 2 ≤ 1536)), (32, decide (fld v 32 4 ≤ 262144)), (36, decide (fld v 36 1 ≤ 8)), (37, decide (fld v 37 1 ≤ 64)),
     (38, decide (fld v 38 1 < 16)), (40, decide (fld v 40 2 ≤ 16384)), (42, decide (fld v 42 2 ≤ 65535))]

/-- Granules of a stack, or of DDR (8), that a partition holds. -/
def heldIn (x : Part) (st : Nat) : Nat := if st = 8 then x.ddr.length else (x.hbm.filter (fun g => g.1 == st)).length

/-- Whether granules that a partition still lacks are free, with those being cleared counted or not. -/
def granulesFit (d : Dev) (own : Option Part) (t : Totals) (clearing : Bool) : Bool :=
  let have' := fun st => match own with | some x => heldIn x st | none => 0
  let extra := fun st => if clearing then clearingCount d st else 0
  ((List.range 8).zip t.hbm).all (fun x => decide (x.2 ≤ have' x.1 + (freeHbm d x.1).length + extra x.1)) &&
    decide (t.ddr ≤ have' 8 + (freeDdr d).length + extra 8)

/-- Check 6 of the totals (15 R339, R361): groups and counted resources that no other partition holds, then granules. -/
def totalsCheck (d : Dev) (own : Option Part) (t : Totals) : Except Fail Unit := do
  let others := d.pool.parts.filter (fun x => some x.num != own.map (·.num))
  let sum := fun (f : Part → Nat) => sumNat (others.map f)
  need stNospace (others.all (fun x => x.groups &&& t.groups == 0))
  need stNospace (decide (sum (·.slots) + t.slots ≤ 262144) && decide (sum (·.lexicons) + t.lexicons ≤ 8) &&
    decide (sum (·.grammars) + t.grammars ≤ 64) && decide (sum (·.qps) + t.qps + d.buddy.ports.length ≤ 16384) &&
    decide (sum (·.windows) + t.windows ≤ 65535))
  if granulesFit d own t false then .ok ()
  else if granulesFit d own t true then failSt stBusy
  else failSt stNospace

/-- PART_CREATE (15 R343, R344). [Log entry 94, DESIGN CHOICE.] -/
def partCreateBody (v : Verb) (d : Dev) : Except Fail Dev := do
  let n := fld v 44 2
  check4 v false [(30, 2), (47, 9)] (totalsFields v ++ [(39, decide (fld v 39 1 < 2)), (44, decide (n ≤ 1024)), (46, fld v 46 1 == 0)] ++
    blockField d v n ++ [(if v.ring = 16 then 44 else 56, n == 0 || structOk d v (blockOff v) n (fun key => (parseKey key).isSome))])
  let key ← blockArg d v n
  let t := totalsOf v
  need stLimit (decide (d.pool.parts.length < 32))
  totalsCheck d none t
  match longestFree d 0x10 (d.pool.parts.map (·.num)) 0 32 with
  | none => failSt stLimit
  | some p =>
    let kh := if n = 0 then List.replicate 64 0 else sha512 key
    let hbm := ((List.range 8).zip t.hbm).flatMap (fun x => (freeHbm d x.1).take x.2)
    let x : Part := {
      num := p, bound := none, groups := t.groups, hbm := hbm, ddr := (freeDdr d).take t.ddr, slots := t.slots, lexicons := t.lexicons
      grammars := t.grammars, ports := t.ports, signed := fld v 39 1 == 1, qps := t.qps, windows := t.windows, ownerKey := key
      keyId := kh.take 32, digest := List.replicate 64 0, log := [], logNext := 0, logBase := List.replicate 64 0, phraseNext := 1, joining := 0, ending := false }
    let d1 := { d with pool.parts := d.pool.parts ++ [x] }
    .ok (finishOk (measure d1 p 1 p 0 kh) v [(8, 1, p), (12, 4, hbm.length), (16, 16, leNat (kh.take 16))])

/-! ### Clearing (15 R346) -/

/-- Start clearing what leaves a partition. -/
def startClearing (d : Dev) (p op : Nat) (hbm : List (Nat × Nat)) (ddr flash : List Nat) (who : Option (Nat × Nat)) (sanitize : Option Nat) : Dev :=
  let c : Clearing := { rel := d.pool.clearSeq, part := p, op := op, hbm := hbm, ddr := ddr, hbmAll := hbm.length, ddrAll := ddr.length
                        flash := flash, who := who, sanitize := sanitize }
  let jobs := flash.map (fun g => FlashJob.mk 0xFFFF 0 op 5 g p 0)
  let d1 := { d with
    pool.clearings := d.pool.clearings ++ [c]
    pool.clearSeq := d.pool.clearSeq + 1
    flash.jobs := d.flash.jobs ++ jobs
    flash.erasing := (d.flash.erasing ++ flash).eraseDups }
  flash.foldl purgeGranule d1

/-- End a clearing once everything of it is clear (opcode 0: memory released from an exchange area, 17 R399, by no verb): EV_SCRUB_DONE, and for SCRUB its EV_DEFERRED_DONE (15 R346, R349).
What belongs to no partition is told of the device, with Partition 0xFF. [Log entry 92, DEDUCED.] -/
def settleClearing (d : Dev) (rel : Nat) : Dev :=
  match d.pool.clearings.find? (fun c => c.rel == rel) with
  | none => d
  | some c =>
    if !c.hbm.isEmpty || !c.ddr.isEmpty || !c.flash.isEmpty then d
    else
      let d1 := { d with pool.clearings := dropWhere (fun x => x.rel == rel) d.pool.clearings }
      let own := decide (c.part < 32)
      let obj := if own then objPart c.part else objDevice
      let scope : EvScope := if own then .part c.part else .device
      let d2 := if c.op = 0 then d1
        else raise d1 0x0210 obj scope [(1, if own then c.part else 0xFF), (2, c.op), (4, c.hbmAll), (4, c.ddrAll)]
      match c.who with
      | some w => deferredDone d2 w.1 w.2 c.op stOk obj scope []
      | none => d2

/-- Change one clearing. -/
def updClearing (d : Dev) (rel : Nat) (f : Clearing → Clearing) : Dev :=
  settleClearing { d with pool.clearings := updWhere (fun c => c.rel == rel) f d.pool.clearings } rel

/-- A zero-fill of an HBM granule is one near-bank operation of the zero form, a command group for each 4 KiB bank row of the granule
(08 R169, R174, R176). -/
def countFill (d : Dev) (g : Nat × Nat) : Dev := bump (bump d 3 g.1 1 1) 3 g.1 2 262144

/-- ZERO_FILL_COMPLETE: the HBM or DDR granules of a release have been zero-filled and become grantable. -/
def zeroFillComplete (rel : Nat) (ddr : Bool) (d : Dev) : Dev :=
  match d.pool.clearings.find? (fun c => c.rel == rel) with
  | none => d
  | some c =>
    if ddr then (if c.ddr.isEmpty then d else updClearing d rel (fun x => { x with ddr := [] }))
    else if c.hbm.isEmpty then d else updClearing (c.hbm.foldl countFill d) rel (fun x => { x with hbm := [] })

/-- FL_SANITIZE_DONE (13 R309): also the erase of a granule that a partition has left (15 R346). -/
def sanitizeRow (ok : Bool) (d : Dev) : Dev :=
  match d.flash.jobs.find? (jobEnds ok d) with
  | none => d
  | some j =>
    if j.kind ≠ 5 then sanitizeDone ok d
    else
      let g := j.granule
      let d1 := { d with
        flash.jobs := dropWhere (fun (x : FlashJob) => x == j) d.flash.jobs
        flash.erasing := d.flash.erasing.filter (· != g) }
      d1.pool.clearings.foldl (fun a c => if c.flash.contains g then updClearing a c.rel (fun x => { x with flash := x.flash.filter (· != g) }) else a) d1

/-! ### Ending contexts and partitions (02 R34, 15 R348, R352) -/

/-- End every session of a context: how many there were. -/
def endSessions (d : Dev) (c : Nat) : Nat × Dev :=
  let mine := d.kv.cat.filter (fun s => s.ctx == c && s.state != 0 && !s.retired)
  let one := fun (a : Dev) (s : Sess) =>
    match findSess a (handleOf s) with
    | some x => freeEntry (freeSession a x).2 x
    | none => a
  (mine.length, mine.foldl one d)

/-- End the promotions of a context's sessions with EV_DEFERRED_DONE carrying ST_ABORTED (15 R348). [Log entry 93, DEDUCED.] -/
def abortPromotions (d : Dev) (c : Nat) : Dev :=
  let mine := d.kv.ops.filterMap (fun o => match o with
    | .move m => if m.promote && ownerOf d 1 (m.handle % 2 ^ 24) == some c then some m else none
    | _ => none)
  mine.foldl (fun a m => deferredDone (dropMove { a with kv.movers := dropWhere (fun w => w.seq == m.seq) a.kv.movers } m) m.ring m.tag
    (if m.keepFlash then 0x0408 else 0x0409) stAborted (objRef 1 c m.handle) (.part m.part) []) d

/-- Drop the jobs of a context that windows have launched since. -/
def dropJobs (d : Dev) (c : Nat) : Dev := (d.arr.jobs.filter (fun j => j.ctx == c)).foldl (fun a j => freeJob (stopCores a j.num) j.num) d

/-- End the windows and queue pairs of a context. [Log entry 91, DEDUCED.] -/
def endNet (d : Dev) (c : Nat) : Dev :=
  let ws := d.net.windows.filter (fun w => w.ctx == c)
  let d1 := ws.foldl (fun a w => settleWindow (updWindow a w.id (fun x => { x with closed := true, closing := none })) w.id) d
  (d1.net.qps.filter (fun q => q.ctx == c && q.part.isSome)).foldl (fun a q => dropQp a q.qpn) d1

/-- End the checkpoints of a context; one that was being formed fails first (14 R315, Table 14-4). -/
def endCkpts (d : Dev) (c : Nat) : Dev :=
  (d.ckpts.filter (fun k => k.ctx == c)).foldl (fun a k =>
    let b := if k.state = 0 then ckptFail a k 2 else a
    ckptEnd sendRelease b ((findCkpt b k.ctx k.step).getD k)) d

/-- Free the rings of a context (04 R71). -/
def endRings (d : Dev) (c : Nat) : Dev :=
  (d.tur.rings.filter (fun r => !r.admin && r.ctx == c)).foldl (fun a r =>
    stampFree { a with tur.rings := dropWhere (fun x => x.num == r.num) a.tur.rings } 0x21 r.num) d

/-- End a context and everything in it: the sessions ended. [Log entry 91, DEDUCED.] -/
def endContext (d : Dev) (c : Nat) : Nat × Dev :=
  let r := endSessions (endCkpts (abortPromotions (endNet (dropJobs d c) c) c) c) c
  let d1 := endRings r.2 c
  (r.1, stampFree { d1 with pool.ctxs := dropWhere (fun x => x.id == c) d1.pool.ctxs } 0x0F c)

/-- End every context of a partition. -/
def endContexts (d : Dev) (p : Nat) : Dev := (d.pool.ctxs.filter (fun c => ctxPart c.id == p)).foldl (fun a c => (endContext a c.id).2) d

/-- End the objects of a partition's own scope: models, kernels, lexicons, grammars, indexes, and its memory. -/
def endObjects (d : Dev) (p : Nat) : Dev :=
  let d1 := (d.kv.models.filter (fun m => m.part == p)).foldl (fun a m => dropModel a m.id) d
  let d2 := (d1.arr.kernels.filter (fun k => k.part == p)).foldl (fun a k => stampFree a 7 k.id) d1
  let d3 := (d2.lexicons.filter (fun x => x.part == p)).foldl (fun a x => stampFree a 8 x.id) d2
  let d4 := (d3.grammars.filter (fun x => x.part == p)).foldl (fun a x => stampFree a 9 x.id) d3
  let gs := (d4.grammars.filter (fun x => x.part == p)).map (·.id)
  let d5 := (d4.indexes.filter (fun x => x.part == p)).foldl (fun a x => dropIndex a x false) d4
  let mover := fun (w : Mover) => match w.what with | .phrase q _ _ => q == p | .join q => q == p | _ => false
  { d5 with
    arr.kernels := dropWhere (fun (k : Kernel) => k.part == p) d5.arr.kernels
    lexicons := dropWhere (fun x => x.part == p) d5.lexicons
    grammars := dropWhere (fun x => x.part == p) d5.grammars
    gcache := d5.gcache.filter (fun x => !gs.contains x.1)
    kv.phrases := dropWhere (fun (x : Phrase) => x.part == p) d5.kv.phrases
    kv.images := dropWhere (fun (x : ParkImage) => x.part == p && x.ref / 2 ^ 62 == 1) d5.kv.images
    kv.releases := d5.kv.releases.filter (fun r => r.1 != p)
    kv.movers := dropWhere mover d5.kv.movers
    ckptRuns := d5.ckptRuns.filter (fun r => r.1 != p)
    pool.allocs := dropWhere (fun a => a.part == p) d5.pool.allocs }

/-- Granules of the flash that a partition's slots hold. [Log entry 93, DEDUCED.] -/
def partFlash (d : Dev) (p : Nat) : List Nat := (d.flash.assigned.filter (fun a => a.1 == p)).map (fun a => a.2.2)

/-- PART_DESTROY (15 R348). -/
def partDestroyBody (v : Verb) (d : Dev) : Except Fail Dev := do
  let p := fld v 16 1
  check4 v false [(18, 46)] [(16, decide (p < 32)), (17, decide (fld v 17 1 < 2))]
  let x ← checkPart d v p 16
  let flash := partFlash d p
  let keep := bitSet (fld v 17 1) 0
  let d1 := endObjects (endContexts (nextRelease d) p) p
  let d2 := stampFree { d1 with
    pool.parts := dropWhere (fun y => y.num == p) d1.pool.parts
    flash.assigned := d1.flash.assigned.filter (fun a => a.1 != p) } 0x10 p
  let d3 := startClearing d2 p v.op x.hbm x.ddr (if keep then [] else flash) none none
  .ok (settleClearing (finishOk d3 v [(8, 4, x.hbm.length), (12, 4, x.ddr.length)]) d2.pool.clearSeq)

/-- Clear a partition's memory in place: every object ends, its grants, binding and policy stay (15 R349). [Log entry 92, DEDUCED.] -/
def scrubPart (d : Dev) (p op : Nat) (flash : Bool) (who : Option (Nat × Nat)) (sanitize : Option Nat) : Dev :=
  match findPart d p with
  | none => d
  | some x =>
    let d1 := updPart (endObjects (endContexts (nextRelease d) p) p) p (fun y => { y with ending := false, joining := 0 })
    let gs := if flash then partFlash d1 p else []
    settleClearing (startClearing d1 p op x.hbm x.ddr gs who sanitize) d1.pool.clearSeq

/-- The checks of SCRUB: the partition that it names, with SCOPE 1. -/
def scrubCheck (v : Verb) (d : Dev) : Except Fail (Option Nat) := do
  let sc := fld v 16 1
  let p := fld v 17 1
  check4 v false [(19, 45)] [(16, decide (sc < 2)), (17, if sc = 0 then p == 0 else decide (p < 32)), (18, decide (fld v 18 1 < 2))]
  if sc = 1 then
    let _ ← checkPart d v p 17
    .ok (some p)
  else .ok none

/-- SCRUB (15 R349). [Log entry 92, DEDUCED.] -/
def scrubBody (v : Verb) (d : Dev) : Except Fail Dev := do
  let sc ← scrubCheck v d
  let who := some (v.ring, fld v 4 4)
  if let some p := sc then
    let sanitize := if v.ring = 0xFFFF then some v.ld else none
    .ok (scrubPart (finish d v stDeferred 0xFF []) p v.op (bitSet (fld v 18 1) 0) who sanitize)
  else
    let hbm := (List.range 8).flatMap (freeHbm d)
    let d1 := startClearing (finish d v stDeferred 0xFF []) 32 v.op hbm (freeDdr d) [] who none
    .ok (settleClearing d1 d.pool.clearSeq)

/-! ### PART_RESIZE (15 R345, R347) -/

/-- Whether the objects of a partition leave enough granules of a tier empty. Where objects lie among the granules is left open, so only
a tier that holds none, or too much, decides it. [Log entry 90, DESIGN CHOICE.] -/
def shrinkFits (acc : Option (Bool × Dev)) (x : Part) (want st : Nat) : Option (Bool × Dev) :=
  match acc with
  | none => none
  | some (ok, d) =>
    let size := if st = 8 then 2 ^ 32 else 2 ^ 30
    let used := usedIn d x.num st
    if heldIn x st ≤ want then some (ok, d)
    else if want * size < used then some (false, d)
    else if used = 0 then some (ok, d)
    else
      let (b, d1) := drawBool d
      some (ok && b, d1)

/-- Counts that a partition holds: slots bound, lexicons, grammars, QPs, windows, and ports in use. -/
def countsHeld (d : Dev) (p : Nat) : Totals :=
  let qs := d.net.qps.filter (fun q => q.part == some p)
  { groups := 0, hbm := [], ddr := 0, slots := slotsUsed d p, lexicons := (d.lexicons.filter (fun x => x.part == p)).length
    grammars := (d.grammars.filter (fun x => x.part == p)).length, ports := qs.foldl (fun a q => a ||| 2 ^ (q.sub / 4)) 0, qps := qs.length
    windows := (d.net.windows.filter (fun w => w.part == p)).length }

/-- The granules of a partition after a resize, and those that leave it. [Log entry 90, DESIGN CHOICE.] -/
def resizeGranules {α : Type} (held free : List α) (want : Nat) : List α × List α :=
  (held.take want ++ free.take (want - held.length), held.drop want)

/-- PART_RESIZE at its boundary. -/
def resizeAt (d : Dev) (seq : Nat) : Dev :=
  match findVerb d seq with
  | none => dropOp d seq
  | some v =>
    match findPart d (fld v 46 1) with
    | none => finishSeq d seq stStale []
    | some x =>
      let t := totalsOf v
      match totalsCheck d (some x) t with
      | .error f => finishSeq d seq f.status []
      | .ok _ =>
        let c := countsHeld d x.num
        let fits := ((List.range 8).zip t.hbm).foldl (fun acc y => shrinkFits acc x y.2 y.1) (some (true, d))
        match shrinkFits fits x t.ddr 8 with
        | none => finishSeq d seq stBusy []
        | some (ok, d1) =>
          if !ok || t.slots < c.slots || t.lexicons < c.lexicons || t.grammars < c.grammars || t.qps < c.qps || t.windows < c.windows ||
              c.ports &&& t.ports ≠ c.ports then finishSeq d1 seq stBusy []
          else
            let hbm := ((List.range 8).zip t.hbm).map (fun y =>
              resizeGranules (sortBy (fun (a b : Nat × Nat) => decide (a.2 ≤ b.2)) (x.hbm.filter (fun g => g.1 == y.1))) (freeHbm d1 y.1) y.2)
            let ddr := resizeGranules (sortBy (fun (a b : Nat) => decide (a ≤ b)) x.ddr) (freeDdr d1) t.ddr
            let y := { x with groups := t.groups, joining := x.joining &&& t.groups, hbm := hbm.flatMap (·.1), ddr := ddr.1, slots := t.slots, lexicons := t.lexicons
                              grammars := t.grammars, ports := t.ports, qps := t.qps, windows := t.windows }
            let d2 := updPart d1 x.num (fun _ => y)
            let gone := hbm.flatMap (·.2)
            let d3 := if gone.isEmpty && ddr.2.isEmpty then d2 else startClearing d2 x.num v.op gone ddr.2 [] none none
            finishSeq (joinGroups d3 x.num seq (t.groups &&& (x.groups ^^^ 0xFFFFFFFF))) seq stOk []

/-- PART_RESIZE (15 R345): the checks that need no boundary, then it waits for one. -/
def partResizeBody (v : Verb) (d : Dev) : Except Fail Dev := do
  check4 v false [(30, 2), (39, 1), (44, 2), (47, 17)] (totalsFields v ++ [(46, decide (fld v 46 1 < 32))])
  let x ← checkPart d v (fld v 46 1) 46
  totalsCheck d (some x) (totalsOf v)
  .ok (registerOp d v (.resize v.seq))

/-! ### Contexts (15 R351, R352, 04 R55) -/

/-- A ring descriptor's regions: (offset, bytes) of its submission and completion rings. -/
def ringSpans (sq cq depthLog2 : Nat) : List (Nat × Nat) := [(sq, 64 * 2 ^ depthLog2), (cq, 32 * 2 ^ depthLog2)]

/-- The regions of an LD's exchange area that its rings and its event ring take, those of partition `but` apart. -/
def ldSpans (d : Dev) (ld : Nat) (but : Option Nat) : List (Nat × Nat) :=
  ((d.tur.rings.filter (fun r => r.ld == ld && !r.admin && some r.part != but)).flatMap (fun r => ringSpans r.sqOff r.cqOff r.depthLog2)) ++
    (match d.tur.evqs[ld]? with
    | some q => if q.enable then [(q.base * 64, 64 * 2 ^ q.depthLog2)] else []
    | none => [])

/-- Whether two spans overlap. -/
def spansMeet (a b : Nat × Nat) : Bool := decide (a.1 < b.1 + b.2) && decide (b.1 < a.1 + a.2)

/-- Whether each of some spans lies in the exchange area outside its control area, and no two overlap, nor one of `taken`. -/
def spansFit (size : Nat) (taken : List (Nat × Nat)) : List (Nat × Nat) → Bool
  | [] => true
  | s :: ss => decide (65536 ≤ s.1) && decide (s.1 + s.2 ≤ size) && !(taken.any (spansMeet s)) && spansFit size (s :: taken) ss

/-- Take `n` free context ring numbers by the longest-free rule. -/
def takeRings (d : Dev) : Nat → List Nat → Option (List Nat)
  | 0, got => some got
  | k + 1, got =>
    match longestFree d 0x21 (d.tur.rings.map (·.num) ++ got) 17 4079 with
    | none => none
    | some n => takeRings d k (got ++ [n])

/-- A new ring of a descriptor. -/
def newRing (num ld p ctx : Nat) (b : List Byte) : Ring :=
  { num := num, ld := ld, part := p, ctx := ctx, sqOff := fieldAt b 0 8, cqOff := fieldAt b 8 8, depthLog2 := fieldAt b 16 1, prio := fieldAt b 17 1
    vector := fieldAt b 18 2, sqHead := 0, sqTail := 0, cqHead := 0, cqTail := 0, phase := true, done := 0, inFlight := 0, faultCause := 0
    fault := false, halted := false, enabled := true, admin := false, stopped := false, holding := false, held := [] }

/-- Whether a ring descriptor is well formed (04 Table 4-2); its vector is below 256 or 0xFFFF (17 R403). -/
def ringDescOk (b : List Byte) : Bool :=
  fieldAt b 0 8 % 4096 == 0 && fieldAt b 8 8 % 4096 == 0 && inR (fieldAt b 16 1) 4 16 && decide (fieldAt b 17 1 < 4) &&
    (decide (fieldAt b 18 2 < 256) || fieldAt b 18 2 == 0xFFFF) && allZero ((b.drop 22).take 10)

/-- CTX_CREATE. -/
def ctxCreateBody (v : Verb) (d : Dev) : Except Fail Dev := do
  let p := fld v 16 1
  let n := fld v 17 1
  let off := fld v 24 8
  check4 v false [(19, 5), (32, 32)] [(16, decide (p < 32)), (17, inR n 1 16),
    (24, if v.ring = 16 then off == 0 && argIn d v 0 (32 * n) else off % 64 == 0 && argIn d v off (32 * n)),
    (24, structOk d v off (32 * n) (fun tb => (chunksOf 32 n tb).all ringDescOk))]
  let tb ← argRead d v off (32 * n)
  let ds := chunksOf 32 n tb
  let x ← checkPart d v p 16
  match longestFree d 0x0F (d.pool.ctxs.map (·.id)) (64 * p) 64, takeRings d n [] with
  | some c, some nums =>
    match x.bound with
    | none => failSt stState
    | some ld =>
      let spans := ds.flatMap (fun b => ringSpans (fieldAt b 0 8) (fieldAt b 8 8) (fieldAt b 16 1))
      need stRange (spansFit (exSize d ld) (ldSpans d ld none) spans)
      let share := if fld v 18 1 = 0 then 16 else fld v 18 1
      let rs := (nums.zip ds).map (fun y => newRing y.1 ld p c y.2)
      let d1 := { d with pool.ctxs := d.pool.ctxs ++ [Ctx.mk c share 0 false], tur.rings := d.tur.rings ++ rs }
      let d2 := rs.foldl (fun a r => exZero a (exKey ld r.cqOff) (32 * 2 ^ r.depthLog2)) d1
      let d3 := ((List.range n).zip nums).foldl (fun a y => outWrite a v (off + 32 * y.1 + 20) (natLe y.2 2)) d2
      .ok (finishOk d3 v [(8, 2, c)])
  | _, _ => failSt stLimit

/-- The checks of CTX_DESTROY: its context. -/
def ctxDestroyCheck (v : Verb) (d : Dev) : Except Fail Nat := do
  check4 v false [(18, 46)] [(16, decide (fld v 16 2 < 2048))]
  checkCtx d v (fld v 16 2) 16
  .ok (fld v 16 2)

/-- CTX_DESTROY (04 R71, 15 R352). [Log entry 91, DEDUCED.] -/
def ctxDestroyBody (v : Verb) (d : Dev) : Except Fail Dev := do
  let c ← ctxDestroyCheck v d
  let r := endContext (nextRelease d) c
  .ok (finishOk r.2 v [(8, 4, r.1)])

/-- The rings of a context, or of a partition, stop fetching and drop what they have not fetched (04 R71, 15 R348). -/
def stopRings (d : Dev) (mine : Ring → Bool) : Dev :=
  { d with tur.rings := updWhere (fun r => !r.admin && mine r) (fun r => { r with stopped := true, enabled := false, sqTail := r.sqHead }) d.tur.rings }

/-- What the acceptance of CTX_DESTROY or PART_DESTROY does at once; SCRUB of a partition ends its contexts as CTX_DESTROY does
(15 R349). IDX_DROP marks its index as dropping (02 R24). -/
def acceptEnding (v : Verb) (d : Dev) : Dev :=
  if v.op = 0x0206 then
    match ctxDestroyCheck v d with
    | .ok c => stopRings { d with pool.ctxs := updWhere (fun x => x.id == c) (fun x => { x with ending := true }) d.pool.ctxs } (fun r => r.ctx == c)
    | .error _ => d
  else if v.op = 0x0202 then
    match checkPart d v (fld v 16 1) 16 with
    | .ok x =>
      if fld v 17 1 < 2 && fld v 18 46 = 0 then stopRings (updPart d x.num (fun y => { y with ending := true })) (fun r => r.part == x.num) else d
    | .error _ => d
  else if v.op = 0x0702 then
    match idxDropCheck v d with
    | .ok x => updIndex d x.id (fun y => { y with dropSeq := some v.seq })
    | .error _ => d
  else if v.op = 0x0207 then
    match scrubCheck v d with
    | .ok (some p) => stopRings (updPart d p (fun y => { y with ending := true })) (fun r => r.part == p)
    | _ => d
  else d

/-! ### Binding (15 R353, R354) -/

/-- The LD whose key a ring's regions use: 32 + p in the hold of an unbound partition. -/
def holdLd (p : Nat) (ld : Option Nat) : Nat := ld.getD (32 + p)

/-- The rings of a partition. -/
def partRings (d : Dev) (p : Nat) : List Ring := d.tur.rings.filter (fun r => !r.admin && r.part == p)

/-- Copy a region of exchange memory with its poison. -/
def exCopy (d : Dev) (src dst n : Nat) : Dev :=
  let moved := (d.poison.filter (fun s => decide (src / 64 ≤ s) && decide (s < (src + n) / 64))).map (fun s => s - src / 64 + dst / 64)
  let kept := d.poison.filter (fun s => !(decide (dst / 64 ≤ s) && decide (s < (dst + n) / 64)))
  { d with exch := memCopy d.exch src d.exch dst n, poison := kept ++ moved }

/-- Copy a ring's two regions between the areas of two LDs. [Log entry 94, DESIGN CHOICE.] -/
def copyRing (src dst : Nat) (d : Dev) (r : Ring) : Dev :=
  (ringSpans r.sqOff r.cqOff r.depthLog2).foldl (fun a s => exCopy a (exKey src s.1) (exKey dst s.1) s.2) d

/-- The entries of a submission ring that were written in the old area after the rebinding point: each carried as it stood, or as
written, and which is not defined (15 R354). [Log entry 94, DESIGN CHOICE.] -/
def recopyRing (src dst : Nat) (d : Dev) (r : Ring) : Dev :=
  (List.range (2 ^ r.depthLog2)).foldl (fun a i =>
    let (b, a1) := drawBool a
    if b then exCopy a1 (exKey src (r.sqOff + 64 * i)) (exKey dst (r.sqOff + 64 * i)) 64 else a1) d

/-- PART_BIND: the checks, then it waits for its rebinding point. -/
def partBindBody (v : Verb) (d : Dev) : Except Fail Dev := do
  let p := fld v 16 1
  let ld := fld v 17 1
  check4 v false [(18, 46)] [(16, decide (p < 32))]
  let x ← checkPart d v p 16
  need stLimit (ld == 0xFF || decide (ld < (if d.tur.singleLd then 1 else 16)))
  if x.bound = (if ld = 0xFF then none else some ld) then .ok (finishOk d v [(8, 8, d.clk.count)])
  else .ok (registerOp d v (.rebind v.seq))

/-- The rebinding point (15 R354 steps 1 to 3). -/
def rebindAt (d : Dev) (seq : Nat) : Dev :=
  match findVerb d seq with
  | none => dropOp d seq
  | some v =>
    let p := fld v 16 1
    match findPart d p with
    | none => finishSeq d seq stStale []
    | some x =>
      if d.pool.rebinds.any (fun r => r.part == p) then d
      else
        let new' := if fld v 17 1 = 0xFF then none else some (fld v 17 1)
        let rs := partRings d p
        let spans := rs.flatMap (fun r => ringSpans r.sqOff r.cqOff r.depthLog2)
        let fits := match new' with
          | some ld => spansFit (exSize d ld) (ldSpans d ld (some p)) spans
          | none => true
        let bytes := sumNat (spans.map (·.2))
        match (if !fits then none else if new'.isSome || bytes = 0 then some d else allocMost d p bytes (allocKey 0x2001 p) 0) with
        | none => finishSeq d seq (if fits then stNospace else stRange) []
        | some d1 =>
          let d2 := { d1 with tur.rings := updWhere (fun r => !r.admin && r.part == p) (fun r => { r with holding := true }) d1.tur.rings }
          let d3 := rs.foldl (copyRing (holdLd p x.bound) (holdLd p new')) d2
          { d3 with pool.rebinds := d3.pool.rebinds ++ [{ seq := seq, part := p, newLd := new', point := d3.clk.count, copied := false, rings := rs.length }] }

/-- The rings of a partition fetch and post again; what they held is posted as room allows. -/
def releaseRings (d : Dev) (p : Nat) : Dev :=
  let d1 := { d with tur.rings := updWhere (fun r => !r.admin && r.part == p) (fun r => { r with holding := false }) d.tur.rings }
  (partRings d1 p).foldl (fun a y => settleRing (drainHeld 65536 a y.num) y.num) d1

/-- A PART_BIND that is stopped: the partition stays where it is, its rings go on, and no completion is lost (04 R57, R74). -/
def rebindStop (d : Dev) (seq : Nat) : Dev :=
  match d.pool.rebinds.find? (fun r => r.seq == seq) with
  | none => d
  | some b =>
    let d1 := { d with pool.rebinds := dropWhere (fun (r : Rebind) => r.seq == seq) d.pool.rebinds }
    releaseRings (if (findPart d b.part).any (fun x => x.bound.isSome) && b.newLd.isNone then freeAllocs d1 (allocKey 0x2001 b.part) else d1) b.part

/-- Text rings of a partition become none (10 R218): how many. [Log entry 37, DEDUCED.] -/
def detachTexts (d : Dev) (p : Nat) : Nat × Dev :=
  let mine := fun (s : Sess) => s.state != 0 && ctxPart s.ctx == p && s.tok.ringNamed
  let n := (d.kv.cat.filter mine).length
  let off := fun (s : Sess) => { s with tok := noRing s.tok }
  (n, { d with kv.cat := updWhere mine off d.kv.cat })

/-- CKPT_DRAIN HOST writes in progress of a partition end (15 R354). -/
def abortHostDrains (d : Dev) (p : Nat) : Dev :=
  d.ckpts.foldl (fun a c =>
    if ctxPart c.ctx = p then
      c.hosts.foldl (fun b h => answer b h.who stAborted (objCkpt c) p []) (updCkpt a c.ctx c.step (fun x => { x with hosts := [] }))
    else a) d

/-- REBIND_SWITCH: the copies end, and everything of the partition turns to the new LD (15 R354 steps 3 to 5). [Log entry 94, DESIGN CHOICE.] -/
def rebindSwitch (p : Nat) (d : Dev) : Dev :=
  match d.pool.rebinds.find? (fun r => r.part == p), findPart d p with
  | some r, some x =>
    let old := x.bound
    let src := holdLd p old
    let dst := holdLd p r.newLd
    let d0 := (partRings d p).foldl (recopyRing src dst) d
    let d1 := updPart { d0 with
      pool.rebinds := dropWhere (fun y => y.part == p) d0.pool.rebinds
      tur.rings := updWhere (fun y => !y.admin && y.part == p) (fun y => { y with ld := dst, holding := false }) d0.tur.rings } p
      (fun y => { y with bound := r.newLd })
    let d2 := match r.newLd with | some n => setLastLd d1 p n | none => d1
    let d3 := if old.isNone then freeAllocs d2 (allocKey 0x2001 p) else d2
    let (texts, d4) := detachTexts (abortHostDrains d3 p) p
    let d5 := if texts = 0 then d4 else raise d4 0x0511 (objPart p) (.part p) [(1, 1), (4, texts)]
    let code := fun (l : Option Nat) => l.getD 0xFF
    let d6 := raise d5 0x0211 (objPart p) (.part p) [(1, p), (1, code old), (1, code r.newLd), (4, r.rings)]
    let d7 := (partRings d6 p).foldl (fun a y => settleRing (drainHeld 65536 a y.num) y.num) d6
    finishSeq d7 r.seq stOk [(8, 8, r.point), (16, 4, r.rings), (20, 4, texts)]
  | _, _ => d

/-! ### IDENTITY_GET (15 R357) -/

/-- IDENTITY_GET (15 R357). [Log entry 95, DEDUCED.] -/
def identityGetBody (v : Verb) (d : Dev) : Except Fail Dev := do
  let off := fld v 24 8
  let n := fld v 32 4
  let key := if canSign d then d.boot.publicKey else []
  check4 v false [(16, 8), (36, 28)] [(24, (v.ring != 16 || off == 0) && outIn d v off key.length), (32, decide (key.length ≤ n))]
  if outPartial d v off key.length then failSt stDamaged
  else
    let id := if key.isEmpty then 0 else leNat ((sha512 key).take 16)
    .ok (finishOk (if key.isEmpty then d else outWrite d v off key) v [(8, 1, d.boot.identity), (10, 2, key.length), (16, 16, id)])

end Sys2Proof.Machine
end

