-- ==== Sys2Proof/Machine/Telemetry.lean ====
section
/-!
DEFINITION. Telemetry (chapter 20): COUNTERS_READ, EVENT_MASK, LOG_READ, THERMAL_HISTORY and the second tick of the
temperature history.
-/

namespace Sys2Proof.Machine

/-! ### COUNTERS_READ (20 R450-R452) -/

/-- The kind of a counter in a COUNTERS_READ record: 0 SAT48, 1 WRAP64, 2 gauge. -/
def ctrKind (scope num : Nat) : Nat := if ctrWraps scope num then 1 else if ctrGauge scope num then 2 else 0

/-- Number of units of a scope. -/
def ctrUnits (scope : Nat) : Nat :=
  match scope with
  | 0 => 1
  | 1 => 16
  | 2 => 32
  | 3 => 8
  | 4 => 64
  | _ => 16

/-- One 16-byte record. -/
def ctrRecord (c : Ctr) : List Byte :=
  natLe c.num 2 ++ [byte (ctrKind c.scope c.num), byte (if c.ovf then 1 else 0), 0, 0, 0, 0] ++ natLe c.val 8

/-- The rights of R452 on a scope and unit. `live`: the index exists. [Log entry 25, DEDUCED.] -/
def ctrRight (d : Dev) (v : Verb) (scope unit : Nat) (write live : Bool) :
    Except Fail Unit :=
  if scope = 1 then (if fmRights d v.ring || v.ring == unit then .ok () else failId stDenied 18)
  else if scope = 2 then (checkPart d v unit 18).map (fun _ => ())
  else if scope = 4 then checkOwned d v 10 unit 18 live
  else if write && !fmRights d v.ring then failId stDenied 17
  else .ok ()

/-- CLEAR_OVF and RESET on one counter (20 R450). -/
def ctrClear (d : Dev) (c : Ctr) (clear reset : Bool) : Dev :=
  if reset && ctrKind c.scope c.num == 0 then ctrPut d { c with val := 0, ovf := false }
  else if (clear || reset) && c.ovf then ctrPut d { c with ovf := false }
  else d

/-- COUNTERS_READ. `live`: whether the index or sub-port that UNIT names exists. -/
def countersReadBody (live : Bool) (v : Verb) (d0 : Dev) : Except Fail Dev := do
  let d := noteThrottle d0
  let scope := fld v 16 1
  let flags := fld v 17 1
  let unit := fld v 18 2
  let first := fld v 20 2
  let cnt := fld v 22 2
  let off := fld v 24 8
  let last := ctrLast scope
  let nums := (rangeFrom first cnt).filter (fun n => decide (n ≤ last))
  check4 v false [(32, 32)]
    [(16, decide (scope < 6)), (17, decide (flags < 4)), (18, decide (unit < ctrUnits scope) && (scope != 5 || live)),
     (20, decide (1 ≤ first)), (22, decide (1 ≤ cnt) && decide (cnt ≤ 256)),
     (24, if v.ring = 16 then off == 0 else off % 64 == 0 && outIn d v off (16 * nums.length))]
  ctrRight d v scope unit (decide (flags ≠ 0)) live
  if outPartial d v off (16 * nums.length) then failSt stDamaged
  else
    let cs := nums.map (ctrGet d scope unit)
    let d1 := cs.foldl (fun acc c => ctrClear acc c (bitSet flags 0) (bitSet flags 1)) d
    let d2 := outWrite d1 v off (cs.flatMap ctrRecord)
    .ok (finishOk d2 v [(8, 2, nums.length), (10, 2, last), (12, 4, (cs.filter (·.ovf)).length), (16, 8, d.tim.now)])

/-! ### EVENT_MASK (20 R454) -/

/-- EVENT_MASK: suppress, restore or query a range of event codes of one LD. -/
def eventMaskBody (v : Verb) (d : Dev) : Except Fail Dev := do
  let ld := fld v 16 2
  let act := fld v 18 1
  let lo := fld v 20 2
  let hi := fld v 22 2
  check4 v false [(19, 1), (24, 40)]
    [(16, decide (ld ≤ 16)), (18, decide (1 ≤ act) && decide (act ≤ 3)), (22, decide (lo ≤ hi))]
  if !(fmRights d v.ring || v.ring == ld) then failId stDenied 16
  else
    let codes := (rangeFrom lo (hi + 1 - lo)).filter (fun c => !unmaskable c)
    let other := d.tur.masks.filter (fun m => !(m.1 == ld && decide (lo ≤ m.2) && decide (m.2 ≤ hi)))
    let masks := match act with
      | 1 => other ++ codes.map (fun c => (ld, c))
      | 2 => other
      | _ => d.tur.masks
    let inRange := (masks.filter (fun m => m.1 == ld && decide (lo ≤ m.2) && decide (m.2 ≤ hi))).length
    let total := (masks.filter (fun m => m.1 == ld)).length
    .ok (finishOk { d with tur.masks := masks } v [(8, 4, inRange), (12, 4, total)])

/-! ### LOG_READ (20 R455-R457) -/

/-- Whether an LD may read an event-history record (20 R457). -/
def historySees (d : Dev) (n : Nat) (e : EventRec) : Bool :=
  match e.scope with
  | .ld m => m == n
  | _ =>
    let t := e.obj / 2 ^ 59
    if t = 0x1F || e.obj = 0 then true else partLd d (ctxPart (e.obj / 2 ^ 48 % 2048)) == n

/-- The event-history records that a ring may read from `first`, at most `cnt` of them. [Log entry 25, DEDUCED.] -/
def historyRead (d : Dev) (v : Verb) (first cnt : Nat) : List (Nat × EventRec) :=
  ((d.tur.history.filter (fun x => decide (first ≤ x.1) &&
    (fmRights d v.ring || historySees d v.ring x.2)))).take cnt

/-- The entries of LOG 1 that a read returns, and its whole output (20 R455, R456). -/
def measurementRead (p : Part) (first cnt : Nat) : List MeasEntry × List Byte :=
  let es := (p.log.filter (fun e => decide (first ≤ e.num))).take cnt
  (es, padTo p.logBase 64 ++ es.flatMap (fun e => padTo e.bytes 80))

/-- Bytes that a LOG_READ writes, as far as the partition that it names exists. -/
def logBytes (d : Dev) (v : Verb) : Nat :=
  if fld v 16 1 = 1 then
    (match findPart d (fld v 18 2) with
    | some p => (measurementRead p (fld v 20 8) (fld v 28 4)).2.length
    | none => 0)
  else 64 * (historyRead d v (fld v 20 8) (fld v 28 4)).length

/-- LOG_READ. [Log entry 25, DEDUCED.] -/
def logReadBody (v : Verb) (d : Dev) : Except Fail Dev := do
  let log := fld v 16 1
  let unit := fld v 18 2
  let first := fld v 20 8
  let cnt := fld v 28 4
  let off := fld v 32 8
  let room := fld v 40 4
  let most := if v.ring = 16 then (if log = 1 then 50 else 64) else 65536
  check4 v false [(17, 1), (44, 20)]
    [(16, log == 1 || log == 2), (18, if log = 1 then decide (unit < 32) else unit == 0),
     (28, decide (1 ≤ cnt) && decide (cnt ≤ most)),
     (32, if v.ring = 16 then off == 0 else off % 64 == 0 && outIn d v off room), (40, decide (logBytes d v ≤ room))]
  if log = 1 then
    let p ← checkPart d v unit 18
    let (es, out) := measurementRead p first cnt
    let oldest := p.logNext - p.log.length
    if outPartial d v off out.length then failSt stDamaged
    else
      let next := match es.getLast? with | some e => e.num + 1 | none => Nat.max first oldest
      .ok (finishOk (outWrite d v off out) v [(8, 4, es.length), (12, 8, next), (20, 8, oldest), (28, 4, oldest)])
  else
    let es := historyRead d v first cnt
    let oldest := d.tur.histNext - d.tur.history.length
    let out := es.flatMap (fun x => eventBytes x.2 0 x.1)
    if outPartial d v off out.length then failSt stDamaged
    else
      let next := match es.getLast? with | some x => x.1 + 1 | none => Nat.max first oldest
      .ok (finishOk (outWrite d v off out) v [(8, 4, es.length), (12, 8, next), (20, 8, oldest), (28, 4, oldest)])

/-! ### THERMAL_HISTORY (20 R458) -/

/-- A sensor reading as 16 bits. -/
def tempBits (t : Int) : Nat := ofSigned 16 t

/-- The bin of a temperature in units of 0.125 °C (13 Table 13-5 binning: below 0 °C, bins of 5 °C, at or above 110 °C). -/
def tempBin (t : Int) : Nat := if t < 0 then 0 else Nat.min 23 ((t / 40).toNat + 1)

/-- One 256-byte sensor block (20 Table 20-6). -/
def sensorBlock (s : Sensor) : List Byte :=
  padTo (padTo (s.bins.flatMap (fun b => natLe b 8)) 192 ++ natLe (tempBits s.current) 2 ++ natLe (tempBits s.peak) 2 ++
    [0, 0, 0, 0] ++ natLe s.peakTime 8) 256

/-- The output of THERMAL_HISTORY. -/
def thermalOut (d : Dev) : List Byte :=
  padTo (natLe 14 4 ++ [0, 0, 0, 0] ++ natLe d.therm.seconds 8) 64 ++ d.therm.sensors.flatMap sensorBlock

/-- The hottest sensor now, the lowest-numbered on ties, and its reading. -/
def hottest (d : Dev) : Nat × Int :=
  let xs := (List.range d.therm.sensors.length).zip (d.therm.sensors.map (·.current))
  (maxBy (fun (x : Nat × Int) => (x.2 + 32768).toNat) xs).getD (0, 0)

/-- THERMAL_HISTORY. -/
def thermalHistoryBody (v : Verb) (d : Dev) : Except Fail Dev := do
  let off := fld v 24 8
  check4 v false [(17, 7), (36, 28)]
    [(16, decide (fld v 16 1 < 2)), (32, decide (3648 ≤ fld v 32 4)),
     (24, if v.ring = 16 then off == 0 else off % 64 == 0 && outIn d v off (fld v 32 4))]
  if bitSet (fld v 16 1) 0 && !fmRights d v.ring then failId stDenied 16
  else if outPartial d v off 3648 then failSt stDamaged
  else
    let d1 := outWrite d v off (thermalOut d)
    let clear := fun (s : Sensor) => { s with
      bins := List.replicate 24 0
      peak := s.current
      peakTime := d.tim.now }
    let d2 := if bitSet (fld v 16 1) 0 then { d1 with therm.sensors := d1.therm.sensors.map clear } else d1
    let h := hottest d
    .ok (finishOk d2 v [(8, 1, h.1), (10, 2, tempBits h.2), (16, 8, d.therm.seconds)])

/-- One reading of a sensor by telemetry sampling (20 R458, 18 Table 18-6). -/
def senseOne (now : Nat) (first : Bool) (s : Sensor) (t : Int) : Sensor :=
  { s with
    current := t
    second := some (match s.second with | some x => max x t | none => t)
    peak := if first then t else max s.peak t
    peakTime := if first then now else if s.peak < t then now else s.peakTime }

/-- Telemetry sampling at a clause: every sensor is read once. -/
def senseAll (d : Dev) (temps : List Int) : Dev :=
  let rd := fun (i : Nat) (s : Sensor) => match temps[i]? with
    | some t => senseOne d.tim.now (!d.therm.seen) s t
    | none => s
  { d with therm.sensors := ((List.range d.therm.sensors.length).zip d.therm.sensors).map (fun x => rd x.1 x.2)
           therm.seen := d.therm.seen || !temps.isEmpty }

/-- THERMAL_HISTORY_TICK: a whole second of device time has passed; the bin holding the highest reading of that second
gains 1 (20 R458). Bins are SAT48. -/
def thermalTick (d : Dev) : Dev :=
  if d.therm.seconds < d.tim.elapsed / 1000000000 then
    let tick := fun (s : Sensor) => { s with
      bins := (let b := tempBin (s.second.getD s.current)
               s.bins.set b (satAdd (nth s.bins b 0) 1))
      second := none }
    { d with
      therm.sensors := if d.therm.seen then d.therm.sensors.map tick else d.therm.sensors
      therm.seconds := d.therm.seconds + 1 }
  else d

end Sys2Proof.Machine
end

