-- ==== Sys2Proof/Machine/Cxl.lean ====
section
/-!
DEFINITION. The CXL attachment (chapter 17): exchange-area accesses of hosts, the link and its resets, configuration space, bus-mastered
requests, mailbox commands, FM API commands and the Turuk tunnel.
-/

namespace Sys2Proof.Machine

/-! ### Host accesses to the exchange areas (17 R400-R402, R408) -/

/-- The DPA that a host address reaches: the committed decoders cover DPA ranges one after another from 0 (17 R400). [Log entry 97, DEDUCED.] -/
def hdmDpa (hs : List Hdm) (hpa skip : Nat) : Option Nat :=
  match hs with
  | [] => none
  | h :: rest =>
    if !h.committed then none
    else if h.base ≤ hpa && hpa < h.base + h.size then some (hpa - h.base + skip)
    else hdmDpa rest hpa (skip + h.size)

/-- The DPA of a host access that reaches the device: link up, and a decoder covers it. [Log entry 97, DEDUCED.] -/
def hostDpa (d : Dev) (n hpa : Nat) : Option Nat :=
  match findLd d n with
  | some x => if 0 < d.cxl.width then hdmDpa x.hdm hpa 0 else none
  | none => none

/-- Bytes of the control area at the start of an exchange area (04 R54). -/
def controlArea : Nat := 65536

/-- Whether Sanitize hides a DPA of an LD now (17 R408). -/
def sanitizeHides (d : Dev) (n dpa : Nat) : Bool :=
  match findLd d n with
  | some x => x.sanitizing && decide (controlArea ≤ dpa)
  | none => false

/-- Answer a CXL.mem read of one sector: its bytes and the poison indication. -/
def memAnswer (d : Dev) (n dpa : Nat) (bs : List Byte) (poison : Bool) : Dev :=
  { d with outs.memReads := d.outs.memReads ++ [(n, dpa, bs, poison)] }

/-- Whether an interrupt policy byte asks for MSI-X, and its vector (CXL 2.0: bits 1-0 mode, 1 MSI-X; bits 7-4 vector). -/
def policyVector (b : Nat) : Option Nat := if b % 4 = 1 then some (b / 16 % 16) else none

/-- Add a record to an LD's Failure (`kind` 2) or Warning (`kind` 1) log, and signal by the interrupt policy where the log was empty. [Log entry 98, DESIGN CHOICE.] -/
def addRecord (d : Dev) (n kind dpa : Nat) : Dev :=
  match findLd d n with
  | none => d
  | some x =>
    let r := CxlRecord.mk x.nextHandle kind dpa d.clk.count d.tim.now
    let was := if kind = 2 then x.failLog.isEmpty else x.warnLog.isEmpty
    let handle := x.nextHandle % 65535 + 1
    let put := fun (y : CxlLd) =>
      if kind = 2 then { y with nextHandle := handle, failLog := y.failLog ++ [r] } else { y with nextHandle := handle, warnLog := y.warnLog ++ [r] }
    let d1 := updLd d n put
    match policyVector (nth x.intPolicy kind 0) with
    | some v => if was then signalMsix d1 n v else d1
    | none => d1

/-- CXL_MEM_READ: a host reads the 64-byte sector at a host address of LD `n`. `bad`: its check word does not match in the copy that is read;
both copies are then written poisoned (04 R69, 18 R415). [Log entry 97, DEDUCED.] -/
def cxlMemRead (n hpa : Nat) (bad : Bool) (d : Dev) : Dev :=
  match hostDpa d n hpa with
  | none => d
  | some a =>
    let dpa := a / 64 * 64
    if exSize d n ≤ dpa then bump (memAnswer d n dpa (List.replicate 64 255) true) 1 n 3 1
    else if sanitizeHides d n dpa then memAnswer d n dpa (List.replicate 64 0) false
    else
      let bs := memReadN d.exch (exKey n dpa) 64
      let known := exPoisoned d (exKey n dpa) 64
      if known || bad then
        let d0 := if known then d else bump { d with poison := d.poison ++ [exKey n dpa / 64] } 0 0 6 1
        let d1 := bump (addRecord (memAnswer d0 n dpa bs true) n 2 dpa) 1 n 4 1
        raise d1 0x0143 objDevice (.ld n) [(1, n), (8, dpa)]
      else memAnswer d n dpa bs false

/-- CXL_MEM_WRITE: a host writes bytes of one 64-byte sector at a host address of LD `n`. [Log entry 97, DEDUCED.] -/
def cxlMemWrite (n hpa : Nat) (bs : List Byte) (d : Dev) : Dev :=
  match hostDpa d n hpa with
  | none => d
  | some dpa =>
    let data := bs.take (64 - dpa % 64)
    if exSize d n ≤ dpa then bump d 1 n 3 1
    else if sanitizeHides d n dpa then d
    else exWrite d (exKey n dpa) data

/-! ### The link and its resets (17 R397, R404) -/

/-- CXL.io state after a reset: configuration space, BARs, command register, MSI-X, HDM decoders and mailbox. -/
def resetIo (x : CxlLd) : CxlLd :=
  { x with
    hdm := [], command := 0, bar0 := 0, bar2 := 0, msixEnable := false, msixMaskAll := false, msix := [], pending := []
    intPolicy := [0, 0, 0, 0] }

/-- An LD's EVQ registers at power-up (04 R77, Table 4-10). -/
def evqReset (q : Evq) : Evq :=
  { q with base := 0, vector := 0xFFFF, enable := false, depthLog2 := 0, head := 0, tail := 0, phase := false, used := 0, lost := 0 }

/-- CXL_LINK_DOWN: the link is lost. -/
def linkDown (d : Dev) : Dev :=
  if d.cxl.width = 0 then d
  else raiseDev { d with cxl.width := 0, cxl.lds := d.cxl.lds.map resetIo } 0x0141 [(1, 1)]

/-- CXL_LINK_UP: the link trains at `width`, to a root port or to a switch, and the LDs of the bit mask `bound` are bound to hosts. On a
link that is up this is a directed retrain (17 R397, 04 R59). -/
def linkUp (width : Nat) (root : Bool) (bound : Nat) (d : Dev) : Dev :=
  if width ≠ 16 && width ≠ 8 && width ≠ 4 then d
  else if 0 < d.cxl.width then { d with cxl.width := width }
  else
    let set := fun (p : Nat × CxlLd) => { p.2 with bound := if root then p.1 == 0 else bitSet bound p.1 }
    let lds := ((List.range d.cxl.lds.length).zip d.cxl.lds).map set
    raiseDev { d with cxl.width := width, cxl.lds := lds, tur.singleLd := root } 0x0142 [(1, width), (2, 32)]

/-- CXL_HOT_RESET: a hot reset of the link, or a secondary bus reset of the switch port that binds one LD. [Log entry 98, DESIGN CHOICE.] -/
def hotReset (ld : Option Nat) (d : Dev) : Dev :=
  let d1 := match ld with
    | some n => updLd d n resetIo
    | none => { d with cxl.lds := d.cxl.lds.map resetIo }
  raiseDev d1 0x0141 [(1, 2)]

/-- CXL_FLR: a Function Level Reset of one LD, which also resets its EVQ registers. -/
def flr (n : Nat) (d : Dev) : Dev :=
  match findLd d n, d.tur.evqs[n]? with
  | some _, some q =>
    let d1 := updLd d n resetIo
    raiseDev { d1 with tur.evqs := setNth d1.tur.evqs n (evqReset q) } 0x0141 [(1, 3), (1, n)]
  | _, _ => d

/-- CXL_LANE_FAILURE: the link retrains narrower; below x4 there is no width, and the link is lost. -/
def laneFailure (d : Dev) : Dev :=
  let w := d.cxl.width
  if w = 0 then d
  else if w ≤ 4 then linkDown d
  else raiseDev { d with cxl.width := w / 2 } 0x0140 [(1, w), (1, w / 2)]

/-! ### Configuration space, MSI-X and HDM decoders (17 R400, R403, R406) -/

/-- Signal every pending vector of an LD that is not masked any more. -/
def flushMsix (d : Dev) (n : Nat) : Dev :=
  match findLd d n with
  | none => d
  | some x =>
    let go := fun (v : Nat) => x.msixEnable && !x.msixMaskAll && !msixMasked x v
    let d1 := updLd d n (fun y => { y with pending := y.pending.filter (fun v => !go v) })
    { d1 with outs.msix := d1.outs.msix ++ (x.pending.filter go).map (fun v => (n, v)) }

/-- CONFIG_SPACE_WRITE: the command register, a BAR (2 MiB and 64 KiB), or the MSI-X control word (bit 15 enable, bit 14 mask all). [Log entry 97, DEDUCED.] -/
def configWrite (n : Nat) (r : CfgReg) (value : Nat) (d : Dev) : Dev :=
  let set := fun (x : CxlLd) => match r with
    | .command => { x with command := value % 2 ^ 16 }
    | .bar0 => { x with bar0 := value % 2 ^ 64 / 2 ^ 21 * 2 ^ 21 }
    | .bar2 => { x with bar2 := value % 2 ^ 64 / 2 ^ 16 * 2 ^ 16 }
    | .msixControl => { x with msixEnable := bitSet value 15, msixMaskAll := bitSet value 14 }
  flushMsix (updLd d n set) n

/-- MSIX_TABLE_WRITE: address, data and mask of one vector; clearing a mask bit signals a pending vector. -/
def msixWrite (n vec addr data : Nat) (masked : Bool) (d : Dev) : Dev :=
  if vec < 256 then
    let e := MsixEntry.mk vec (addr % 2 ^ 64) (data % 2 ^ 32) masked
    flushMsix (updLd d n (fun x => { x with msix := upsert (fun y => y.vec == vec) e x.msix })) n
  else d

/-- HDM_DECODER_COMMIT: two decoders per LD, committed in order, with a base and size that are multiples of 256 MiB; a commit out of order or
with other values does not take place. [Log entry 97, DEDUCED.] -/
def hdmCommit (n idx base size : Nat) (d : Dev) : Dev :=
  match findLd d n with
  | none => d
  | some x =>
    if idx < 2 && idx == x.hdm.length && base % 2 ^ 28 == 0 && size % 2 ^ 28 == 0 && size != 0 then
      updLd d n (fun y => { y with hdm := y.hdm ++ [Hdm.mk base size true] })
    else d

/-! ### Bus-mastered requests that end (17 R405, R406) -/

/-- A read that ended without its data. A RESTORE finds it gone at the next boundary and completes with ST_MEDIA. -/
def busEnded (d : Dev) (b : BusReq) : Dev :=
  let d1 := busFailed { d with bus := dropWhere (fun (x : BusReq) => x.id == b.id) d.bus } b.ld
  match b.why with
  | .restoreRead _ => d1
  | .textHead h =>
    match findSess d1 h with
    | some s => if s.tok.ringNamed then textDetach d1 s 2 else d1
    | none => d1

/-- BUS_MASTER_ERROR_RESPONSE: Unsupported Request or Completer Abort. -/
def busError (id : Nat) (d : Dev) : Dev :=
  match d.bus.find? (fun b => b.id == id) with
  | some b => busEnded d b
  | none => d

/-- BUS_MASTER_TIMEOUT: 50 ms have passed since the request. [Log entry 103, DEDUCED.] -/
def busTimeout (id dt : Nat) (d0 : Dev) : Dev :=
  let d := advance d0 dt
  match d.bus.find? (fun b => b.id == id) with
  | some b => if b.issued + 50000000 ≤ d.tim.elapsed then busEnded d b else d
  | none => d

/-- BUS_MASTER_READ_COMPLETE: the data of a read for a RESTORE. -/
def busReadDone (id : Nat) (bs : List Byte) (d : Dev) : Dev :=
  match d.bus.find? (fun b => b.id == id) with
  | some b =>
    (match b.why with
    | .restoreRead seq => restoreData seq (padTo bs b.len) { d with bus := dropWhere (fun (x : BusReq) => x.id == id) d.bus }
    | .textHead _ => d)
  | none => d

/-! ### Mailbox commands (17 R407, R408) -/

/-- CXL return codes. -/
def rcOk : Nat := 0
def rcBackground : Nat := 1
def rcInvalid : Nat := 2
def rcUnsupported : Nat := 3
def rcBusy : Nat := 6

/-- Answer a command. [Log entry 96, PRESUMED.] -/
def reply (d : Dev) (ld op code : Nat) (bs : List Byte) : Dev :=
  { d with outs.replies := d.outs.replies ++ [Reply.mk ld op 0 code bs] }

/-- Run a mailbox command of LD `n`, where its host can reach it. [Log entry 96, PRESUMED.] -/
def mailbox (n : Nat) (d : Dev) (f : CxlLd → Dev) : Dev :=
  match findLd d n with
  | some x => if 0 < d.cxl.width then f x else d
  | none => d

/-- Identify Memory Device: volatile capacity is the LD's allocation, persistent capacity and label storage 0, poison list maximum 256. What the
spec does not give (the firmware revision string, the sizes of the event logs) is free. [Log entry 96, PRESUMED.] -/
def mbIdentify (n : Nat) (d : Dev) : Dev :=
  mailbox n d fun x =>
    let (rev, d1) := drawBytes d 16
    let (logs, d2) := drawBytes d1 8
    let cap := natLe (x.m1 + x.m2) 8
    reply d2 n 0x4000 rcOk (rev ++ cap ++ cap ++ natLe 0 8 ++ natLe 0 8 ++ logs ++ natLe 0 4 ++ natLe 256 3 ++ natLe 0 2 ++ [0] ++ [3])

/-- Whether health and media status are not normal: the media is READ_ONLY or MOUNT_FAILED (17 Table 17-4). [Log entry 96, PRESUMED.] -/
def healthBad (d : Dev) : Bool := d.flash.state == 2 || d.flash.state == 4

/-- Life used: WEAR_MAX in whole percent, at most 100. -/
def lifeUsed (d : Dev) : Nat := Nat.min 100 ((withWear d.flash).health.wearMax / 10)

/-- The hottest die in whole degrees. -/
def dieTemp (d : Dev) : Int := (hottest d).2 / 8

/-- Get Health Info. The codes of a status that is not normal are free, and not 0. -/
def mbHealth (n : Nat) (d : Dev) : Dev :=
  mailbox n d fun x =>
    let (h, d1) := drawNat d
    let (m, d2) := drawNat d1
    let bad := healthBad d
    let code := fun (v : Nat) => if bad then byte (v % 255 + 1) else 0
    let reached := fun (t : Option Nat) => match t with | some l => decide (l ≤ lifeUsed d) | none => false
    let hot := match x.tempWarn with | some t => decide (t ≤ dieTemp d) | none => false
    let extra := (if reached x.lifeWarn then 1 else 0) + (if hot then 4 else 0)
    reply d2 n 0x4200 rcOk ([code h, code m, byte extra, byte (lifeUsed d)] ++ natLe (ofSigned 16 (dieTemp d)) 2 ++
      natLe (Nat.min d.flash.health.unsafeOff (2 ^ 32 - 1)) 4 ++ natLe (Nat.min x.refetches (2 ^ 32 - 1)) 4 ++ natLe 0 4)

/-- Get Alert Configuration: critical thresholds are not given. -/
def mbGetAlert (n : Nat) (d : Dev) : Dev :=
  mailbox n d fun x =>
    let (c, d1) := drawBytes d 5
    let valid := (if x.lifeWarn.isSome then 1 else 0) + (if x.tempWarn.isSome then 2 else 0)
    reply d1 n 0x4201 rcOk ([byte valid, 3] ++ c.take 1 ++ [byte (x.lifeWarn.getD 0)] ++ (c.drop 1).take 4 ++
      natLe (ofSigned 16 (x.tempWarn.getD 0)) 2 ++ natLe 0 2 ++ natLe 0 2 ++ natLe 0 2)

/-- Set Alert Configuration: `valid` and `enable` bit masks (bit 0 life used, bit 1 device temperature) and the thresholds. -/
def mbSetAlert (n valid enable life : Nat) (temp : Int) (d : Dev) : Dev :=
  mailbox n d fun _ =>
    if 4 ≤ valid || 100 < life then reply d n 0x4202 rcInvalid []
    else
      let set := fun (x : CxlLd) =>
        let l := if bitSet valid 0 then (if bitSet enable 0 then some life else none) else x.lifeWarn
        let t := if bitSet valid 1 then (if bitSet enable 1 then some temp else none) else x.tempWarn
        { x with lifeWarn := l, tempWarn := t }
      reply (updLd d n set) n 0x4202 rcOk []

/-- The type identifiers of CXL 2.0 event records: General Media and Memory Module. -/
def generalMediaId : List Byte := [0xfb, 0xcd, 0x0a, 0x77, 0xc2, 0x60, 0x41, 0x7f, 0x85, 0xa9, 0x08, 0x8b, 0x16, 0x21, 0xeb, 0xa6]

def memoryModuleId : List Byte := [0xfe, 0x92, 0x74, 0x75, 0xdd, 0x59, 0x43, 0x39, 0xa5, 0x86, 0x79, 0xba, 0xb1, 0x13, 0xb7, 0x74]

/-- One 128-byte event record; what the spec does not give is free. [Log entry 96, PRESUMED.] -/
def cxlRecordBytes (r : CxlRecord) (free : List Byte) : List Byte :=
  (if r.kind = 2 then generalMediaId else memoryModuleId) ++ [0x80] ++ natLe 0 3 ++ natLe r.handle 2 ++ natLe 0 2 ++ natLe r.time 8 ++ [0] ++
    List.replicate 15 0 ++ (if r.kind = 2 then natLe r.dpa 8 ++ padTo free 72 else padTo free 80)

/-- The records of an event log: 0 informational, 1 warning, 2 failure, 3 fatal; informational and fatal stay empty. -/
def eventLog (x : CxlLd) (log : Nat) : List CxlRecord := if log = 1 then x.warnLog else if log = 2 then x.failLog else []

/-- Get Event Records: the oldest records that a 4 KiB payload holds, and whether more remain. -/
def mbGetRecords (n log : Nat) (d : Dev) : Dev :=
  mailbox n d fun x =>
    if 4 ≤ log then reply d n 0x0100 rcInvalid []
    else
      let rs := (eventLog x log).take 31
      let (free, d1) := drawBytes d 80
      let more := if 31 < (eventLog x log).length then 2 else 0
      reply d1 n 0x0100 rcOk ([byte more] ++ List.replicate 19 0 ++ natLe rs.length 2 ++ List.replicate 10 0 ++ rs.flatMap (fun r => cxlRecordBytes r free))

/-- Clear Event Records: all, or the named handles, which must be those of the oldest records. -/
def mbClearRecords (n log : Nat) (all : Bool) (handles : List Nat) (d : Dev) : Dev :=
  mailbox n d fun x =>
    let rs := eventLog x log
    let put := fun (l : List CxlRecord) =>
      updLd d n (fun y => if log = 1 then { y with warnLog := l } else if log = 2 then { y with failLog := l } else y)
    if 4 ≤ log then reply d n 0x0101 rcInvalid []
    else if all then reply (put []) n 0x0101 rcOk []
    else if (rs.take handles.length).map (·.handle) = handles && !handles.isEmpty then reply (put (rs.drop handles.length)) n 0x0101 rcOk []
    else reply d n 0x0101 0x0E []

/-- Get Event Interrupt Policy. -/
def mbGetPolicy (n : Nat) (d : Dev) : Dev := mailbox n d fun x => reply d n 0x0102 rcOk (x.intPolicy.map byte)

/-- Set Event Interrupt Policy: four bytes, informational, warning, failure and fatal. -/
def mbSetPolicy (n : Nat) (p : List Nat) (d : Dev) : Dev :=
  mailbox n d fun _ =>
    if p.length = 4 && p.all (fun b => decide (b < 256) && decide (b % 4 < 2)) then reply (updLd d n (fun y => { y with intPolicy := p })) n 0x0103 rcOk []
    else reply d n 0x0103 rcInvalid []

/-- The Command Effects Log's identifier. -/
def celId : List Byte := [0x0d, 0xa9, 0xc0, 0xb5, 0xbf, 0x41, 0x4b, 0x78, 0x8f, 0x79, 0x96, 0xb1, 0x62, 0x3b, 0x3f, 0x17]

/-- The opcodes of Table 17-4, rising. -/
def mailboxOps : List Nat :=
  [0x0100, 0x0101, 0x0102, 0x0103, 0x0200, 0x0201, 0x0202, 0x0400, 0x0401, 0x4000, 0x4200, 0x4201, 0x4202, 0x4300, 0x4400]

/-- Get Supported Logs: the Command Effects Log only. -/
def mbLogs (n : Nat) (d : Dev) : Dev :=
  mailbox n d fun _ => reply d n 0x0400 rcOk (natLe 1 2 ++ List.replicate 6 0 ++ celId ++ natLe (4 * mailboxOps.length) 4)

/-- Get Log: a part of the Command Effects Log. Each entry is an opcode and its effect bits, which the spec does not give. [Log entry 96, PRESUMED.] -/
def mbGetLog (n : Nat) (id : List Byte) (off len : Nat) (d : Dev) : Dev :=
  mailbox n d fun _ =>
    let bytes := fun (e : List Byte) => (((List.range mailboxOps.length).zip mailboxOps).flatMap (fun p => natLe p.2 2 ++ (e.drop (2 * p.1)).take 2))
    if id ≠ celId || 4 * mailboxOps.length < off + len then reply d n 0x0401 rcInvalid []
    else
      let (e, d1) := drawBytes d (2 * mailboxOps.length)
      reply d1 n 0x0401 rcOk (((bytes e).drop off).take len)

/-- Get Poison List: the poisoned sectors of the LD's area in a DPA range, up to 256, and the overflow indication when more exist. [Log entry 99, DESIGN CHOICE.] -/
def mbPoisonList (n start len : Nat) (d : Dev) : Dev :=
  mailbox n d fun _ =>
    let mine := (sortBy (fun (a b : Nat) => decide (a ≤ b)) (d.poison.filter (fun s => decide (exKey n 0 ≤ s * 64) && decide (s * 64 < exKey n (exSize d n))))).map
      (fun s => s * 64 - exKey n 0)
    let inside := mine.filter (fun a => decide (start ≤ a) && decide (a < start + len * 64))
    let (src, d1) := drawNat d
    let flags := if 256 < mine.length then 2 else 0
    let rec' := fun (a : Nat) => natLe (a + src % 8) 8 ++ natLe 1 4 ++ natLe 0 4
    let rs := inside.take 256
    reply d1 n 0x4300 rcOk ([byte flags, 0] ++ natLe d.tim.now 8 ++ natLe rs.length 2 ++ List.replicate 20 0 ++ rs.flatMap rec')

/-- The submission entry of the SCRUB that Sanitize runs on a partition: SCOPE 1 and FLASH. -/
def sanitizeEntry (p : Nat) : Entry := BitVec.ofNat 512 (0x0207 + 2 ^ 128 * (1 + 2 ^ 8 * p + 2 ^ 16))

/-- Accept the SCRUB of one partition for the Sanitize of LD `n`. [Log entry 99, DESIGN CHOICE.] -/
def sanitizeScrub (n : Nat) (d : Dev) (p : Nat) : Dev :=
  let v : Verb := {
    seq := d.tur.nextSeq, ring := 0xFFFF, op := 0x0207, entry := sanitizeEntry p, block := [], blockEnd := 0, submit := 0, ld := n, part := p, ctx := 0
    admin := true, accClause := d.clk.count, accTime := d.tim.elapsed, started := none, running := false, event := false }
  { d with tur.verbs := d.tur.verbs ++ [v], tur.nextSeq := d.tur.nextSeq + 1 }

/-- Sanitize (17 R408): a background command; one runs at a time on an LD. [Log entry 99, DESIGN CHOICE.] -/
def mbSanitize (n : Nat) (d : Dev) : Dev :=
  mailbox n d fun x =>
    if x.sanitizing then reply d n 0x4400 rcBusy []
    else
      let own := (d.pool.parts.filter (fun p => p.bound == some n)).map (·.num)
      let d1 := own.foldl (sanitizeScrub n) (updLd d n (fun y => { y with sanitizing := true }))
      reply (exZero d1 (exKey n controlArea) (exSize d n - controlArea)) n 0x4400 rcBackground []

/-- MAILBOX_SANITIZE_DONE: every scrub and the zero-fill of LD `n`'s Sanitize have finished. -/
def sanitizeFinished (n : Nat) (d : Dev) : Dev :=
  match findLd d n with
  | none => d
  | some x =>
    let busy := d.tur.verbs.any (fun v => v.ring == 0xFFFF && v.ld == n) || d.pool.clearings.any (fun c => c.sanitize == some n)
    if x.sanitizing && !busy then updLd d n (fun y => { y with sanitizing := false }) else d

/-- Memory Module records in every LD's Warning log when health or media status has changed (17 Table 17-4). -/
def noteHealth (d : Dev) : Dev :=
  let bad := healthBad d
  (List.range d.cxl.lds.length).foldl (fun a n =>
    match findLd a n with
    | some x => if x.healthBad == bad then a else updLd (addRecord a n 1 0) n (fun y => { y with healthBad := bad })
    | none => a) d

/-! ### FM API commands (17 R399, R409) -/

/-- Get LD Info: 16 LDs, and the limits of range 1 (64 GiB) and range 2 (512 GiB) together. [Log entry 96, PRESUMED.] -/
def fmLdInfo (d : Dev) : Dev := reply d 16 0x5400 rcOk (natLe (576 * 2 ^ 30) 8 ++ natLe 16 2 ++ [3])

/-- Get LD Allocations from LD `start`, at most `count`. -/
def fmGetAlloc (start count : Nat) (d : Dev) : Dev :=
  if 16 ≤ start then reply d 16 0x5401 rcInvalid []
  else
    let xs := (d.cxl.lds.drop start).take count
    reply d 16 0x5401 rcOk ([16, 0, byte start, byte xs.length] ++ xs.flatMap (fun x => natLe x.m1 8 ++ natLe x.m2 8))

/-- HBM and DDR granules that back exchange areas of `t1` and `t2` units of 256 MiB, in two copies each (17 R398). [Log entry 100, DESIGN CHOICE.] -/
def exchGranules (t1 t2 : Nat) : Nat × Nat := (ceilDiv t1 2, ceilDiv t2 8)

/-- Ranges as a Set LD Allocations leaves them pending: the larger of old and new. -/
def pendingM (x : CxlLd) : Nat × Nat :=
  match x.newM with
  | some m => (Nat.max x.m1 m.1, Nat.max x.m2 m.2)
  | none => (x.m1, x.m2)

/-- The highest-numbered HBM granules of the stack with the most free ones, `n` of them one by one. [Log entry 100, DESIGN CHOICE.] -/
def takeExchHbm : Nat → Dev → Option Dev
  | 0, d => some d
  | k + 1, d =>
    match maxBy (fun s => (freeHbm d s).length) (List.range 8) with
    | none => none
    | some s =>
      match (freeHbm d s).getLast? with
      | some g => takeExchHbm k { d with pool.exchHbm := d.pool.exchHbm ++ [g] }
      | none => none

/-- Hold the granules that the exchange areas need; none where too few are free. [Log entry 100, DESIGN CHOICE.] -/
def holdExch (d : Dev) : Option Dev :=
  let ms := d.cxl.lds.map pendingM
  let (h, r) := exchGranules (sumNat (ms.map (·.1))) (sumNat (ms.map (·.2)))
  match takeExchHbm (h - d.pool.exchHbm.length) d with
  | none => none
  | some d1 =>
    let extra := r - d1.pool.exchDdr.length
    let free := freeDdr d1
    if free.length < extra then none else some { d1 with pool.exchDdr := d1.pool.exchDdr ++ free.drop (free.length - extra) }

/-- Release the granules that the exchange areas no longer need; they are zero-filled before they become grantable (17 R399, 15 R346). -/
def releaseExch (d : Dev) : Dev :=
  let ms := d.cxl.lds.map pendingM
  let (h, r) := exchGranules (sumNat (ms.map (·.1))) (sumNat (ms.map (·.2)))
  let gone := (d.pool.exchHbm.drop h, d.pool.exchDdr.drop r)
  let d1 := { d with pool.exchHbm := d.pool.exchHbm.take h, pool.exchDdr := d.pool.exchDdr.take r }
  if gone.1.isEmpty && gone.2.isEmpty then d1 else startClearing d1 32 0 gone.1 gone.2 [] none none

/-- Whether a new size of LD `n` would cut through an enabled ring or event ring, or one of its rings has verbs in flight (17 R399). -/
def resizeBusy (d : Dev) (n : Nat) (m : Nat × Nat) : Bool :=
  let size := (m.1 + m.2) * 2 ^ 28
  let rs := d.tur.rings.filter (fun r => r.ld == n)
  rs.any (fun r => decide (0 < r.inFlight)) ||
    rs.any (fun r => r.enabled && (ringSpans r.sqOff r.cqOff r.depthLog2).any (fun s => decide (size < s.1 + s.2))) ||
    (match d.tur.evqs[n]? with
    | some q => q.enable && decide (size < q.base * 64 + 64 * 2 ^ q.depthLog2)
    | none => false)

/-- Whether a pair of ranges is within the limits of one LD (17 R398). -/
def rangesOk (m : Nat × Nat) : Bool := decide (1 ≤ m.1) && decide (m.1 ≤ 256) && decide (m.2 ≤ 256) && decide (m.1 + m.2 ≤ 256)

/-- Set LD Allocations from LD `start`: pairs (M1, M2). It takes effect at the next boundary. [Log entry 99, DESIGN CHOICE.] -/
def fmSetAlloc (start : Nat) (ms : List (Nat × Nat)) (d : Dev) : Dev :=
  let ids := rangeFrom start ms.length
  let d1 := (ids.zip ms).foldl (fun a x => updLd a x.1 (fun y => { y with newM := some x.2 })) d
  let after := d1.cxl.lds.map (fun x => x.newM.getD (x.m1, x.m2))
  let legal := decide (start + ms.length ≤ 16) && !ms.isEmpty && ms.all rangesOk && decide (sumNat (after.map (·.1)) ≤ 256) &&
    decide (sumNat (after.map (·.2)) ≤ 2048)
  let changed := (ids.zip ms).filter (fun x => match findLd d x.1 with | some y => (y.m1, y.m2) != x.2 | none => false)
  let clearing := !(d.pool.clearings.filter (fun c => c.op == 0)).isEmpty
  if !legal then reply d 16 0x5402 rcInvalid []
  else if changed.any (fun x => resizeBusy d x.1 x.2) then reply d 16 0x5402 rcBusy []
  else
    match holdExch d1 with
    | none => reply d 16 0x5402 (if clearing then rcBusy else rcInvalid) []
    | some d2 => reply d2 16 0x5402 rcOk ([byte ms.length, byte start, 0, 0] ++ ms.flatMap (fun m => natLe m.1 8 ++ natLe m.2 8))

/-- The boundary at which new LD allocations take effect: kept below the smaller size, zero above (17 R399). -/
def applyAlloc (d : Dev) : Dev :=
  let one := fun (a : Dev) (n : Nat) =>
    match findLd a n with
    | some x =>
      (match x.newM with
      | some m =>
        let keep := Nat.min ((x.m1 + x.m2) * 2 ^ 28) ((m.1 + m.2) * 2 ^ 28)
        updLd (exZero a (exKey n keep) (2 ^ 36 - keep)) n (fun y => { y with m1 := m.1, m2 := m.2, newM := none })
      | none => a)
    | none => a
  if d.cxl.lds.any (fun x => x.newM.isSome) then releaseExch ((List.range d.cxl.lds.length).foldl one d) else d

/-- The bytes of the QoS control record. [Log entry 3, PRESUMED.] -/
def qosBytes (q : Qos) : List Byte :=
  [byte q.control, byte q.moderate, byte q.severe, byte q.interval] ++ natLe q.basis 2 ++ [byte q.collection]

/-- Get QoS Control. -/
def fmGetQos (d : Dev) : Dev := reply d 16 0x5403 rcOk (qosBytes d.cxl.qos)

/-- Set QoS Control. -/
def fmSetQos (q : Qos) (d : Dev) : Dev :=
  let ok := decide (q.control < 4) && decide (q.moderate ≤ 100) && decide (q.severe ≤ 100) && decide (q.interval < 256) && decide (q.basis < 65536) &&
    decide (q.collection < 256)
  if ok then reply { d with cxl.qos := q } 16 0x5404 rcOk (qosBytes q) else reply d 16 0x5404 rcInvalid []

/-- Get QoS Status: the backpressure average of the last millisecond depends on traffic that the model does not time. -/
def fmQosStatus (d : Dev) : Dev :=
  let (p, d1) := drawNat d
  reply d1 16 0x5405 rcOk [byte (p % 101)]

/-- A per-LD list of fractions in 1/256. -/
def fractions (d : Dev) (start count : Nat) (f : CxlLd → Nat) : List Byte :=
  let xs := (d.cxl.lds.drop start).take count
  [byte xs.length, byte start] ++ xs.map (fun x => byte (f x))

/-- Get QoS Allocated BW. -/
def fmGetAllocBw (start count : Nat) (d : Dev) : Dev :=
  if 16 ≤ start then reply d 16 0x5406 rcInvalid [] else reply d 16 0x5406 rcOk (fractions d start count (·.bwAlloc))

/-- Set a list of fractions from LD `start`. -/
def setFractions (d : Dev) (op start : Nat) (fs : List Nat) (put : Nat → CxlLd → CxlLd) (get : CxlLd → Nat) : Dev :=
  if fs.isEmpty || 16 < start + fs.length || !fs.all (fun f => decide (f < 256)) then reply d 16 op rcInvalid []
  else
    let d1 := ((rangeFrom start fs.length).zip fs).foldl (fun a x => updLd a x.1 (put x.2)) d
    reply d1 16 op rcOk (fractions d1 start fs.length get)

/-- Set QoS Allocated BW. -/
def fmSetAllocBw (start : Nat) (fs : List Nat) (d : Dev) : Dev :=
  setFractions d 0x5407 start fs (fun f x => { x with bwAlloc := f }) (·.bwAlloc)

/-- Get QoS BW Limit (0: unlimited). -/
def fmGetLimit (start count : Nat) (d : Dev) : Dev :=
  if 16 ≤ start then reply d 16 0x5408 rcInvalid [] else reply d 16 0x5408 rcOk (fractions d start count (·.bwLimit))

/-- Set QoS BW Limit. -/
def fmSetLimit (start : Nat) (fs : List Nat) (d : Dev) : Dev :=
  setFractions d 0x5409 start fs (fun f x => { x with bwLimit := f }) (·.bwLimit)

/-! ### TURUK_TUNNEL (17 R410) -/

/-- The answer of a tunnel operation. -/
def tunnelSay (d : Dev) (id code : Nat) (bs : List Byte) : Dev := { d with outs.replies := d.outs.replies ++ [Reply.mk 16 0xC100 id code bs] }

/-- Verbs of ring 16 that are accepted, waiting, or not collected. -/
def hubLoad (d : Dev) : Nat := d.tur.hub.length + (d.tur.verbs.filter (fun v => v.ring == 16)).length + d.tur.hubHeld.length

/-- TUNNEL_SUBMIT: place an entry and its block on ring 16. A block above 4,096 bytes is refused, and so is a submission while ring 16 is not
open (19 R440). [Log entry 99, DESIGN CHOICE.] -/
def tunnelSubmit (entry : Entry) (block : List Byte) (d : Dev) : Dev :=
  if 4096 < block.length then tunnelSay d 0 rcInvalid []
  else if (findRing d 16).isNone then tunnelSay d 0 rcUnsupported []
  else if 63 ≤ hubLoad d then tunnelSay d 0 rcOk (tunnelReply 2 0 0 [] [])
  else
    let n := d.tur.submitSeq
    { d with
      tur.hub := d.tur.hub ++ [HubEntry.mk entry block n]
      tur.hubWaits := d.tur.hubWaits ++ [HubWait.mk n d.tim.elapsed true]
      tur.submitSeq := n + 1 }

/-- TUNNEL_COLLECT: the oldest held completion with the TAG, or with TAG 0 the oldest of all. -/
def tunnelCollect (tag : Nat) (d : Dev) : Dev :=
  match d.tur.hubHeld.findIdx? (fun h => tag == 0 || h.tag == tag) with
  | none => tunnelSay d 0 rcOk (tunnelReply 3 0 0 [] [])
  | some i =>
    match d.tur.hubHeld[i]? with
    | none => d
    | some h => tunnelSay { d with tur.hubHeld := d.tur.hubHeld.eraseIdx i } 0 rcOk (tunnelReply 0 h.block.length 0 h.cpl h.block)

/-- TUNNEL_EVENTS: up to `want` event records of the FM-owned LD, and FM_EVENTS_LOST at bytes 48-55. -/
def tunnelEvents (want : Nat) (d : Dev) : Dev :=
  if want = 0 || 62 < want then tunnelSay d 0 rcInvalid []
  else
    let rs := d.tur.fmQueue.take want
    let bs := putBytes (tunnelReply (if rs.isEmpty then 3 else 0) 0 rs.length [] (rs.flatMap id)) 48 (natLe d.tur.fmLost 8)
    tunnelSay { d with tur.fmQueue := d.tur.fmQueue.drop want } 0 rcOk bs

/-- TUNNEL_SUBMIT_EXPIRY: a SUBMIT has waited 1 s; it reports PENDING, and the completion will be held. -/
def tunnelExpiry (submit dt : Nat) (d0 : Dev) : Dev :=
  let d := advance d0 dt
  match d.tur.hubWaits.find? (fun w => w.submit == submit) with
  | some w =>
    if w.waiting && w.at' + 1000000000 ≤ d.tim.elapsed then
      let d1 := { d with tur.hubWaits := updWhere (fun x => x.submit == submit) (fun x => { x with waiting := false }) d.tur.hubWaits }
      tunnelSay d1 submit rcOk (tunnelReply 1 0 0 [] [])
    else d
  | none => d

end Sys2Proof.Machine
end

