-- ==== Sys2Proof/Machine/Repair.lean ====
section
/-!
DEFINITION. Repair and tests (18 R416-R430): defects and their reports, retired cores and the spare map, lanes, the repair map, refetches that
end, patrol scrub, rolling self-test, and the verbs of chapter 18.
-/

namespace Sys2Proof.Machine

/-! ### Reports (18 R425) -/

/-- Whether two defects are the same unit and place. -/
def sameDefect (a b : Defect) : Bool := a.kind == b.kind && a.unit == b.unit && a.loc == b.loc

/-- The report entries that the map in effect does not hold. -/
def reportHeld (d : Dev) : List RepEntry := d.rep.report.filter (fun e => !d.rep.mapEntries.any (sameDefect e.defect))

/-- Add a defect to the report, once; beyond 4,096 entries it counts in REPORT_LOST. FLAGS: 1 applied, 2 proposed. -/
def addReport (d : Dev) (x : Defect) (flags : Nat) : Dev :=
  if d.rep.report.any (fun e => sameDefect e.defect x) || d.rep.mapEntries.any (sameDefect x) then d
  else if 4096 ≤ d.rep.report.length then bump d 0 0 12 1
  else { d with rep.report := d.rep.report ++ [RepEntry.mk x flags (d.clk.count % 2 ^ 32)] }

/-! ### Cores, clusters and channel cores (07 R160, 18 R421, R422, R428) -/

/-- Working cores of a cluster, and working spares beyond its 16 logical positions. -/
def workingCores (d : Dev) (c : Nat) : Nat := ((List.range 18).filter (fun p => !d.arr.retired.contains (c, p))).length

def workingSpares (d : Dev) (c : Nat) : Nat := workingCores d c - 16

/-- Retire a core: EV_CORE_RETIRED with its cause, a report entry, and the spare map at the next boundary. [Log entry 107, DEDUCED.] -/
def retireCore (d : Dev) (c p cause : Nat) : Dev :=
  if d.arr.retired.contains (c, p) then d
  else
    let d1 := { d with arr.retired := d.arr.retired ++ [(c, p)] }
    let d2 := raiseDev (bump d1 0 0 11 1) 0x0152 [(2, c), (1, p), (1, cause), (1, workingSpares d1 c)]
    addReport d2 { kind := 1, unit := c, loc := p, spare := 0 } 1

/-- The channel whose cores take the work of a channel core that is out (18 Table 18-3): its own while the pair core works, else the
neighbouring one. -/
def movedChannel (d : Dev) (fc : Nat) : Nat :=
  let ch := fc / 2
  if d.arr.fcOut.contains (if fc % 2 = 0 then fc + 1 else fc - 1) then (if ch % 2 = 0 then ch + 1 else ch - 1) else ch

/-- Take a channel core out of service. -/
def retireFc (d : Dev) (fc : Nat) : Dev :=
  if d.arr.fcOut.contains fc then d
  else
    let d1 := { d with arr.fcOut := d.arr.fcOut ++ [fc] }
    addReport (raiseDev d1 0x0156 [(1, fc), (1, movedChannel d1 fc)]) { kind := 8, unit := fc, loc := 0, spare := 0 } 1

/-- The spare map after takeovers: a position whose core is not usable passes to the lowest usable spare. -/
def remapFrom (usable : Nat → Bool) (taken : List Nat) : List Nat → List Nat
  | [] => []
  | p :: ps =>
    if usable p then p :: remapFrom usable taken ps
    else
      match (List.range 18).find? (fun q => usable q && !taken.contains q) with
      | some q => q :: remapFrom usable (q :: taken) ps
      | none => p :: remapFrom usable taken ps

/-- Spares take over in a cluster at a boundary, and a cluster with fewer than 16 working cores leaves service (07 R160). -/
def settleCluster (d : Dev) (c : Nat) : Dev :=
  let m := clusterMap d c
  let usable := coreUsable d c
  let d1 := if m.all usable then d else { d with arr.spare := upsert (fun x => x.1 == c) (c, remapFrom usable m m) d.arr.spare }
  if workingCores d1 c < 16 && !d1.arr.out.contains c then
    raiseDev { d1 with arr.out := d1.arr.out ++ [c] } 0x0153 [(2, c), (1, workingCores d1 c)]
  else d1

/-- The clusters that retirements, tests or the map touch. -/
def touchedClusters (d : Dev) : List Nat :=
  ((d.arr.retired.map (·.1)) ++ (d.arr.held.map (·.cluster)).filter (fun c => decide (c < 256))).eraseDups

/-- Cores whose tile store has poisoned three sectors within 1 s are retired (18 R422). -/
def settleTiles (d : Dev) : Dev :=
  let recent := d.arr.tsErrors.filter (fun e => decide (d.tim.elapsed ≤ e.2.2 + 1000000000))
  let cores := (recent.map (fun e => (e.1, e.2.1))).eraseDups
  let bad := cores.filter (fun x => decide (3 ≤ (recent.filter (fun e => (e.1, e.2.1) == x)).length))
  bad.foldl (fun a x => retireCore a x.1 x.2 2) { d with arr.tsErrors := recent }

/-! ### Lanes (18 R421) -/

/-- UCIe spare lanes left in a module and on the device; their number at first is not given. [Log entry 106, PRESUMED.] -/
def moduleSpares (d : Dev) (link mod : Nat) : Nat :=
  Config.moduleSpares link mod - (d.rep.lanes.filter (fun l => l.1 == link && l.2.1 == mod && l.2.2.2 != 255)).length

/-- UCIe spare lanes left on the device. [Log entry 106, PRESUMED.] -/
def laneSpares (d : Dev) : Nat := Config.laneSpares - (d.rep.lanes.filter (fun l => l.2.2.2 != 255)).length

/-- A UCIe lane fails: a spare lane takes its place while the module has one; then the module runs at half width. [Log entry 106, PRESUMED.] -/
def laneRepair (link mod lane : Nat) (d : Dev) : Dev :=
  if d.rep.lanes.any (fun l => l.1 == link && l.2.1 == mod && l.2.2.1 == lane) then d
  else
    let left := moduleSpares d link mod
    let used := Config.moduleSpares link mod - left
    let spare := if 0 < left then used % 255 else 255
    let d1 := { d with rep.lanes := d.rep.lanes ++ [(link, mod, lane, spare)] }
    let half := d1.rep.lanes.any (fun l => l.1 == link && l.2.1 == mod && l.2.2.2 == 255)
    let d2 := raiseDev d1 0x0154 [(1, link), (1, mod), (1, lane), (1, moduleSpares d1 link mod), (1, if half then 32 else 64)]
    addReport d2 { kind := 6, unit := link, loc := mod * 256 + lane, spare := if spare = 255 then 0 else spare } 1

/-- ETH_LANE_FAILURE as a row: the port degrades or goes down, and the lane is reported. -/
def ethLane (n lane corrected uncorrectable : Nat) (d : Dev) : Dev :=
  addReport (laneFailed n lane corrected uncorrectable d) { kind := 7, unit := n, loc := lane, spare := 0 } 1

/-! ### Defects found (18 Table 18-3, R426) -/

/-- Act on a defect: what is automatic takes effect, the rest is proposed for the map. -/
def applyDefect (d : Dev) (x : Defect) : Dev :=
  match x.kind with
  | 1 => retireCore d (x.unit % 256) (x.loc % 18) 1
  | 2 => addReport (if d.arr.out.contains x.unit then d else { d with arr.out := d.arr.out ++ [x.unit] }) x 1
  | 6 => laneRepair x.unit (x.loc / 256 % 256) (x.loc % 256) d
  | 7 => ethLane x.unit x.loc 0 0 d
  | 8 => retireFc d (x.unit % 64)
  | _ => addReport d x 2

/-- A pseudo-channel or rank proposed for retirement: EV_MEMORY_FAILING with the hard sectors that it holds. -/
def memoryFailing (d : Dev) (kind unit loc : Nat) : Dev :=
  let n := match d.rep.hard.find? (fun h => h.1 == kind && h.2.1 == unit && h.2.2.1 == loc) with | some h => h.2.2.2 | none => 0
  addReport (raiseDev d 0x0155 [(1, kind), (2, unit), (4, loc), (4, n)]) { kind := kind, unit := unit, loc := loc, spare := 0 } 2

/-- Count a hard sector of a pseudo-channel or rank; the eighth proposes it (18 R426). -/
def countHard (d : Dev) (x : Defect) : Dev :=
  let same := fun (h : Nat × Nat × Nat × Nat) => h.1 == x.kind && h.2.1 == x.unit && h.2.2.1 == x.loc
  let n := match d.rep.hard.find? same with | some h => h.2.2.2 | none => 0
  let d1 := { d with rep.hard := upsert same (x.kind, x.unit, x.loc, n + 1) d.rep.hard }
  if n + 1 = 8 then memoryFailing d1 x.kind x.unit x.loc else d1

/-! ### Errors found by patrol scrub (18 R416, R427) -/

/-- A refetch of something that is not a phrase: 1 pinned tiles, 2 search tables, 3 a flash map segment, 4 a kernel in a kernel cache. The error counts
once, until its refetch ends. -/
def startRefetch (d0 : Dev) (kind part obj : Nat) : Dev :=
  if d0.arr.refetches.any (fun r => r.kind == kind && r.obj == obj && r.part == part) then d0
  else
    let d := bump d0 0 0 6 1
    let r : Refetch := { id := d.arr.nextRefetch, kind := kind, part := part, obj := obj, tier := 0
                         src := if kind = 1 || kind = 4 then 0 else 2, sectors := [0] }
    { d with arr.refetches := d.arr.refetches ++ [r], arr.nextRefetch := d.arr.nextRefetch + 1 }

/-- A sector of the lexicon store or of grammar tables: EV_OBJECT_DAMAGED once per object and sector. -/
def tableDamaged (d : Dev) (type id off : Nat) : Dev :=
  let seen := if type = 8 then (findLex d id).map (fun x => (x.part, x.damaged)) else (findGram d id).map (fun x => (x.part, x.damaged))
  match seen with
  | none => d
  | some (p, l) =>
    if l.contains (off / 64) then d
    else
      let d0 := bump d 0 0 6 1
      let d1 := if type = 8 then { d0 with lexicons := updWhere (fun x => x.id == id) (fun x => { x with damaged := x.damaged ++ [off / 64] }) d0.lexicons }
        else { d0 with grammars := updWhere (fun x => x.id == id) (fun x => { x with damaged := x.damaged ++ [off / 64] }) d0.grammars }
      raise d1 0x0151 (objIn type p id) (.part p) [(8, objIn type p id), (8, off / 64 * 64)]

/-- A sector whose read-back after its rewrite fails again is hard (18 R418). -/
def rewritten (d : Dev) (hard : Option Defect) : Dev :=
  match hard with
  | some x => countHard (bump d 0 0 13 1) x
  | none => d

/-- What patrol does with a sector in error: it treats it as a read would, and one that holds no object becomes zeros (18 R427). -/
def patrolSector (d : Dev) (b : BadSector) : Dev :=
  match b with
  | .exch ld off =>
    let s := exKey ld off / 64
    if exSize d ld ≤ off || d.poison.contains s then d else bump { d with poison := d.poison ++ [s] } 0 0 6 1
  | .phrase p id tier s hard =>
    let r := phraseError d p id (tier % 2) s
    (match hard, r.2 with
    | some x, false => countHard (hardSector r.1 p id (tier % 2) s) x
    | _, _ => r.1)
  | .image p r => imagePoisoned d p r
  | .range h m =>
    (match findSess d h with
    | some s => if s.marks.contains m then d else rederive (bump d 0 0 6 1) h m
    | none => d)
  | .weight m l s => weightDamaged d m l s
  | .kernel k s => kernelDamaged d k s
  | .lexicon i off => tableDamaged d 8 i off
  | .grammar i off => tableDamaged d 9 i off
  | .pinned m =>
    (match findModel d m with
    | some x => startRefetch d 1 x.part m
    | none => d)
  | .kernelCache k =>
    (match findKernel d k with
    | some x => startRefetch d 4 x.part k
    | none => d)
  | .searchCodes i =>
    (match findIndex d i with
    | some x => startRefetch (bump d 0 0 6 1) 2 x.part i
    | none => d)
  | .searchTables i => if (findIndex d i).isSome then updIndex (bump d 0 0 6 1) i (fun x => { x with state := 3 }) else d
  | .mapSegment s => startRefetch d 3 32 s
  | .noObject hard => rewritten (bump d 0 0 6 1) hard

/-- Patrol finds one sector in error; one that was known already is no new error (18 R415). [Log entry 104, DESIGN CHOICE; entry 107, DEDUCED.] -/
def patrolError (d0 : Dev) (b : BadSector) : Dev :=
  let d := patrolSector d0 b
  if ctrGet d 0 0 6 = ctrGet d0 0 0 6 then d else bump d 0 0 9 1

/-- REFETCH_COMPLETE: the sectors of a refetch come back from the lower copy, or that copy fails too (18 R417). `hard`: sectors whose
read-back fails again, with their pseudo-channel or rank (18 R418). `pages`: for a map segment, the pages replayed. -/
def refetchComplete (id : Nat) (ok : Bool) (hard : List (Nat × Defect)) (pages : Nat) (d0 : Dev) : Dev :=
  match d0.arr.refetches.find? (fun r => r.id == id) with
  | none => d0
  | some r =>
    let d := { d0 with arr.refetches := dropWhere (fun (x : Refetch) => x.id == id) d0.arr.refetches }
    match r.kind with
    | 0 =>
      if !ok then
        let d1 := match findPhrase d r.part r.obj with
          | some x => r.sectors.foldl (fun a s => phraseDamaged a x s) d
          | none => d
        reissueItems d1 r.part r.obj
      else
        let good := r.sectors.filter (fun s => !hard.any (fun h => h.1 == s))
        let d1 := good.foldl (fun a s => setPoison a r.part r.obj r.tier s false) d
        let d2 := (hard.filter (fun h => r.sectors.contains h.1)).foldl (fun a h => countHard (hardSector a r.part r.obj r.tier h.1) h.2) d1
        let ctx := match findPhrase d2 r.part r.obj with | some x => x.ctx | none => r.part * 64
        reissueItems (noteRefetch d2 (objRef 2 ctx r.obj) r.part r.src r.sectors.length) r.part r.obj
    | 1 => if ok then noteRefetch d (objIn 6 r.part r.obj) r.part r.src r.sectors.length else weightDamaged d r.obj 0 0
    | 2 => if ok then noteRefetch d (objIn 10 r.part r.obj) r.part r.src r.sectors.length else updIndex d r.obj (fun x => { x with state := 3 })
    | 3 => raiseDev d 0x0817 [(4, r.obj), (8, pages)]
    | _ => if ok then noteRefetch d (objIn 7 r.part r.obj) r.part r.src r.sectors.length else kernelDamaged d r.obj 0

/-! ### The repair map (18 R423, R424) -/

/-- An entry of a map or report. -/
def entryBytes (x : Defect) (flags clause : Nat) : List Byte :=
  [byte x.kind, byte flags] ++ natLe x.unit 2 ++ natLe x.loc 4 ++ natLe x.spare 4 ++ natLe clause 4

def entryOf (b : List Byte) : Defect := { kind := fieldAt b 0 1, unit := fieldAt b 2 2, loc := fieldAt b 4 4, spare := fieldAt b 8 4 }

/-- Whether an entry may stand in a map: a KIND of Table 18-4, FLAGS and CLAUSE 0, and fields in the ranges of the table. -/
def entryOk (b : List Byte) : Bool :=
  let x := entryOf b
  fieldAt b 1 1 == 0 && fieldAt b 12 4 == 0 && (match x.kind with
    | 1 => decide (x.unit < 256) && decide (x.loc < 18) && x.spare == 0
    | 2 => decide (x.unit < 256) && x.loc == 0 && x.spare == 0
    | 3 => true
    | 4 => decide (x.unit < 8) && decide (x.loc / 256 < 32) && decide (x.loc % 256 < 2) && x.spare == 0
    | 5 => decide (x.unit < 12) && decide (x.loc / 256 < 2) && decide (x.loc % 256 < 16) && x.spare == 0
    | 6 => decide (x.loc < 65536)
    | 7 => decide (x.unit < 4) && decide (x.loc < 8) && x.spare == 0
    | 8 => decide (x.unit < 64) && x.loc == 0 && x.spare == 0
    | _ => false)

/-- Apply the new entries of a map at run time (18 R424): KIND 1, 2, 6, 7 and 8, at a boundary. The units are the map's own: no report entry
and no EV_CORE_RETIRED; a cluster that falls short leaves service. [Log entry 105, DEDUCED.] -/
def applyEntry (d : Dev) (x : Defect) : Dev :=
  match x.kind with
  | 1 => if d.arr.retired.contains (x.unit, x.loc) then d else { d with arr.retired := d.arr.retired ++ [(x.unit, x.loc)] }
  | 2 => if d.arr.out.contains x.unit then d else raiseDev { d with arr.out := d.arr.out ++ [x.unit] } 0x0153 [(2, x.unit), (1, workingCores d x.unit)]
  | 6 => laneRepair x.unit (x.loc / 256 % 256) (x.loc % 256) d
  | 7 => laneFailed x.unit x.loc 0 0 d
  | 8 => if d.arr.fcOut.contains x.unit then d else
      let d1 := { d with arr.fcOut := d.arr.fcOut ++ [x.unit] }
      raiseDev d1 0x0156 [(1, x.unit), (1, movedChannel d1 x.unit)]
  | _ => d

/-- Put a final map in effect: measurement 4, and its entries. In stage 4 it is the first map, applied whole, and the self-test starts. -/
def mapFinal (d : Dev) (header : List Byte) (xs : List Defect) : Dev :=
  let bytes := header ++ xs.flatMap (fun x => entryBytes x 0 0)
  let fresh := xs.filter (fun x => !d.rep.mapEntries.any (sameDefect x) && [1, 2, 6, 7, 8].contains x.kind)
  let d1 := { d with
    rep.map := bytes
    rep.mapEntries := xs
    rep.gathered := none
    rep.parts := []
    boot.mapDigest := sha512 bytes }
  if d1.boot.stage = 4 then
    let pcs := ((xs.filter (fun x => x.kind == 4)).map (fun x => (x.unit, x.loc))).eraseDups
    let d2 := (xs.filter (fun x => decide (x.kind ≠ 7))).foldl applyEntry { d1 with boot.stage := 5, rep.pcs := pcs }
    let gone := fun (st : Nat) => pcsOut d2 st
    { d2 with pool.hbmGranules := (List.range 8).map (fun st => nth d2.pool.hbmGranules st 0 - gone st) }
  else { d1 with rep.due := d1.rep.due ++ fresh }

/-- Whether the header of a repair map is well formed. -/
def mapHeadOk (head : List Byte) : Bool :=
  fieldAt head 0 4 == 1 && fieldAt head 4 4 == 0 && allZero ((head.drop 20).take 44) && decide (fieldAt head 16 4 ≤ 4096)

/-- The header of a map that is being loaded, and its indexed entries with those of one more part, in index order. -/
def mapPart (d : Dev) (first n : Nat) (start : Bool) (b : List Byte) : List Byte × List (Nat × Defect) :=
  let es := (chunksOf 16 n (if start then b.drop 64 else b)).map entryOf
  let put := ((rangeFrom first n).zip es).foldl (fun acc x => upsert (fun (y : Nat × Defect) => y.1 == x.1) x acc) (if start then [] else d.rep.parts)
  (if start then b.take 64 else d.rep.gathered.getD [], sortBy (fun (x y : Nat × Defect) => decide (x.1 ≤ y.1)) put)

/-- REPAIR_LOAD. [Log entry 105, DEDUCED; entry 107, DEDUCED.] -/
def repairLoadBody (v : Verb) (d : Dev) : Except Fail Dev := do
  let first := fld v 16 4
  let n := fld v 20 4
  let fl := fld v 24 1
  let start := bitSet fl 0
  let len := 16 * n + (if start then 64 else 0)
  let part := fun (b : List Byte) => mapPart d first n start b
  check4 v false [(25, 31)] ([(20, decide (n ≤ 252)), (24, decide (fl < 4)), (24, start || d.rep.gathered.isSome)] ++ blockField d v len ++
    (match (if len = 0 then some [] else argPeek d v (blockOff v) len) with
    | none => []
    | some b =>
      let total := fieldAt (part b).1 16 4
      [(24, mapHeadOk (part b).1), (16, decide (first + n ≤ total)), (20, (chunksOf 16 n (if start then b.drop 64 else b)).all entryOk),
       (24, !bitSet fl 1 || decide ((part b).2.length = total))]))
  let b ← blockArg d v len
  let head := (part b).1
  let all := (part b).2
  need stState (fieldAt head 8 8 == d.boot.serial)
  let d1 := { d with rep.gathered := some head, rep.parts := all }
  .ok (finishOk (if bitSet fl 1 then mapFinal d1 head (all.map (·.2)) else d1) v [])

/-- Clusters in service, and working spares of them (18 Table 18-5). -/
def clustersIn (d : Dev) : List Nat := (List.range 256).filter (fun c => !d.arr.out.contains c)

/-- The counts of Table 18-5. -/
def repairCounts (d : Dev) : List (Nat × Nat × Nat) :=
  let failing := fun k => (reportHeld d).filter (fun e => e.defect.kind == k && bitSet e.flags 1) |>.length
  [(16, 2, (clustersIn d).length), (18, 2, sumNat ((clustersIn d).map (workingSpares d))), (20, 2, failing 4), (22, 2, failing 5),
   (24, 2, laneSpares d), (26, 2, 64 - d.arr.fcOut.length), (28, 4, (ctrGet d 0 0 13).val)]

/-- REPAIR_REPORT. -/
def repairReportBody (v : Verb) (d : Dev) : Except Fail Dev := do
  let first := fld v 16 4
  let off := fld v 24 8
  let room := fld v 32 4
  check4 v false [(20, 4), (36, 28)] [(24, if v.ring = 16 then off == 0 else outIn d v off room)]
  let all := reportHeld d
  let most := if v.ring = 16 then Nat.min 252 (room / 16) else room / 16
  let es := (all.drop first).take most
  let out := es.flatMap (fun e => entryBytes e.defect e.flags e.clause)
  if outPartial d v off out.length then failSt stDamaged
  else .ok (finishOk (outWrite d v off out) v ([(8, 4, all.length), (12, 4, es.length)] ++ repairCounts d))

/-! ### Self-test and calibration (18 R428, R430) -/

/-- Take a core out for its test; a spare takes over at this boundary (18 R428). -/
def holdCore (d : Dev) (c p why : Nat) (verb : Option Nat) : Dev :=
  settleCluster { d with arr.held := d.arr.held ++ [HeldCore.mk c p why verb d.tim.elapsed] } c

/-- Free working spares of a cluster now: usable cores that hold no logical position. -/
def freeSpares (d : Dev) (c : Nat) : List Nat := (List.range 18).filter (fun p => coreUsable d c p && !(clusterMap d c).contains p)

/-- Rolling self-test at a boundary: by a free draw, the next core of a cluster with two free working spares, or a channel core. [Log entry 62, DESIGN CHOICE.] -/
def rollTest (d0 : Dev) : Dev :=
  let (n, d) := drawNat d0
  let c := n % 512
  if c < 256 then
    if d.arr.out.contains c || workingSpares d c < 2 || d.arr.held.any (fun h => h.cluster == c) then d
    else
      let i := match d.rep.rolling.find? (fun r => r.1 == c) with | some r => r.2 | none => 0
      let d1 := { d with rep.rolling := upsert (fun r => r.1 == c) (c, (i + 1) % 18) d.rep.rolling }
      if d.arr.retired.contains (c, i) then d1 else holdCore d1 c i 1 none
  else if c < 320 then
    let fc := c - 256
    let pair := if fc % 2 = 0 then fc + 1 else fc - 1
    let busy := fun k => d.arr.fcOut.contains k || d.arr.held.any (fun h => h.cluster == 256 && h.pos == k)
    if busy fc || busy pair then d else { d with arr.held := d.arr.held ++ [HeldCore.mk 256 fc 1 none d.tim.elapsed] }
  else d

/-- The fields that SELFTEST and CALIBRATE return. -/
def testFields (d : Dev) (t : TestOp) : List (Nat × Nat × Nat) :=
  [(8, 4, t.done), (12, 4, t.failed), (16, 4, t.entries), (20, 8, (d.tim.elapsed - t.start) / 1000)]

def updTest (d : Dev) (seq : Nat) (f : TestOp → TestOp) : Dev := { d with rep.tests := updWhere (fun t => t.seq == seq) f d.rep.tests }

/-- End a SELFTEST or CALIBRATE. -/
def endTest (d : Dev) (t : TestOp) (status : Nat) : Dev :=
  let d1 := { d with rep.tests := dropWhere (fun (x : TestOp) => x.seq == t.seq) d.rep.tests }
  finishSeq d1 t.seq status (testFields d t)

/-- Physical cores that a core- or cluster-scope self-test takes. -/
def testCores (d : Dev) (scope unit : Nat) : List (Nat × Nat) :=
  if scope = 0 then [(unit / 16, nth (clusterMap d (unit / 16)) (unit % 16) 0)]
  else ((List.range 18).filter (fun p => !d.arr.retired.contains (unit, p))).map (fun p => (unit, p))

/-- Start the next core of a self-test where its cluster has a free working spare, or end the test once none is left. -/
def nextTest (d : Dev) (seq : Nat) : Dev :=
  match d.rep.tests.find? (fun t => t.seq == seq) with
  | none => d
  | some t =>
    if t.op ≠ 0x0106 || 2 ≤ t.scope || t.wait || d.arr.held.any (fun h => h.verb == some seq) then d
    else
      match t.left with
      | [] => endTest d t stOk
      | x :: rest =>
        if d.arr.retired.contains x then updTest d seq (fun y => { y with left := rest })
        else if (freeSpares d x.1).isEmpty || d.arr.held.any (fun h => h.cluster == x.1) then d
        else holdCore (updTest d seq (fun y => { y with left := rest })) x.1 x.2 1 (some seq)

/-- SELFTEST_TEST_COMPLETE: a removed core's 2 ms have passed: it becomes a spare, or it is retired (18 R428, R422). [Log entry 104, DESIGN CHOICE.] -/
def testComplete (c p : Nat) (pass : Bool) (dt : Nat) (d0 : Dev) : Dev :=
  let d := advance d0 dt
  match d.arr.held.find? (fun h => h.cluster == c && h.pos == p) with
  | none => d
  | some h =>
    if d.tim.elapsed < h.since + 2000000 then d
    else
      let d1 := bump { d with arr.held := dropWhere (fun (x : HeldCore) => x.cluster == c && x.pos == p) d.arr.held } 0 0 10 1
      let n := d1.rep.report.length
      let d2 := if pass then d1 else if c = 256 then retireFc d1 p else retireCore d1 c p h.why
      match h.verb with
      | none => d2
      | some seq =>
        let d3 := updTest d2 seq (fun t => { t with
          done := t.done + 1
          failed := t.failed + (if pass then 0 else 1)
          entries := t.entries + (d2.rep.report.length - n) })
        (match d3.rep.tests.find? (fun t => t.seq == seq) with
        | some t => if t.left.isEmpty then endTest d3 t stOk else d3
        | none => d3)

/-- Whether a scope's UNIT names a unit (18 R430). -/
def testUnitOk (scope unit : Nat) : Bool :=
  match scope with
  | 0 => decide (unit < 4096)
  | 1 => decide (unit < 256)
  | 2 => (match unit / 256 with
    | 0 => decide (unit % 256 < 256)
    | 1 => decide (unit % 256 < 12)
    | 2 => decide (unit % 256 < 32)
    | _ => false)
  | 3 => decide (unit < 6)
  | _ => true

/-- SELFTEST (0x0106) and CALIBRATE (0x0107). -/
def testBody (v : Verb) (d : Dev) : Except Fail Dev := do
  let scope := fld v 16 1
  let wait := bitSet (fld v 17 1) 0
  let unit := fld v 20 4
  check4 v false [(18, 2), (24, 40)] [(16, decide (scope < 5)), (17, decide (fld v 17 1 < 2)), (20, testUnitOk scope unit)]
  need stBusy (!d.rep.tests.any (fun t => t.scope == scope && t.unit == unit))
  let quiet := scope < 3 || d.tur.quiesced
  need stBusy (quiet || wait)
  need stBusy (v.op ≠ 0x0106 || scope ≠ 0 || !(freeSpares d (unit / 16)).isEmpty)
  let left := if v.op = 0x0106 && scope < 2 then testCores d scope unit else []
  let t : TestOp := { seq := v.seq, op := v.op, scope := scope, unit := unit, left := left, done := 0, failed := 0, entries := 0
                      start := d.tim.elapsed, wait := !quiet }
  .ok (keepRunning { d with rep.tests := d.rep.tests ++ [t] } v)

/-- Tests of whole channels, dies or the device, and calibrations, that have ended in this clause, each with the defects that it found. [Log entry 104, DESIGN CHOICE.] -/
def settleTest (d : Dev) (x : Nat × List Defect) : Dev :=
  match d.rep.tests.find? (fun t => t.seq == x.1) with
  | none => d
  | some t =>
    if t.wait || (t.op = 0x0106 && t.scope < 2) then d
    else
      let n := d.rep.report.length
      let found := if t.op = 0x0106 then x.2 else []
      let d1 := found.foldl applyDefect (if t.op = 0x0106 then bump d 0 0 10 1 else d)
      let units := if t.scope = 4 then 6 else if t.scope = 1 then 18 else 1
      endTest d1 { t with done := units, failed := Nat.min units found.length, entries := d1.rep.report.length - n } stOk

/-! ### QUIESCE and RESUME (18 R429) -/

/-- QUIESCE: dispatch stops at the next boundary. [Log entry 107, DEDUCED.] -/
def quiesceBody (v : Verb) (d : Dev) : Except Fail Dev := do
  check4 v false [(16, 48)] []
  if d.tur.quiesced then .ok (finishOk d v []) else .ok (registerOp d v (.quiesce v.seq))

/-- RESUME: dispatch restarts at the next boundary. [Log entry 107, DEDUCED.] -/
def resumeBody (v : Verb) (d : Dev) : Except Fail Dev := do
  check4 v false [(16, 48)] []
  if !d.tur.quiesced then .ok (finishOk d v []) else .ok (registerOp d v (.resume v.seq))

/-- The boundary of a QUIESCE: no slice runs at it, so the verb completes; tests that waited for it start. -/
def quiesceAt (d : Dev) (seq : Nat) : Dev :=
  let d1 := finishSeq { d with tur.quiesced := true, tur.quietSince := d.tim.elapsed } seq stOk [(8, 8, d.clk.count)]
  { d1 with rep.tests := d1.rep.tests.map (fun t => if t.wait then { t with wait := false, start := d1.tim.elapsed } else t) }

/-- The boundary of a RESUME. A verb's time under its limit starts, or goes on, from here. -/
def resumeAt (d : Dev) (seq : Nat) : Dev :=
  let quiet := d.tim.elapsed - d.tur.quietSince
  let shift := fun (x : Verb) => if jobVerb x.op then { x with started := x.started.map (fun t => Nat.min d.tim.elapsed (t + quiet)) } else x
  let shiftJob := fun (j : Job) => { j with begun := j.begun.map (fun t => Nat.min d.tim.elapsed (t + quiet)) }
  finishSeq { d with tur.quiesced := false, tur.verbs := d.tur.verbs.map shift, arr.jobs := d.arr.jobs.map shiftJob } seq stOk []

/-- What a boundary does for the array: map entries due, tile-store errors, spares, tests. -/
def repairBoundary (tests : List (Nat × List Defect)) (d : Dev) : Dev :=
  let d1 := d.rep.due.foldl applyEntry { d with rep.due := [] }
  let d2 := settleTiles d1
  let d3 := (touchedClusters d2).foldl settleCluster d2
  let d4 := tests.foldl settleTest d3
  let d5 := (d4.rep.tests.map (·.seq)).foldl nextTest d4
  if d.boot.stage = 8 then rollTest d5 else d5

end Sys2Proof.Machine
end

