-- ==== Sys2Proof/Machine/Spdm.lean ====
section
/-!
DEFINITION. DOE objects (17 R396) and attestation by SPDM 1.2 (15 R358): the requests of Table 15-4 and the measurement blocks of
Table 15-5. The message layouts are those of SPDM 1.2 (PRESUMED).
-/

namespace Sys2Proof.Machine

/-! ### DOE (17 R396) -/

/-- A DOE answer to an LD: opcode 0xE000 plus the object type. [Log entry 96, PRESUMED.] -/
def doeReply (d : Dev) (who type : Nat) (bs : List Byte) : Dev := reply d who (0xE000 + type) 0 bs

/-- Whether a requester can reach its DOE mailbox: an LD while the link is up; 16 the FM-owned LD, 17 MCTP. -/
def doeOpen (d : Dev) (who : Nat) : Bool := decide (who < 18) && (decide (16 ≤ who) || decide (0 < d.cxl.width))

/-- DOE_DISCOVERY: the object types by index, and the next index (0 after the last): discovery, CMA/SPDM, CDAT. -/
def doeDiscovery (who index : Nat) (d : Dev) : Dev :=
  if !doeOpen d who then d
  else match index with
    | 0 => doeReply d who 0 (natLe 1 2 ++ [0, 1])
    | 1 => doeReply d who 0 (natLe 1 2 ++ [1, 2])
    | 2 => doeReply d who 0 (natLe 0x1E98 2 ++ [2, 0])
    | _ => doeReply d who 0 (natLe 0xFFFF 2 ++ [0, 0])

/-- CDAT_TABLE_ACCESS: one entry of the table by its handle, and the next handle (0xFFFF after the last). [Log entry 101, PRESUMED.] -/
def cdatAccess (who handle : Nat) (d : Dev) : Dev :=
  if !doeOpen d who then d
  else
    let n := Config.cdatEntries who % 256 + 1
    let m := match findLd d who with | some x => (x.m1, x.m2) | none => (0, 0)
    let next := if handle + 1 < n then handle + 1 else 0xFFFF
    if handle < n then doeReply d who 2 ([0, 0] ++ natLe next 2 ++ Config.cdatEntry who m.1 m.2 handle) else doeReply d who 2 ([0, 0] ++ natLe 0xFFFF 2)

/-! ### SPDM requesters -/

/-- A requester's exchange as it stands. -/
def spdmOf (d : Dev) (who : Nat) : Spdm := (d.cxl.spdm.find? (fun s => s.who == who)).getD (Spdm.mk who 0 [] [] [])

def spdmPut (d : Dev) (s : Spdm) : Dev := { d with cxl.spdm := upsert (fun x => x.who == s.who) s d.cxl.spdm }

/-- An SPDM answer. -/
def spdmSay (d : Dev) (who : Nat) (bs : List Byte) : Dev := doeReply d who 1 bs

/-- An SPDM ERROR: 1 invalid, 4 unexpected, 5 unspecified, 7 unsupported. -/
def spdmError (d : Dev) (who code : Nat) : Dev := spdmSay d who [0x12, 0x7F, byte code, 0]

/-- Run a request of version 1.2 with `len` bytes at least, once the exchange has reached a stage. [Log entry 101, PRESUMED.] -/
def spdmRun (who code stage len : Nat) (req : List Byte) (d : Dev) (f : Spdm → Dev) : Dev :=
  let s := spdmOf d who
  if !doeOpen d who then d
  else if req.length < len || fieldAt req 0 1 ≠ 0x12 || fieldAt req 1 1 ≠ code then spdmError d who 1
  else if s.stage < stage then spdmError d who 4
  else f s

/-- GET_VERSION starts an exchange over: version 1.2 only. -/
def getVersion (who : Nat) (req : List Byte) (d : Dev) : Dev :=
  if !doeOpen d who then d
  else if req.length < 4 || fieldAt req 0 1 ≠ 0x10 || fieldAt req 1 1 ≠ 0x84 then spdmError d who 1
  else
    let rsp : List Byte := [0x10, 0x04, 0, 0, 0, 1] ++ natLe 0x1200 2
    spdmSay (spdmPut d (Spdm.mk who 1 (req ++ rsp) [] [])) who rsp

/-- GET_CAPABILITIES: CERT_CAP, CHAL_CAP, MEAS_CAP with signature. The timeout exponent and the transfer sizes are free. -/
def getCapabilities (who : Nat) (req : List Byte) (d : Dev) : Dev :=
  spdmRun who 0xE1 1 20 req d fun s =>
    if s.stage ≠ 1 then spdmError d who 4
    else
      let (f, d1) := drawBytes d 9
      let rsp : List Byte := [0x12, 0x61, 0, 0, 0] ++ f.take 1 ++ [0, 0] ++ natLe 0x16 4 ++ f.drop 1
      spdmSay (spdmPut d1 { s with stage := 2, vca := s.vca ++ req ++ rsp }) who rsp

/-- NEGOTIATE_ALGORITHMS: RSASSA-PSS 4,096 and SHA-512, each where the requester offers it. -/
def negotiate (who : Nat) (req : List Byte) (d : Dev) : Dev :=
  spdmRun who 0xE3 2 32 req d fun s =>
    if s.stage ≠ 2 then spdmError d who 4
    else
      let asym := fieldAt req 8 4 &&& 0x40
      let hash := fieldAt req 12 4 &&& 4
      let meas := fieldAt req 6 1 &&& 1
      let rsp : List Byte := [0x12, 0x63, 0, 0] ++ natLe 36 2 ++ [byte meas, 0] ++ natLe (if meas = 1 then 8 else 0) 4 ++ natLe asym 4 ++
        natLe hash 4 ++ List.replicate 16 0
      spdmSay (spdmPut d { s with stage := if asym = 0x40 && hash = 4 then 3 else 2, vca := s.vca ++ req ++ rsp }) who rsp

/-! ### The certificate chain (15 R357) -/

/-- The chain of SPDM slot 0: length, reserved, digest of the root certificate, certificates. -/
def certChain (d : Dev) : List Byte :=
  let cs := d.boot.chain
  let rest := match derElem cs with | some (_, _, r) => r | none => []
  let root := cs.take (cs.length - rest.length)
  natLe (68 + cs.length) 2 ++ [0, 0] ++ sha512 root ++ cs

/-- Whether slot 0 holds a chain. -/
def slotFilled (d : Dev) : Bool := d.boot.identity == 2

/-- GET_DIGESTS. [Log entry 101, PRESUMED.] -/
def getDigests (who : Nat) (req : List Byte) (d : Dev) : Dev :=
  spdmRun who 0x81 3 4 req d fun s =>
    if !slotFilled d then spdmError d who 5
    else
      let rsp : List Byte := [0x12, 0x01, 0, 1] ++ sha512 (certChain d)
      spdmSay (spdmPut d { s with certs := s.certs ++ req ++ rsp }) who rsp

/-- GET_CERTIFICATE: a portion of slot 0's chain. -/
def getCertificate (who : Nat) (req : List Byte) (d : Dev) : Dev :=
  spdmRun who 0x82 3 8 req d fun s =>
    let off := fieldAt req 4 2
    let chain := certChain d
    if fieldAt req 2 1 ≠ 0 || !slotFilled d || chain.length ≤ off then spdmError d who 1
    else
      let part := (chain.drop off).take (fieldAt req 6 2)
      let rsp := [0x12, 0x02, 0, 0] ++ natLe part.length 2 ++ natLe (chain.length - off - part.length) 2 ++ part
      spdmSay (spdmPut d { s with certs := s.certs ++ req ++ rsp }) who rsp

/-! ### Measurements (15 Table 15-5) -/

/-- A DMTF measurement block. -/
def measBlock (index type : Nat) (value : List Byte) : List Byte :=
  [byte index, 1] ++ natLe (value.length + 3) 2 ++ [byte type] ++ natLe value.length 2 ++ value

/-- Whether a requester sees a partition's record: an LD sees those bound to it; the FM-owned LD and MCTP see all. -/
def seesPart (who : Nat) (p : Part) : Bool := decide (16 ≤ who) || p.bound == some who

/-- The measurement blocks that a requester sees, by index. -/
def measBlocks (d : Dev) (who : Nat) : List (Nat × List Byte) :=
  let b := d.boot
  let parts := (d.pool.parts.filter (seesPart who)).map (fun p => (16 + p.num, measBlock (16 + p.num) 3 (padTo p.digest 64)))
  [(1, measBlock 1 0 (padTo Config.romDigest 64)), (2, measBlock 2 1 (padTo b.fwDigest 64)), (3, measBlock 3 0x87 (natLe b.fwSecurity 2)),
   (4, measBlock 4 3 (padTo b.mapDigest 64))] ++ sortBy (fun (x y : Nat × List Byte) => decide (x.1 ≤ y.1)) parts

/-- The text that a signature of SPDM 1.2 covers: the version prefix, the context, and the digest of the transcript. -/
def spdmSigned (context : List Byte) (transcript : List Byte) : List Byte :=
  let ver : List Byte := [0x64, 0x6D, 0x74, 0x66, 0x2D, 0x73, 0x70, 0x64, 0x6D, 0x2D, 0x76, 0x31, 0x2E, 0x32, 0x2E, 0x2A]
  ver ++ ver ++ ver ++ ver ++ List.replicate (36 - context.length) 0 ++ context ++ sha512 transcript

/-- "responder-challenge_auth signing". -/
def ctxChallenge : List Byte :=
  [0x72, 0x65, 0x73, 0x70, 0x6F, 0x6E, 0x64, 0x65, 0x72, 0x2D, 0x63, 0x68, 0x61, 0x6C, 0x6C, 0x65, 0x6E, 0x67, 0x65, 0x5F, 0x61, 0x75, 0x74, 0x68,
   0x20, 0x73, 0x69, 0x67, 0x6E, 0x69, 0x6E, 0x67]

/-- "responder-measurements signing". -/
def ctxMeasure : List Byte :=
  [0x72, 0x65, 0x73, 0x70, 0x6F, 0x6E, 0x64, 0x65, 0x72, 0x2D, 0x6D, 0x65, 0x61, 0x73, 0x75, 0x72, 0x65, 0x6D, 0x65, 0x6E, 0x74, 0x73, 0x20, 0x73,
   0x69, 0x67, 0x6E, 0x69, 0x6E, 0x67]

/-- CHALLENGE: signed by the identity key; without one that can sign, an error (15 R356). The nonce and the salt are free. -/
def challenge (who : Nat) (req : List Byte) (d : Dev) : Dev :=
  spdmRun who 0x83 3 36 req d fun s =>
    let kind := fieldAt req 3 1
    if fieldAt req 2 1 ≠ 0 || (kind ≠ 0 && kind ≠ 1 && kind ≠ 255) then spdmError d who 1
    else if !canSign d || !slotFilled d then spdmError d who 5
    else
      let (nonce, d1) := drawBytes d 32
      let (salt, d2) := drawBytes d1 64
      let all := measBlocks d who
      let some' := if kind = 1 then all.filter (fun x => decide (x.1 < 4)) else all
      let summary := if kind = 0 then [] else sha512 (some'.flatMap (·.2))
      let head := [0x12, 0x03, 0, 1] ++ sha512 (certChain d) ++ nonce ++ summary ++ natLe 0 2
      let sig := identitySign d.boot.publicKey salt (spdmSigned ctxChallenge (s.vca ++ s.certs ++ req ++ head))
      spdmSay (spdmPut d2 { s with certs := [] }) who (head ++ sig)

/-- GET_MEASUREMENTS: the count, all blocks, or one; with a signature where asked. -/
def getMeasurements (who : Nat) (req : List Byte) (d : Dev) : Dev :=
  spdmRun who 0xE0 3 4 req d fun s =>
    let signed := bitSet (fieldAt req 2 1) 0
    let op := fieldAt req 3 1
    let all := measBlocks d who
    let sel := if op = 0 then [] else if op = 255 then all else all.filter (fun x => x.1 == op)
    if signed && (req.length < 37 || fieldAt req 36 1 ≠ 0) then spdmError d who 1
    else if op ≠ 0 && sel.isEmpty then spdmError d who 1
    else if signed && (!canSign d || !slotFilled d) then spdmError d who 5
    else
      let (nonce, d1) := drawBytes d 32
      let (salt, d2) := drawBytes d1 64
      let body := sel.flatMap (·.2)
      let head := [0x12, 0x60, byte (if op = 0 then all.length else 0), 0, byte sel.length] ++ natLe body.length 3 ++ body ++ nonce ++ natLe 0 2
      let seen := s.meas ++ req ++ head
      if signed then
        let sig := identitySign d.boot.publicKey salt (spdmSigned ctxMeasure (s.vca ++ seen))
        spdmSay (spdmPut d2 { s with meas := [] }) who (head ++ sig)
      else spdmSay (spdmPut d2 { s with meas := seen }) who head

end Sys2Proof.Machine
end

