-- ==== Sys2Proof/Machine/Fresh.lean ====
section
/-!
DEFINITION. The device at power-up: every field at the value that the spec states for it, or that a log entry names. A reset by PERST_N
returns to it, but for what lies in the NAND packages and outside the device (19 R434, R436).
-/

namespace Sys2Proof.Machine

/-- The clause timer at power-up (03 Table 3-2, R36, R45). -/
def freshClk : Clk :=
  { count := 0, started := false, startNow := 0, start := 0, nominal := 0, debt := 0, planned := 50000, shortened := false, mode := 0
    deferring := false, rebase := false, aborted := false, goodTicks := 0, lastSeen := none, locking := false, lastTick := 0, lastTickNow := 0
    ticks := [], owed := 0 }

/-- Device time at power-up (03 R46-R48). -/
def freshTim : Tim :=
  { elapsed := 0, now := 0, frac := 0, basePpb := 0, slewPpb := 0, slewLeft := 0, slewFrac := 0, ptp := false, ptpPort := 0, ptpDomain := 0
    ptpState := 0, acquired := false, offsetNs := 0, lastSync := 0, syncSeq := 0, syncT2 := 0, syncT1 := none, delayT3 := 0, pathDelay := 0 }

/-- An LD's event ring at power-up (04 Table 4-10). -/
def freshEvq : Evq :=
  { base := 0, vector := 0xFFFF, enable := false, depthLog2 := 0, head := 0, tail := 0, phase := false, used := 0, lost := 0 }

/-- The Turuk interface at power-up (04 R54, R58; 20 R449, R457; 22 R487). [Log entry 1, DESIGN CHOICE.] -/
def freshTuruk : Turuk :=
  { rings := [], hub := [], hubWaits := [], hubHeld := [], submitSeq := 1, verbs := [], late := [], nextSeq := 0, robin := 15, lastAccept := 0
    stallSeen := false, fwStall := false, evqs := List.replicate 16 freshEvq, fmQueue := [], fmLost := 0, masks := [], history := []
    histNext := 0, ctrs := [], singleLd := false, quiesced := false, quietSince := 0, config := 0, configClause := 0, label := 0
    labelClause := 0 }

/-- Nothing granted: 63 HBM granules of each stack may be, since firmware keeps one; DDR is found in training (15 R340, 19 R441). -/
def freshPool : Pool :=
  { parts := [], ctxs := [], rebinds := [], lastLd := [], stamps := [], owners := [], relSeq := 0, clearings := [], clearSeq := 0
    allocs := [], hbmGranules := List.replicate 8 63, ddrGranules := 0, exchHbm := [], exchDdr := [] }

/-- An LD at power-up (17 R398-R403; 17 Table 17-5): one unit of range 1. [Log entry 3, PRESUMED.] -/
def freshLd : CxlLd :=
  { m1 := 1, m2 := 0, newM := none, hdm := [], command := 0, bar0 := 0, bar2 := 0, msixEnable := false
    msixMaskAll := false, msix := [], pending := [], failLog := [], warnLog := [], nextHandle := 1, intPolicy := [0, 0, 0, 0]
    lifeWarn := none, tempWarn := none, healthBad := false, sanitizing := false, refetches := 0, bwAlloc := 16, bwLimit := 0, bound := false }

/-- The attachment at power-up. [Log entry 3, PRESUMED.] -/
def freshCxl : Cxl :=
  { width := 0, lds := List.replicate 16 freshLd
    qos := { control := 0, moderate := 10, severe := 25, interval := 8, basis := 0, collection := 64 }, spdm := [] }

/-- The boot block at power-up: held in reset, PWRGD not yet seen (19 R435, R437). [Log entry 1, DESIGN CHOICE.] -/
def freshBoot : Boot :=
  { stage := 0, inReset := true, pwrgdSeen := false, pwrgd := false, perstLow := true, pwrfailLow := false, powerFail := false
    opLimit := 0, bootDone := false, slots := [], transfer := none, claimed := none, fwDigest := [], fwSecurity := 0, fwVersion := 0, mapDigest := [], ifMajor := 0, ifMinor := 0, serial := 0, identity := 0
    publicKey := [], chain := [], ddrChannels := 0, ddrDpc := 0, ddrMts := 0 }

/-- Repair at power-up: no map, nothing reported (18 R421, R424). -/
def freshRep : Repair :=
  { map := [], mapEntries := [], gathered := none, parts := [], due := [], report := [], lanes := [], hard := [], tests := [], rolling := []
    noSlots := [], noUnits := 0, pcs := [] }

/-- A sensor that has not been read. -/
def freshSensor : Sensor := { current := 0, second := none, peak := 0, peakTime := 0, bins := List.replicate 24 0 }

/-- Throttling and temperatures at power-up (20 R458, 21 R469). [Log entry 1, DESIGN CHOICE.] -/
def freshTherm : Therm :=
  { sensors := List.replicate 14 freshSensor, seen := false, seconds := 0, level := 0, reqs := [], byPower := 0, byPin := false, power := []
    powerAt := none, above := none, under := none, since0 := 0, quota := 16, quotaSeen := 0, trip := false }

/-- Sessions, phrases and models at power-up: none. -/
def freshKv : Kv :=
  { cat := [], catSeq := 0, phrases := [], models := [], images := [], movers := [], moverNext := 0, ops := [], droppings := [], releases := [], slotHold := []
    ddrNext := 0 }

/-- The core array at power-up: every core in service, nothing running. [Log entry 1, DESIGN CHOICE.] -/
def freshArr : CoreArray :=
  { kernels := [], cores := [], slices := [], jobs := [], nextJob := 0, nextSlice := 0, records := [], refetches := [], nextRefetch := 0
    spare := [], retired := [], out := [], fcOut := [], held := [], tsErrors := [], served := [], kcache := [], nb := [] }

/-- The class settings of a sub-port before any CLASSES: 0 everywhere, which acts as the defaults of 16 Table 16-6. -/
def freshCls : ClassCfg :=
  { trustPcp := false, pfcMask := 0, xoffKib := 0, xonKib := 0, cnpUs := 0, tIncUs := 0, rAi := 0, rateMin := 0, gShift := 0, cnpClass := 0
    dscpMap := List.replicate 64 0, pcpMap := List.replicate 8 0, classPcp := List.replicate 8 0 }

/-- A sub-port at power-up. -/
def freshSub (n : Nat) : SubPort :=
  { id := n, up := false, mac := 0, vlan := 0, ipv4 := 0, ipv6 := 0, cls := freshCls, newCls := none, ingress := [], xoff := [], pauseUntil := []
    pauseSince := [], pauseHeld := [], pausedNs := List.replicate 8 0, ctl := [], busyUntil := 0, queues := [], partShapers := [], turn := []
    meters := [], gates := [], gateIdx := 0, gateStart := 0, gatedSince := [], gatedNs := List.replicate 8 0, pendGate := none, gather := none
    probe := none }

/-- A port at power-up: DISABLED (16 R365). -/
def freshPort (n : Nat) : EPort :=
  { num := n, configured := false, split := 0, media := 0, autoneg := false, degrade := false, state := 0, half := none, badLanes := [] }

/-- The ports at power-up; the first refill of the shapers is due at once. [Log entry 1, DESIGN CHOICE.] -/
def freshNet : Net :=
  { ports := (List.range 4).map freshPort, subs := (List.range 16).map freshSub, qps := [], windows := [], incarnations := [], refillAt := 0
    shaperWaits := [], meterWaits := [] }

/-- No partner and no area (14 R327). [Log entry 1, DESIGN CHOICE.] -/
def freshBuddy : Buddy :=
  { area := none, granules := [], rkey := 0, peer := none, peerRkey := 0, ports := [], held := [], reqs := [], nextSeq := 0, lastRx := 0
    beatAt := 0, lost := false }

/-- The health log with nothing counted (13 Table 13-5). [Log entry 1, DESIGN CHOICE.] -/
def freshHealth : Health :=
  { wearAvg := 0, wearMax := 0, lunsRetired := 0, blocksRetired := 0, dataPages := 0, nandPages := 0, readRetries := 0, softDecodes := 0
    uncorrectable := 0, programFails := 0, eraseFails := 0, lpnsLost := 0, mounts := 0, unsafeOff := 0, mismatch := 0
    corrected := List.replicate 16 0, channelTemp := [] }

/-- The flash of a new tray: UNMOUNTED at power-up, never formatted. The population is that of the worked example of 19: 512 LUNs of
256 GiB (DESIGN CHOICE; the NAND profile that would give it has no stated layout). [Log entry 4, DESIGN CHOICE.] -/
def freshFlash : Flash :=
  { state := 3, formatted := false, sparePct := 0, granules := 0, lunsPerCh := 16, blocksPerLun := 4096, pagesPerBlock := 4096
    ratedCycles := 3000, spareTotal := 0, spareUsed := 0, spareLowRaised := false, deadLuns := [], deadBlocks := [], erases := [], eraseBase := 0, assigned := []
    erasing := [], pages := [], parities := [], groups := [], nextGroup := 0, nextSet := 0, writeSeq := 0, ops := [], nextOp := 0, discards := []
    sinceCkptPages := 0, sinceCkptClauses := 0, dirty := []
    ckpt := { seq := 0, map := [], opened := [], next := 0, health := freshHealth }, draft := none, discRecs := [], health := freshHealth, saved := freshHealth, jobs := []
    mounting := none, unmounting := none, replayed := 0, calibrated := [], relocate := [] }

/-- Nothing driven yet: TICK_OUT low, THERMTRIP_N released (21 R475). -/
def freshOuts : Outs := { msix := [], hostWrites := [], frames := [], replies := [], memReads := [], pins := [] }

/-- The device at power-up. [Log entry 1, DESIGN CHOICE.] -/
def freshDev : Dev :=
  { clk := freshClk, tim := freshTim, tur := freshTuruk, pool := freshPool, cxl := freshCxl, boot := freshBoot, rep := freshRep
    therm := freshTherm, exch := [], poison := [], bus := [], busNext := 0, outs := freshOuts, kv := freshKv, arr := freshArr
    stored := { images := [], phrases := [] }, lexicons := [], grammars := [], gcache := [], indexes := [], searches := [], net := freshNet
    ckpts := [], buddy := freshBuddy, restores := [], ckptRuns := [], flash := freshFlash, regions := [], draws := 0 }

/-- What the NAND packages keep while the device is reset: programmed pages with their metadata, the format and checkpoint records, erase
counts and bad blocks (13 R299; 19 R434). The erases that a power failure stopped stay unfinished. -/
def keptFlash (f : Flash) : Flash :=
  { f with
    state := 3, assigned := [], erasing := [], ops := [], jobs := [], mounting := none, unmounting := none, draft := none, dirty := [], discards := []
    calibrated := [], relocate := [], replayed := 0, spareLowRaised := false
    pages := f.pages.filter (fun x => x.st == 1), parities := f.parities.filter (fun q => q.st == 1), health := f.saved }

/-- A reset by PERST_N: everything but the media, the pins and what has gone out returns to its power-up value (19 R436). -/
def resetDev (d : Dev) : Dev :=
  let high := if d.therm.trip then [(1, d.tim.elapsed, true)] else []
  { freshDev with
    flash := keptFlash d.flash, stored := d.stored, draws := d.draws
    outs := { d.outs with pins := d.outs.pins ++ high }
    boot := { freshBoot with pwrgdSeen := d.boot.pwrgdSeen, pwrgd := d.boot.pwrgd, pwrfailLow := d.boot.pwrfailLow } }

end Sys2Proof.Machine
end

