-- ==== Sys2Proof/Machine/Boot.lean ====
section
/-!
DEFINITION. Reset, boot and power failure (19 R434-R447): the reset inputs, the boot path and its mailbox commands, the stages, and what a
power failure stops.
-/

namespace Sys2Proof.Machine

/-- Whether the device answers commands: it is out of reset and not HALTED (19 R446, 22 R481). [Log entry 28, DEDUCED.] -/
def answering (d : Dev) : Bool := !d.boot.inReset && d.boot.stage != 9

/-! ### Power failure (19 R444) -/

/-- Whether a NAND operation is a program. -/
def isProgram (o : NandOp) : Bool :=
  match o.what with
  | .data _ => true
  | .parity _ _ _ _ => true
  | .map _ _ => true
  | _ => false

/-- The NAND programs that a power failure lets run to their end: those issued before it. -/
def issuedPrograms (d : Dev) : List NandOp := d.flash.ops.filter (fun o => isProgram o && decide (o.id < d.boot.opLimit))

/-- What a format or a sanitize of the device has erased when it is cut short: any of the block groups. [Log entry 109, DEDUCED.] -/
def cutErase (d : Dev) : Dev :=
  let whole := d.flash.jobs.any (fun j => j.kind == 1 || j.kind == 2)
  { d with
    flash.pages := dropWhere (fun (x : FPage) => whole && Config.freeBool (d.draws + x.bg)) d.flash.pages
    flash.formatted := d.flash.formatted && !d.flash.jobs.any (fun j => j.kind == 1)
    flash.jobs := []
    draws := d.draws + d.flash.nextGroup }

/-- Act on a power failure, from PWRFAIL_N (1), PWRGD or a rail (2) or PERST_N (3). [Log entry 28, DEDUCED; entry 109, DEDUCED.] -/
def powerFail (source : Nat) (d : Dev) : Dev :=
  if !answering d || d.boot.powerFail then d
  else if d.boot.stage ≤ 6 then { d with boot.stage := 9 }
  else
    let d1 := cutErase d
    let d2 := { d1 with
      boot.powerFail := true
      boot.opLimit := d1.flash.nextOp
      flash.ops := d1.flash.ops.filter isProgram
      flash.mounting := none
      flash.unmounting := none
      arr.cores := []
      arr.slices := []
      arr.records := []
      kv.movers := [] }
    raiseDev d2 0x0160 [(1, source), (4, d2.flash.ops.length)]

/-- The last program of a power failure has ended: HALTED, or the reset that PERST_N asked for. No program is issued meanwhile. [Log entry 109, DEDUCED.] -/
def settleHalt (d : Dev) : Dev :=
  if !d.boot.powerFail then d
  else
    let d1 := { d with flash.ops := issuedPrograms d }
    if !d1.flash.ops.isEmpty then d1
    else if d1.boot.inReset then
      let r := resetDev d1
      { r with boot.inReset := d1.boot.perstLow || !d1.boot.pwrgdSeen, boot.perstLow := d1.boot.perstLow }
    else { d1 with boot.stage := 9 }

/-! ### Pins (19 R435, R436, R446; 21 R464) -/

/-- PWRGD_ASSERT: taken after 10 µs at its new level. The first one ends the held reset where PERST_N is high. [Log entry 111, DESIGN CHOICE.] -/
def pwrgdAssert (heldNs : Nat) (d : Dev) : Dev :=
  if heldNs < 10000 then d
  else if d.boot.pwrgdSeen then { d with boot.pwrgd := true }
  else { d with boot.pwrgd := true, boot.pwrgdSeen := true, boot.inReset := d.boot.perstLow }

/-- PWRGD_DEASSERT: acted on as PWRFAIL_N. -/
def pwrgdDeassert (heldNs : Nat) (d : Dev) : Dev :=
  if heldNs < 10000 || !d.boot.pwrgd then d else powerFail 2 { d with boot.pwrgd := false }

/-- PERST_N_ASSERT, low for `lowNs`: under 100 ns ignored, from 1 µs a reset, and between them either. [Log entry 109, DEDUCED.] -/
def perstAssert (lowNs : Nat) (d : Dev) : Dev :=
  if lowNs < 100 then d
  else
    let (may, d1) := if 1000 ≤ lowNs then (true, d) else drawBool d
    if !may then d1
    else
      let d2 := powerFail 3 { d1 with boot.perstLow := true }
      if d2.boot.powerFail && d2.boot.stage != 9 then { d2 with boot.inReset := true } else resetDev d2

/-- PERST_N_DEASSERT: device time starts and stage 0 begins, once PWRGD has been seen. -/
def perstDeassert (d : Dev) : Dev :=
  if !d.boot.perstLow then d
  else if d.boot.powerFail then { d with boot.perstLow := false }
  else { d with boot.perstLow := false, boot.inReset := !d.boot.pwrgdSeen }

/-- PWRFAIL_N_ASSERT, low for `lowNs`: under 1 µs ignored. -/
def pwrfailAssert (lowNs : Nat) (d : Dev) : Dev := if lowNs < 1000 then d else powerFail 1 { d with boot.pwrfailLow := true }

/-- PWRFAIL_N_DEASSERT: resumes nothing. -/
def pwrfailDeassert (d : Dev) : Dev := { d with boot.pwrfailLow := false }

/-- RAIL_UNDERVOLTAGE: 2 µs or more below tolerance while PWRGD is asserted. -/
def railUnder (ns : Nat) (d : Dev) : Dev := if ns < 2000 || !d.boot.pwrgd then d else powerFail 2 d

/-! ### The boot path (19 R438, R439) -/

/-- Run a firmware mailbox command of LD `who`, or of MCTP (17). From stage 1 on it is Unsupported. [Log entry 111, DESIGN CHOICE.] -/
def bootBox (who op : Nat) (d : Dev) (f : Dev) : Dev :=
  if who = 17 || (decide (who < 16) && decide (0 < d.cxl.width)) then
    if d.boot.stage = 0 then f else reply d who op rcUnsupported []
  else d

/-- The size limit of a slot (19 Table 19-3). -/
def slotLimit (slot : Nat) : Nat :=
  match slot with
  | 1 => 33554432
  | 2 => 65536
  | 3 => 4096
  | 4 => 16384
  | _ => 0

/-- What a slot holds; empty where nothing has been transferred. -/
def bootSlot (d : Dev) (slot : Nat) : List Byte := ((d.boot.slots.find? (fun x => x.1 == slot)).map (·.2)).getD []

/-- Get FW Info: four slots, none active. Activation capabilities and revision strings are free. [Log entry 102, PRESUMED.] -/
def mbFwInfo (who : Nat) (d : Dev) : Dev :=
  let (f, d1) := drawBytes d 65
  bootBox who 0x0200 d (reply d1 who 0x0200 rcOk ([4, 0] ++ f.take 1 ++ List.replicate 13 0 ++ f.drop 1))

/-- Store a whole part. -/
def putSlot (d : Dev) (slot : Nat) (bs : List Byte) : Dev :=
  { d with boot.slots := upsert (fun (x : Nat × List Byte) => x.1 == slot) (slot, bs) d.boot.slots, boot.transfer := none }

/-- Transfer FW. `action`: 0 full, 1 initiate, 2 continue, 3 end, 4 abort; `off` in 128-byte units. [Log entry 102, PRESUMED.] -/
def mbTransferFw (who action slot off : Nat) (data : List Byte) (d : Dev) : Dev :=
  let say := fun (a : Dev) (code : Nat) => reply a who 0x0201 code []
  let claim := fun (a : Dev) => { a with boot.claimed := some who }
  let start := action = 0 || action = 1
  bootBox who 0x0201 d
    (if (match d.boot.claimed with | some w => w != who | none => false) then say d rcBusy
    else if 4 < action then say d rcInvalid
    else if action = 4 then say { d with boot.transfer := none, boot.claimed := none } rcOk
    else if start && d.boot.transfer.isSome then say d 0x08
    else if start && (slot = 0 || 4 < slot) then say d 0x0B
    else if start then
      if off ≠ 0 then say d 0x09
      else if slotLimit slot < data.length || data.isEmpty then say d rcInvalid
      else if action = 0 then say (putSlot (claim d) slot data) rcOk
      else say { claim d with boot.transfer := some (slot, data) } rcOk
    else
      match d.boot.transfer with
      | none => say d 0x09
      | some (s, got) =>
        if off * 128 ≠ got.length then say d 0x09
        else if slotLimit s < got.length + data.length then say d rcInvalid
        else if action = 3 then say (putSlot d s (got ++ data)) rcOk
        else say { d with boot.transfer := some (s, got ++ data) } rcOk)

/-- Activate FW: the image of slot 1 is verified; where it verifies, it is measured with the NAND profile and stage 2 begins. [Log entry 102, PRESUMED.] -/
def mbActivateFw (who slot : Nat) (d : Dev) : Dev :=
  let image := bootSlot d 1
  let say := fun (a : Dev) (code : Nat) => reply a who 0x0202 code []
  let done := fun (a : Dev) => { a with boot.claimed := none }
  bootBox who 0x0202 d
    (if (match d.boot.claimed with | some w => w != who | none => false) then say d rcBusy
    else if d.boot.transfer.isSome then say d 0x08
    else if slot ≠ 1 || image.isEmpty then say d 0x0B
    else if !rsaVerify Config.firmwareKey (Config.fwBody image) (Config.fwSignature image) then say (done d) 0x0A
    else say { done d with
      boot.stage := 2
      boot.fwDigest := sha512 (image ++ bootSlot d 2)
      boot.fwSecurity := Config.fwSecurity image % 2 ^ 16
      boot.fwVersion := Config.fwVersion image % 2 ^ 64 } rcOk)

/-! ### Identity (15 R356, R357) -/

/-- The last certificate of a chain. -/
def leafOf : Nat → List Byte → List Byte
  | 0, _ => []
  | k + 1, bs =>
    match derElem bs with
    | none => []
    | some (_, _, rest) => if rest.isEmpty then bs else leafOf k rest

/-- The SubjectPublicKeyInfo of a certificate, in DER: the element after version, serial number, algorithm, issuer, validity and subject. -/
def spkiOf (cert : List Byte) : List Byte :=
  let skip := fun (bs : List Byte) => match derElem bs with | some (_, _, r) => r | none => []
  match derElem cert with
  | none => []
  | some (_, c, _) =>
    match derElem c with
    | none => []
    | some (_, tbs, _) =>
      let t0 := match derElem tbs with
        | some (0xA0, _, r) => r
        | _ => tbs
      let t1 := skip (skip (skip (skip (skip t0))))
      t1.take (t1.length - (skip t1).length)

/-- IDENTITY_DERIVED: the identity key, the serial number, and the check of the chain of slot 4; then stage 3. -/
def identityDerived (d : Dev) : Dev :=
  if d.boot.stage ≠ 2 then d
  else
    let helper := bootSlot d 3
    let d0 := { d with boot.stage := 3, boot.ifMajor := 1, boot.ifMinor := Config.fwMinor (bootSlot d 1) % 256 }
    match (if helper.length = 4096 then Config.identityKey helper else none) with
    | none => raiseDev { d0 with boot.identity := 3 } 0x0130 [(1, 3), (16, 0)]
    | some key =>
      let chain := bootSlot d 4
      let leaf := spkiOf (leafOf chain.length chain)
      let ok := !chain.isEmpty && leaf == key
      let d1 := { d0 with
        boot.identity := if ok then 2 else 1
        boot.publicKey := key
        boot.serial := fieldAt helper 0 8
        boot.chain := if ok then chain else [] }
      let d2 := if chain.isEmpty || ok then d1 else raiseDev d1 0x0131 [(8, chain.length), (16, leNat ((sha512 leaf).take 16))]
      raiseDev d2 0x0130 [(1, d2.boot.identity), (16, leNat ((sha512 key).take 16))]

/-! ### Firmware, self-test, training and mount (19 R440, R441) -/

/-- A ring at its start (04 R54): PHASE 1, nothing fetched. -/
def freshRing (num ld part ctx sqOff cqOff depthLog2 prio vector : Nat) (admin : Bool) : Ring :=
  { num := num, ld := ld, part := part, ctx := ctx, sqOff := sqOff, cqOff := cqOff, depthLog2 := depthLog2, prio := prio, vector := vector
    sqHead := 0, sqTail := 0, cqHead := 0, cqTail := 0, phase := true, done := 0, inFlight := 0, faultCause := 0, fault := false
    halted := false, enabled := true, admin := admin, stopped := false, holding := false, held := [] }

/-- FIRMWARE_STARTED: ring 16 opens and stage 4 begins. -/
def firmwareStarted (d : Dev) : Dev :=
  if d.boot.stage ≠ 3 then d
  else { d with boot.stage := 4, tur.rings := d.tur.rings ++ [freshRing 16 16 0 0 0 0 6 0 0 true] }

/-- BOOT_SELFTEST_DONE: the failures that the die-scope tests found; `logicFail`: the logic of the hub die or media die failed; `noSlots`,
`noUnits`: session-table slots and lexicon units withheld for hub SRAM rows (18 Table 18-3). -/
def bootSelftestDone (defects : List Defect) (logicFail : Bool) (noSlots : List Nat) (noUnits : Nat) (d : Dev) : Dev :=
  if d.boot.stage ≠ 5 then d
  else
    let d1 := defects.foldl applyDefect { d with rep.noSlots := noSlots, rep.noUnits := noUnits }
    let d2 := (touchedClusters d1).foldl settleCluster d1
    let dead := (List.range 4).any (fun die => (rangeFrom (die * 64) 64).all (fun c => d2.arr.out.contains c))
    { d2 with boot.stage := if logicFail || dead then 10 else 6 }

/-- The channels whose slot `slot` holds a module. -/
def channelsOf (ms : List Dimm) (slot : Nat) : List Nat := (List.range 12).filter (fun c => ms.any (fun m => m.channel == c && m.slot == slot))

/-- Whether modules are all of one supported kind (09 Table 9-2): RDIMM or 3DS RDIMM of 16 to 256 GiB. -/
def modulesAlike (ms : List Dimm) : Bool :=
  match ms with
  | [] => false
  | m :: _ => (m.kind == 1 || m.kind == 2) && [16, 32, 64, 128, 256].contains m.gib && ms.all (fun x => x.kind == m.kind && x.gib == m.gib)

/-- DIMMs per channel of a population that Table 9-2 supports, with its channels: 1 or 2 on all twelve, or 1 on every other channel; none for
any other. -/
def ddrPopulation (ms : List Dimm) : Option (Nat × Nat) :=
  let a := channelsOf ms 0
  let b := channelsOf ms 1
  if !modulesAlike ms || ms.length ≠ a.length + b.length then none
  else if a == List.range 12 && b.isEmpty then some (1, 12)
  else if a == List.range 12 && b == List.range 12 then some (2, 12)
  else if a == [0, 2, 4, 6, 8, 10] && b.isEmpty then some (1, 6)
  else none

/-- The population on which DDR training succeeds at `mts`: its DIMMs per channel and channels (09 R180). -/
def ddrTrained (ms : List Dimm) (mts : Nat) : Option (Nat × Nat) :=
  (ddrPopulation ms).filter (fun x => decide (4800 ≤ mts) && decide (mts ≤ if x.1 = 2 then 5200 else 6400))

/-- Populated channel and 4 KiB block within it of a DDR address: addresses interleave over the channels (09 R180). -/
def ddrChannelOf (channels addr : Nat) : Nat × Nat := (addr / 4096 % channels, addr / 4096 / channels)

/-- The 4 GiB granules of a population: all of its bytes, or, where a rank was left out, no more than `granules`. [Log entry 120, DESIGN CHOICE.] -/
def ddrCapacity (ms : List Dimm) (granules : Nat) (rankOut : Bool) : Nat :=
  let all := sumNat (ms.map (·.gib)) / 4
  if rankOut then Nat.min granules all else all

/-- The NAND that the device finds (13 R284): `luns` per channel, and those that do not answer or do not match the profile, which are left out
of service and reported as retired. [Log entry 4, DESIGN CHOICE.] -/
def findNand (luns : Nat) (silent : List (Nat × Nat)) (d : Dev) : Dev :=
  (silent.filter (fun x => decide (x.1 < 32) && decide (x.2 < luns))).foldl (fun a x => retireLun a x.1 x.2 2)
    { d with flash.lunsPerCh := luns }

/-- TRAINING_DONE: the DDR modules found, the transfer rate at which they trained, the pseudo-channels (kind 4) and ranks (kind 5) that failed
training, and the granules that remain where a rank is left out; the NAND found. Mount starts, or stage 7 is skipped where there is no NAND
profile or no DDR tier. -/
def trainingDone (modules : List Dimm) (mts granules luns : Nat) (silent : List (Nat × Nat)) (failed : List Defect) (d0 : Dev) : Dev :=
  if d0.boot.stage ≠ 6 then d0
  else
    let d := if (bootSlot d0 2).isEmpty then d0 else findNand luns silent d0
    let pop := ddrTrained modules mts
    let bad := (failed.filter (fun x => x.kind == 4 || x.kind == 5)).foldl (fun acc x => if acc.any (sameDefect x) then acc else acc ++ [x])
      ([] : List Defect)
    let fresh := ((bad.filter (fun x => x.kind == 4)).map (fun x => (x.unit, x.loc))).filter (fun p => !d.rep.pcs.contains p)
    let lost := fun (st : Nat) => (fresh.filter (fun p => p.1 == st)).length
    let d1 := { d with
      boot.stage := 7
      boot.ddrChannels := match pop with | some x => x.2 | none => 0
      boot.ddrDpc := match pop with | some x => x.1 | none => 0
      boot.ddrMts := if pop.isSome then mts else 0
      pool.ddrGranules := if pop.isSome then ddrCapacity modules granules ((bad ++ d.rep.mapEntries).any (fun x => x.kind == 5)) else 0
      rep.pcs := d.rep.pcs ++ fresh
      pool.hbmGranules := (List.range 8).map (fun st => nth d.pool.hbmGranules st 0 - lost st) }
    let d2 := bad.foldl (fun a x => memoryFailing a x.kind x.unit x.loc) d1
    let d3 := (holdExch d2).getD d2
    if (bootSlot d 2).isEmpty || d3.pool.ddrGranules = 0 then { d3 with boot.bootDone := true }
    else { d3 with flash.mounting := some none }

/-- MOUNT_COMPLETE as a row: at boot it also ends stage 7 (19 R441). -/
def mountRow (fmt rec : Bool) (bad : List Nat) (absent : List (Nat × Nat)) (d : Dev) : Dev :=
  let d1 := mountComplete fmt rec bad absent d
  if d1.boot.stage = 7 && d1.flash.mounting.isNone then { d1 with boot.bootDone := true } else d1

/-- READY, at the first boundary after stage 7 (19 R442): the admin rings 0-15 are enabled (04 R54), their completion rings zero-filled
(04 R65). -/
def becomeReady (d : Dev) : Dev :=
  if d.boot.stage = 7 && d.boot.bootDone then
    let admin := fun (n : Nat) => freshRing n n 0 0 0 0x4000 8 0 0 true
    let d1 := { d with boot.stage := 8, tur.rings := d.tur.rings ++ (List.range 16).map admin }
    (List.range 16).foldl (fun a n => exZero a (exKey n 0x4000) (32 * 2 ^ 8)) d1
  else d

end Sys2Proof.Machine
end

