-- ==== Sys2Proof/Machine/Throttle.lean ====
section
/-!
DEFINITION. Throttling (21 R468-R471): what requests a level, how a request ends, the level's change at a boundary, and the thermal trip.
-/

namespace Sys2Proof.Machine

/-- Banks of a channel in column time at once: 16, lowered to 8 and 4 by throttling (08 R170, 21 R468). -/
def nbQuota (level : Nat) : Nat :=
  match level with
  | 0 => 16
  | 1 => 8
  | _ => 4

/-- The share of the quota that firmware's own operations, the zero-fills, may take (08 R174). -/
def firmwareQuota (d : Dev) : Nat := d.therm.quota / 2

/-- The value at which a sensor requests level 1 or 2, or trips (3), in units of 0.125 °C (21 Table 21-4). -/
def tempLimit (sensor level : Nat) : Int :=
  let base : Int := if sensor < 6 then 800 else 720
  match level with
  | 1 => base
  | 2 => base + 40
  | _ => base + 120

/-- Take a sensor's reading: at or above a level's value it requests it; a standing request notes since when the reading is 5 °C below. -/
def senseReq (now sensor : Nat) (t : Int) (rs : List TempReq) (level : Nat) : List TempReq :=
  let mine := fun (r : TempReq) => r.sensor == sensor && r.level == level
  if tempLimit sensor level ≤ t then upsert mine { sensor := sensor, level := level, below := none } rs
  else if t + 40 ≤ tempLimit sensor level then updWhere mine (fun r => { r with below := some (r.below.getD now) }) rs
  else updWhere mine (fun r => { r with below := none }) rs

/-- The requests after the readings of a clause. -/
def senseReqs (d : Dev) (temps : List Int) : Dev :=
  let one := fun (rs : List TempReq) (x : Nat × Int) => [1, 2].foldl (senseReq d.tim.elapsed x.1 x.2) rs
  { d with therm.reqs := ((List.range (Nat.min 14 temps.length)).zip temps).foldl one d.therm.reqs }

/-- THROTTLE_REQUEST_EXPIRY: requests whose sensors have stayed 5 °C below for 10 ms end. -/
def reqExpiry (dt : Nat) (d0 : Dev) : Dev :=
  let d := advance d0 dt
  let tooLate := fun (r : TempReq) => match r.below with | some s => decide (s + 10000000 ≤ d.tim.elapsed) | none => false
  { d with therm.reqs := dropWhere tooLate d.therm.reqs }

/-- The 1 ms average of package power, once ten samples have been taken. -/
def powerAvg (t : Therm) : Option Nat := if t.power.length < 10 then none else some (sumNat t.power / 10)

/-- POWER_SAMPLE: package power, every 100 µs. [Log entry 110, DEDUCED.] -/
def powerSample (dt watts : Nat) (d0 : Dev) : Dev :=
  let d := advance d0 dt
  let now := d.tim.elapsed
  if (match d.therm.powerAt with | some t => decide (now < t + 100000) | none => false) then d
  else
    let t := { d.therm with power := (watts :: d.therm.power).take 10, powerAt := some now }
    let t1 : Therm :=
      match powerAvg t with
      | none => t
      | some _ =>
        if 18000 < sumNat t.power then
          let since := t.above.getD now
          { t with
            above := some since
            under := none
            byPower := if t.byPower = 0 then 1 else if since + 10000000 ≤ now then 2 else t.byPower }
        else if sumNat t.power < 17000 then
          let since := t.under.getD now
          if since + 10000000 ≤ now then { t with above := none, under := some now, byPower := t.byPower - 1 }
          else { t with above := none, under := some since }
        else { t with above := none, under := none }
    { d with therm := t1 }

/-- THROT_N_ASSERT: a low of 1 µs or more. [Log entry 110, DEDUCED.] -/
def throtAssert (lowNs : Nat) (d : Dev) : Dev := if lowNs < 1000 then d else { d with therm.byPin := true }

/-- THROT_N_RELEASE. -/
def throtRelease (d : Dev) : Dev := { d with therm.byPin := false }

/-- The level that temperature requests. -/
def tempLevel (t : Therm) : Nat := (t.reqs.map (·.level)).foldl Nat.max 0

/-- The highest level requested, with the cause, sensor and reading that EV_THERMAL_THROTTLE gives: 1 temperature, 2 power, 3 THROT_N. [Log entry 30, DESIGN CHOICE.] -/
def levelAsked (t : Therm) : Nat × Nat × Nat × Nat :=
  let pin := if t.byPin then 2 else 0
  let lv := Nat.max (tempLevel t) (Nat.max t.byPower pin)
  if lv = 0 then (0, 0, 0xFF, 0)
  else if tempLevel t = lv then
    let xs := (t.reqs.filter (fun r => r.level == lv)).map (fun r => (r.sensor, ((t.sensors[r.sensor]?).map (·.current)).getD 0))
    let top := (maxBy (fun (x : Nat × Int) => (x.2 + 32768).toNat) xs).getD (0, 0)
    (lv, 1, top.1, ofSigned 32 top.2)
  else if t.byPower = lv then (lv, 2, 0xFF, (powerAvg t).getD 0)
  else (lv, 3, 0xFF, 0)

/-- The throttle level changes at a boundary only (21 R470). -/
def settleLevel (d : Dev) : Dev :=
  let a := levelAsked d.therm
  let old := d.therm.level
  if a.1 = old then d
  else
    let rise := if old = 0 then d.tim.elapsed else d.therm.since0
    let d1 := { noteThrottle d with therm.level := a.1, therm.since0 := rise, therm.quota := nbQuota a.1 }
    if a.1 = 0 then raiseDev d1 0x0171 [(8, (d.tim.elapsed - d.therm.since0) / 1000)]
    else raiseDev d1 0x0170 [(1, a.1), (1, a.2.1), (1, a.2.2.1), (4, a.2.2.2)]

/-- THERMAL_TRIP: a sensor reaches its trip value. THERMTRIP_N stays asserted until the next reset. [Log entry 110, DEDUCED.] -/
def thermalTrip (sensor : Nat) (t : Int) (d : Dev) : Dev :=
  if 14 ≤ sensor || t < tempLimit sensor 3 || d.therm.trip || !answering d then d
  else
    let d1 := { d with therm.trip := true, outs.pins := d.outs.pins ++ [(1, d.tim.elapsed, false)] }
    powerFail 1 (raiseDev d1 0x0170 [(1, 3), (1, 1), (1, sensor), (4, ofSigned 32 t)])

end Sys2Proof.Machine
end

