-- ==== Sys2Proof/Machine/Info.lean ====
section
/-!
DEFINITION. The verbs of chapter 22: DEVICE_INFO, CONFIG_SET and CONFIG_GET.
-/

namespace Sys2Proof.Machine

/-- A bit mask of the numbers below `n` that satisfy `p`. -/
def maskOf (n : Nat) (p : Nat → Bool) : Nat := sumNat ((List.range n).map (fun i => if p i then 2 ^ i else 0))

/-- Cluster groups in no partition whose eight clusters are all in service. -/
def groupsFree (d : Dev) : Nat :=
  maskOf 32 (fun g => !d.pool.parts.any (fun p => bitSet p.groups g) && (rangeFrom (8 * g) 8).all (fun c => !d.arr.out.contains c))

/-- Flash granules of the device, once the media has been mounted (22 R486). -/
def granulesShown (d : Dev) : Nat := if d.flash.state = 1 || d.flash.state = 2 then d.flash.granules else 0

/-- Flash granules assigned to no slot and not being erased. -/
def granulesOpen (d : Dev) : Nat :=
  ((List.range (granulesShown d)).filter (fun g => !d.flash.assigned.any (fun a => a.2.2 == g) && !d.flash.erasing.contains g)).length

/-- Partitions that a ring sees in DEVICE_INFO: all of them, or those bound to its LD. -/
def partsSeen (d : Dev) (v : Verb) : Nat :=
  maskOf 32 (fun p => match findPart d p with
    | some x => fmRights d v.ring || x.bound == some v.ring
    | none => false)

/-- The 256-byte block of DEVICE_INFO (22 Table 22-6). -/
def infoBlock (d : Dev) (v : Verb) : List Byte :=
  let sum := fun (f : Part → Nat) => sumNat (d.pool.parts.map f)
  let b := d.boot
  let hbmBusy := (d.pool.clearings.flatMap (·.hbm)).length
  let ddrBusy := (d.pool.clearings.flatMap (·.ddr)).length
  let trained := decide (7 ≤ b.stage) && b.stage != 10
  let head := natLe b.serial 8 ++ natLe 0x4096 2 ++ [0xB0, byte b.ifMajor, byte b.ifMinor, 0] ++ natLe b.fwSecurity 2 ++ natLe b.fwVersion 8
  let array := natLe (clustersIn d).length 2 ++ natLe (sumNat ((clustersIn d).map (workingSpares d))) 2 ++ natLe (groupsFree d) 4
  let hbm := (List.range 8).map (fun s => byte (if trained then (freeHbm d s).length else 0)) ++ natLe hbmBusy 2
  let ddr := natLe (if trained then (freeDdr d).length else 0) 2 ++ natLe ddrBusy 2 ++ [byte b.ddrChannels, byte b.ddrDpc] ++ natLe b.ddrMts 2
  let media := natLe (64 - d.arr.fcOut.length) 2 ++ natLe (granulesShown d) 4 ++ natLe (granulesOpen d) 4 ++ [byte d.flash.state] ++
    [byte (spareLeft d.flash)] ++ natLe (if trained then 32 * d.flash.lunsPerCh - d.flash.deadLuns.length else 0) 2
  let links := [byte b.identity, byte d.cxl.width, byte (if d.tur.singleLd then 1 else 0)] ++
    [byte (maskOf 4 (fun n => d.net.ports.any (fun p => p.num == n && (p.state == 2 || p.state == 3))))]
  let free := natLe (partsSeen d v) 4 ++ natLe (262144 - d.rep.noSlots.length - sum (·.slots)) 4 ++
    natLe (16384 - d.buddy.ports.length - sum (·.qps)) 2 ++ natLe (65535 - sum (·.windows)) 2 ++ [byte (8 - sum (·.lexicons))] ++
    [byte (64 - sum (·.grammars)), 0, 0]
  padTo (head ++ array ++ hbm ++ ddr ++ media ++ links ++ free ++ natLe (ctrGet d 0 0 5).val 4 ++ natLe d.tur.config 8 ++ natLe d.tur.label 16) 256

/-- DEVICE_INFO (22 R486). [Log entry 108, DEDUCED.] -/
def deviceInfoBody (v : Verb) (d : Dev) : Except Fail Dev := do
  let off := fld v 24 8
  check4 v false [(16, 8), (36, 28)]
    [(24, if v.ring = 16 then off == 0 else off % 64 == 0 && outIn d v off 256), (32, decide (256 ≤ fld v 32 4))]
  if outPartial d v off 256 then failSt stDamaged
  else
    let g := granulesShown d
    let free := if 7 ≤ d.boot.stage && d.boot.stage ≠ 10 then (freeDdr d).length else 0
    .ok (finishOk (outWrite d v off (infoBlock d v)) v
      [(8, 8, d.boot.serial), (16, 2, (clustersIn d).length), (18, 1, d.boot.stage), (19, 1, d.boot.identity), (20, 4, g), (24, 2, free)])

/-- CONFIG_SET (22 R488). -/
def configSetBody (v : Verb) (d : Dev) : Except Fail Dev := do
  let item := fld v 16 1
  let compare := bitSet (fld v 17 1) 0
  check4 v false ([(18, 6), (48, 16)] ++ (if item = 1 then [(40, 8)] else []))
    [(16, item == 1 || item == 2), (17, decide (fld v 17 1 < 2) && !(compare && item == 2))]
  let old := if item = 1 then d.tur.config else d.tur.label % 2 ^ 64
  if compare && d.tur.config ≠ fld v 24 8 then failWith stState [(8, 8, d.tur.config)]
  else
    let d1 :=
      if item = 1 then { d with tur.config := fld v 32 8, tur.configClause := d.clk.count }
      else { d with tur.label := fld v 32 16, tur.labelClause := d.clk.count }
    .ok (finishOk d1 v [(8, 8, old), (16, 8, d.clk.count)])

/-- CONFIG_GET (22 R489). -/
def configGetBody (v : Verb) (d : Dev) : Except Fail Dev := do
  let item := fld v 16 1
  check4 v false [(17, 47)] [(16, item == 1 || item == 2)]
  if item = 1 then .ok (finishOk d v [(8, 8, d.tur.config), (24, 8, d.tur.configClause)])
  else .ok (finishOk d v [(8, 16, d.tur.label), (24, 8, d.tur.labelClause)])

end Sys2Proof.Machine
end

