-- ==== Sys2Proof/Machine/Clock.lean ====
section
/-!
DEFINITION. The clause grid and device time (chapter 03): when a boundary is due and what it makes of the grid, TICK_IN, CLAUSE_SET, TIME_SET
and PTP steering.
-/

namespace Sys2Proof.Machine

/-! ### Boundaries (03 R38-R42, R44) -/

/-- Clause length in ns. -/
def lenNs (g : Grid) : Nat := g.lenUs * 1000

/-- Whether a job still runs on a core, a channel core or not (03 R37). -/
def coresBusy (d : Dev) : Bool := !d.arr.slices.isEmpty

/-- Whether a boundary is due, at elapsed time `now`, for a clause length of `l` ns: the first one at once; then at the planned end, or, locked
without debt, at an accepted tick; at once after an abort; never while a job runs. -/
def boundaryDue (c : Clk) (l now : Nat) (busy : Bool) : Bool :=
  !c.started || (!busy && (
    if c.aborted then true
    else if c.mode = 1 then
      c.locking || (if c.rebase then c.ticks.any (fun t => decide (c.start + l / 2 ≤ t))
        else if 0 < c.debt then decide (c.start + c.planned ≤ now)
        else !c.ticks.isEmpty)
    else decide (c.start + c.planned ≤ now)))

/-- The nominal time of the boundary that takes place at `now`, and the ticks left: (nominal, ticks, owed). `fresh`: a CLAUSE_SET takes effect. [Log entry 17, DESIGN CHOICE.] -/
def nominalTime (c : Clk) (l now : Nat) (fresh : Bool) : Nat × List Nat × Nat :=
  if !c.started || fresh then (now, [], 0)
  else if c.mode = 1 then
    if c.rebase && !c.locking then
      (match c.ticks.find? (fun t => decide (c.start + l / 2 ≤ t)) with
      | some t => (t, c.ticks.filter (fun x => decide (t < x)), 0)
      | none => (now, [], 0))
    else
      match c.ticks with
      | t :: rest => (t, rest, c.owed)
      | [] => (c.nominal + l, [], c.owed + 1)
  else if c.rebase then (now, [], 0)
  else (c.nominal + l, [], 0)

/-- The clause that begins at a boundary: its debt, whether it slips, and its planned length max(L/2, L - D) with the length `l` in force from
here on. `old` is the length of the clause that ends. [Log entry 18, DEDUCED.] -/
def nextClause (c : Clk) (old l now startNow : Nat) (fresh : Bool) : Clk × Bool :=
  let n := nominalTime c old now fresh
  let debt := now - n.1
  let slip := c.started && (c.aborted || (!fresh && decide (8 * old < debt)))
  let planned := if slip then l else Nat.max (l / 2) (l - debt)
  ({ c with
     count := if c.started then (c.count + 1) % 2 ^ 64 else 0
     started := true
     startNow := startNow
     start := now
     nominal := n.1
     debt := debt
     planned := planned
     shortened := decide (planned < l)
     rebase := slip
     aborted := false
     locking := false
     ticks := n.2.1
     owed := n.2.2 }, slip)

/-- Change the source of the grid (03 R44, R50): a change to TICK_IN starts locking. -/
def setSource (c : Clk) (old new : Nat) : Clk :=
  if new = old then c
  else if new = 1 then { c with mode := 2, goodTicks := 0, lastSeen := none }
  else { c with mode := 0, goodTicks := 0, lastSeen := none, locking := false, ticks := [], owed := 0 }

/-- Whether the CLAUSE_SET that waits takes effect at the boundary after the clause `count`. -/
def clauseSetDue (g : Grid) (count : Nat) : Option ClauseSetWait :=
  match g.waiting with
  | some w => if w.effective ≤ count + 1 then some w else none
  | none => none

/-- The settings after a CLAUSE_SET takes effect. -/
def gridAfter (w : ClauseSetWait) : Grid := { lenUs := w.lenUs, bgPct := w.bgPct, source := w.source, waiting := none }

/-- The clock's part of a boundary: the settings that take effect, the new clause, EV_CLAUSE_SLIP (03 R40, R50). TICK_OUT pulses. [Log entry 18, DEDUCED.] -/
def turnClause (g : Grid) (d : Dev) : Grid × Dev :=
  let set := if d.clk.started then clauseSetDue g d.clk.count else none
  let g1 := match set with | some w => gridAfter w | none => g
  let now := d.tim.elapsed
  let r := nextClause d.clk (lenNs g) (lenNs g1) now d.tim.now set.isSome
  let c := setSource r.1 g.source g1.source
  let d1 := { d with clk := c, outs.pins := d.outs.pins ++ [(0, now, true), (0, now + 100, false)] }
  let d2 := if r.2 then raiseDev (bump d1 0 0 1 1) 0x0110 [(4, (now - (nominalTime d.clk (lenNs g) now set.isSome).1) / 1000), (8, c.count + 1)] else d1
  match set with
  | some w => (g1, match findVerb d2 w.seq with | some v => finishOk d2 v [(8, 8, c.count)] | none => d2)
  | none => (g1, d2)

/-- CLAUSE_SET (03 R50). -/
def clauseSetCheck (g : Grid) (v : Verb) : Except Fail ClauseSetWait := do
  let l := fld v 16 4
  let b := fld v 20 1
  let s := fld v 21 1
  check4 v false [(22, 42)]
    [(16, l == 0 || (decide (20 ≤ l) && decide (l ≤ 5000))), (20, b == 0 || (decide (2 ≤ b) && decide (b ≤ 25))), (21, decide (s < 3))]
  need stBusy g.waiting.isNone
  .ok { seq := v.seq, lenUs := if l = 0 then g.lenUs else l, bgPct := if b = 0 then g.bgPct else b,
        source := if s = 0 then g.source else s - 1, effective := v.accClause + 2 }

/-- CLAUSE_SET as a command: the settings wait for the second boundary after acceptance. -/
def clauseSet (seq : Nat) (g : Grid) (d : Dev) : Grid × Dev :=
  match findVerb d seq with
  | none => (g, d)
  | some v =>
    if v.op == 0x010A && !v.running && serving d && mayStart d v then
      match clauseSetCheck g v with
      | .ok w => ({ g with waiting := some w }, keepRunning (startVerb d v) v)
      | .error f => (g, finishFail (startVerb d v) v f)
    else (g, d)

/-! ### TICK_IN (03 R43, R44) -/

/-- Whether two ticks are spaced L within an eighth of it. -/
def goodSpacing (l a b : Nat) : Bool := decide (a + l ≤ b + l / 8) && decide (b ≤ a + l + l / 8)

/-- TICK_IN_EDGE: a rising edge, high for `highNs`: under 20 ns ignored, from 30 ns seen, and between them either.
While locking no tick has been accepted, so that there is no E: a mis-spaced tick then starts the count of ticks again and is not counted in
TICKS_REJECTED. [Log entry 17, DESIGN CHOICE; entry 121, DESIGN CHOICE.] -/
def tickEdge (dt highNs lenUs : Nat) (d0 : Dev) : Dev :=
  let d1 := advance d0 dt
  let l := lenUs * 1000
  let now := d1.tim.elapsed
  if highNs < 20 || d1.clk.mode = 0 then d1
  else
    let (seen, d) := if 30 ≤ highNs then (true, d1) else drawBool d1
    let c := d.clk
    if !seen then d
    else if c.mode = 1 then
      if goodSpacing l c.lastTick now then
        let taken := if 0 < c.owed then { c with owed := c.owed - 1 } else { c with ticks := c.ticks ++ [now] }
        { d with clk := { taken with lastTick := now, lastTickNow := d.tim.now } }
      else bump d 0 0 2 1
    else
      let good := match c.lastSeen with | some t => goodSpacing l t now | none => false
      let c1 := { c with lastSeen := some now }
      if !good then { d with clk := { c1 with goodTicks := 1 } }
      else if c.goodTicks < 5 then { d with clk := { c1 with goodTicks := c.goodTicks + 1 } }
      else if now < c.start + l / 2 then { d with clk := c1 }
      else
        let lock : Clk := { c1 with mode := 1, locking := true, lastTick := now, lastTickNow := d.tim.now, ticks := [now], owed := 0, goodTicks := 0 }
        raiseDev { d with clk := lock } 0x0112 [(8, d.tim.now)]

/-- TICK_LOSS_TIMEOUT: no tick accepted by E + L/2, which is 1.5 L after the last. -/
def tickLoss (dt lenUs : Nat) (d0 : Dev) : Dev :=
  let d := advance d0 dt
  let l := lenUs * 1000
  let c := d.clk
  if c.mode ≠ 1 || 2 * d.tim.elapsed < 2 * c.lastTick + 3 * l then d
  else
    let waits := !coresBusy d && decide (c.start + c.planned ≤ d.tim.elapsed) && c.ticks.isEmpty
    let base : Clk := { c with mode := 2, goodTicks := 0, lastSeen := none, locking := false, ticks := [], owed := 0 }
    let c1 : Clk := if waits then { base with rebase := true } else { base with nominal := c.lastTick }
    raiseDev (bump { d with clk := c1 } 0 0 3 1) 0x0111 [(8, c.lastTickNow)]

/-! ### TIME_SET (03 R51) -/

/-- A field as a signed number of `bits` bits. -/
def signedOf (bits n : Nat) : Int := if n % 2 ^ bits < 2 ^ (bits - 1) then (n % 2 ^ bits : Nat) else (n % 2 ^ bits : Nat) - (2 ^ bits : Nat)

/-- What a TIME_SET ends: a slew in progress and PTP_FOLLOW; the base rate stays as last steered. -/
def endSteering (t : Tim) : Tim := { endSlew t with ptp := false, ptpState := 0 }

/-- Step device time forward, and let what the step skips take effect (03 R47). -/
def stepTime (d : Dev) (instant : Nat) : Dev :=
  let d1 := raiseDev { d with tim.now := instant } 0x0114 [(8, d.tim.now), (8, instant)]
  let d2 := (List.range 16).foldl (fun a s => probeSample s 0 (gateTakeover s 0 a)) d1
  refill 0 d2

/-- Whether a sub-port is up. -/
def subUp (d : Dev) (s : Nat) : Bool := match findSub d s with | some x => x.up | none => false

/-- The headroom of a slew (03 R47). [Log entry 18, DEDUCED.] -/
def headroom (base offset : Int) : Int := if offset < 0 then 500000 + base else 500000 - base

/-- TIME_SET. A SLEW by 0 has no direction: it needs no headroom and ends at once with no slew. PTP_FOLLOW of a sub-port that is not there, as the
port's split mode has it, is one that is not up: ST_STATE. [Log entry 18, DEDUCED; entry 121, DESIGN CHOICE.] -/
def timeSetBody (v : Verb) (d : Dev) : Except Fail Dev := do
  let mode := fld v 16 1
  let raw := fld v 24 8
  let val := signedOf 64 raw
  let ppb := fld v 20 4
  let t := endSteering d.tim
  check4 v false [(19, 1), (32, 32)]
    [(16, decide (1 ≤ mode) && decide (mode ≤ 5)), (17, if mode = 4 then decide (fld v 17 1 < 16) else fld v 17 1 == 0),
     (18, if mode = 4 then decide (fld v 18 1 < 128) else fld v 18 1 == 0),
     (20, if mode = 2 then decide (1 ≤ ppb) && decide (ppb ≤ 500000) else ppb == 0),
     (24, match mode with
       | 1 => decide ((d.tim.now : Int) < val)
       | 2 => val == 0 || decide (0 < headroom d.tim.basePpb val)
       | 3 => decide (-500000 ≤ val) && decide (val ≤ 500000)
       | _ => raw == 0)]
  let done := fun (a : Dev) => finishOk a v [(8, 8, a.tim.now)]
  match mode with
  | 1 => .ok (done (stepTime { d with tim := t } raw))
  | 2 =>
    let rate := min (ppb : Int) (headroom t.basePpb val)
    let s : Tim := if val = 0 then t else { t with slewPpb := if val < 0 then -rate else rate, slewLeft := val, slewFrac := 0 }
    .ok (done { d with tim := s })
  | 3 => .ok (done { d with tim := { t with basePpb := val } })
  | 4 =>
    need stState (subUp d (fld v 17 1))
    .ok (done { d with tim := { t with
      ptp := true, ptpPort := fld v 17 1, ptpDomain := fld v 18 1, ptpState := 2, acquired := false, lastSync := d.tim.elapsed, syncT1 := none
      pathDelay := 0 } })
  | _ => .ok (done { d with tim := { t with basePpb := 0 } })

/-- SLEW_END: the offset has been absorbed and the slew part returns to 0. -/
def slewEnd (dt : Nat) (d : Dev) : Dev := if d.tim.slewPpb = 0 || dt < slewNeed d.tim then d else advance d dt

/-! ### PTP (03 R48) -/

/-- An offset has been measured: one forward step at the first offset greater than 1 ms, where device time lags; otherwise only the
rate is steered. The rate and the instant of lock are firmware's own. [Log entry 19, DESIGN CHOICE.] -/
def ptpMeasured (d : Dev) (t1 : Nat) : Dev :=
  let off : Int := (d.tim.syncT2 : Int) - t1 - d.tim.pathDelay
  let lim : Int := 2 ^ 31 - 1
  let shown := if off < -lim then -lim else if lim < off then lim else off
  let (r, d1) := drawNat { d with tim.offsetNs := shown, tim.syncT1 := some t1 }
  let (locked, d2) := drawBool d1
  let rate : Int := (r % 1000001 : Nat) - 500000
  let d3 := { d2 with tim.basePpb := rate, tim.ptpState := if locked then 3 else 2 }
  if d3.tim.acquired || off.natAbs ≤ 1000000 then d3
  else
    let d4 := { d3 with tim.acquired := true }
    if off < 0 then stepTime d4 (d4.tim.now + off.natAbs) else d4

/-- PTP_MESSAGE_RECEIVE on sub-port `s`, timestamped with device time on arrival. A Sync is answered by a delay request. [Log entry 19, DESIGN CHOICE.] -/
def ptpReceive (s domain : Nat) (m : PtpMsg) (d : Dev) : Dev :=
  if !d.tim.ptp || s ≠ d.tim.ptpPort || domain ≠ d.tim.ptpDomain || !subUp d s then d
  else
    match m with
    | .sync seq origin =>
      let d1 := { d with
        tim.lastSync := d.tim.elapsed
        tim.syncSeq := seq
        tim.syncT2 := d.tim.now
        tim.syncT1 := none
        tim.delayT3 := d.tim.now
        tim.ptpState := if d.tim.ptpState = 4 then 2 else d.tim.ptpState }
      let d2 := updSub d1 s (fun x => { x with ctl := x.ctl ++ [Frame.ptp domain 1 seq] })
      (match origin with
      | some t1 => ptpMeasured d2 t1
      | none => d2)
    | .followUp seq t1 => if seq = d.tim.syncSeq && d.tim.syncT1.isNone then ptpMeasured d t1 else d
    | .delayResp seq t4 =>
      (match d.tim.syncT1 with
      | some t1 =>
        if seq = d.tim.syncSeq then
          { d with tim.pathDelay := (((d.tim.syncT2 : Int) - t1) + ((t4 : Int) - d.tim.delayT3)) / 2 }
        else d
      | none => d)

/-- PTP_SYNC_TIMEOUT: no Sync for 4 s; the last rate is held. The event gives the port byte of TIME_SET, sub-port bits and all. [Log entry 121, DESIGN CHOICE.] -/
def ptpTimeout (dt : Nat) (d0 : Dev) : Dev :=
  let d := advance d0 dt
  if !d.tim.ptp || d.tim.ptpState = 4 || d.tim.elapsed < d.tim.lastSync + 4000000000 then d
  else raiseDev { d with tim.ptpState := 4 } 0x0115 [(1, d.tim.ptpPort), (4, ofSigned 32 d.tim.offsetNs)]

end Sys2Proof.Machine
end

