-- ==== Sys2Proof/Machine/Search.lean ====
section
/-!
DEFINITION. IDX_SEARCH (12 R260-R269): batches, filters, the graph and scan paths, results.
-/

namespace Sys2Proof.Machine

def findSearch (d : Dev) (job : Nat) : Option Search := d.searches.find? (fun s => s.job == job)

def updSearch (d : Dev) (job : Nat) (f : Search → Search) : Dev :=
  { d with searches := updWhere (fun (s : Search) => s.job == job) f d.searches }

/-- Bytes of a result record. -/
def resultSize (k : Nat) : Nat := roundUp (32 + 16 * k) 64

/-! ### The verb (12 R260, Table 12-5) -/

/-- Whether the fields of a search descriptor are in range. -/
def searchHeadOk (a : Area) (b : List Byte) : Bool :=
  let n := fieldAt b 2 2
  let k := fieldAt b 4 4
  let l := fieldAt b 8 4
  decide (fieldAt b 0 1 < 64) && decide (fieldAt b 1 1 < 2) && inR n 1 256 && inR k 1 1024 && (l == 0 || inR l k 4096) &&
    decide (fieldAt b 12 2 ≤ 16) && fieldAt b 14 2 == 0 && decide (fieldAt b 16 4 ≤ 65536) && fieldAt b 24 8 % 64 == 0 &&
    fieldAt b 32 8 % 64 == 0 && allZero (b.drop 48) && inArea a (fieldAt b 24 8) (64 * n) && inAreaOut a (fieldAt b 32 8) (n * resultSize k)

/-- A query before its filter is read. -/
def blankQuery (i window : Nat) : SearchQ :=
  { idx := i, vec := [], allow := none, pred := [], scanPath := false, scan := [], cand := [], window := window, visited := [], found := [],
    side := [], sideCount := 0, visits := 0, lost := 0, reading := [], ended := false, done := false, status := 0, reason := 0, foundN := 0 }

/-- IDX_SEARCH. -/
def idxSearchBody (v : Verb) (d0 : Dev) : Except Fail Dev := do
  let off := fld v 16 8
  let d := placeBlock d0 v
  let a := verbArea d v
  check4 v false [(24, 40)] [(16, off % 64 == 0 && argIn d0 v off 64), (16, structOk d0 v off 64 (searchHeadOk a))]
  let b ← areaRead d a off 64
  let i := fieldAt b 0 1
  let live := match findIndex d i with | some x => x.state != 4 && !droppedBefore x v.seq | none => false
  checkOwned d v 10 i 16 live
  match findIndex d i with
  | none => failId stStale 16
  | some x =>
    need stDamaged (x.state != 3)
    needReady x
    needMedia d false
    let n := fieldAt b 2 2
    let qt ← areaRead d a (fieldAt b 24 8) (64 * n)
    let k := fieldAt b 4 4
    let l := if fieldAt b 8 4 = 0 then Nat.max k 64 else fieldAt b 8 4
    let w := if fieldAt b 12 2 = 0 then 4 else fieldAt b 12 2
    let bud := if fieldAt b 16 4 = 0 then Nat.min (8 * l) 65536 else fieldAt b 16 4
    let sc := if fieldAt b 20 4 = 0 then ixScan x.params else if fieldAt b 20 4 = 0xFFFFFFFF then 0 else fieldAt b 20 4
    let num := d.arr.nextJob
    let ctx := if v.admin then x.ctx else v.ctx
    let j : Job := { noJob with num := num, seq := v.seq, kind := 2, prio := verbPrio d v, part := x.part, ctx := ctx, model := i, desc := b ++ qt }
    let s : Search := { job := num, index := i, k := k, l := l, w := w, budget := bud, scanMax := sc, jobSeq := fieldAt b 40 8,
                        begun := false, sent := false, clause := 0, queries := (List.range n).map (fun q => blankQuery q l) }
    .ok (keepRunning { d with arr.jobs := d.arr.jobs ++ [j], arr.nextJob := (num + 1) % 2 ^ 32, searches := d.searches ++ [s] } v)

/-! ### Queries at dispatch (12 R258, R261, R264, R265, R268) -/

/-- The exact distance of a query to a stored element string. -/
def storedDist (x : Index) (q : List Nat) (vscale : Nat) (vec : List Byte) : Nat :=
  exactDist x.params q (storedVals (ixFmt x.params) (ixDims x.params) vscale vec)

/-- Whether a query allows a node with these attributes (12 R261). -/
def allows (q : SearchQ) (n : Nat) (attrs : List Byte) : Bool :=
  (match q.allow with
  | some l => l.contains n
  | none => true) && (q.pred.isEmpty || predPass q.pred attrs)

/-- The status with which a query entry is refused: 3 RANGE, 4 DAMAGED, 2 STALE_FILTER. [Log entry 69, DEDUCED.] -/
def queryError (d : Dev) (x : Index) (base limit : Nat) (bf16 : Bool) (e : List Byte) : Option Nat :=
  let ps := x.params
  let inside := fun (off len : Nat) => decide (off + len ≤ limit)
  let vo := fieldAt e 0 8
  let vb := ixDims ps * (if bf16 then 2 else 4)
  let fl := fieldAt e 8 1
  let fo := fieldAt e 16 8
  let fc := fieldAt e 24 4
  let po := fieldAt e 32 8
  let ones := (if bitSet fl 0 then 1 else 0) + (if bitSet fl 1 then 1 else 0) + (if bitSet fl 2 then 1 else 0)
  let flen := if bitSet fl 1 then ceilDiv (ixCap ps) 8 else if bitSet fl 2 then 8 * fc else 0
  let bm := fieldAt e 10 2
  if !(vo % 64 == 0 && inside vo vb && decide (fl < 16) && decide (ones ≤ 1) && fieldAt e 9 1 == 0 && fieldAt e 28 4 == 0 && allZero (e.drop 40) &&
      (!bitSet fl 0 || (bm / 1024 == x.id && x.maps.any (fun m => m.num == bm % 1024))) && (!bitSet fl 2 || inR fc 1 65536) &&
      inside fo flen && (!bitSet fl 3 || (po % 64 == 0 && inside po 256))) then some 3
  else if exPoisoned d (base + vo) vb || exPoisoned d (base + fo) flen || (bitSet fl 3 && exPoisoned d (base + po) 256) then some 4
  else if bitSet fl 3 && !predOk (memReadN d.exch (base + po) 256) (ixAttr ps) then some 3
  else if (queryVec ps (sourceCodes bf16 (ixDims ps) (memReadN d.exch (base + vo) vb))).isNone then some 3
  else if bitSet fl 1 && fieldAt e 12 4 != x.epoch then some 2
  else none

/-- Take up a query at dispatch: its vector, filter, path and side-list results. -/
def startQuery (d : Dev) (x : Index) (s : Search) (base limit : Nat) (bf16 : Bool) (table : List Byte) (q : SearchQ) : SearchQ :=
  let e := (table.drop (64 * q.idx)).take 64
  let ps := x.params
  match queryError d x base limit bf16 e with
  | some st => { q with status := st, ended := true }
  | none =>
    let vb := ixDims ps * (if bf16 then 2 else 4)
    let vec := (queryVec ps (sourceCodes bf16 (ixDims ps) (memReadN d.exch (base + fieldAt e 0 8) vb))).getD []
    let fl := fieldAt e 8 1
    let bit := fun (n : Nat) => bitSet (memRead d.exch (base + fieldAt e 16 8 + n / 8)).toNat (n % 8)
    let ids := (List.range (fieldAt e 24 4)).map (fun i => leNat (memReadN d.exch (base + fieldAt e 16 8 + 8 * i) 8))
    let bm := x.maps.find? (fun m => m.num == fieldAt e 10 2 % 1024)
    let allow : Option (List Nat) :=
      if bitSet fl 0 then bm.map (·.allow)
      else if bitSet fl 1 then some ((List.range (ixCap ps)).filter bit)
      else if bitSet fl 2 then some (ids.filterMap (itemNode x)).eraseDups
      else none
    let count : Option Nat :=
      if bitSet fl 0 then bm.map (mapPopulation x)
      else if bitSet fl 1 then some (fieldAt e 24 4)
      else allow.map List.length
    let scanPath := match count with | some c => decide (c < s.scanMax) | none => false
    let q1 := { q with vec := vec, allow := allow, pred := if bitSet fl 3 then memReadN d.exch (base + fieldAt e 32 8) 256 else [],
                       scanPath := scanPath }
    let live := sortBy (fun (a b : Nat) => decide (a ≤ b)) ((allow.getD []).filter (isLive x))
    let ents := if ixMode ps = 0 then x.side.filter (fun y => !y.del && !y.merged && !y.cancelled) else []
    let side := (ents.filter (fun y => allows q1 y.node y.attrs)).map (fun y =>
      { dist := storedDist x vec y.vscale y.vec, node := y.node, item := y.item : Found })
    { q1 with
      scan := if scanPath then live else []
      cand := if scanPath then [] else match x.entry with | some n => candInsert x vec [] n | none => []
      window := if scanPath then 0 else q1.window
      side := side
      sideCount := ents.length }

/-! ### Steps (12 R263, R264) -/

/-- Issue the reads of one record: a NAND operation per codeword of its programmed pages; buffered and unmapped pages need none, and a lost
page is poisoned at once (13 R291). [Log entry 66, DEDUCED.] -/
def readNode (x : Index) (job : Nat) (d : Dev) (n : Nat) : Dev × RdSt :=
  let cws := recordCws x n
  let go := fun (acc : Dev × List Nat) (l : Nat) =>
    match (gpageOf acc.1 x.part l).bind (livePage acc.1) with
    | none => acc
    | some pg =>
      if pg.lost then (cws.foldl (tellUnread pg) acc.1, acc.2)
      else if pg.st ≠ 1 then acc
      else
        match acc.1.flash.groups.find? (fun g => g.id == pg.bg) with
        | none => acc
        | some g =>
          cws.foldl (fun a cw => (issueLane a.1 g pg.lane (.read pg.gpage cw 1 job), a.2 ++ [a.1.flash.nextOp])) acc
  let r := (recordLpns x n).foldl go (d, [])
  (r.1, { node := n, ops := r.2, lost := false, zero := false })

/-- The nodes that a query reads next: a batch of the graph path after widening, or what is left of its scan. `fuel` bounds the
widenings. -/
def chooseReads (s : Search) : Nat → SearchQ → SearchQ × List Nat
  | 0, q => ({ q with ended := true }, [])
  | k + 1, q =>
    if q.ended then (q, [])
    else if q.scanPath then
      if q.scan.isEmpty then ({ q with ended := true }, []) else ({ q with scan := [] }, q.scan)
    else if q.visits ≠ 0 && s.budget ≤ q.visits then ({ q with ended := true }, [])
    else
      match nextBatch q.cand q.window s.w q.visited with
      | [] =>
        if q.found.length < s.k && decide (q.window < 4096) && decide (q.visits < s.budget) then
          chooseReads s k { q with window := Nat.min (2 * q.window) 4096 }
        else ({ q with ended := true }, [])
      | batch => (q, batch)

/-- Issue the reads of one query that waits for no reply. -/
def sendQuery (x : Index) (s : Search) (acc : Dev × List SearchQ) (q : SearchQ) : Dev × List SearchQ :=
  if q.done || !q.reading.isEmpty then (acc.1, acc.2 ++ [q]) else
  let (q1, ns) := chooseReads s 16 q
  let r := ns.foldl (fun (a : Dev × List RdSt) n => let y := readNode x s.job a.1 n; (y.1, a.2 ++ [y.2])) (acc.1, [])
  (r.1, acc.2 ++ [{ q1 with reading := r.2 }])

/-- Merge the reply of one read into a query. -/
def mergeReply (x : Index) (d : Dev) (q : SearchQ) (r : RdSt) : SearchQ :=
  let q1 := { q with visited := r.node :: q.visited, visits := q.visits + 1 }
  if r.lost then { q1 with lost := q1.lost + 1 }
  else if r.zero then q1
  else
    match readRecord d x r.node with
    | .lost => { q1 with lost := q1.lost + 1 }
    | .absent => q1
    | .found rec =>
      let f : Found := { dist := storedDist x q.vec rec.vscale rec.vec, node := r.node, item := rec.item }
      let ok := allows q r.node rec.attrs && (q.scanPath || rec.state != 2)
      let q2 := if ok then { q1 with found := f :: q1.found } else q1
      if q.scanPath then q2
      else
        let near := ((rec.nbrs.map (·.2)).filter (fun m => !q2.visited.contains m))
        { q2 with cand := near.foldl (candInsert x q.vec) q2.cand }

/-- Merge every reply of a query. -/
def mergeQuery (x : Index) (s : Search) (acc : Dev × List SearchQ) (q : SearchQ) : Dev × List SearchQ :=
  let q1 := q.reading.foldl (mergeReply x acc.1) { q with reading := [] }
  let lostNodes := (q.reading.filter (fun r => r.lost || (match readRecord acc.1 x r.node with | .lost => true | _ => false))).map (·.node)
  (lostNodes.foldl (tellLost x s.jobSeq) acc.1, acc.2 ++ [q1])

/-! ### Results (12 R266-R268) -/

/-- The best K of a query's results, LIVE now, without duplicates of a node. -/
def assemble (x : Index) (k : Nat) (q : SearchQ) : List Found :=
  let all := sortBy (foundLe (·.node)) ((q.found ++ q.side).filter (fun f => isLive x f.node))
  let once := all.foldl (fun acc f => if acc.any (fun g => g.node == f.node) then acc else acc ++ [f]) ([] : List Found)
  (sortBy (foundLe (·.item)) once).take k

/-- The result record of a query. -/
def resultRecord (k : Nat) (q : SearchQ) (fs : List Found) : List Byte :=
  let head := [byte q.status, byte q.reason, if q.scanPath then 1 else 0, 0] ++ natLe fs.length 4 ++ natLe q.visits 4 ++ natLe q.lost 4 ++
    natLe (if q.scanPath then 0 else q.window) 4 ++ natLe q.sideCount 4 ++ List.replicate 8 0
  padTo (head ++ fs.flatMap (fun f => natLe (f.item % 2 ^ 40) 8 ++ natLe f.dist 4 ++ natLe 0 4)) (resultSize k)

/-- Assemble a query whose last reply has been merged, and write its record. [Log entry 69, DEDUCED.] -/
def finishQuery (x : Index) (s : Search) (j : Job) (acc : Dev × List SearchQ) (q : SearchQ) : Dev × List SearchQ :=
  if q.done || !q.ended then (acc.1, acc.2 ++ [q])
  else
    let failed := q.status ≠ 0
    let fs := if failed then [] else assemble x s.k q
    let short := !failed && decide (fs.length < s.k)
    let reason := if !short then 0 else if liveCount x < s.k then 3 else if q.scanPath then 1 else 2
    let q0 := if failed then { blankQuery q.idx 0 with status := q.status } else q
    let q1 := { q0 with done := true, ended := true, status := if failed then q.status else if short then 1 else 0, reason := reason,
                        foundN := fs.length }
    let d1 := jobWrite acc.1 j (fieldAt j.desc 32 8 + q.idx * resultSize s.k) (resultRecord s.k q1 fs)
    let d2 := bump (bump d1 4 x.id 1 1) 4 x.id 2 q1.visits
    let d3 := if q1.scanPath then bump d2 4 x.id 3 1 else d2
    let d4 := if short then bump d3 4 x.id 4 1 else d3
    (d4, acc.2 ++ [q1])

/-- The completion fields of a search. -/
def searchFields (d : Dev) (j : Job) (qs : List SearchQ) : List (Nat × Nat × Nat) :=
  let ok := (qs.filter (fun q => q.done && q.status == 0)).length
  let sh := (qs.filter (fun q => q.done && q.status == 1)).length
  [(8, 4, ok), (12, 4, sh), (16, 4, qs.length - ok - sh), (20, 4, sumNat (qs.map (·.visits))), (24, 4, d.clk.count - j.dispClause)]

/-- One query at a boundary: where every reply of its step is in they are merged, and a query that then ends is assembled; the others of its batch
go on without it (12 R263). -/
def advanceQuery (x : Index) (s : Search) (j : Job) (acc : Dev × List SearchQ) (q : SearchQ) : Dev × List SearchQ :=
  if q.done || q.reading.any (fun r => !r.ops.isEmpty) then (acc.1, acc.2 ++ [q])
  else
    let m := mergeQuery x s (acc.1, []) q
    let one := fun (a : Dev × List SearchQ) (y : SearchQ) =>
      let z := (chooseReads s 16 y).1
      finishQuery x s j a (if z.ended then { y with ended := true, window := z.window } else y)
    m.2.foldl one (m.1, acc.2)

/-- A search at a boundary: its queries advance, and the batch completes or waits for its next slice. A search of an index that has become DAMAGED
completes with ST_DAMAGED (12 R280). [Log entry 45, DEDUCED.] -/
def advanceSearch (d : Dev) (num : Nat) : Dev :=
  match findJob d num, findSearch d num with
  | some j, some s =>
    match findIndex d s.index with
    | none => finishJob d j stStale []
    | some x =>
      if j.state ≠ 3 then d
      else if x.state = 3 then finishJob d j stDamaged []
      else
        let f := s.queries.foldl (advanceQuery x s j) (d, [])
        let d1 := updSearch f.1 num (fun y => { y with queries := f.2, sent := false })
        if f.2.all (·.done) then finishJob d1 j (if f.2.all (fun q => q.status == 0) then stOk else stPartial) (searchFields d1 j f.2)
        else updJob d1 num (fun y => { y with state := 2 })
  | _, _ => d

/-- After dispatch at a boundary, a search whose slice starts takes up its queries and issues its reads. -/
def sendSearch (d : Dev) (num : Nat) : Dev :=
  match findJob d num, findSearch d num with
  | some j, some s =>
    match findIndex d s.index with
    | none => d
    | some x =>
      if j.state ≠ 1 || s.sent then d
      else
        let base := jobBase d j
        let limit := match findVerb d j.seq with | some v => argLimit d v | none => 0
        let bf16 := bitSet (fieldAt j.desc 1 1) 0
        let qs := if s.begun then s.queries else s.queries.map (startQuery d x s base limit bf16 (j.desc.drop 64))
        let r := qs.foldl (sendQuery x s) (d, [])
        updSearch r.1 num (fun y => { y with begun := true, sent := true, queries := r.2 })
  | _, _ => d

/-- Searches at a boundary, before and after dispatch. -/
def searchVisible (d : Dev) : Dev := (d.searches.map (·.job)).foldl advanceSearch d
def searchSend (d : Dev) : Dev := (d.searches.map (·.job)).foldl sendSearch d

/-- IDX_SEARCH at its limit: assembled queries keep their records, the others are INCOMPLETE (12 R269). -/
def searchTimeout (d : Dev) (j : Job) : Dev :=
  match findSearch d j.num with
  | none => d
  | some s =>
    (s.queries.filter (fun q => !q.done)).foldl (fun a q =>
      jobWrite a j (fieldAt j.desc 32 8 + q.idx * resultSize s.k) (resultRecord s.k { blankQuery q.idx 0 with status := 5 } [])) d

end Sys2Proof.Machine
end

