-- ==== Sys2Proof/Machine/Rings.lean ====
section
/-!
DEFINITION. Rings and registers (chapter 04, 22 R481-R485): doorbells, fetching and accepting verbs, event-ring registers, the firmware-stall
bit, and the limits of verbs.
-/

namespace Sys2Proof.Machine

/-! ### Fetching (04 R56, R57, R68, R70, R75) -/

/-- Completions posted and not consumed. -/
def postedCount (r : Ring) : Nat := (r.cqTail + 2 ^ r.depthLog2 - r.cqHead) % 2 ^ r.depthLog2

/-- Whether a completion entry can be reserved for one more verb of a ring (04 R57). -/
def hasRoom (r : Ring) : Bool := decide (postedCount r + r.inFlight + 1 < 2 ^ r.depthLog2) && r.held.isEmpty

/-- Whether a ring from which the device would fetch has unfetched entries (04 R68): it is enabled, not faulted, holds no completions and
its completion ring is not full. -/
def unfetched (d : Dev) (r : Ring) : Bool :=
  r.enabled && !r.fault && !r.stopped && !r.holding &&
    (if r.num = 16 then !d.tur.hub.isEmpty else r.sqHead != r.sqTail && r.held.isEmpty && !cqFull r)

/-- Whether the device fetches from a ring now: it has unfetched entries, and a completion entry can be reserved (04 R57). -/
def fetchable (d : Dev) (r : Ring) : Bool := unfetched d r && (r.num == 16 || hasRoom r)

/-- The place of a ring in the order of visits: ring 16, rings 0 to 15, the context rings (04 R70). -/
def visitPos (n : Nat) : Nat := if n = 16 then 0 else if n < 16 then n + 1 else n

/-- The next ring to visit: the first fetchable one after the ring last visited, else the first of all. [Log entry 23, DEDUCED.] -/
def nextVisit (d : Dev) : Option Ring :=
  let rs := d.tur.rings.filter (fetchable d)
  match minBy (fun (r : Ring) => visitPos r.num) (rs.filter (fun r => decide (visitPos d.tur.robin < visitPos r.num))) with
  | some r => some r
  | none => minBy (fun (r : Ring) => visitPos r.num) rs

/-- The object and scope of a ring's events: its context, or the device for an admin ring, of which every LD is told. [Log entry 122, DESIGN CHOICE.] -/
def ringEvent (d : Dev) (r : Ring) (cause value : Nat) : Dev :=
  let obj := if r.admin then objDevice else objRef 0x0F r.ctx 0
  let scope := if r.admin then EvScope.device else EvScope.part r.part
  raise d 0x0120 obj scope [(2, r.num), (1, cause), (8, value)]

/-- Fault a ring (04 R62). -/
def faultRing (d : Dev) (r : Ring) (cause value : Nat) : Dev :=
  settleRing (ringEvent (updRing d r.num (fun x => { x with fault := true, faultCause := cause })) r cause value) r.num

/-- Accept an entry of a ring: it takes the next acceptance number, and checks 1 to 3 of Table 4-8 and the boot rule of 19 R440 decide
whether it runs. A PARK without KEEP, a CTX_DESTROY and a PART_DESTROY act from acceptance on (09 R185, 15 R348, R352). -/
def acceptEntry (d : Dev) (r : Ring) (e : Entry) (block : List Byte) (submit : Nat) : Dev :=
  let op := entryFld e 0 2
  let v : Verb := { seq := d.tur.nextSeq, ring := r.num, op := op, entry := e, block := block, blockEnd := 0, submit := submit, ld := r.ld
                    part := r.part, ctx := r.ctx, admin := r.admin, accClause := d.clk.count, accTime := d.tim.elapsed, started := none
                    running := false, event := false }
  let d1 := updRing { d with
    tur.verbs := d.tur.verbs ++ [v]
    tur.nextSeq := d.tur.nextSeq + 1
    tur.lastAccept := d.tim.elapsed
    tur.fwStall := false } r.num (fun x => { x with inFlight := x.inFlight + (if r.num = 16 then 0 else 1) })
  if entryFld e 3 1 ≠ 1 then finish d1 v stUnsupported 3 []
  else if !verbDefined op then finish d1 v stUnsupported 0 []
  else if !ringMay d1 r.num op then finish d1 v stDenied 0 []
  else if d1.boot.stage ≠ 8 && !bootVerb op then finish d1 v stState 0xFF []
  else if op = 0x0408 then parkAccept v d1
  else acceptEnding v d1

/-- Fetch one entry of a ring; a poisoned one faults it, and the event gives 0 for the doorbell value, as no doorbell is at fault. [Log entry 24, DEDUCED; entry 122, DESIGN CHOICE.] -/
def fetchOne (d : Dev) (r : Ring) : Dev :=
  if r.num = 16 then
    match d.tur.hub with
    | [] => d
    | h :: rest => acceptEntry { d with tur.hub := rest } r h.entry h.block h.submit
  else
    let k := exKey r.ld (r.sqOff + 64 * r.sqHead)
    if exPoisoned d k 64 then faultRing d r 4 0
    else
      let e : Entry := BitVec.ofNat 512 (leNat (memReadN d.exch k 64))
      acceptEntry (updRing d r.num (fun x => { x with sqHead := (x.sqHead + 1) % 2 ^ x.depthLog2 })) r e [] 0

/-- A visit to a ring takes up to 8 entries. [Log entry 23, DEDUCED.] -/
def visitRing : Nat → Dev → Nat → Dev
  | 0, d, _ => d
  | k + 1, d, n =>
    match findRing d n with
    | some r => if fetchable d r then visitRing k (fetchOne d r) n else d
    | none => d

/-- RING_FETCH: a control core visits the next ring that has entries to fetch. -/
def ringFetch (d : Dev) : Dev :=
  if !serving d then d
  else
    match nextVisit d with
    | none => d
    | some r => markStarted (visitRing 8 { d with tur.robin := r.num } r.num)

/-- FW_STALL_TIMEOUT: entries wait and no verb has been accepted for 100 ms (04 R68, 22 R485). -/
def stallTimeout (dt : Nat) (d0 : Dev) : Dev :=
  let d := advance d0 dt
  if d.tur.rings.any (unfetched d) && decide (d.tur.lastAccept + 100000000 ≤ d.tim.elapsed) && !d.tur.fwStall then
    { d with tur.fwStall := true, tur.stallSeen := true }
  else d

/-! ### Doorbells (04 R60-R62) -/

/-- The FAULT_CAUSE of a doorbell's fields; 0 for none (04 R62). -/
def doorbellCause (r : Ring) (sq cq : Bool) (tail head : Nat) : Nat :=
  let n := 2 ^ r.depthLog2
  if (sq && decide (n ≤ tail)) || (cq && decide (n ≤ head)) then 1
  else if sq && decide ((tail + n - r.sqHead) % n < (r.sqTail + n - r.sqHead) % n) then 2
  else if cq && decide (postedCount r < (head + n - r.cqHead) % n) then 3
  else 0

/-- RESTART of a halted ring: heads and tails 0, phase 1, the completion ring cleared. -/
def restartRing (d : Dev) (r : Ring) : Dev :=
  if !r.halted then d
  else
    let d1 := updRing d r.num (fun x => { x with
      sqHead := 0, sqTail := 0, cqHead := 0, cqTail := 0, phase := true, done := 0, faultCause := 0, fault := false, halted := false })
    exZero d1 (exKey r.ld r.cqOff) (32 * 2 ^ r.depthLog2)

/-- Take a completion head, which may let held completions be posted. -/
def takeCqHead (d : Dev) (r : Ring) (head : Nat) : Dev :=
  settleRing (drainHeld 65536 (updRing d r.num (fun x => { x with cqHead := head })) r.num) r.num

/-- A write of `width` bytes at BAR0 offset `off` of LD `n` in the doorbell region. [Log entry 23, DEDUCED.] -/
def doorbellWrite (n off width value : Nat) (d : Dev) : Dev :=
  if width ≠ 8 || off % 8 ≠ 0 then bump d 1 n 1 1
  else
    let num := (off - 0x1000) / 8
    match (if d.boot.stage = 8 && !d.boot.powerFail && num ≠ 16 then findRing d num else none) with
    | none => bump d 1 n 2 1
    | some r =>
      if r.ld ≠ n || !r.enabled then bump d 1 n 2 1
      else if bitSet value 63 then restartRing d r
      else
        let sq := bitSet value 32
        let cq := bitSet value 33
        let tail := value % 2 ^ 16
        let head := value / 2 ^ 16 % 2 ^ 16
        if r.fault then (if cq && doorbellCause r false true 0 head = 0 then takeCqHead d r head else d)
        else
          let cause := doorbellCause r sq cq tail head
          if cause ≠ 0 then faultRing d r cause value
          else
            let d1 := if sq && !r.stopped then updRing d num (fun x => { x with sqTail := tail }) else d
            if cq then takeCqHead d1 r head else d1

/-- DOORBELL_SQ_UPDATE: a doorbell write with SQ_UPDATE, and CQ_UPDATE where bit 33 of `value` is set. -/
def doorbellSq (n off width value : Nat) (d : Dev) : Dev := doorbellWrite n off width (value % 2 ^ 63 ||| 2 ^ 32) d

/-- DOORBELL_CQ_UPDATE: a doorbell write with CQ_UPDATE, and SQ_UPDATE where bit 32 of `value` is set. -/
def doorbellCq (n off width value : Nat) (d : Dev) : Dev := doorbellWrite n off width (value % 2 ^ 63 ||| 2 ^ 33) d

/-- DOORBELL_RESTART: a doorbell write with RESTART; every other field is ignored. -/
def doorbellRestart (n off width value : Nat) (d : Dev) : Dev := doorbellWrite n off width (value % 2 ^ 64 ||| 2 ^ 63) d

/-! ### Event-ring registers (04 R77, 22 R481) -/

/-- A register's content after an aligned 8-byte write, or a 4-byte write of one half; none for other writes. -/
def mergeReg (old off width value : Nat) : Option Nat :=
  if width = 8 && off % 8 = 0 then some (value % 2 ^ 64)
  else if width = 4 && off % 8 = 0 then some (old / 2 ^ 32 * 2 ^ 32 + value % 2 ^ 32)
  else if width = 4 && off % 8 = 4 then some (value % 2 ^ 32 * 2 ^ 32 + old % 2 ^ 32)
  else none

/-- The EVQ control register of Table 4-10. -/
def evqControl (q : Evq) : Nat := q.depthLog2 + (if q.enable then 2 ^ 8 else 0) + q.vector * 2 ^ 16

/-- Whether an event ring lies in LD `n`'s exchange area, outside its control area, with a depth of 64 to 65,536. -/
def evqFits (d : Dev) (n : Nat) (q : Evq) : Bool :=
  decide (6 ≤ q.depthLog2) && decide (q.depthLog2 ≤ 16) && decide (0x10000 ≤ q.base * 64) && decide (q.base * 64 + 64 * 2 ^ q.depthLog2 ≤ exSize d n)

/-- Act on an LD's event ring, from READY on. -/
def withEvq (d : Dev) (n : Nat) (f : Evq → Dev) : Dev :=
  match (if d.boot.stage = 8 then d.tur.evqs[n]? else none) with
  | some q => f q
  | none => d

/-- Store an LD's event-ring registers. -/
def putEvq (d : Dev) (n : Nat) (q : Evq) : Dev := { d with tur.evqs := setNth d.tur.evqs n q }

/-- EVQ_ENABLE_WRITE: a write to the EVQ control register. -/
def evqControlWrite (n off width value : Nat) (d : Dev) : Dev :=
  withEvq d n fun q =>
    match mergeReg (evqControl q) off width value with
    | none => d
    | some w =>
      let on := bitSet w 8
      let q1 := { q with vector := w / 2 ^ 16 % 2 ^ 16, depthLog2 := if q.enable then q.depthLog2 else w % 32 }
      if q.enable then putEvq d n { q1 with enable := on }
      else if on && evqFits d n q1 then
        exZero (putEvq d n { q1 with enable := true, head := 0, tail := 0, phase := true, used := 0 }) (exKey n (q1.base * 64)) (64 * 2 ^ q1.depthLog2)
      else putEvq d n q1

/-- EVQ_HEAD_WRITE: taken when it consumes only posted records. -/
def evqHeadWrite (n off width value : Nat) (d : Dev) : Dev :=
  withEvq d n fun q =>
    match mergeReg q.head off width value with
    | none => d
    | some w =>
      let h := w % 2 ^ 16
      let depth := 2 ^ q.depthLog2
      let k := (h + depth - q.head) % depth
      if h < depth && k ≤ q.used then putEvq d n { q with head := h, used := q.used - k } else d

/-- STALL_SEEN_CLEAR: a write of HUB_FAULT. [Log entry 26, DEDUCED.] -/
def stallClear (off width value : Nat) (d : Dev) : Dev :=
  match mergeReg 0 off width value with
  | some w => if bitSet w 11 && !d.tur.fwStall then { d with tur.stallSeen := false } else d
  | none => d

/-- REGISTER_WRITE: a write of `width` bytes at BAR0 offset `off` of LD `n`. Doorbells, the EVQ registers and HUB_FAULT take it as their rules
say; read-only registers and reserved offsets ignore it. -/
def registerWrite (n off width value : Nat) (d : Dev) : Dev :=
  if 0x1000 ≤ off && off < 0x9000 then doorbellWrite n off width value d
  else if off / 8 * 8 = 0x18 then stallClear off width value d
  else if off / 8 * 8 = 0x20008 then evqControlWrite n off width value d
  else if off / 8 * 8 = 0x20010 then evqHeadWrite n off width value d
  else if off / 8 * 8 = 0x20000 then
    withEvq d n fun q =>
      match mergeReg (q.base * 64) off width value with
      | some w => if q.enable then d else putEvq d n { q with base := w / 64 % 2 ^ 30 }
      | none => d
  else d

/-! ### Limits of verbs (04 R74, 22 Table 22-8) -/

/-- The maximum execution time of a verb in ns; none for one that only defers. -/
def verbMax (v : Verb) : Option Nat :=
  let us := 1000
  let ms := 1000000
  let s := 1000000000
  let scopeTime := match fld v 16 1 with | 0 => 10 * ms | 1 => 100 * ms | 2 => 20 * s | 3 => 2 * s | _ => 5 * s
  match v.op with
  | 0x0101 => some ms | 0x0102 => some (100 * us) | 0x0103 => some (100 * us) | 0x0104 => some ms | 0x0105 => some ms
  | 0x0106 => some scopeTime | 0x0107 => some scopeTime | 0x0108 => some (50 * ms) | 0x0109 => some (50 * ms) | 0x010A => some (50 * ms)
  | 0x010B => some (100 * us) | 0x010C => some ms
  | 0x0201 => some (10 * ms) | 0x0202 => some (100 * ms) | 0x0203 => some (10 * ms) | 0x0204 => some (100 * ms) | 0x0205 => some ms
  | 0x0206 => some (100 * ms)
  | 0x0301 => some (4 * s) | 0x0302 => some (10 * ms) | 0x0303 => some (50 * ms) | 0x0304 => some ms | 0x0305 => some (10 * ms)
  | 0x0401 => some ms | 0x0402 => some (20 * ms) | 0x0403 => some (2 * ms) | 0x0404 => some (100 * ms) | 0x0405 => some (50 * ms)
  | 0x0406 => some (2 * ms) | 0x0407 => some (20 * ms) | 0x0408 => some (60 * s) | 0x0409 => some s | 0x040A => some (60 * s)
  | 0x040B => some (20 * ms) | 0x040C => some (100 * us) | 0x040D => some (20 * ms)
  | 0x0501 => some (200 * ms) | 0x0502 => some ms | 0x0503 => some (2 * ms) | 0x0504 => some ms | 0x0505 => some ms
  | 0x0506 => some (if fld v 20 1 = 2 then 100 * ms else ms)
  | 0x0601 => some (2 * s) | 0x0602 => some ms | 0x0603 => some s | 0x0604 => some ms | 0x0605 => some (50 * ms) | 0x0606 => some ms
  | 0x0701 => some (500 * ms) | 0x0702 => some (10 * ms) | 0x0703 => some (2 * s) | 0x0704 => some (2 * s) | 0x0705 => some (2 * s)
  | 0x0707 => some (2 * s) | 0x0709 => some (100 * us)
  | 0x0801 => some (30 * s) | 0x0803 => some ms | 0x0804 => some (10 * ms) | 0x0806 => some ms
  | 0x0901 => some (2 * ms) | 0x0902 => some (10 * ms) | 0x0903 => some (10 * ms) | 0x0904 => some (60 * s) | 0x0905 => some (100 * ms)
  | 0x0906 => some (10 * ms)
  | 0x0A01 => some (10 * ms) | 0x0A02 => some ms | 0x0A03 => some ms | 0x0A04 => some ms | 0x0A05 => some ms | 0x0A06 => some (200 * ms)
  | 0x0A07 => some (100 * us) | 0x0A08 => some (100 * us) | 0x0A09 => some (100 * us) | 0x0A0A => some (100 * us)
  | 0x0B01 => some (100 * us) | 0x0B02 => some ms | 0x0B03 => some (100 * us) | 0x0B04 => some (100 * us) | 0x0B05 => some (100 * us)
  | _ => none

/-- A verb's limit: its maximum, or LIMIT_US where that is non-zero and smaller. -/
def verbLimit (v : Verb) : Option Nat :=
  (verbMax v).map (fun m => if fld v 8 4 = 0 then m else Nat.min m (fld v 8 4 * 1000))

/-- The instant up to which time counts for a verb: dispatch that QUIESCE has stopped does not count for foreground verbs. [Log entry 21, DEDUCED.] -/
def countedNow (d : Dev) (op since : Nat) : Nat :=
  if d.tur.quiesced && jobVerb op then Nat.max since d.tur.quietSince else d.tim.elapsed

/-- Operations that wait for the boundary of their snapshot or start; that wait is not counted (04 R74). -/
def waitsFirst : Op → Bool
  | .fork _ _ _ => true
  | .ckpt _ _ => true
  | .park p => p.stage == 0
  | .revive r => r.stage == 0
  | _ => false

/-- Whether an accepted verb or launched job has reached its limit. A job's time counts from the boundary at which it could first be
dispatched. [Log entry 21, DEDUCED.] -/
def limitReached (d : Dev) (seq : Nat) : Bool :=
  let past := fun (op since lim : Nat) => decide (since + lim ≤ countedNow d op since)
  match d.arr.jobs.find? (fun j => j.seq == seq) with
  | some j =>
    (match j.begun, (match findVerb d seq with | some v => (verbLimit v).map (fun m => (v.op, m)) | none => some (0x0405, 50000000)) with
    | some t, some (op, m) => past op t m
    | _, _ => false)
  | none =>
    match findVerb d seq with
    | some v =>
      let from' := match d.rep.tests.find? (fun t => t.seq == seq) with
        | some t => if t.wait then none else some t.start
        | none => if d.kv.ops.any (fun o => opSeq o == seq && waitsFirst o) then none else v.started
      (match from', verbLimit v with
      | some t, some m => past v.op t m
      | _, _ => false)
    | none => false

/-- VERB_LIMIT_TIMEOUT: the verb will be stopped at the next boundary. -/
def verbTimeout (seq dt : Nat) (d0 : Dev) : Dev :=
  let d := advance (markStarted d0) dt
  if limitReached d seq && !d.tur.late.contains seq then { d with tur.late := d.tur.late ++ [seq] } else d

/-- The state in which a stopped verb leaves its object, by its home chapter; where that says nothing, no effect. -/
def stopVerb (d : Dev) (v : Verb) : Dev :=
  let d1 := writerTimeout d v.seq
  let quit := fun (a : Dev) (fs : List (Nat × Nat × Nat)) => finishSeq a v.seq stTimeout fs
  match d1.kv.ops.find? (fun o => opSeq o == v.seq && !isPromotion o) with
  | some (.park p) => parkFail d1 p stTimeout
  | some (.revive r) => reviveFail d1 r stTimeout
  | some (.move m) => moveStop d1 m stTimeout
  | some (.quiesce _) => quit { d1 with tur.quiesced := true, tur.quietSince := d1.tim.elapsed } []
  | some (.rebind _) => quit (rebindStop d1 v.seq) []
  | some (.forked _ child _ _) => forkUndo d1 v.seq child stTimeout
  | some (.append _) => quit d1 noBadRow
  | some (.discardLpns _) => discardStop d1 v
  | some (.restore _) => quit { d1 with restores := dropWhere (fun (r : RestoreOp) => r.seq == v.seq) d1.restores } []
  | some _ => quit d1 []
  | none =>
    match d1.rep.tests.find? (fun t => t.seq == v.seq) with
    | some t => endTest d1 t stTimeout
    | none =>
      match v.op with
      | 0x0801 =>
        if d1.flash.mounting = some (some v.seq) then quit { d1 with flash.mounting := none, flash.state := 4 } [(8, 1, 4), (12, 4, d1.flash.granules)]
        else quit { d1 with flash.unmounting := none } [(8, 1, d1.flash.state), (12, 4, d1.flash.granules)]
      | 0x0A06 => quit { d1 with net.windows := updWhere (fun w => w.closing == some v.seq) (fun w => { w with closing := none }) d1.net.windows } []
      | 0x0905 =>
        let off := fun (p : BuddyPort) => if p.connecting = some v.seq then { p with connecting := none } else p
        quit { d1 with buddy.ports := d1.buddy.ports.map off } []
      | 0x0A07 => quit { d1 with net.shaperWaits := d1.net.shaperWaits.filter (· != v.seq) } []
      | 0x0A08 => quit { d1 with net.meterWaits := d1.net.meterWaits.filter (fun m => m.2.seq != v.seq) } []
      | 0x0305 => quit (pinStop d1 v.seq) []
      | 0x0404 => quit d1 noBadRow
      | _ => quit d1 []

/-- Stop a verb or launched job that has reached its limit: ST_TIMEOUT, and no write of its job becomes visible. -/
def stopLate (d : Dev) (seq : Nat) : Dev :=
  match d.arr.jobs.find? (fun j => j.seq == seq) with
  | some j => endStopped (stopJob (if j.kind = 2 then searchTimeout d j else d) j.num stTimeout)
  | none =>
    match findVerb d seq with
    | some v => stopVerb d v
    | none => d

/-- At a boundary, the verbs that have reached their limits and have not finished are stopped. [Log entry 27, DEDUCED.] -/
def settleLate (d : Dev) : Dev := settleLaunches (d.tur.late.foldl stopLate { d with tur.late := [] })

end Sys2Proof.Machine
end

