-- ==== Sys2Proof/Machine/Boundary.lean ====
section
/-!
DEFINITION. The clause boundary (03 R36-R42, 09 R187): the writes that become visible, the transitions, the snapshots, the background work
of a clause, and the dispatch of its jobs.
-/

namespace Sys2Proof.Machine

/-! ### Freed phrases (02 R33) -/

/-- Free a phrase: its HBM and DDR copies, its flash pages unless a retained image lists them (09 R192), and its ID. [Log entry 12, DEDUCED.] -/
def freePhrase (d : Dev) (x : Phrase) : Dev :=
  let d1 := { d with kv.phrases := dropWhere (fun (y : Phrase) => y.part == x.part && y.id == x.id) d.kv.phrases }
  let d2 := freeAllocs { d1 with kv.droppings := dropWhere (fun (y : Nat × Nat × Nat × Nat) => y.1 == x.part && y.2.1 == x.id) d1.kv.droppings }
    (phraseKey x.part x.id)
  match x.flash with
  | some l => if 0 < x.imageHolds then d2 else flashUnmap d2 x.part l (ceilDiv (phraseSize x) 16)
  | none => d2

/-- Whether an attention job that was dispatched in clause `c` or before still runs. -/
def attendsSince (d : Dev) (c : Nat) : Bool := d.arr.jobs.any (fun j => j.kind == 0 && j.state != 0 && decide (j.dispClause ≤ c))

/-- At a boundary: phrases whose counts have reached zero are freed once the attention jobs dispatched before the release have completed. A
release (partition, phrase, clause) names the last clause whose jobs were dispatched before it. [Log entry 12, DEDUCED.] -/
def freePhrases (d : Dev) : Dev :=
  d.kv.releases.foldl (fun a r =>
    match findPhrase a r.1 r.2.1 with
    | none => a
    | some x =>
      if 0 < x.refs || 0 < x.holds then a
      else if attendsSince a r.2.2.1 then { a with kv.releases := a.kv.releases ++ [r] }
      else freePhrase a x) { d with kv.releases := [] }

/-- Releases made at this boundary precede its dispatch. [Log entry 12, DEDUCED.] -/
def dateReleases (d : Dev) : Dev :=
  { d with kv.releases := d.kv.releases.map (fun r => if r.2.2.1 = d.clk.count then (r.1, r.2.1, r.2.2.1 - 1, r.2.2.2) else r) }

/-! ### Writes, transitions and snapshots (09 R187) -/

/-- Whether an operation's work at a boundary is a snapshot. [Log entry 35, DEDUCED.] -/
def isSnapshot (o : Op) : Bool :=
  match o with
  | .fork _ _ _ => true
  | .ckpt _ _ => true
  | .park p => p.stage == 0
  | _ => false

/-- What a long verb does at a boundary. -/
def runOp (d : Dev) (o : Op) : Dev :=
  match o with
  | .fork seq h n => forkAt d seq h n
  | .forked seq c sl r => forkedAt d seq c sl r
  | .append seq => appendAt d seq
  | .rollback seq h mode => rollbackAt d seq h mode
  | .truncate seq h n => truncateAt d seq h n
  | .commit seq => commitAt d seq
  | .close seq h => closeAt d seq h
  | .discard seq h => discardAt d seq h
  | .park p => parkAt d p
  | .revive r => reviveAt d r
  | .move m => moveAt d m
  | .resize seq => resizeAt d seq
  | .discardLpns seq => discardLpnsAt d seq
  | .closeText _ h _ _ => textPump d h
  | .bitmap seq => bitmapAt d seq
  | .ckpt seq hs => ckptAt sendOpen d seq hs
  | .restore seq => restoreAt d seq
  | .rebind seq => rebindAt d seq
  | .quiesce seq => quiesceAt d seq
  | .resume seq => resumeAt d seq

/-- The time of a verb that waited for this boundary starts here (04 R74). [Log entry 35, DEDUCED.] -/
def startAtBoundary (d : Dev) (o : Op) : Dev :=
  if waitsFirst o then
    { d with tur.verbs := updWhere (fun (v : Verb) => v.seq == opSeq o) (fun v => { v with started := some d.tim.elapsed }) d.tur.verbs }
  else d

/-- Note which verb made the releases of a list beyond its first `n`. -/
def tagReleases (n seq : Nat) (d : Dev) : Dev :=
  { d with kv.releases := d.kv.releases.take n ++ (d.kv.releases.drop n).map (fun r => (r.1, r.2.1, r.2.2.1, seq)) }

/-- Run the operations that `pick` chooses, in acceptance order. [Log entry 35, DEDUCED.] -/
def runOps (pick : Op → Bool) (d : Dev) : Dev :=
  (d.kv.ops.filter pick).foldl (fun a o =>
    if a.kv.ops.contains o then tagReleases a.kv.releases.length (opSeq o) (runOp (startAtBoundary a o) o) else a) d

/-- Jobs whose last slice has ended: their writes become visible together (06 R117, 11 R243, 12 R263). -/
def completeJobs (d : Dev) : Dev :=
  let due := sortBy (fun (a b : Job) => decide (a.seq ≤ b.seq)) (d.arr.jobs.filter (fun j => j.state == 3))
  searchVisible (due.foldl (fun a j =>
    match j.kind with
    | 0 => completeAttend a j.num
    | 1 => completeSample a j.num
    | 5 => appendJobAt (freeJob a j.num) j
    | _ => a) d)

/-- Steps 1 to 3 of 09 R187: writes, transitions, snapshots. [Log entry 35, DEDUCED.] -/
def settleBoundary (d : Dev) : Dev :=
  let d1 := settleWriters (completeJobs (freePhrases (settleDroppings d)))
  let d2 := transitions (runOps (fun o => !isSnapshot o) d1)
  transitions (dateReleases (runOps isSnapshot d2))

/-! ### Background work (03 R36, 18 Table 18-6) -/

/-- The share of a clause that is not foreground work: flash, indexes, checkpoints, text rings, patrol, tests, sensors. [Log entry 62, DESIGN CHOICE.] -/
def backgroundWork (temps : List Int) (bad : List BadSector) (tests : List (Nat × List Defect)) (d : Dev) : Dev :=
  let d1 := ckptBoundary (idxBoundary (textBoundary (dropHard (flushRefetches (settleImages (settlePins d))))))
  let d2 := { d1 with flash.sinceCkptClauses := d1.flash.sinceCkptClauses + (if d1.flash.state = 1 then 1 else 0) }
  let d3 := mapCheckpoint (gcStep d2)
  let d4 := bad.foldl patrolError (repairBoundary tests d3)
  settleLevel (senseReqs (senseAll (noteThrottle d4) temps) temps)

/-! ### Dispatch (03 R38, R39) -/

/-- Note for each job the boundary at which it could first be dispatched (04 R74). -/
def beginJobs (d : Dev) : Dev :=
  let ready := fun (j : Job) => j.state == 0 && j.begun.isNone && j.sessions.all (fun h => !writersBefore d h j.seq)
  { d with arr.jobs := updWhere ready (fun j => { j with begun := some d.tim.elapsed }) d.arr.jobs }

/-- Dispatch the clause's jobs, unless QUIESCE has stopped dispatch (18 R429) or the device is not READY. [Log entry 20, DESIGN CHOICE.] -/
def dispatchClause (lenUs : Nat) (d : Dev) : Dev :=
  if d.tur.quiesced || d.boot.stage ≠ 8 then { d with clk.deferring := false }
  else
    let d1 := searchSend (dispatchAll (wakeJobs (beginJobs d)) lenUs)
    { d1 with clk.deferring := d1.arr.jobs.any (fun j => decide (0 < j.deferrals)) }

/-! ### The boundary -/

/-- A CLAUSE_SET whose verb has gone no longer waits. [Log entry 27, DEDUCED.] -/
def dropWaiting (g : Grid) (d : Dev) : Grid :=
  match g.waiting with
  | some w => if (findVerb d w.seq).isSome then g else { g with waiting := none }
  | none => g

/-- CLAUSE_BOUNDARY after `dt` ns: `temps` are the sensors' readings, `bad` the sectors that patrol finds in error, `tests` the tests and
calibrations that have ended with what they found. [Log entry 8, DESIGN CHOICE; entry 16, DEDUCED.] -/
def boundary (dt : Nat) (temps : List Int) (bad : List BadSector) (tests : List (Nat × List Defect)) (g0 : Grid) (d0 : Dev) : Grid × Dev :=
  let d1 := advance d0 dt
  if !answering d1 || d1.boot.powerFail || !boundaryDue d1.clk (lenNs g0) d1.tim.elapsed (coresBusy d1) then (g0, d1)
  else
    let late := settleLate (nextRelease d1)
    let t := turnClause (dropWaiting g0 late) late
    let d2 := settleBoundary t.2
    let d3 := applyAlloc (becomeReady (backgroundWork temps bad tests d2))
    (t.1, dispatchMovers (settleLaunches (dispatchClause t.1.lenUs (markStarted d3))))

/-- A boundary that another command brings about, where it is due at that instant (03 R41, R44): the sensors give no new reading, patrol finds
nothing and no test ends. [Log entry 16, DEDUCED.] -/
def boundaryAtOnce (g : Grid) (d : Dev) : Grid × Dev :=
  let r := boundary 0 [] [] [] g d
  (r.1, noteHealth r.2)

end Sys2Proof.Machine
end

