-- ==== Sys2Proof/Machine/NearBank.lean ====
section
/-!
DEFINITION. Near-bank operations in the HBM stacks (08 R162-R176): the NB descriptor, what an operation computes, its command groups, relays
and errors, the quota, and the units.
-/

namespace Sys2Proof.Machine

/-! ### What an operation computes (08 R164, R165) -/

/-- The activation that ACT_FN names, with the values of Table 8-2 outside its domain. -/
def nbAct (fn : Nat) (v : Fv) : Fv :=
  let dom := nbDomain fn
  if fvIsNan v then v
  else if fvLt v (.fin (decide (dom.1 < 0)) dom.1.natAbs 0) then (if fn = 5 then .fin false 1 0 else .fin false 0 0)
  else if !fvLt v (.fin false dom.2.natAbs 0) then
    (match fn with
    | 3 => .fin false 1 0
    | 5 => .fin false 0 0
    | _ => v)
  else f32 (nearBankIn fn v)

/-- The result on one element before its one rounding (08 Table 8-1): `a`, `b` the row's scalars, `v` the vector element, in binary32. -/
def nbElem (op fn : Nat) (after : Bool) (a b v : Nat) (x : Fv) : Fv :=
  let y := match op with
    | 0 => .fin false 0 0
    | 1 => fvMul (f32 a) x
    | 2 => fvAdd x (f32 v)
    | 3 => fvMul x (f32 v)
    | 4 => fvAdd (fvMul (f32 a) x) (f32 (f32Mul b v))
    | _ => nbAct fn x
  if after && decide (1 ≤ op) && decide (op ≤ 4) then nbAct fn y else y

/-! ### The NB descriptor (08 R166) -/

/-- Bytes of an NB operation's matrices, of its scalars, and of its vectors. -/
def nbBytes (x : Nat) : Nat := df x 12 4 * df x 8 4 * df x 4 2 * 64
def nbScalars (x : Nat) : Nat := df x 12 4 * df x 8 4 * 4
def nbVectors (x : Nat) : Nat :=
  let elems := df x 4 2 * (if df x 1 1 = 3 then 32 else 16)
  (if bitSet (df x 3 1) 1 then 1 else df x 12 4) * elems * 4

/-- Resolve an operand of an NB descriptor: name and byte offset, with name 0xFFF where it is absent. A class that Table 8-3 does not allow faults
with cause 3. -/
def nbArg (d : Dev) (c : Core) (y off len : Nat) (write : Bool) : Except Nat (Nat × Nat) :=
  if orefName y off = noName then .ok (noName, 0)
  else match resolve d c y off len write with
    | .ok r => if (nbClasses off).contains r.2.1.cls then .ok (r.1, r.2.2) else .error 3
    | .error e => .error e

/-- NB_ISSUE: check the descriptor's regions and start the operation. A field out of range at run time faults with cause 1. [Log entry 48, DEDUCED.] -/
def nbIssueDesc (c : Core) (x : Nat) (d : Dev) : Except Nat Dev := do
  if !mvtRoom c then .ok d else
  if isChannelCore c then .error 3 else
  let (ki, _, ko) ← resolve d c x 8 64 false
  let (nb, d1) ← readAt d c x 8 64
  let y := leNat nb
  if !nbOk y then .error 1
  else
    let s ← nbArg d1 c y 16 (nbBytes y) false
    let t ← nbArg d1 c y 24 (nbBytes y) true
    let a ← nbArg d1 c y 32 (nbScalars y) false
    let b ← nbArg d1 c y 40 (nbScalars y) false
    let v ← nbArg d1 c y 48 (nbVectors y) false
    let e ← nbArg d1 c y 56 4 true
    let reads := [Piece.mk s.1 s.2 t.1 t.2 (nbBytes y), Piece.mk a.1 a.2 noName 0 (nbScalars y), Piece.mk b.1 b.2 noName 0 (nbScalars y),
      Piece.mk v.1 v.2 noName 0 (nbVectors y), Piece.mk ki ko noName 0 64, Piece.mk noName 0 e.1 e.2 4]
    .ok (issueMvt d1 c (x + y * 2 ^ 512) reads none [s, t, a, b, v, e] false)

/-! ### Carrying it out -/

/-- Operand `i` of an operation as issued. -/
def nbOperand (m : Mvt) (i : Nat) : Nat × Nat := nth m.args i (noName, 0)

/-- Read operand `i` of an operation: none where it is absent; free bytes where it was written out of order. -/
def nbRead (c : Core) (m : Mvt) (i len : Nat) (d : Dev) : Option (List Byte) × Dev :=
  let o := nbOperand m i
  if o.1 = noName then (none, d)
  else
    let (bs, d1) := movedBytes c m d (Piece.mk o.1 o.2 noName 0 len)
    (some bs, d1)

/-- The result bytes of a near-bank operation. -/
def nbResult (c : Core) (m : Mvt) (d : Dev) : List Byte × Dev :=
  let y := m.desc / 2 ^ 512
  let fmt := df y 1 1
  let f := tileFmt fmt
  let es := if fmt = 3 then 2 else 4
  let elems := df y 4 2 * 64 / es
  let rows := df y 8 4
  let (src, d1) := nbRead c m 0 (nbBytes y) d
  let (av, d2) := nbRead c m 2 (nbScalars y) d1
  let (bv, d3) := nbRead c m 3 (nbScalars y) d2
  let (vv, d4) := nbRead c m 4 (nbVectors y) d3
  let shared := bitSet (df y 3 1) 1
  let sc := fun (o : Option (List Byte)) i => match o with | some bs => fieldAt bs (4 * i) 4 | none => f32One
  let out := (List.range (df y 12 4 * rows * elems)).flatMap (fun i =>
    let row := i / elems
    let vi := (if shared then 0 else row / rows * elems) + i % elems
    let x := fvDecode f (fieldAt (src.getD []) (es * i) es)
    natLe (fvEncode f (nbElem (df y 0 1) (df y 2 1) (bitSet (df y 3 1) 0) (sc av row) (sc bv row)
      (match vv with | some bs => fieldAt bs (4 * vi) 4 | none => 0) x)) es)
  (out, d4)

/-! ### Addresses, command groups and relays (08 R163, R168, R169) -/

/-- The banks in service of a stack, channel first, then bank (18 R422): bank `b` of channel `c` lies in pseudo-channel `b / 32`. -/
def bankList (d : Dev) (st : Nat) : List (Nat × Nat) :=
  ((List.range 2048).map (fun k => (k % 32, k / 32))).filter (fun b => !d.rep.pcs.contains (st, 256 * b.1 + b.2 / 32))

/-- Where block `n` of a stack lies: channel, bank, row, and 1 KiB part of the row (08 R163; 18 R422). -/
def blockPlace (d : Dev) (st n : Nat) : Nat × Nat × Nat × Nat :=
  let k := banksIn d st
  let bank := if k = 2048 then (n % 32, n / 32 % 64) else nth (bankList d st) (n % k) (0, 0)
  (bank.1, bank.2, n / (4 * k), n / k % 4)

/-- The 1 KiB blocks that `len` bytes at a stack-local address touch. -/
def blocksOf (addr len : Nat) : List Nat := if len = 0 then [] else rangeFrom (addr / 1024) ((addr + len - 1) / 1024 - addr / 1024 + 1)

/-- Stack and stack-local address of a byte of a name of class RSTATE, RSTATE_NEXT or SCRATCH. RSTATE and RSTATE_NEXT take turns in a layer's two
buffers, with each update. -/
def nbAddr (d : Dev) (c : Core) (o : Nat × Nat) : Nat × Nat :=
  match findJob d c.job, nameAt d c o.1 with
  | some j, some n =>
    let upd := match (jobRow j c.row).bind (fun r => r.layer.bind (·.recur)) with | some x => x.updates % 2 | none => 0
    let h := match jobRow j c.row with | some r => r.handle | none => 0
    let key := if n.cls = 13 then (allocKey 0x30 j.num, o.1)
      else (allocKey 1 h, 2 + 2 * j.layer + (if n.cls = 11 then upd else 1 - upd))
    match d.pool.allocs.find? (fun a => a.obj == key.1 && a.sub == key.2 && decide (a.stack < 8)) with
    | some a => (a.stack, a.addr + o.2)
    | none => (0, o.2)
  | _, _ => (0, o.2)

/-- Command groups of an operation (08 R169): in place and zero, one for each bank row; copy, one for each 1 KiB block. A bank row holds the blocks of
one row number in one of the `k` banks in service. -/
def nbGroups (k addr len : Nat) (copy : Bool) : Nat :=
  let bs := blocksOf addr len
  if copy then bs.length else (bs.map (fun n => (n % k, n / (4 * k)))).eraseDups.length

/-- Blocks of an operation that are relayed (08 R168, 18 R422): all where source and destination are not congruent modulo `k` KiB in one stack of
`k` banks in service. -/
def nbRelayed (k : Nat) (src dst : Nat × Nat) (len : Nat) : Nat :=
  if src.1 = dst.1 && src.2 % (1024 * k) = dst.2 % (1024 * k) then 0 else (blocksOf src.2 len).length

/-- The parameters of the group that covers bytes `lo` to `hi - 1` of an operation's matrices (08 R169): the scalars of the rows that it touches, and
the row vector of its matrix. -/
def groupParams (y : Nat) (av bv vv : List Byte) (lo hi : Nat) : List Byte :=
  let rb := df y 4 2 * 64
  let r0 := lo / rb
  let rows := (hi - 1) / rb - r0 + 1
  let vw := rb / (if df y 1 1 = 3 then 2 else 4) * 4
  let mat := if bitSet (df y 3 1) 1 then 0 else r0 / df y 8 4
  (av.drop (4 * r0)).take (4 * rows) ++ (bv.drop (4 * r0)).take (4 * rows) ++ (vv.drop (mat * vw)).take vw

/-- The unit of a bank takes what a group leaves in it: its block latch holds the last source block, its parameter latch what it was sent (08 R162, R169). [Log entry 117, DESIGN CHOICE.] -/
def latchBlocks (st addr : Nat) (src : List Byte) (params : Nat → Nat → List Byte) (d : Dev) : Dev :=
  let put := fun (l : List NbUnit) (n : Nat) =>
    let p := blockPlace d st n
    let blk := (List.range 1024).map (fun i => if addr ≤ 1024 * n + i then nth src (1024 * n + i - addr) 0 else 0)
    upsert (fun (u : NbUnit) => u.stack == st && u.channel == p.1 && u.bank == p.2.1)
      { stack := st, channel := p.1, bank := p.2.1, latch := blk
        params := params (1024 * n - addr) (Nat.min src.length (1024 * n + 1024 - addr)) } l
  { d with arr.nb := (blocksOf addr src.length).foldl put d.arr.nb }

/-! ### Completion (08 R167, R172, R173) -/

/-- The sectors of a source that an operation finds in error: those that fail their check now, and those poisoned before (08 R173). -/
def nbHits (d : Dev) (c : Core) (m : Mvt) (bad : List Nat) : List Nat :=
  let y := m.desc / 2 ^ 512
  let o := nbOperand m 0
  let known := match findJob d c.job, nameAt d c o.1 with
    | some j, some n =>
      let all := if n.cls = 13 then (j.scratchBad.filter (fun s => s.1 == o.1)).map (·.2)
        else if n.cls = 12 then (match jobRow j c.row with | some r => r.nextBad | none => [])
        else []
      (all.filter (fun s => decide (o.2 / 64 ≤ s))).map (· - o.2 / 64)
    | _, _ => []
  if df y 0 1 = 0 then [] else ((bad ++ known).filter (fun s => decide (s < nbBytes y / 64))).eraseDups

/-- Poison the destination sectors of the hits. -/
def nbPoison (d : Dev) (c : Core) (o : Nat × Nat) (hits : List Nat) : Dev :=
  let secs := hits.map (· + o.2 / 64)
  match nameAt d c o.1 with
  | some n =>
    if n.cls = 12 then updRow d c.job c.row (fun r => { r with nextBad := (r.nextBad ++ secs).eraseDups })
    else updJob d c.job (fun j => { j with scratchBad := (j.scratchBad ++ secs.map (fun s => (o.1, s))).eraseDups })
  | none => d

/-- What poisoned sources bring: the counters, the row DAMAGED, and where the source was recurrent state the session's mark with EV_REDERIVE
(08 R173, 18 R419). -/
def nbDamage (d : Dev) (c : Core) (m : Mvt) (st hits : Nat) : Dev :=
  if hits = 0 then d
  else
    let a := rowDamaged (bump (bump d 3 st 5 hits) 0 0 6 hits) c
    match (nameAt a c (nbOperand m 0).1).map (·.cls), findJob a c.job with
    | some k, some j => if k = 13 then a
      else match jobRow j c.row with
        | some r => rederive a r.handle (wholeMark 1 j.layer)
        | none => a
    | _, _ => a

/-- Write bytes at an operand of an operation, free where it met another access out of order (08 R172). -/
def nbPut (c : Core) (m : Mvt) (o : Nat × Nat) (bs : List Byte) (d : Dev) : Dev :=
  match nameAt d c o.1 with
  | none => d
  | some k =>
    let r := regionOf c o.1 k o.2 bs.length
    let (out, d1) := raceFree d (m.racy.filter (fun x => regionsMeet x r)) r bs
    nameWrite d1 c o.1 k o.2 out

/-- Count the hits of an operation in the word that ERR names, where it names one (08 R173). -/
def nbError (c : Core) (m : Mvt) (hits : Nat) (d : Dev) : Dev :=
  let e := nbOperand m 5
  let old := match nameAt d c e.1 with | some k => leNat (nameRead d c e.1 k e.2 4) | none => 0
  nbPut c m e (natLe ((old + hits) % 2 ^ 32) 4) d

/-- What an operation that starts in `d0` leaves in the counters of its stack and in the units of its banks (08 R168, R169, R176). -/
def nbCount (c : Core) (m : Mvt) (d0 d : Dev) : Dev :=
  let y := m.desc / 2 ^ 512
  let len := nbBytes y
  let src := nbAddr d0 c (nbOperand m 0)
  let dst := nbAddr d0 c (nbOperand m 1)
  let k := banksIn d0 dst.1
  if df y 0 1 = 0 then bump (bump d 3 dst.1 1 1) 3 dst.1 2 (nbGroups k dst.2 len false)
  else
    let arg := fun i n => ((nbRead c m i n d0).1).getD []
    latchBlocks dst.1 dst.2 (arg 0 len) (groupParams y (arg 2 (nbScalars y)) (arg 3 (nbScalars y)) (arg 4 (nbVectors y)))
      (bump (bump (bump d 3 dst.1 1 1) 3 dst.1 2 (nbGroups k dst.2 len (decide (src ≠ dst)))) 3 dst.1 4 (nbRelayed k src dst len))

/-- NB_OPERATION_COMPLETE: operation `id` of core `n` has written its destination; `bad` lists the source sectors that failed
their check (08 R173): their destination sectors are poisoned, ERR rises, the row is DAMAGED and the session marked. -/
def nbComplete (n id : Nat) (bad : List Nat) (d : Dev) : Dev :=
  match findCore d n with
  | none => d
  | some c =>
    match c.mvts.find? (fun m => m.id == id && df m.desc 0 1 == 0x5C) with
    | none => d
    | some m =>
      let hits := nbHits d c m bad
      let (res, d1) := nbResult c m d
      let d2 := nbPoison (nbPut c m (nbOperand m 1) res d1) c (nbOperand m 1) hits
      dropMvt (nbDamage (nbCount c m d (nbError c m hits.length d2)) c m (nbAddr d c (nbOperand m 1)).1 hits.length) n m

/-! ### What CXL.mem reads meet (08 R171) -/

/-- The stacks in which near-bank operations are under way: of kernels, and of firmware that fills granules with zeros. -/
def nbStacks (d : Dev) : List Nat :=
  let kern := d.arr.cores.flatMap (fun c => (c.mvts.filter (fun m => df m.desc 0 1 == 0x5C)).map (fun m => (nbAddr d c (nbOperand m 1)).1))
  (kern ++ d.pool.clearings.flatMap (fun c => c.hbm.map (·.1))).eraseDups

/-- A CXL.mem read of an exchange area may end a command group of its stack early; the rest runs as a new group (08 R171). [Log entry 117, DESIGN CHOICE.] -/
def cutGroups (d : Dev) (sts : List Nat) : Dev :=
  (sts.filter (nbStacks d).contains).foldl (fun a st =>
    let b := { a with draws := a.draws + 1 }
    if Config.cutsGroup a.draws then bump (bump b 3 st 3 1) 3 st 2 1 else b) d

end Sys2Proof.Machine
end

