-- ==== Sys2Proof/Machine/State.lean ====
section
/-!
DEFINITION. The state of the block: the settings of the clause grid, the device, and the queue of the commands that wait. State.reset is the
block at power-up.
-/

namespace Sys2Proof.Machine

/-- The block's state. `grid`: L, b and the grid source (03 R35); `dev`: everything else that the spec gives the device; `pending`: the commands
that wait, first in, first out (the model's own). -/
structure State where
  grid : Grid
  dev : Dev
  pending : List Instr
  deriving DecidableEq, Repr

/-- Faults of the block: none. Every error that the spec describes is a completion status, an event or an ignored access. -/
inductive Fault where
  deriving DecidableEq, Repr

/-- Refusals of the block. -/
inductive Refusal where
  /-- A command without a meaning in this model; the dispatch alone answers with it. Safe: the machine stops. -/
  | notModelled (mnemonic : String)
  deriving DecidableEq, Repr

/-- The grid at power-up: L 50 µs, b 6 %, the internal timer (03 R35). -/
def freshGrid : Grid := { lenUs := 50, bgPct := 6, source := 0, waiting := none }

/-- The block at power-up: held in reset until PWRGD and PERST_N, no command waiting (19 R435, R436). [Log entry 1, DESIGN CHOICE.] -/
def State.reset : State := { grid := freshGrid, dev := freshDev, pending := [] }

end Sys2Proof.Machine
end

