-- ==== Sys2Proof/Machine/Lift.lean ====
section
/-!
DEFINITION. How a command acts on the state: on the device alone, with the clause length, on grid and device, or as a power event. Only
CLAUSE_SET, a boundary and a reset change the grid (03 R35); no command touches the queue.
-/

namespace Sys2Proof.Machine

/-- A command on the device. In reset and while HALTED it has no effect (19 R434, R446). [Log entry 28, DEDUCED.] -/
def onDev (f : Dev → Dev) (s : State) : Host.Outcome State Fault Refusal :=
  .next { s with dev := if answering s.dev then f s.dev else s.dev }

/-- A command on the device that depends on the clause length in µs. -/
def onLen (f : Nat → Dev → Dev) (s : State) : Host.Outcome State Fault Refusal := onDev (f s.grid.lenUs) s

/-- A command on the grid settings and the device. -/
def onGrid (f : Grid → Dev → Grid × Dev) (s : State) : Host.Outcome State Fault Refusal :=
  if answering s.dev then
    let r := f s.grid s.dev
    .next { s with grid := r.1, dev := r.2 }
  else .next s

/-- A pin, a rail or the end of a NAND program: it acts in reset and during a power failure too, and may complete either (19 R436, R444). A
reset returns the grid settings to their power-up values. -/
def onPower (f : Dev → Dev) (s : State) : Host.Outcome State Fault Refusal :=
  let d := settleHalt (f s.dev)
  .next { s with dev := d, grid := if d.clk.started then s.grid else freshGrid }

/-- MOVER_COPY_COMPLETE: a copied shard of a checkpoint enters its staging at once; other copies take effect at the next boundary. -/
def moverRow (id : Nat) (ok : Bool) (d0 : Dev) : Dev :=
  let d := moverComplete id ok d0
  match d.kv.movers.find? (fun w => w.id == id) with
  | some w =>
    (match w.what with
    | .shard k n =>
      if w.state = 0 then d
      else shardStaged sendShard { d with kv.movers := dropWhere (fun (x : Mover) => x.id == id) d.kv.movers } (k / 2 ^ 48) (k % 2 ^ 48) n
    | _ => d)
  | none => d

/-- The HBM stack that holds both copies of a DPA of an LD's exchange area; none for range 2, which lies in DDR (04 R69). The areas take the
granules that back them in LD order, two units of 256 MiB with both copies to a granule. [Log entry 100, DESIGN CHOICE.] -/
def exchStack (d : Dev) (n dpa : Nat) : Option Nat :=
  let unit := sumNat ((d.cxl.lds.take n).map (·.m1)) + dpa / 2 ^ 28
  match d.cxl.lds[n]? with
  | some x => if dpa / 2 ^ 28 < x.m1 then (d.pool.exchHbm[unit / 2]?).map (·.1) else none
  | none => none

/-- CXL_MEM_READ: the read, and the command group that it may end early (08 R171). -/
def cxlReadRow (n hpa : Nat) (bad : Bool) (d : Dev) : Dev :=
  cutGroups (cxlMemRead n hpa bad d) (match hostDpa d n hpa with | some dpa => (exchStack d n dpa).toList | none => [])

/-- COUNTERS_READ: UNIT of scope 4 names an index and of scope 5 a sub-port (20 R452). -/
def countersRow (seq : Nat) : Dev → Dev :=
  runVerb 0x0B01 seq (fun v d =>
    let live := if fld v 16 1 = 4 then (findIndex d (fld v 18 2)).isSome else if fld v 16 1 = 5 then subExists d (fld v 18 2) else true
    countersReadBody live v d)

end Sys2Proof.Machine
end

