-- ==== Sys2Proof/Machine/RowsAttend.lean ====
section
/-!
DEFINITION. Meanings of the commands: Attention, kernels, core descriptors (chapters 06 to 08).
-/

namespace Sys2Proof.Machine

/-- MODEL_LOAD (R111): checks, measures and loads a model's weights and attention programme. -/
def execModelLoad (seq : Nat) (s : State) : Host.Outcome State Fault Refusal :=
  onDev (runVerb 0x0301 seq modelLoadBody) s

/-- MODEL_UNLOAD (R112): frees a model not in use. -/
def execModelUnload (seq : Nat) (s : State) : Host.Outcome State Fault Refusal :=
  onDev (runVerb 0x0302 seq modelUnloadBody) s

/-- ATTEND (R116): submits an attention job for one layer and a batch of rows. -/
def execAttend (seq : Nat) (s : State) : Host.Outcome State Fault Refusal :=
  onDev (runVerb 0x0405 seq attendBody) s

/-- JOB_SLICE_END (R374): A job's last slice ends: rows are checked again and a window job's outputs are returned. -/
def execJobSliceEnd (slice : Nat) (s : State) : Host.Outcome State Fault Refusal :=
  onDev (fun d => settleJobs (endSlice slice d)) s

/-- PARTIAL_RECORD_ARRIVAL (R128): A work item's partial record reaches the merge unit and is merged, counted as duplicate or reissued. -/
def execPartialRecordArrival (place : Nat) (s : State) : Host.Outcome State Fault Refusal :=
  onDev (fun d => settleJobs (recordArrival place d)) s

/-- KERNEL_LOAD (R157): checks and loads a kernel image. -/
def execKernelLoad (seq : Nat) (s : State) : Host.Outcome State Fault Refusal :=
  onDev (runVerb 0x0303 seq kernelLoadBody) s

/-- KERNEL_UNLOAD (R158): frees a kernel not referenced by a model. -/
def execKernelUnload (seq : Nat) (s : State) : Host.Outcome State Fault Refusal :=
  onDev (runVerb 0x0304 seq kernelUnloadBody) s

/-- NOP (R145): descriptor that does nothing. -/
def execNop (core : Nat) (s : State) : Host.Outcome State Fault Refusal :=
  onDev (fun d => settleJobs (coreRow 0x00 core nopDesc d)) s

/-- TLOAD (R145): loads tiles into a store, or adds a phrase header's check value. -/
def execTload (core : Nat) (bad : List Nat) (s : State) : Host.Outcome State Fault Refusal :=
  onDev (fun d => settleJobs (coreRow 0x10 core (tloadDesc bad) d)) s

/-- TSTORE (R145): stores tiles from a store. -/
def execTstore (core : Nat) (bad : List Nat) (s : State) : Host.Outcome State Fault Refusal :=
  onDev (fun d => settleJobs (coreRow 0x11 core (tstoreDesc bad) d)) s

/-- GATHER (R145): gathers indexed rows into a store. -/
def execGather (core : Nat) (bad : List Nat) (s : State) : Host.Outcome State Fault Refusal :=
  onDev (fun d => settleJobs (coreRow 0x12 core (gatherDesc false bad) d)) s

/-- SCATTER (R145): scatters rows from the tile store by index. -/
def execScatter (core : Nat) (bad : List Nat) (s : State) : Host.Outcome State Fault Refusal :=
  onDev (fun d => settleJobs (coreRow 0x13 core (gatherDesc true bad) d)) s

/-- FILL (R145): fills lines with a 32-bit pattern. -/
def execFill (core : Nat) (s : State) : Host.Outcome State Fault Refusal :=
  onDev (fun d => settleJobs (coreRow 0x14 core fillDesc d)) s

/-- MM (R145): multiplies tiles into an accumulator. -/
def execMm (core : Nat) (s : State) : Host.Outcome State Fault Refusal :=
  onDev (fun d => settleJobs (coreRow 0x20 core mmDesc d)) s

/-- ACC_READ (R145): reads an accumulator into the tile store. -/
def execAccRead (core : Nat) (s : State) : Host.Outcome State Fault Refusal :=
  onDev (fun d => settleJobs (coreRow 0x22 core accReadDesc d)) s

/-- ACC_WRITE (R145): writes an accumulator from the tile store. -/
def execAccWrite (core : Nat) (s : State) : Host.Outcome State Fault Refusal :=
  onDev (fun d => settleJobs (coreRow 0x23 core accWriteDesc d)) s

/-- QUANT (R145): quantises tiles to an MX or FP8 format. -/
def execQuant (core : Nat) (s : State) : Host.Outcome State Fault Refusal :=
  onDev (fun d => settleJobs (coreRow 0x30 core quantDesc d)) s

/-- DEQUANT (R145): dequantises tiles to BF16 or FP32. -/
def execDequant (core : Nat) (s : State) : Host.Outcome State Fault Refusal :=
  onDev (fun d => settleJobs (coreRow 0x31 core dequantDesc d)) s

/-- VOP (R145): applies an element-wise vector operation. -/
def execVop (core : Nat) (s : State) : Host.Outcome State Fault Refusal :=
  onDev (fun d => settleJobs (coreRow 0x40 core vopDesc d)) s

/-- VRED (R145): reduces tiles per row or column. -/
def execVred (core : Nat) (s : State) : Host.Outcome State Fault Refusal :=
  onDev (fun d => settleJobs (coreRow 0x42 core vredDesc d)) s

/-- ROTATE (R145): applies the positional rotation to rows. -/
def execRotate (core : Nat) (s : State) : Host.Outcome State Fault Refusal :=
  onDev (fun d => settleJobs (coreRow 0x43 core rotateDesc d)) s

/-- SMX_PART (R145): applies one softmax step to a score tile. -/
def execSmxPart (core : Nat) (s : State) : Host.Outcome State Fault Refusal :=
  onDev (fun d => settleJobs (coreRow 0x50 core smxPartDesc d)) s

/-- SMX_MERGE (R145): merges partial triples. -/
def execSmxMerge (core : Nat) (s : State) : Host.Outcome State Fault Refusal :=
  onDev (fun d => settleJobs (coreRow 0x51 core smxMergeDesc d)) s

/-- PART_EMIT (R145): writes a partial record. -/
def execPartEmit (core : Nat) (s : State) : Host.Outcome State Fault Refusal :=
  onDev (fun d => settleJobs (coreRow 0x52 core partEmitDesc d)) s

/-- APPEND_ROWS (R145): passes rows to the append unit for quantisation into tail or draft. -/
def execAppendRows (core : Nat) (s : State) : Host.Outcome State Fault Refusal :=
  onDev (fun d => settleJobs (coreRow 0x58 core appendRowsDesc d)) s

/-- NB_ISSUE (R166): issues a near-bank operation. -/
def execNbIssue (core : Nat) (s : State) : Host.Outcome State Fault Refusal :=
  onDev (fun d => settleJobs (coreRow 0x5C core nbIssueDesc d)) s

/-- NB_OPERATION_COMPLETE (R167): A near-bank operation has written every destination sector and sets its DONE_FLAG. -/
def execNbOperationComplete (core : Nat) (id : Nat) (bad : List Nat) (s : State) : Host.Outcome State Fault Refusal :=
  onDev (fun d => settleJobs (settleSignal core (nbComplete core id bad d))) s

/-- MOVEMENT_COMPLETE (R148): A movement descriptor's last byte is visible and its DONE_FLAG is set. -/
def execMovementComplete (core : Nat) (id : Nat) (s : State) : Host.Outcome State Fault Refusal :=
  onDev (fun d => settleJobs (settleSignal core (Sys2Proof.Machine.movementComplete core id d))) s

/-- SEM_WAIT (R151): waits until a semaphore count suffices, then subtracts. -/
def execSemWait (core : Nat) (s : State) : Host.Outcome State Fault Refusal :=
  onDev (fun d => settleJobs (coreRow 0x60 core semWaitDesc d)) s

/-- SEM_SIGNAL (R151): adds to a semaphore and wakes waiters in order. -/
def execSemSignal (core : Nat) (s : State) : Host.Outcome State Fault Refusal :=
  onDev (fun d => settleJobs (coreRow 0x61 core semSignalDesc d)) s

/-- BAR_CL (R152): cluster or gang barrier. -/
def execBarCl (core : Nat) (s : State) : Host.Outcome State Fault Refusal :=
  onDev (fun d => settleJobs (coreRow 0x62 core barClDesc d)) s

/-- BAR_DEV (R152): device-wide barrier of the job. -/
def execBarDev (core : Nat) (s : State) : Host.Outcome State Fault Refusal :=
  onDev (fun d => settleJobs (coreRow 0x63 core barDevDesc d)) s

/-- BCAST (R152): sets a broadcast flag in target cores. -/
def execBcast (core : Nat) (s : State) : Host.Outcome State Fault Refusal :=
  onDev (fun d => settleJobs (coreRow 0x64 core bcastDesc d)) s

/-- FLAG (R152): sets and clears event flags. -/
def execFlag (core : Nat) (s : State) : Host.Outcome State Fault Refusal :=
  onDev (fun d => settleJobs (coreRow 0x65 core flagDesc d)) s

/-- FLAG_WAIT (R147): waits until flags are set. -/
def execFlagWait (core : Nat) (s : State) : Host.Outcome State Fault Refusal :=
  onDev (fun d => settleJobs (coreRow 0x66 core flagWaitDesc d)) s

/-- LOOP_BEGIN (R149): starts a counted loop. -/
def execLoopBegin (core : Nat) (s : State) : Host.Outcome State Fault Refusal :=
  onDev (fun d => settleJobs (coreRow 0x70 core loopBeginDesc d)) s

/-- LOOP_END (R149): ends a loop iteration. -/
def execLoopEnd (core : Nat) (s : State) : Host.Outcome State Fault Refusal :=
  onDev (fun d => settleJobs (coreRow 0x71 core loopEndDesc d)) s

/-- SKIP (R145): skips the next N descriptors. -/
def execSkip (core : Nat) (s : State) : Host.Outcome State Fault Refusal :=
  onDev (fun d => settleJobs (coreRow 0x72 core skipDesc d)) s

/-- END (R149): stops the core for the rest of the slice. -/
def execEndDesc (core : Nat) (s : State) : Host.Outcome State Fault Refusal :=
  onDev (fun d => settleJobs (coreRow 0x7F core Sys2Proof.Machine.endDesc d)) s

/-- UNIT_DESCRIPTOR_COMPLETE (R143): A MAC or vector descriptor finishes its cycles, its accumulator or granule interlock clears, and with DONE_EN it sets DONE_FLAG. -/
def execUnitDescriptorComplete (core : Nat) (unit : Nat) (s : State) : Host.Outcome State Fault Refusal :=
  onDev (fun d => settleJobs (unitComplete core unit d)) s

end Sys2Proof.Machine
end

