-- ==== Sys2Proof/Machine/RowsCkpt.lean ====
section
/-!
DEFINITION. Meanings of the commands: Checkpoints, restore, buddy mirroring (chapter 14).
-/

namespace Sys2Proof.Machine

/-- CKPT_BEGIN (R312): checkpoints a context at the next boundary. -/
def execCkptBegin (seq : Nat) (s : State) : Host.Outcome State Fault Refusal :=
  onDev (runVerb 0x0901 seq ckptBeginBody) s

/-- CKPT_STATUS (R325): reads a checkpoint's progress. -/
def execCkptStatus (seq : Nat) (s : State) : Host.Outcome State Fault Refusal :=
  onDev (runVerb 0x0902 seq ckptStatusBody) s

/-- CKPT_DRAIN (R326): writes a checkpoint to flash or host, or releases it. -/
def execCkptDrain (seq : Nat) (s : State) : Host.Outcome State Fault Refusal :=
  onDev (runVerb 0x0903 seq (ckptDrainBody sendRelease)) s

/-- RESTORE (R332): restores sessions from a checkpoint. -/
def execRestore (seq : Nat) (s : State) : Host.Outcome State Fault Refusal :=
  onDev (runVerb 0x0904 seq restoreBody) s

/-- BUDDY_PAIR (R327): prepares or connects a buddy. -/
def execBuddyPair (seq : Nat) (s : State) : Host.Outcome State Fault Refusal :=
  onDev (runVerb 0x0905 seq buddyPairBody) s

/-- BUDDY_UNPAIR (R330): ends a buddy pairing. -/
def execBuddyUnpair (seq : Nat) (s : State) : Host.Outcome State Fault Refusal :=
  onDev (runVerb 0x0906 seq buddyUnpairBody) s

/-- CKPT_STAGED (R323): every shard and the manifest of a checkpoint have been written. -/
def execCkptStaged (ctx : Nat) (step : Nat) (s : State) : Host.Outcome State Fault Refusal :=
  onDev (Sys2Proof.Machine.ckptStaged sendManifest ctx step) s

/-- HELLO (R328): buddy control message connecting a port. -/
def execHello (h : RxHead) (m : List Byte) (s : State) : Host.Outcome State Fault Refusal :=
  onDev (sendReceive restoreFound 1 h m) s

/-- HELLO_ACK (R328): answer to HELLO, completing CONNECT. -/
def execHelloAck (h : RxHead) (m : List Byte) (s : State) : Host.Outcome State Fault Refusal :=
  onDev (sendReceive restoreFound 2 h m) s

/-- HEARTBEAT (R328): received buddy heartbeat. -/
def execHeartbeat (h : RxHead) (m : List Byte) (s : State) : Host.Outcome State Fault Refusal :=
  onDev (sendReceive restoreFound 3 h m) s

/-- OPEN (R329): source asks the holder for an extent. -/
def execOpenMsg (h : RxHead) (m : List Byte) (s : State) : Host.Outcome State Fault Refusal :=
  onDev (sendReceive restoreFound 4 h m) s

/-- GRANT (R329): holder grants or refuses an extent. -/
def execGrant (h : RxHead) (m : List Byte) (s : State) : Host.Outcome State Fault Refusal :=
  onDev (sendReceive restoreFound 5 h m) s

/-- SEAL (R329): source announces that the manifest is written. -/
def execSealMsg (h : RxHead) (m : List Byte) (s : State) : Host.Outcome State Fault Refusal :=
  onDev (sendReceive restoreFound 6 h m) s

/-- SEALED (R329): holder confirms or refuses the mirror. -/
def execSealed (h : RxHead) (m : List Byte) (s : State) : Host.Outcome State Fault Refusal :=
  onDev (sendReceive restoreFound 7 h m) s

/-- RELEASE (R330): asks the holder to free a mirror. -/
def execRelease (h : RxHead) (m : List Byte) (s : State) : Host.Outcome State Fault Refusal :=
  onDev (sendReceive restoreFound 8 h m) s

/-- RELEASED (R328): holder confirms a freed extent. -/
def execReleased (h : RxHead) (m : List Byte) (s : State) : Host.Outcome State Fault Refusal :=
  onDev (sendReceive restoreFound 9 h m) s

/-- FIND (R328): asks the holder for a held mirror. -/
def execFind (h : RxHead) (m : List Byte) (s : State) : Host.Outcome State Fault Refusal :=
  onDev (sendReceive restoreFound 10 h m) s

/-- FOUND (R328): holder answers FIND. -/
def execFound (h : RxHead) (m : List Byte) (s : State) : Host.Outcome State Fault Refusal :=
  onDev (sendReceive restoreFound 11 h m) s

/-- SHARD_WRITE_IMMEDIATE (R329): the last write of a shard arrives at the holder, which checks it against the manifest. -/
def execShardWriteImmediate (h : RxHead) (va : Nat) (rkey : Nat) (dmaLen : Nat) (imm : Nat) (payload : List Byte) (s : State) : Host.Outcome State Fault Refusal :=
  onDev (fun d => settleJobs (writeReceive h va rkey dmaLen (some imm) payload (fun i _ off => shardArrived i off) d)) s

/-- BUDDY_HEARTBEAT_TIMER (R328): every 1 ms each connected port sends HEARTBEAT. -/
def execBuddyHeartbeatTimer (dt : Nat) (s : State) : Host.Outcome State Fault Refusal :=
  onDev (heartbeat dt) s

/-- BUDDY_REQUEST_RESEND (R328): A control request unanswered after 10 ms is resent. -/
def execBuddyRequestResend (req : Nat) (dt : Nat) (s : State) : Host.Outcome State Fault Refusal :=
  onDev (resendRequest req dt) s

/-- BUDDY_LOSS_TIMEOUT (R328): nothing received from the partner for 100 ms: mirrors in progress fail. -/
def execBuddyLossTimeout (dt : Nat) (s : State) : Host.Outcome State Fault Refusal :=
  onDev (buddyLoss dt) s

end Sys2Proof.Machine
end

