-- ==== Sys2Proof/Machine/RowsClock.lean ====
section
/-!
DEFINITION. Meanings of the commands: Clock grid and device time (chapter 03).
-/

namespace Sys2Proof.Machine

/-- CLAUSE_BOUNDARY (R187): the clause timer reaches a boundary: writes become visible, transitions apply, snapshots are taken, and the next clause is planned and its jobs are dispatched. -/
def execClauseBoundary (dt : Nat) (temps : List Int) (bad : List BadSector) (tests : List (Nat × List Defect)) (s : State) : Host.Outcome State Fault Refusal :=
  onGrid (fun g d =>
    let r := boundary dt temps bad tests g d
    (r.1, noteHealth r.2)) s

/-- JOB_OVERRUN_ABORT (R41): A job still running 8 × L after its clause's planned end is aborted and the boundary occurs at once. -/
def execJobOverrunAbort (job : Nat) (dt : Nat) (s : State) : Host.Outcome State Fault Refusal :=
  onGrid (fun g d =>
    let d1 := settleJobs (overrunAbort job g.lenUs (advance d dt))
    if d1.clk.aborted then boundaryAtOnce g d1 else (g, d1)) s

/-- TICK_IN_EDGE (R43): A rising edge on TICK_IN is seen and accepted, rejected or counted toward locking. -/
def execTickInEdge (dt : Nat) (highNs : Nat) (s : State) : Host.Outcome State Fault Refusal :=
  onLen (fun l d => tickEdge dt highNs l d) s

/-- TICK_LOSS_TIMEOUT (R44): no tick accepted by E + 0.5 × L: the internal timer takes over, with a boundary at that instant where a clause
was waiting for a tick. -/
def execTickLossTimeout (dt : Nat) (s : State) : Host.Outcome State Fault Refusal :=
  onGrid (fun g d =>
    let d1 := tickLoss dt g.lenUs d
    if d.clk.mode = 1 && d1.clk.mode = 2 then boundaryAtOnce g d1 else (g, d1)) s

/-- SLEW_END (R47): A slew ends when its offset has been absorbed and the slew part returns to 0. -/
def execSlewEnd (dt : Nat) (s : State) : Host.Outcome State Fault Refusal :=
  onDev (Sys2Proof.Machine.slewEnd dt) s

/-- PTP_MESSAGE_RECEIVE (R48): A timestamped PTP message is passed to firmware, which steers device time. -/
def execPtpMessageReceive (sub : Nat) (domain : Nat) (m : PtpMsg) (s : State) : Host.Outcome State Fault Refusal :=
  onDev (ptpReceive sub domain m) s

/-- PTP_SYNC_TIMEOUT (R48): no Sync message for 4 s: firmware holds the last rate. -/
def execPtpSyncTimeout (dt : Nat) (s : State) : Host.Outcome State Fault Refusal :=
  onDev (ptpTimeout dt) s

/-- CLAUSE_SET (R50): sets clause length, background share and grid source, effective at the second boundary after acceptance. -/
def execClauseSet (seq : Nat) (s : State) : Host.Outcome State Fault Refusal :=
  onGrid (Sys2Proof.Machine.clauseSet seq) s

/-- TIME_SET (R51): steps, slews, sets the rate of, or steers device time. -/
def execTimeSet (seq : Nat) (s : State) : Host.Outcome State Fault Refusal :=
  onDev (runVerb 0x010B seq timeSetBody) s

end Sys2Proof.Machine
end

