-- ==== Sys2Proof/Machine/RowsCxl.lean ====
section
/-!
DEFINITION. Meanings of the commands: CXL attachment, mailbox, FM API, boot mailbox (chapters 17 and 19).
-/

namespace Sys2Proof.Machine

/-- CXL_MEM_READ (R69): A CXL.mem read of an exchange area is answered from the first copy, with poison where found. -/
def execCxlMemRead (ld : Nat) (hpa : Nat) (bad : Bool) (s : State) : Host.Outcome State Fault Refusal :=
  onDev (cxlReadRow ld hpa bad) s

/-- CXL_MEM_WRITE (R401): A CXL.mem write updates both copies of exchange-area sectors. -/
def execCxlMemWrite (ld : Nat) (hpa : Nat) (bytes : List Byte) (s : State) : Host.Outcome State Fault Refusal :=
  onDev (Sys2Proof.Machine.cxlMemWrite ld hpa bytes) s

/-- CXL_LINK_DOWN (R404): the CXL link goes down, resetting CXL.io state only. -/
def execCxlLinkDown (s : State) : Host.Outcome State Fault Refusal :=
  onDev linkDown s

/-- CXL_LINK_UP (R404): the CXL link trains and comes up. -/
def execCxlLinkUp (width : Nat) (root : Bool) (bound : Nat) (s : State) : Host.Outcome State Fault Refusal :=
  onDev (linkUp width root bound) s

/-- CXL_HOT_RESET (R404): A hot reset or secondary bus reset resets CXL.io state. -/
def execCxlHotReset (only : Option Nat) (s : State) : Host.Outcome State Fault Refusal :=
  onDev (hotReset only) s

/-- CXL_FLR (R404): A Function Level Reset of one LD resets its CXL.io state and EVQ registers. -/
def execCxlFlr (ld : Nat) (s : State) : Host.Outcome State Fault Refusal :=
  onDev (flr ld) s

/-- CXL_LANE_FAILURE (R397): A CXL lane fails and the link retrains narrower. -/
def execCxlLaneFailure (s : State) : Host.Outcome State Fault Refusal :=
  onDev laneFailure s

/-- BUS_MASTER_ERROR_RESPONSE (R406): A bus-mastered request ends in Unsupported Request or Completer Abort. -/
def execBusMasterErrorResponse (id : Nat) (s : State) : Host.Outcome State Fault Refusal :=
  onDev (busError id) s

/-- BUS_MASTER_TIMEOUT (R405): A bus-mastered request's 50 ms completion timeout expires. -/
def execBusMasterTimeout (id : Nat) (dt : Nat) (s : State) : Host.Outcome State Fault Refusal :=
  onDev (busTimeout id dt) s

/-- IDENTIFY_MEMORY_DEVICE (R407): mailbox command reporting capacity. -/
def execIdentifyMemoryDevice (ld : Nat) (s : State) : Host.Outcome State Fault Refusal :=
  onDev (mbIdentify ld) s

/-- GET_HEALTH_INFO (R407): mailbox command reporting health. -/
def execGetHealthInfo (ld : Nat) (s : State) : Host.Outcome State Fault Refusal :=
  onDev (mbHealth ld) s

/-- GET_ALERT_CONFIGURATION (R407): mailbox command reading alert thresholds. -/
def execGetAlertConfiguration (ld : Nat) (s : State) : Host.Outcome State Fault Refusal :=
  onDev (mbGetAlert ld) s

/-- SET_ALERT_CONFIGURATION (R407): mailbox command setting alert thresholds. -/
def execSetAlertConfiguration (ld : Nat) (valid : Nat) (enable : Nat) (life : Nat) (temp : Int) (s : State) : Host.Outcome State Fault Refusal :=
  onDev (mbSetAlert ld valid enable life temp) s

/-- GET_EVENT_RECORDS (R407): mailbox command reading CXL event logs. -/
def execGetEventRecords (ld : Nat) (log : Nat) (s : State) : Host.Outcome State Fault Refusal :=
  onDev (mbGetRecords ld log) s

/-- CLEAR_EVENT_RECORDS (R407): mailbox command clearing CXL event records. -/
def execClearEventRecords (ld : Nat) (log : Nat) (all : Bool) (handles : List Nat) (s : State) : Host.Outcome State Fault Refusal :=
  onDev (mbClearRecords ld log all handles) s

/-- GET_EVENT_INTERRUPT_POLICY (R407): mailbox command reading the event interrupt policy. -/
def execGetEventInterruptPolicy (ld : Nat) (s : State) : Host.Outcome State Fault Refusal :=
  onDev (mbGetPolicy ld) s

/-- SET_EVENT_INTERRUPT_POLICY (R407): mailbox command setting the event interrupt policy. -/
def execSetEventInterruptPolicy (ld : Nat) (policy : List Nat) (s : State) : Host.Outcome State Fault Refusal :=
  onDev (mbSetPolicy ld policy) s

/-- GET_SUPPORTED_LOGS (R407): mailbox command listing logs. -/
def execGetSupportedLogs (ld : Nat) (s : State) : Host.Outcome State Fault Refusal :=
  onDev (mbLogs ld) s

/-- GET_LOG (R407): mailbox command reading the Command Effects Log. -/
def execGetLog (ld : Nat) (uuid : List Byte) (first : Nat) (len : Nat) (s : State) : Host.Outcome State Fault Refusal :=
  onDev (mbGetLog ld uuid first len) s

/-- GET_POISON_LIST (R402): mailbox command listing poisoned sectors. -/
def execGetPoisonList (ld : Nat) (start : Nat) (len : Nat) (s : State) : Host.Outcome State Fault Refusal :=
  onDev (mbPoisonList ld start len) s

/-- SANITIZE (R408): mailbox command scrubbing the LD's partitions and exchange area. -/
def execSanitize (ld : Nat) (s : State) : Host.Outcome State Fault Refusal :=
  onDev (mbSanitize ld) s

/-- MAILBOX_SANITIZE_DONE (R408): every partition scrub and the exchange-area zero-fill of a Sanitize have finished. -/
def execMailboxSanitizeDone (ld : Nat) (s : State) : Host.Outcome State Fault Refusal :=
  onDev (sanitizeFinished ld) s

/-- GET_FW_INFO (R438): mailbox command reporting the boot bundle slots. -/
def execGetFwInfo (who : Nat) (s : State) : Host.Outcome State Fault Refusal :=
  onDev (mbFwInfo who) s

/-- TRANSFER_FW (R438): mailbox command transferring a boot bundle part. -/
def execTransferFw (who : Nat) (action : Nat) (slot : Nat) (first : Nat) (data : List Byte) (s : State) : Host.Outcome State Fault Refusal :=
  onDev (mbTransferFw who action slot first data) s

/-- ACTIVATE_FW (R439): mailbox command verifying and starting the firmware. -/
def execActivateFw (who : Nat) (slot : Nat) (s : State) : Host.Outcome State Fault Refusal :=
  onDev (mbActivateFw who slot) s

/-- GET_LD_INFO (R409): FM API command reporting LDs. -/
def execGetLdInfo (s : State) : Host.Outcome State Fault Refusal :=
  onDev fmLdInfo s

/-- GET_LD_ALLOCATIONS (R409): FM API command reading LD allocations. -/
def execGetLdAllocations (start : Nat) (count : Nat) (s : State) : Host.Outcome State Fault Refusal :=
  onDev (fmGetAlloc start count) s

/-- SET_LD_ALLOCATIONS (R399): FM API command changing exchange-area sizes. -/
def execSetLdAllocations (start : Nat) (ranges : List (Nat × Nat)) (s : State) : Host.Outcome State Fault Refusal :=
  onDev (fmSetAlloc start ranges) s

/-- GET_QOS_CONTROL (R409): FM API command reading QoS control. -/
def execGetQosControl (s : State) : Host.Outcome State Fault Refusal :=
  onDev fmGetQos s

/-- SET_QOS_CONTROL (R409): FM API command setting QoS control. -/
def execSetQosControl (qos : Qos) (s : State) : Host.Outcome State Fault Refusal :=
  onDev (fmSetQos qos) s

/-- GET_QOS_STATUS (R409): FM API command reading backpressure. -/
def execGetQosStatus (s : State) : Host.Outcome State Fault Refusal :=
  onDev fmQosStatus s

/-- GET_QOS_ALLOCATED_BW (R409): FM API command reading per-LD allocations. -/
def execGetQosAllocatedBw (start : Nat) (count : Nat) (s : State) : Host.Outcome State Fault Refusal :=
  onDev (fmGetAllocBw start count) s

/-- SET_QOS_ALLOCATED_BW (R409): FM API command setting per-LD allocations. -/
def execSetQosAllocatedBw (start : Nat) (fractions : List Nat) (s : State) : Host.Outcome State Fault Refusal :=
  onDev (fmSetAllocBw start fractions) s

/-- GET_QOS_BW_LIMIT (R409): FM API command reading per-LD limits. -/
def execGetQosBwLimit (start : Nat) (count : Nat) (s : State) : Host.Outcome State Fault Refusal :=
  onDev (fmGetLimit start count) s

/-- SET_QOS_BW_LIMIT (R409): FM API command setting per-LD limits. -/
def execSetQosBwLimit (start : Nat) (fractions : List Nat) (s : State) : Host.Outcome State Fault Refusal :=
  onDev (fmSetLimit start fractions) s

/-- TUNNEL_SUBMIT (R410): TURUK_TUNNEL SUBMIT places a verb on ring 16 and waits for its completion. -/
def execTunnelSubmit (entry : Entry) (block : List Byte) (s : State) : Host.Outcome State Fault Refusal :=
  onDev (Sys2Proof.Machine.tunnelSubmit entry block) s

/-- TUNNEL_COLLECT (R410): TURUK_TUNNEL COLLECT returns a held completion. -/
def execTunnelCollect (tag : Nat) (s : State) : Host.Outcome State Fault Refusal :=
  onDev (Sys2Proof.Machine.tunnelCollect tag) s

/-- TUNNEL_EVENTS (R410): TURUK_TUNNEL EVENTS returns event records of the FM-owned LD. -/
def execTunnelEvents (want : Nat) (s : State) : Host.Outcome State Fault Refusal :=
  onDev (Sys2Proof.Machine.tunnelEvents want) s

/-- TUNNEL_SUBMIT_EXPIRY (R410): A SUBMIT not completed within 1 s reports PENDING and its completion is held. -/
def execTunnelSubmitExpiry (submit : Nat) (dt : Nat) (s : State) : Host.Outcome State Fault Refusal :=
  onDev (tunnelExpiry submit dt) s

/-- MSIX_TABLE_WRITE (R403): A write to an LD's BAR2 MSI-X table or mask changes a vector, and clearing a mask bit signals a pending vector. -/
def execMsixTableWrite (ld : Nat) (vec : Nat) (addr : Nat) (data : Nat) (masked : Bool) (s : State) : Host.Outcome State Fault Refusal :=
  onDev (msixWrite ld vec addr data masked) s

/-- HDM_DECODER_COMMIT (R400): the host commits an LD's HDM decoder, mapping host addresses to the LD's exchange-area DPAs. -/
def execHdmDecoderCommit (ld : Nat) (idx : Nat) (base : Nat) (size : Nat) (s : State) : Host.Outcome State Fault Refusal :=
  onDev (hdmCommit ld idx base size) s

/-- CONFIG_SPACE_WRITE (R406): A configuration-space write changes an LD's command register, such as Bus Master Enable, or its BAR assignment. -/
def execConfigSpaceWrite (ld : Nat) (reg : CfgReg) (value : Nat) (s : State) : Host.Outcome State Fault Refusal :=
  onDev (configWrite ld reg value) s

/-- BUS_MASTER_READ_COMPLETE (R405): completion data of a bus-mastered read of host memory arrives for a RESTORE from host memory. -/
def execBusMasterReadComplete (id : Nat) (bytes : List Byte) (s : State) : Host.Outcome State Fault Refusal :=
  onDev (busReadDone id bytes) s

end Sys2Proof.Machine
end

