-- ==== Sys2Proof/Machine/RowsFlash.lean ====
section
/-!
DEFINITION. Meanings of the commands: Flash media (chapter 13).
-/

namespace Sys2Proof.Machine

/-- FL_MOUNT (R309): mounts or unmounts the media. -/
def execFlMount (seq : Nat) (s : State) : Host.Outcome State Fault Refusal :=
  onDev (fun d => noteHealth (runVerb 0x0801 seq flMountBody d)) s

/-- FL_FORMAT (R309): formats the media. -/
def execFlFormat (seq : Nat) (s : State) : Host.Outcome State Fault Refusal :=
  onDev (fun d => noteHealth (runVerb 0x0802 seq flFormatBody d)) s

/-- FL_HEALTH (R309): reads the health log. -/
def execFlHealth (seq : Nat) (s : State) : Host.Outcome State Fault Refusal :=
  onDev (fun d => noteHealth (runVerb 0x0803 seq flHealthBody d)) s

/-- FL_DISCARD (R301): unmaps a range of LPNs. -/
def execFlDiscard (seq : Nat) (s : State) : Host.Outcome State Fault Refusal :=
  onDev (fun d => noteHealth (runVerb 0x0804 seq flDiscardBody d)) s

/-- FL_SANITIZE (R309): erases the device or a granule. -/
def execFlSanitize (seq : Nat) (s : State) : Host.Outcome State Fault Refusal :=
  onDev (fun d => noteHealth (runVerb 0x0805 seq flSanitizeBody d)) s

/-- FL_ASSIGN (R309): assigns or releases a flash granule. -/
def execFlAssign (seq : Nat) (s : State) : Host.Outcome State Fault Refusal :=
  onDev (fun d => noteHealth (runVerb 0x0806 seq flAssignBody d)) s

/-- FORMAT_COMPLETE (R309): A format finishes and the media is MOUNTED. -/
def execFormatComplete (ok : Bool) (bad : List (Nat × Nat × Nat)) (s : State) : Host.Outcome State Fault Refusal :=
  onDev (fun d => noteHealth (Sys2Proof.Machine.formatComplete ok bad d)) s

/-- FL_SANITIZE_DONE (R309): A sanitize or mode-3 release finishes erasing. -/
def execFlSanitizeDone (ok : Bool) (s : State) : Host.Outcome State Fault Refusal :=
  onDev (fun d => noteHealth (sanitizeRow ok d)) s

/-- NAND_READ_COMPLETE (R291): A NAND read returns codewords, retried along the ladder or delivered as data, zeros or poison. -/
def execNandReadComplete (id : Nat) (ok : Bool) (bits : Nat) (found : Nat) (bad : List Nat) (s : State) : Host.Outcome State Fault Refusal :=
  onDev (fun d => noteHealth (nandRead id ok bits found bad d)) s

/-- NAND_PROGRAM_COMPLETE (R295): A NAND program finishes, making pages durable when parity covers them, or fails. -/
def execNandProgramComplete (id : Nat) (ok : Bool) (damaged : List Nat) (s : State) : Host.Outcome State Fault Refusal :=
  onPower (fun d => noteHealth (nandProgram id ok damaged d)) s

/-- NAND_ERASE_COMPLETE (R304): A block erase finishes or fails. -/
def execNandEraseComplete (id : Nat) (ok : Bool) (s : State) : Host.Outcome State Fault Refusal :=
  onDev (fun d => noteHealth (nandErase id ok d)) s

/-- NAND_OP_TIMEOUT (R307): A NAND operation not done in time is abandoned, the LUN reset and retried. -/
def execNandOpTimeout (id : Nat) (dt : Nat) (s : State) : Host.Outcome State Fault Refusal :=
  onPower (fun d => noteHealth (nandTimeout id (advance d dt))) s

/-- MAP_CHECKPOINT (R298): after 2 GiB of data pages or 200,000 clauses a map checkpoint is written. -/
def execMapCheckpoint (s : State) : Host.Outcome State Fault Refusal :=
  onDev Sys2Proof.Machine.mapCheckpoint s

/-- MOUNT_COMPLETE (R299): mount replay and verification end and the media state is set. -/
def execMountComplete (recs : MountRecords) (bad : List Nat) (absent : List (Nat × Nat)) (s : State) : Host.Outcome State Fault Refusal :=
  onDev (fun d => noteHealth (mountRow recs.format recs.checkpoint bad absent d)) s

end Sys2Proof.Machine
end

