-- ==== Sys2Proof/Machine/RowsInfo.lean ====
section
/-!
DEFINITION. Meanings of the commands: Telemetry, device information and configuration (chapters 20 and 22).
-/

namespace Sys2Proof.Machine

/-- COUNTERS_READ (R452): reads, clears or resets counters. -/
def execCountersRead (seq : Nat) (s : State) : Host.Outcome State Fault Refusal :=
  onDev (countersRow seq) s

/-- LOG_READ (R455): reads the measurement or event log. -/
def execLogRead (seq : Nat) (s : State) : Host.Outcome State Fault Refusal :=
  onDev (runVerb 0x0B02 seq logReadBody) s

/-- EVENT_MASK (R454): suppresses or restores event codes for one LD. -/
def execEventMask (seq : Nat) (s : State) : Host.Outcome State Fault Refusal :=
  onDev (runVerb 0x0B03 seq eventMaskBody) s

/-- THERMAL_HISTORY (R458): reads die and stack temperature history. -/
def execThermalHistory (seq : Nat) (s : State) : Host.Outcome State Fault Refusal :=
  onDev (runVerb 0x0B05 seq thermalHistoryBody) s

/-- DEVICE_INFO (R486): reports identity, population and free resources. -/
def execDeviceInfo (seq : Nat) (s : State) : Host.Outcome State Fault Refusal :=
  onDev (runVerb 0x0101 seq deviceInfoBody) s

/-- CONFIG_SET (R488): sets a configuration item, optionally by compare. -/
def execConfigSet (seq : Nat) (s : State) : Host.Outcome State Fault Refusal :=
  onDev (runVerb 0x0102 seq configSetBody) s

/-- CONFIG_GET (R489): reads a configuration item. -/
def execConfigGet (seq : Nat) (s : State) : Host.Outcome State Fault Refusal :=
  onDev (runVerb 0x0103 seq configGetBody) s

end Sys2Proof.Machine
end

