-- ==== Sys2Proof/Machine/RowsNet.lean ====
section
/-!
DEFINITION. Meanings of the commands: Ethernet ports and RoCE (chapter 16).
-/

namespace Sys2Proof.Machine

/-- PORT_SET (R386): configures, addresses, enables or disables a port. -/
def execPortSet (seq : Nat) (s : State) : Host.Outcome State Fault Refusal :=
  onDev (runVerb 0x0A01 seq portSetBody) s

/-- QP_CREATE (R387): creates a queue pair. -/
def execQpCreate (seq : Nat) (s : State) : Host.Outcome State Fault Refusal :=
  onDev (runVerb 0x0A02 seq qpCreateBody) s

/-- QP_MODIFY (R387): connects, fails, resets or limits a queue pair. -/
def execQpModify (seq : Nat) (s : State) : Host.Outcome State Fault Refusal :=
  onDev (runVerb 0x0A03 seq qpModifyBody) s

/-- QP_DESTROY (R387): destroys a queue pair. -/
def execQpDestroy (seq : Nat) (s : State) : Host.Outcome State Fault Refusal :=
  onDev (runVerb 0x0A04 seq qpDestroyBody) s

/-- WINDOW_OPEN (R388): opens an exchange window. -/
def execWindowOpen (seq : Nat) (s : State) : Host.Outcome State Fault Refusal :=
  onDev (runVerb 0x0A05 seq windowOpenBody) s

/-- WINDOW_CLOSE (R388): closes an exchange window. -/
def execWindowClose (seq : Nat) (s : State) : Host.Outcome State Fault Refusal :=
  onDev (runVerb 0x0A06 seq windowCloseBody) s

/-- SHAPER_SET (R389): sets a queue or partition shaper. -/
def execShaperSet (seq : Nat) (s : State) : Host.Outcome State Fault Refusal :=
  onDev (runVerb 0x0A07 seq shaperSetBody) s

/-- POLICER_SET (R389): sets an ingress meter. -/
def execPolicerSet (seq : Nat) (s : State) : Host.Outcome State Fault Refusal :=
  onDev (runVerb 0x0A08 seq policerSetBody) s

/-- GATE_LIST_SET (R390): sets a timed gate control list in one or more parts. -/
def execGateListSet (seq : Nat) (s : State) : Host.Outcome State Fault Refusal :=
  onDev (runVerb 0x0A09 seq gateListBody) s

/-- QUEUE_STATS (R391): reads queue statistics and histograms. -/
def execQueueStats (seq : Nat) (s : State) : Host.Outcome State Fault Refusal :=
  onDev (runVerb 0x0A0A seq queueStatsBody) s

/-- LATENCY_PROBE_SET (R392): selects queues for depth and delay sampling. -/
def execLatencyProbeSet (seq : Nat) (s : State) : Host.Outcome State Fault Refusal :=
  onDev (runVerb 0x0B04 seq probeSetBody) s

/-- RDMA_WRITE_RECEIVE (R370): an inbound RDMA WRITE packet on a partition QP is placed in its window or NAKed. -/
def execRdmaWriteReceive (h : RxHead) (va : Nat) (rkey : Nat) (dmaLen : Nat) (payload : List Byte) (s : State) : Host.Outcome State Fault Refusal :=
  onDev (writeReceive h va rkey dmaLen none payload (fun _ _ _ d => d)) s

/-- WRITE_WITH_IMMEDIATE (R372): an inbound WRITE with immediate completes the input and launches a job. -/
def execWriteWithImmediate (h : RxHead) (va : Nat) (rkey : Nat) (dmaLen : Nat) (imm : Nat) (payload : List Byte) (s : State) : Host.Outcome State Fault Refusal :=
  onDev (fun d => settleJobs (writeReceive h va rkey dmaLen (some imm) payload (fun i _ off => shardArrived i off) d)) s

/-- RDMA_READ_REQUEST (R370): an inbound RDMA READ of a window is answered or NAKed. -/
def execRdmaReadRequest (h : RxHead) (va : Nat) (rkey : Nat) (len : Nat) (s : State) : Host.Outcome State Fault Refusal :=
  onDev (readRequest h va rkey len) s

/-- RDMA_READ_RESPONSE (R368): response data for an RDMA READ that the device issued arrives. -/
def execRdmaReadResponse (h : RxHead) (payload : List Byte) (s : State) : Host.Outcome State Fault Refusal :=
  onDev (readResponse h payload) s

/-- SEND_RECEIVE (R370): an inbound SEND on a partition QP gets an invalid-request NAK; on a buddy QP it carries a control message. -/
def execSendReceive (h : RxHead) (payload : List Byte) (s : State) : Host.Outcome State Fault Refusal :=
  onDev (Sys2Proof.Machine.sendReceive restoreFound 0 h payload) s

/-- ACK_RECEIVE (R369): an ACK frees acknowledged packets and restores RETRY. -/
def execAckReceive (h : RxHead) (s : State) : Host.Outcome State Fault Refusal :=
  onDev (Sys2Proof.Machine.ackReceive h) s

/-- NAK_RECEIVE (R369): A sequence-error, RNR or fatal NAK causes resend, delayed retry or ERROR. -/
def execNakReceive (h : RxHead) (code : Nat) (timerNs : Nat) (s : State) : Host.Outcome State Fault Refusal :=
  onDev (Sys2Proof.Machine.nakReceive h code timerNs) s

/-- CNP_RECEIVE (R378): A received CNP lowers the QP's rate. -/
def execCnpReceive (h : RxHead) (s : State) : Host.Outcome State Fault Refusal :=
  onDev (Sys2Proof.Machine.cnpReceive h) s

/-- PFC_FRAME_RECEIVE (R377): A received PFC frame pauses a class's queues. -/
def execPfcFrameReceive (sub : Nat) (len : Nat) (quanta : List (Nat × Nat)) (s : State) : Host.Outcome State Fault Refusal :=
  onDev (pfcReceive sub len quanta) s

/-- ARP_REQUEST (R366): an ARP request for the sub-port's address is answered. -/
def execArpRequest (sub : Nat) (len : Nat) (mac : Nat) (ip : Nat) (target : Nat) (s : State) : Host.Outcome State Fault Refusal :=
  onDev (Sys2Proof.Machine.arpRequest sub len mac ip target) s

/-- NEIGHBOR_SOLICITATION (R366): an IPv6 Neighbor Solicitation is answered. -/
def execNeighborSolicitation (sub : Nat) (len : Nat) (mac : Nat) (ip : Nat) (target : Nat) (s : State) : Host.Outcome State Fault Refusal :=
  onDev (neighborSolicit sub len mac ip target) s

/-- OTHER_FRAME_RECEIVE (R366): any other frame is dropped and counted. -/
def execOtherFrameReceive (sub : Nat) (len : Nat) (fcsOk : Bool) (s : State) : Host.Outcome State Fault Refusal :=
  onDev (otherFrame sub len fcsOk) s

/-- EGRESS_FRAME_START (R379): at each frame start the scheduler picks a queue and charges its shapers. -/
def execEgressFrameStart (sub : Nat) (dt : Nat) (s : State) : Host.Outcome State Fault Refusal :=
  onDev (egressStart sub dt) s

/-- ACK_TIMEOUT (R369): the local ACK timer expires and the QP resends or enters ERROR. -/
def execAckTimeout (qpn : Nat) (dt : Nat) (s : State) : Host.Outcome State Fault Refusal :=
  onDev (Sys2Proof.Machine.ackTimeout qpn dt) s

/-- RNR_RETRY_EXPIRY (R369): the timer named by an RNR NAK expires and the request is retried. -/
def execRnrRetryExpiry (qpn : Nat) (dt : Nat) (s : State) : Host.Outcome State Fault Refusal :=
  onDev (rnrExpiry qpn dt) s

/-- ACK_COALESCE_EXPIRY (R369): 2 µs after the last unacknowledged packet the responder acknowledges. -/
def execAckCoalesceExpiry (qpn : Nat) (dt : Nat) (s : State) : Host.Outcome State Fault Refusal :=
  onDev (ackCoalesce qpn dt) s

/-- T_INC_EXPIRY (R378): every T_INC_US each QP's alpha decays and its rate recovers. -/
def execTIncExpiry (qpn : Nat) (dt : Nat) (s : State) : Host.Outcome State Fault Refusal :=
  onDev (Sys2Proof.Machine.tIncExpiry qpn dt) s

/-- SHAPER_REFILL (R381): every 1,000 ns shaper buckets refill and new settings take effect. -/
def execShaperRefill (dt : Nat) (s : State) : Host.Outcome State Fault Refusal :=
  onDev (refill dt) s

/-- GATE_ENTRY_EXPIRY (R382): A gate list entry's duration ends and the next entry becomes current. -/
def execGateEntryExpiry (sub : Nat) (dt : Nat) (s : State) : Host.Outcome State Fault Refusal :=
  onDev (gateExpiry sub dt) s

/-- GATE_LIST_TAKEOVER (R383): at BASE_TIME the pending gate list replaces the current one. -/
def execGateListTakeover (sub : Nat) (dt : Nat) (s : State) : Host.Outcome State Fault Refusal :=
  onDev (gateTakeover sub dt) s

/-- LATENCY_PROBE_SAMPLE (R385): at each PERIOD_NS selected queues are sampled into histograms. -/
def execLatencyProbeSample (sub : Nat) (dt : Nat) (s : State) : Host.Outcome State Fault Refusal :=
  onDev (probeSample sub dt) s

/-- PFC_PAUSE_EXPIRY (R377): A received pause time runs out and the class resumes. -/
def execPfcPauseExpiry (sub : Nat) (cls : Nat) (dt : Nat) (s : State) : Host.Outcome State Fault Refusal :=
  onDev (pauseExpiry sub cls dt) s

/-- PFC_XOFF_REFRESH (R377): PFC is repeated every half pause time while occupancy stays at XON or above. -/
def execPfcXoffRefresh (sub : Nat) (cls : Nat) (dt : Nat) (s : State) : Host.Outcome State Fault Refusal :=
  onDev (xoffRefresh sub cls dt) s

/-- PAUSE_HELD_TIMEOUT (R377): A class paused continuously for 100 ms is reported. -/
def execPauseHeldTimeout (sub : Nat) (cls : Nat) (dt : Nat) (s : State) : Host.Outcome State Fault Refusal :=
  onDev (pauseHeld sub cls dt) s

/-- PORT_TRAINING_COMPLETE (R386): port training or retraining finishes and the sub-ports come up. -/
def execPortTrainingComplete (port : Nat) (up : Nat) (dt : Nat) (s : State) : Host.Outcome State Fault Refusal :=
  onDev (portTrained port up dt) s

/-- ETH_LANE_FAILURE (R365): A lane loses lock or errors exceed the limit; the port degrades or goes DOWN. -/
def execEthLaneFailure (port : Nat) (lane : Nat) (corrected : Nat) (uncorrectable : Nat) (s : State) : Host.Outcome State Fault Refusal :=
  onDev (ethLane port lane corrected uncorrectable) s

/-- INGRESS_BUFFER_DRAIN (R377): A packet leaves a sub-port's ingress buffer, and when a PFC class's occupancy falls below XON_KIB the sub-port sends PFC with quanta 0. -/
def execIngressBufferDrain (sub : Nat) (s : State) : Host.Outcome State Fault Refusal :=
  onDev (ingressDrain sub) s

/-- QP_PACER_RELEASE (R378): A QP's pacing delay ends and its next packet enters its class queue. -/
def execQpPacerRelease (qpn : Nat) (dt : Nat) (s : State) : Host.Outcome State Fault Refusal :=
  onDev (pacerRelease qpn dt) s

end Sys2Proof.Machine
end

