-- ==== Sys2Proof/Machine/RowsPart.lean ====
section
/-!
DEFINITION. Meanings of the commands: Partitions, contexts, trust (chapter 15).
-/

namespace Sys2Proof.Machine

/-- ZERO_FILL_COMPLETE (R346): firmware zero-fill of released granules finishes and the granules become grantable. -/
def execZeroFillComplete (rel : Nat) (ddr : Bool) (s : State) : Host.Outcome State Fault Refusal :=
  onDev (Sys2Proof.Machine.zeroFillComplete rel ddr) s

/-- PART_CREATE (R344): creates a partition with its grants. -/
def execPartCreate (seq : Nat) (s : State) : Host.Outcome State Fault Refusal :=
  onDev (runVerb 0x0201 seq partCreateBody) s

/-- PART_DESTROY (R348): ends a partition and clears its memory. -/
def execPartDestroy (seq : Nat) (s : State) : Host.Outcome State Fault Refusal :=
  onDev (runVerb 0x0202 seq partDestroyBody) s

/-- PART_RESIZE (R345): changes a partition's grants. -/
def execPartResize (seq : Nat) (s : State) : Host.Outcome State Fault Refusal :=
  onDev (runVerb 0x0203 seq partResizeBody) s

/-- PART_BIND (R353): binds, rebinds or unbinds a partition. -/
def execPartBind (seq : Nat) (s : State) : Host.Outcome State Fault Refusal :=
  onDev (runVerb 0x0204 seq partBindBody) s

/-- REBIND_SWITCH (R354): ring copies finish and the partition's doorbells, status entries and events switch to the new LD. -/
def execRebindSwitch (part : Nat) (s : State) : Host.Outcome State Fault Refusal :=
  onDev (Sys2Proof.Machine.rebindSwitch part) s

/-- CTX_CREATE (R351): creates a context and its rings. -/
def execCtxCreate (seq : Nat) (s : State) : Host.Outcome State Fault Refusal :=
  onDev (runVerb 0x0205 seq ctxCreateBody) s

/-- CTX_DESTROY (R352): ends a context. -/
def execCtxDestroy (seq : Nat) (s : State) : Host.Outcome State Fault Refusal :=
  onDev (runVerb 0x0206 seq ctxDestroyBody) s

/-- SCRUB (R349): clears free granules or a partition's memory. -/
def execScrub (seq : Nat) (s : State) : Host.Outcome State Fault Refusal :=
  onDev (runVerb 0x0207 seq scrubBody) s

/-- IDENTITY_GET (R357): reads the identity public key. -/
def execIdentityGet (seq : Nat) (s : State) : Host.Outcome State Fault Refusal :=
  onDev (runVerb 0x010C seq identityGetBody) s

end Sys2Proof.Machine
end

