-- ==== Sys2Proof/Machine/RowsPower.lean ====
section
/-!
DEFINITION. Meanings of the commands: Power, boot and thermal events (chapters 19 to 21).
-/

namespace Sys2Proof.Machine

/-- What a whole second of device time adds to: the temperature history and the health log's channel temperatures (20 R458; 13 R308). -/
def secondTick (d : Dev) : Dev :=
  if d.therm.seconds < d.tim.elapsed / 1000000000 then tickChannels (thermalTick d) else d

/-- PWRGD_ASSERT (R435): PWRGD is asserted and the device leaves its held reset. -/
def execPwrgdAssert (ns : Nat) (s : State) : Host.Outcome State Fault Refusal :=
  onPower (Sys2Proof.Machine.pwrgdAssert ns) s

/-- PWRGD_DEASSERT (R435): A loss of PWRGD is acted on as PWRFAIL_N. -/
def execPwrgdDeassert (ns : Nat) (s : State) : Host.Outcome State Fault Refusal :=
  onPower (Sys2Proof.Machine.pwrgdDeassert ns) s

/-- PERST_N_ASSERT (R436): PERST_N asserted: power-fail actions, then full device reset. -/
def execPerstNAssert (ns : Nat) (s : State) : Host.Outcome State Fault Refusal :=
  onPower (perstAssert ns) s

/-- PERST_N_DEASSERT (R436): PERST_N deasserted: device time starts and the boot sequence runs. -/
def execPerstNDeassert (s : State) : Host.Outcome State Fault Refusal :=
  onPower perstDeassert s

/-- PWRFAIL_N_ASSERT (R444): power is about to fail: work stops and issued NAND programs finish. -/
def execPwrfailNAssert (ns : Nat) (s : State) : Host.Outcome State Fault Refusal :=
  onPower (pwrfailAssert ns) s

/-- RAIL_UNDERVOLTAGE (R464): A rail below tolerance for 2 µs is acted on as a loss of PWRGD. -/
def execRailUndervoltage (ns : Nat) (s : State) : Host.Outcome State Fault Refusal :=
  onPower (railUnder ns) s

/-- IDENTITY_DERIVED (R356): identity derivation ends, the certificate is checked and stage 3 begins. -/
def execIdentityDerived (s : State) : Host.Outcome State Fault Refusal :=
  onDev Sys2Proof.Machine.identityDerived s

/-- FIRMWARE_STARTED (R440): firmware start completes and ring 16 opens. -/
def execFirmwareStarted (s : State) : Host.Outcome State Fault Refusal :=
  onDev Sys2Proof.Machine.firmwareStarted s

/-- BOOT_SELFTEST_DONE (R441): built-in self-test ends, moving to TRAINING or BOOT_FAILED. -/
def execBootSelftestDone (defects : List Defect) (logicFail : Bool) (noSlots : List Nat) (noUnits : Nat) (s : State) : Host.Outcome State Fault Refusal :=
  onDev (Sys2Proof.Machine.bootSelftestDone defects logicFail noSlots noUnits) s

/-- TRAINING_DONE (R441): HBM and DDR training ends and mount starts or is skipped. -/
def execTrainingDone (modules : List Dimm) (mts : Nat) (granules : Nat) (nand : NandFound) (failed : List Defect) (s : State) : Host.Outcome State Fault Refusal :=
  onDev (Sys2Proof.Machine.trainingDone modules mts granules nand.luns nand.silent failed) s

/-- THROT_N_ASSERT (R469): THROT_N low requests throttle level 2. -/
def execThrotNAssert (ns : Nat) (s : State) : Host.Outcome State Fault Refusal :=
  onDev (throtAssert ns) s

/-- THROT_N_RELEASE (R469): THROT_N returns high and its request ends. -/
def execThrotNRelease (s : State) : Host.Outcome State Fault Refusal :=
  onDev throtRelease s

/-- POWER_SAMPLE (R469): every 100 µs package power is computed and power-based throttle requests are updated. -/
def execPowerSample (dt : Nat) (watts : Nat) (s : State) : Host.Outcome State Fault Refusal :=
  onDev (Sys2Proof.Machine.powerSample dt watts) s

/-- THROTTLE_REQUEST_EXPIRY (R469): A sensor 5 °C below its level for 10 ms ends its throttle request. -/
def execThrottleRequestExpiry (dt : Nat) (s : State) : Host.Outcome State Fault Refusal :=
  onDev (reqExpiry dt) s

/-- THERMAL_TRIP (R471): A sensor reaches its trip value: THERMTRIP_N is asserted and power-fail actions follow. -/
def execThermalTrip (sensor : Nat) (temp : Int) (s : State) : Host.Outcome State Fault Refusal :=
  onPower (Sys2Proof.Machine.thermalTrip sensor temp) s

/-- THERMAL_HISTORY_TICK (R458): at each whole second the bin of that second's highest reading gains 1. -/
def execThermalHistoryTick (dt : Nat) (s : State) : Host.Outcome State Fault Refusal :=
  onDev (fun d => secondTick (advance d dt)) s

/-- PWRFAIL_N_DEASSERT (R446): PWRFAIL_N returns high, which does not resume service while the device is HALTED. -/
def execPwrfailNDeassert (s : State) : Host.Outcome State Fault Refusal :=
  onPower pwrfailDeassert s

end Sys2Proof.Machine
end

