-- ==== Sys2Proof/Machine/RowsRepair.lean ====
section
/-!
DEFINITION. Meanings of the commands: Repair, self-test, refetch (chapter 18).
-/

namespace Sys2Proof.Machine

/-- REPAIR_LOAD (R424): supplies the repair map in parts. -/
def execRepairLoad (seq : Nat) (s : State) : Host.Outcome State Fault Refusal :=
  onDev (runVerb 0x0104 seq repairLoadBody) s

/-- REPAIR_REPORT (R425): reads defects found since power-up. -/
def execRepairReport (seq : Nat) (s : State) : Host.Outcome State Fault Refusal :=
  onDev (runVerb 0x0105 seq repairReportBody) s

/-- SELFTEST (R430): tests a core, cluster, channel, die or device. -/
def execSelftest (seq : Nat) (s : State) : Host.Outcome State Fault Refusal :=
  onDev (runVerb 0x0106 seq testBody) s

/-- CALIBRATE (R430): calibrates a unit. -/
def execCalibrate (seq : Nat) (s : State) : Host.Outcome State Fault Refusal :=
  onDev (runVerb 0x0107 seq testBody) s

/-- QUIESCE (R429): stops foreground dispatch. -/
def execQuiesce (seq : Nat) (s : State) : Host.Outcome State Fault Refusal :=
  onDev (runVerb 0x0108 seq quiesceBody) s

/-- RESUME (R429): restarts dispatch. -/
def execResume (seq : Nat) (s : State) : Host.Outcome State Fault Refusal :=
  onDev (runVerb 0x0109 seq resumeBody) s

/-- REFETCH_COMPLETE (R417): A refetch from a lower copy finishes and is read back, or every copy fails. -/
def execRefetchComplete (id : Nat) (ok : Bool) (hard : List (Nat × Defect)) (pages : Nat) (s : State) : Host.Outcome State Fault Refusal :=
  onDev (fun d => settleJobs (Sys2Proof.Machine.refetchComplete id ok hard pages d)) s

/-- SELFTEST_TEST_COMPLETE (R428): A removed core's 2 ms test ends and the core becomes a spare or is retired. -/
def execSelftestTestComplete (cluster : Nat) (pos : Nat) (pass : Bool) (dt : Nat) (s : State) : Host.Outcome State Fault Refusal :=
  onDev (testComplete cluster pos pass dt) s

/-- UCIE_LANE_FAILURE (R421): A UCIe lane fails and the link retrains with a spare or at half width. -/
def execUcieLaneFailure (link : Nat) (mod : Nat) (lane : Nat) (s : State) : Host.Outcome State Fault Refusal :=
  onDev (laneRepair link mod lane) s

end Sys2Proof.Machine
end

