-- ==== Sys2Proof/Machine/RowsRings.lean ====
section
/-!
DEFINITION. Meanings of the commands: Rings, doorbells and registers (chapter 04).
-/

namespace Sys2Proof.Machine

/-- DOORBELL_SQ_UPDATE (R60): A doorbell write with SQ_UPDATE announces a new submission tail. -/
def execDoorbellSqUpdate (ld : Nat) (off : Nat) (width : Nat) (value : Nat) (s : State) : Host.Outcome State Fault Refusal :=
  onDev (doorbellSq ld off width value) s

/-- DOORBELL_CQ_UPDATE (R60): A doorbell write with CQ_UPDATE takes a new completion head, releasing held completions. -/
def execDoorbellCqUpdate (ld : Nat) (off : Nat) (width : Nat) (value : Nat) (s : State) : Host.Outcome State Fault Refusal :=
  onDev (doorbellCq ld off width value) s

/-- DOORBELL_RESTART (R62): A doorbell write with RESTART restarts a halted ring. -/
def execDoorbellRestart (ld : Nat) (off : Nat) (width : Nat) (value : Nat) (s : State) : Host.Outcome State Fault Refusal :=
  onDev (Sys2Proof.Machine.doorbellRestart ld off width value) s

/-- RING_FETCH (R70): A control core fetches entries from a ring with room in its completion ring and accepts them. -/
def execRingFetch (s : State) : Host.Outcome State Fault Refusal :=
  onDev Sys2Proof.Machine.ringFetch s

/-- EVQ_ENABLE_WRITE (R77): A write to the EVQ control register sets ENABLE, zero-filling the event ring, or changes vector and depth. -/
def execEvqEnableWrite (ld : Nat) (off : Nat) (width : Nat) (value : Nat) (s : State) : Host.Outcome State Fault Refusal :=
  onDev (evqControlWrite ld off width value) s

/-- EVQ_HEAD_WRITE (R77): A write of the EVQ HEAD consumes posted records when valid. -/
def execEvqHeadWrite (ld : Nat) (off : Nat) (width : Nat) (value : Nat) (s : State) : Host.Outcome State Fault Refusal :=
  onDev (Sys2Proof.Machine.evqHeadWrite ld off width value) s

/-- STALL_SEEN_CLEAR (R485): A write of 1 to STALL_SEEN clears it unless FW_STALL is 1. -/
def execStallSeenClear (off : Nat) (width : Nat) (value : Nat) (s : State) : Host.Outcome State Fault Refusal :=
  onDev (stallClear off width value) s

/-- REGISTER_WRITE (R481): A write to any BAR0 register without behaviour of its own is taken or ignored. -/
def execRegisterWrite (ld : Nat) (off : Nat) (width : Nat) (value : Nat) (s : State) : Host.Outcome State Fault Refusal :=
  onDev (Sys2Proof.Machine.registerWrite ld off width value) s

/-- FW_STALL_TIMEOUT (R68): no verb accepted for 100 ms while a fetchable ring has entries sets FW_STALL. -/
def execFwStallTimeout (dt : Nat) (s : State) : Host.Outcome State Fault Refusal :=
  onDev (stallTimeout dt) s

/-- VERB_LIMIT_TIMEOUT (R74): A verb not finished by its limit is stopped at the next boundary and completes with ST_TIMEOUT. -/
def execVerbLimitTimeout (seq : Nat) (dt : Nat) (s : State) : Host.Outcome State Fault Refusal :=
  onDev (verbTimeout seq dt) s

end Sys2Proof.Machine
end

