-- ==== Sys2Proof/Machine/RowsSearch.lean ====
section
/-!
DEFINITION. Meanings of the commands: Agent memory search (chapter 12).
-/

namespace Sys2Proof.Machine

/-- IDX_CREATE (R277): creates a new index or attaches an existing region. -/
def execIdxCreate (seq : Nat) (s : State) : Host.Outcome State Fault Refusal :=
  onDev (runVerb 0x0701 seq idxCreateBody) s

/-- IDX_DROP (R278): drops an index. -/
def execIdxDrop (seq : Nat) (s : State) : Host.Outcome State Fault Refusal :=
  onDev (runVerb 0x0702 seq idxDropBody) s

/-- IDX_INSERT (R271): inserts items into an index. -/
def execIdxInsert (seq : Nat) (s : State) : Host.Outcome State Fault Refusal :=
  onDev (runVerb 0x0703 seq idxInsertBody) s

/-- IDX_DELETE (R273): deletes items from an index. -/
def execIdxDelete (seq : Nat) (s : State) : Host.Outcome State Fault Refusal :=
  onDev (runVerb 0x0704 seq idxDeleteBody) s

/-- IDX_SEARCH (R260): searches a batch of queries. -/
def execIdxSearch (seq : Nat) (s : State) : Host.Outcome State Fault Refusal :=
  onDev (runVerb 0x0705 seq idxSearchBody) s

/-- IDX_MERGE (R274): starts or stops merging the side list. -/
def execIdxMerge (seq : Nat) (s : State) : Host.Outcome State Fault Refusal :=
  onDev (runVerb 0x0706 seq idxMergeBody) s

/-- BITMAP_LOAD (R276): loads or releases a named bitmap. -/
def execBitmapLoad (seq : Nat) (s : State) : Host.Outcome State Fault Refusal :=
  onDev (runVerb 0x0707 seq bitmapLoadBody) s

/-- IDX_REPAIR (R275): starts or stops a repair pass. -/
def execIdxRepair (seq : Nat) (s : State) : Host.Outcome State Fault Refusal :=
  onDev (runVerb 0x0708 seq idxRepairBody) s

/-- IDX_STATS (R279): writes index statistics. -/
def execIdxStats (seq : Nat) (s : State) : Host.Outcome State Fault Refusal :=
  onDev (runVerb 0x0709 seq idxStatsBody) s

/-- MERGE_COMPLETE (R274): A side-list merge finishes and frees entries before CUT. -/
def execMergeComplete (id : Nat) (s : State) : Host.Outcome State Fault Refusal :=
  onDev (Sys2Proof.Machine.mergeComplete id) s

/-- REPAIR_PASS_END (R275): A repair pass ends and DEAD nodes of the old parity become FREE. -/
def execRepairPassEnd (id : Nat) (s : State) : Host.Outcome State Fault Refusal :=
  onDev (Sys2Proof.Machine.repairPassEnd id) s

/-- ATTACH_COMPLETE (R277): an attach has rebuilt the index structures and the index leaves ATTACHING. -/
def execAttachComplete (id : Nat) (s : State) : Host.Outcome State Fault Refusal :=
  onDev (Sys2Proof.Machine.attachComplete id) s

end Sys2Proof.Machine
end

