-- ==== Sys2Proof/Machine/RowsSession.lean ====
section
/-!
DEFINITION. Meanings of the commands: Sessions, phrases, tiers (chapters 05 and 09).
-/

namespace Sys2Proof.Machine

/-- SESS_FORK (R104): opens a child session sharing the parent's sealed prefix. -/
def execSessFork (seq : Nat) (s : State) : Host.Outcome State Fault Refusal :=
  onDev (runVerb 0x0403 seq sessForkBody) s

/-- APPEND (R101): stores or replaces attention state from supplied rows. -/
def execAppend (seq : Nat) (s : State) : Host.Outcome State Fault Refusal :=
  onDev (runVerb 0x0404 seq appendBody) s

/-- ROLLBACK (R107): drops a draft or undoes a partial step. -/
def execRollback (seq : Nat) (s : State) : Host.Outcome State Fault Refusal :=
  onDev (runVerb 0x0407 seq rollbackBody) s

/-- TRUNCATE (R107): cuts a session back to a given length. -/
def execTruncate (seq : Nat) (s : State) : Host.Outcome State Fault Refusal :=
  onDev (runVerb 0x040D seq truncateBody) s

/-- PIN_TILES (R199): pins or unpins weight ranges in the cluster stores. -/
def execPinTiles (seq : Nat) (s : State) : Host.Outcome State Fault Refusal :=
  onDev (runVerb 0x0305 seq pinTilesBody) s

/-- SESS_OPEN (R193): opens a new session. -/
def execSessOpen (seq : Nat) (s : State) : Host.Outcome State Fault Refusal :=
  onDev (runVerb 0x0401 seq sessOpenBody) s

/-- SESS_CLOSE (R194): ends a session and frees its handle. -/
def execSessClose (seq : Nat) (s : State) : Host.Outcome State Fault Refusal :=
  onDev (runVerb 0x0402 seq sessCloseBody) s

/-- DISCARD (R194): frees a session's state, keeping its handle DISCARDED. -/
def execDiscard (seq : Nat) (s : State) : Host.Outcome State Fault Refusal :=
  onDev (runVerb 0x040B seq discardBody) s

/-- SESS_QUERY (R195): reads a session's state. -/
def execSessQuery (seq : Nat) (s : State) : Host.Outcome State Fault Refusal :=
  onDev (runVerb 0x040C seq sessQueryBody) s

/-- PARK (R196): images a session to DDR or flash. -/
def execPark (seq : Nat) (s : State) : Host.Outcome State Fault Refusal :=
  onDev (runVerb 0x0408 seq parkRun) s

/-- REVIVE (R197): restores a parked session or opens one from an image. -/
def execRevive (seq : Nat) (s : State) : Host.Outcome State Fault Refusal :=
  onDev (runVerb 0x0409 seq reviveBody) s

/-- MOVE (R198): sets the tiers of sealed phrase copies. -/
def execMove (seq : Nat) (s : State) : Host.Outcome State Fault Refusal :=
  onDev (runVerb 0x040A seq moveBody) s

/-- MOVER_COPY_COMPLETE (R178): A mover copy finishes and becomes a copy of record at the next boundary. -/
def execMoverCopyComplete (id : Nat) (ok : Bool) (s : State) : Host.Outcome State Fault Refusal :=
  onDev (moverRow id ok) s

end Sys2Proof.Machine
end

