-- ==== Sys2Proof/Machine/RowsToken.lean ====
section
/-!
DEFINITION. Meanings of the commands: Token engine, grammars and sampling (chapters 10 and 11).
-/

namespace Sys2Proof.Machine

/-- LEX_LOAD (R206): loads a lexicon. -/
def execLexLoad (seq : Nat) (s : State) : Host.Outcome State Fault Refusal :=
  onDev (runVerb 0x0501 seq lexLoadBody) s

/-- LEX_UNLOAD (R207): unloads a lexicon not in use. -/
def execLexUnload (seq : Nat) (s : State) : Host.Outcome State Fault Refusal :=
  onDev (runVerb 0x0502 seq lexUnloadBody) s

/-- TOKENIZE (R212): encodes a chunk of text into tokens. -/
def execTokenize (seq : Nat) (s : State) : Host.Outcome State Fault Refusal :=
  onDev (runVerb 0x0503 seq tokenizeBody) s

/-- DETOK_OPEN (R219): opens or redirects a session's text stream. -/
def execDetokOpen (seq : Nat) (s : State) : Host.Outcome State Fault Refusal :=
  onDev (runVerb 0x0504 seq detokOpenBody) s

/-- STOP_SET (R220): replaces the stop strings. -/
def execStopSet (seq : Nat) (s : State) : Host.Outcome State Fault Refusal :=
  onDev (runVerb 0x0505 seq stopSetBody) s

/-- DETOK_FLUSH (R221): flushes, discards or closes the text stream. -/
def execDetokFlush (seq : Nat) (s : State) : Host.Outcome State Fault Refusal :=
  onDev (runVerb 0x0506 seq detokFlushBody) s

/-- TEXT_HEAD_READ_DONE (R217): the bus-mastered read of the host head word returns and pending records are written where room exists. -/
def execTextHeadReadDone (id : Nat) (value : Nat) (s : State) : Host.Outcome State Fault Refusal :=
  onDev (headReadDone id value) s

/-- GRAM_LOAD (R229): loads a grammar. -/
def execGramLoad (seq : Nat) (s : State) : Host.Outcome State Fault Refusal :=
  onDev (runVerb 0x0601 seq gramLoadBody) s

/-- GRAM_UNLOAD (R230): unloads a grammar not bound. -/
def execGramUnload (seq : Nat) (s : State) : Host.Outcome State Fault Refusal :=
  onDev (runVerb 0x0602 seq gramUnloadBody) s

/-- GRAM_BIND (R235): binds, unbinds or replays a grammar. -/
def execGramBind (seq : Nat) (s : State) : Host.Outcome State Fault Refusal :=
  onDev (runVerb 0x0603 seq gramBindBody) s

/-- SAMPLER_SET (R237): sets sampling parameters. -/
def execSamplerSet (seq : Nat) (s : State) : Host.Outcome State Fault Refusal :=
  onDev (runVerb 0x0604 seq samplerSetBody) s

/-- SAMPLE (R238): runs a sample job over session rows. -/
def execSample (seq : Nat) (s : State) : Host.Outcome State Fault Refusal :=
  onDev (runVerb 0x0605 seq sampleBody) s

/-- MASK_GET (R236): writes the current grammar mask. -/
def execMaskGet (seq : Nat) (s : State) : Host.Outcome State Fault Refusal :=
  onDev (runVerb 0x0606 seq maskGetBody) s

/-- COMMIT (R249): commits a path and tokens chosen by Yeltoat. -/
def execCommit (seq : Nat) (s : State) : Host.Outcome State Fault Refusal :=
  onDev (runVerb 0x0406 seq commitBody) s

end Sys2Proof.Machine
end

