-- ==== Sys2Proof/Machine/RowsTrust.lean ====
section
/-!
DEFINITION. Meanings of the commands: DOE and SPDM (chapters 15 and 17).
-/

namespace Sys2Proof.Machine

/-- DOE_DISCOVERY (R396): DOE discovery request. -/
def execDoeDiscovery (who : Nat) (index : Nat) (s : State) : Host.Outcome State Fault Refusal :=
  onDev (Sys2Proof.Machine.doeDiscovery who index) s

/-- CDAT_TABLE_ACCESS (R396): DOE request for the CDAT table. -/
def execCdatTableAccess (who : Nat) (handle : Nat) (s : State) : Host.Outcome State Fault Refusal :=
  onDev (cdatAccess who handle) s

/-- GET_VERSION (R358): SPDM request for the version. -/
def execGetVersion (who : Nat) (req : List Byte) (s : State) : Host.Outcome State Fault Refusal :=
  onDev (Sys2Proof.Machine.getVersion who req) s

/-- GET_CAPABILITIES (R358): SPDM request for capabilities. -/
def execGetCapabilities (who : Nat) (req : List Byte) (s : State) : Host.Outcome State Fault Refusal :=
  onDev (Sys2Proof.Machine.getCapabilities who req) s

/-- NEGOTIATE_ALGORITHMS (R358): SPDM algorithm negotiation. -/
def execNegotiateAlgorithms (who : Nat) (req : List Byte) (s : State) : Host.Outcome State Fault Refusal :=
  onDev (Sys2Proof.Machine.negotiate who req) s

/-- GET_DIGESTS (R358): SPDM request for certificate digests. -/
def execGetDigests (who : Nat) (req : List Byte) (s : State) : Host.Outcome State Fault Refusal :=
  onDev (Sys2Proof.Machine.getDigests who req) s

/-- GET_CERTIFICATE (R358): SPDM request for the certificate chain. -/
def execGetCertificate (who : Nat) (req : List Byte) (s : State) : Host.Outcome State Fault Refusal :=
  onDev (Sys2Proof.Machine.getCertificate who req) s

/-- CHALLENGE (R358): SPDM challenge signed by the identity key. -/
def execChallenge (who : Nat) (req : List Byte) (s : State) : Host.Outcome State Fault Refusal :=
  onDev (Sys2Proof.Machine.challenge who req) s

/-- GET_MEASUREMENTS (R358): SPDM request for measurement blocks. -/
def execGetMeasurements (who : Nat) (req : List Byte) (s : State) : Host.Outcome State Fault Refusal :=
  onDev (Sys2Proof.Machine.getMeasurements who req) s

end Sys2Proof.Machine
end

