-- ==== Sys2Proof/Machine/Dispatch.lean ====
section
/-!
DEFINITION. The dispatch of commands: one arm per constructor.
-/

namespace Sys2Proof.Machine

def exec (i : Instr) (s : State) : Host.Outcome State Fault Refusal :=
  match i with
  | .clauseBoundary dt temps bad tests => Sys2Proof.Machine.execClauseBoundary dt temps bad tests s
  | .jobOverrunAbort job dt => Sys2Proof.Machine.execJobOverrunAbort job dt s
  | .tickInEdge dt highNs => Sys2Proof.Machine.execTickInEdge dt highNs s
  | .tickLossTimeout dt => Sys2Proof.Machine.execTickLossTimeout dt s
  | .slewEnd dt => Sys2Proof.Machine.execSlewEnd dt s
  | .ptpMessageReceive sub domain m => Sys2Proof.Machine.execPtpMessageReceive sub domain m s
  | .ptpSyncTimeout dt => Sys2Proof.Machine.execPtpSyncTimeout dt s
  | .clauseSet seq => Sys2Proof.Machine.execClauseSet seq s
  | .timeSet seq => Sys2Proof.Machine.execTimeSet seq s
  | .doorbellSqUpdate ld off width value => Sys2Proof.Machine.execDoorbellSqUpdate ld off width value s
  | .doorbellCqUpdate ld off width value => Sys2Proof.Machine.execDoorbellCqUpdate ld off width value s
  | .doorbellRestart ld off width value => Sys2Proof.Machine.execDoorbellRestart ld off width value s
  | .ringFetch => Sys2Proof.Machine.execRingFetch s
  | .evqEnableWrite ld off width value => Sys2Proof.Machine.execEvqEnableWrite ld off width value s
  | .evqHeadWrite ld off width value => Sys2Proof.Machine.execEvqHeadWrite ld off width value s
  | .stallSeenClear off width value => Sys2Proof.Machine.execStallSeenClear off width value s
  | .registerWrite ld off width value => Sys2Proof.Machine.execRegisterWrite ld off width value s
  | .fwStallTimeout dt => Sys2Proof.Machine.execFwStallTimeout dt s
  | .verbLimitTimeout seq dt => Sys2Proof.Machine.execVerbLimitTimeout seq dt s
  | .sessFork seq => Sys2Proof.Machine.execSessFork seq s
  | .append seq => Sys2Proof.Machine.execAppend seq s
  | .rollback seq => Sys2Proof.Machine.execRollback seq s
  | .truncate seq => Sys2Proof.Machine.execTruncate seq s
  | .modelLoad seq => Sys2Proof.Machine.execModelLoad seq s
  | .modelUnload seq => Sys2Proof.Machine.execModelUnload seq s
  | .attend seq => Sys2Proof.Machine.execAttend seq s
  | .jobSliceEnd slice => Sys2Proof.Machine.execJobSliceEnd slice s
  | .partialRecordArrival place => Sys2Proof.Machine.execPartialRecordArrival place s
  | .kernelLoad seq => Sys2Proof.Machine.execKernelLoad seq s
  | .kernelUnload seq => Sys2Proof.Machine.execKernelUnload seq s
  | .nop core => Sys2Proof.Machine.execNop core s
  | .tload core bad => Sys2Proof.Machine.execTload core bad s
  | .tstore core bad => Sys2Proof.Machine.execTstore core bad s
  | .gather core bad => Sys2Proof.Machine.execGather core bad s
  | .scatter core bad => Sys2Proof.Machine.execScatter core bad s
  | .fill core => Sys2Proof.Machine.execFill core s
  | .mm core => Sys2Proof.Machine.execMm core s
  | .accRead core => Sys2Proof.Machine.execAccRead core s
  | .accWrite core => Sys2Proof.Machine.execAccWrite core s
  | .quant core => Sys2Proof.Machine.execQuant core s
  | .dequant core => Sys2Proof.Machine.execDequant core s
  | .vop core => Sys2Proof.Machine.execVop core s
  | .vred core => Sys2Proof.Machine.execVred core s
  | .rotate core => Sys2Proof.Machine.execRotate core s
  | .smxPart core => Sys2Proof.Machine.execSmxPart core s
  | .smxMerge core => Sys2Proof.Machine.execSmxMerge core s
  | .partEmit core => Sys2Proof.Machine.execPartEmit core s
  | .appendRows core => Sys2Proof.Machine.execAppendRows core s
  | .nbIssue core => Sys2Proof.Machine.execNbIssue core s
  | .nbOperationComplete core id bad => Sys2Proof.Machine.execNbOperationComplete core id bad s
  | .movementComplete core id => Sys2Proof.Machine.execMovementComplete core id s
  | .semWait core => Sys2Proof.Machine.execSemWait core s
  | .semSignal core => Sys2Proof.Machine.execSemSignal core s
  | .barCl core => Sys2Proof.Machine.execBarCl core s
  | .barDev core => Sys2Proof.Machine.execBarDev core s
  | .bcast core => Sys2Proof.Machine.execBcast core s
  | .flag core => Sys2Proof.Machine.execFlag core s
  | .flagWait core => Sys2Proof.Machine.execFlagWait core s
  | .loopBegin core => Sys2Proof.Machine.execLoopBegin core s
  | .loopEnd core => Sys2Proof.Machine.execLoopEnd core s
  | .skip core => Sys2Proof.Machine.execSkip core s
  | .endDesc core => Sys2Proof.Machine.execEndDesc core s
  | .zeroFillComplete rel ddr => Sys2Proof.Machine.execZeroFillComplete rel ddr s
  | .pinTiles seq => Sys2Proof.Machine.execPinTiles seq s
  | .sessOpen seq => Sys2Proof.Machine.execSessOpen seq s
  | .sessClose seq => Sys2Proof.Machine.execSessClose seq s
  | .discard seq => Sys2Proof.Machine.execDiscard seq s
  | .sessQuery seq => Sys2Proof.Machine.execSessQuery seq s
  | .park seq => Sys2Proof.Machine.execPark seq s
  | .revive seq => Sys2Proof.Machine.execRevive seq s
  | .move seq => Sys2Proof.Machine.execMove seq s
  | .moverCopyComplete id ok => Sys2Proof.Machine.execMoverCopyComplete id ok s
  | .lexLoad seq => Sys2Proof.Machine.execLexLoad seq s
  | .lexUnload seq => Sys2Proof.Machine.execLexUnload seq s
  | .tokenize seq => Sys2Proof.Machine.execTokenize seq s
  | .detokOpen seq => Sys2Proof.Machine.execDetokOpen seq s
  | .stopSet seq => Sys2Proof.Machine.execStopSet seq s
  | .detokFlush seq => Sys2Proof.Machine.execDetokFlush seq s
  | .textHeadReadDone id value => Sys2Proof.Machine.execTextHeadReadDone id value s
  | .gramLoad seq => Sys2Proof.Machine.execGramLoad seq s
  | .gramUnload seq => Sys2Proof.Machine.execGramUnload seq s
  | .gramBind seq => Sys2Proof.Machine.execGramBind seq s
  | .samplerSet seq => Sys2Proof.Machine.execSamplerSet seq s
  | .sample seq => Sys2Proof.Machine.execSample seq s
  | .maskGet seq => Sys2Proof.Machine.execMaskGet seq s
  | .commit seq => Sys2Proof.Machine.execCommit seq s
  | .idxCreate seq => Sys2Proof.Machine.execIdxCreate seq s
  | .idxDrop seq => Sys2Proof.Machine.execIdxDrop seq s
  | .idxInsert seq => Sys2Proof.Machine.execIdxInsert seq s
  | .idxDelete seq => Sys2Proof.Machine.execIdxDelete seq s
  | .idxSearch seq => Sys2Proof.Machine.execIdxSearch seq s
  | .idxMerge seq => Sys2Proof.Machine.execIdxMerge seq s
  | .bitmapLoad seq => Sys2Proof.Machine.execBitmapLoad seq s
  | .idxRepair seq => Sys2Proof.Machine.execIdxRepair seq s
  | .idxStats seq => Sys2Proof.Machine.execIdxStats seq s
  | .mergeComplete id => Sys2Proof.Machine.execMergeComplete id s
  | .repairPassEnd id => Sys2Proof.Machine.execRepairPassEnd id s
  | .attachComplete id => Sys2Proof.Machine.execAttachComplete id s
  | .flMount seq => Sys2Proof.Machine.execFlMount seq s
  | .flFormat seq => Sys2Proof.Machine.execFlFormat seq s
  | .flHealth seq => Sys2Proof.Machine.execFlHealth seq s
  | .flDiscard seq => Sys2Proof.Machine.execFlDiscard seq s
  | .flSanitize seq => Sys2Proof.Machine.execFlSanitize seq s
  | .flAssign seq => Sys2Proof.Machine.execFlAssign seq s
  | .formatComplete ok bad => Sys2Proof.Machine.execFormatComplete ok bad s
  | .flSanitizeDone ok => Sys2Proof.Machine.execFlSanitizeDone ok s
  | .nandReadComplete id ok bits found bad => Sys2Proof.Machine.execNandReadComplete id ok bits found bad s
  | .nandProgramComplete id ok damaged => Sys2Proof.Machine.execNandProgramComplete id ok damaged s
  | .nandEraseComplete id ok => Sys2Proof.Machine.execNandEraseComplete id ok s
  | .nandOpTimeout id dt => Sys2Proof.Machine.execNandOpTimeout id dt s
  | .mapCheckpoint => Sys2Proof.Machine.execMapCheckpoint s
  | .mountComplete recs bad absent => Sys2Proof.Machine.execMountComplete recs bad absent s
  | .ckptBegin seq => Sys2Proof.Machine.execCkptBegin seq s
  | .ckptStatus seq => Sys2Proof.Machine.execCkptStatus seq s
  | .ckptDrain seq => Sys2Proof.Machine.execCkptDrain seq s
  | .restore seq => Sys2Proof.Machine.execRestore seq s
  | .buddyPair seq => Sys2Proof.Machine.execBuddyPair seq s
  | .buddyUnpair seq => Sys2Proof.Machine.execBuddyUnpair seq s
  | .ckptStaged ctx step => Sys2Proof.Machine.execCkptStaged ctx step s
  | .hello h m => Sys2Proof.Machine.execHello h m s
  | .helloAck h m => Sys2Proof.Machine.execHelloAck h m s
  | .heartbeat h m => Sys2Proof.Machine.execHeartbeat h m s
  | .openMsg h m => Sys2Proof.Machine.execOpenMsg h m s
  | .grant h m => Sys2Proof.Machine.execGrant h m s
  | .sealMsg h m => Sys2Proof.Machine.execSealMsg h m s
  | .sealed h m => Sys2Proof.Machine.execSealed h m s
  | .release h m => Sys2Proof.Machine.execRelease h m s
  | .released h m => Sys2Proof.Machine.execReleased h m s
  | .find h m => Sys2Proof.Machine.execFind h m s
  | .found h m => Sys2Proof.Machine.execFound h m s
  | .shardWriteImmediate h va rkey dmaLen imm payload => Sys2Proof.Machine.execShardWriteImmediate h va rkey dmaLen imm payload s
  | .buddyHeartbeatTimer dt => Sys2Proof.Machine.execBuddyHeartbeatTimer dt s
  | .buddyRequestResend req dt => Sys2Proof.Machine.execBuddyRequestResend req dt s
  | .buddyLossTimeout dt => Sys2Proof.Machine.execBuddyLossTimeout dt s
  | .partCreate seq => Sys2Proof.Machine.execPartCreate seq s
  | .partDestroy seq => Sys2Proof.Machine.execPartDestroy seq s
  | .partResize seq => Sys2Proof.Machine.execPartResize seq s
  | .partBind seq => Sys2Proof.Machine.execPartBind seq s
  | .rebindSwitch part => Sys2Proof.Machine.execRebindSwitch part s
  | .ctxCreate seq => Sys2Proof.Machine.execCtxCreate seq s
  | .ctxDestroy seq => Sys2Proof.Machine.execCtxDestroy seq s
  | .scrub seq => Sys2Proof.Machine.execScrub seq s
  | .identityGet seq => Sys2Proof.Machine.execIdentityGet seq s
  | .portSet seq => Sys2Proof.Machine.execPortSet seq s
  | .qpCreate seq => Sys2Proof.Machine.execQpCreate seq s
  | .qpModify seq => Sys2Proof.Machine.execQpModify seq s
  | .qpDestroy seq => Sys2Proof.Machine.execQpDestroy seq s
  | .windowOpen seq => Sys2Proof.Machine.execWindowOpen seq s
  | .windowClose seq => Sys2Proof.Machine.execWindowClose seq s
  | .shaperSet seq => Sys2Proof.Machine.execShaperSet seq s
  | .policerSet seq => Sys2Proof.Machine.execPolicerSet seq s
  | .gateListSet seq => Sys2Proof.Machine.execGateListSet seq s
  | .queueStats seq => Sys2Proof.Machine.execQueueStats seq s
  | .latencyProbeSet seq => Sys2Proof.Machine.execLatencyProbeSet seq s
  | .rdmaWriteReceive h va rkey dmaLen payload => Sys2Proof.Machine.execRdmaWriteReceive h va rkey dmaLen payload s
  | .writeWithImmediate h va rkey dmaLen imm payload => Sys2Proof.Machine.execWriteWithImmediate h va rkey dmaLen imm payload s
  | .rdmaReadRequest h va rkey len => Sys2Proof.Machine.execRdmaReadRequest h va rkey len s
  | .rdmaReadResponse h payload => Sys2Proof.Machine.execRdmaReadResponse h payload s
  | .sendReceive h payload => Sys2Proof.Machine.execSendReceive h payload s
  | .ackReceive h => Sys2Proof.Machine.execAckReceive h s
  | .nakReceive h code timerNs => Sys2Proof.Machine.execNakReceive h code timerNs s
  | .cnpReceive h => Sys2Proof.Machine.execCnpReceive h s
  | .pfcFrameReceive sub len quanta => Sys2Proof.Machine.execPfcFrameReceive sub len quanta s
  | .arpRequest sub len mac ip target => Sys2Proof.Machine.execArpRequest sub len mac ip target s
  | .neighborSolicitation sub len mac ip target => Sys2Proof.Machine.execNeighborSolicitation sub len mac ip target s
  | .otherFrameReceive sub len fcsOk => Sys2Proof.Machine.execOtherFrameReceive sub len fcsOk s
  | .egressFrameStart sub dt => Sys2Proof.Machine.execEgressFrameStart sub dt s
  | .ackTimeout qpn dt => Sys2Proof.Machine.execAckTimeout qpn dt s
  | .rnrRetryExpiry qpn dt => Sys2Proof.Machine.execRnrRetryExpiry qpn dt s
  | .ackCoalesceExpiry qpn dt => Sys2Proof.Machine.execAckCoalesceExpiry qpn dt s
  | .tIncExpiry qpn dt => Sys2Proof.Machine.execTIncExpiry qpn dt s
  | .shaperRefill dt => Sys2Proof.Machine.execShaperRefill dt s
  | .gateEntryExpiry sub dt => Sys2Proof.Machine.execGateEntryExpiry sub dt s
  | .gateListTakeover sub dt => Sys2Proof.Machine.execGateListTakeover sub dt s
  | .latencyProbeSample sub dt => Sys2Proof.Machine.execLatencyProbeSample sub dt s
  | .pfcPauseExpiry sub cls dt => Sys2Proof.Machine.execPfcPauseExpiry sub cls dt s
  | .pfcXoffRefresh sub cls dt => Sys2Proof.Machine.execPfcXoffRefresh sub cls dt s
  | .pauseHeldTimeout sub cls dt => Sys2Proof.Machine.execPauseHeldTimeout sub cls dt s
  | .portTrainingComplete port up dt => Sys2Proof.Machine.execPortTrainingComplete port up dt s
  | .ethLaneFailure port lane corrected uncorrectable => Sys2Proof.Machine.execEthLaneFailure port lane corrected uncorrectable s
  | .cxlMemRead ld hpa bad => Sys2Proof.Machine.execCxlMemRead ld hpa bad s
  | .cxlMemWrite ld hpa bytes => Sys2Proof.Machine.execCxlMemWrite ld hpa bytes s
  | .cxlLinkDown => Sys2Proof.Machine.execCxlLinkDown s
  | .cxlLinkUp width root bound => Sys2Proof.Machine.execCxlLinkUp width root bound s
  | .cxlHotReset only => Sys2Proof.Machine.execCxlHotReset only s
  | .cxlFlr ld => Sys2Proof.Machine.execCxlFlr ld s
  | .cxlLaneFailure => Sys2Proof.Machine.execCxlLaneFailure s
  | .busMasterErrorResponse id => Sys2Proof.Machine.execBusMasterErrorResponse id s
  | .busMasterTimeout id dt => Sys2Proof.Machine.execBusMasterTimeout id dt s
  | .identifyMemoryDevice ld => Sys2Proof.Machine.execIdentifyMemoryDevice ld s
  | .getHealthInfo ld => Sys2Proof.Machine.execGetHealthInfo ld s
  | .getAlertConfiguration ld => Sys2Proof.Machine.execGetAlertConfiguration ld s
  | .setAlertConfiguration ld valid enable life temp => Sys2Proof.Machine.execSetAlertConfiguration ld valid enable life temp s
  | .getEventRecords ld log => Sys2Proof.Machine.execGetEventRecords ld log s
  | .clearEventRecords ld log all handles => Sys2Proof.Machine.execClearEventRecords ld log all handles s
  | .getEventInterruptPolicy ld => Sys2Proof.Machine.execGetEventInterruptPolicy ld s
  | .setEventInterruptPolicy ld policy => Sys2Proof.Machine.execSetEventInterruptPolicy ld policy s
  | .getSupportedLogs ld => Sys2Proof.Machine.execGetSupportedLogs ld s
  | .getLog ld uuid first len => Sys2Proof.Machine.execGetLog ld uuid first len s
  | .getPoisonList ld start len => Sys2Proof.Machine.execGetPoisonList ld start len s
  | .sanitize ld => Sys2Proof.Machine.execSanitize ld s
  | .mailboxSanitizeDone ld => Sys2Proof.Machine.execMailboxSanitizeDone ld s
  | .getFwInfo who => Sys2Proof.Machine.execGetFwInfo who s
  | .transferFw who action slot first data => Sys2Proof.Machine.execTransferFw who action slot first data s
  | .activateFw who slot => Sys2Proof.Machine.execActivateFw who slot s
  | .getLdInfo => Sys2Proof.Machine.execGetLdInfo s
  | .getLdAllocations start count => Sys2Proof.Machine.execGetLdAllocations start count s
  | .setLdAllocations start ranges => Sys2Proof.Machine.execSetLdAllocations start ranges s
  | .getQosControl => Sys2Proof.Machine.execGetQosControl s
  | .setQosControl qos => Sys2Proof.Machine.execSetQosControl qos s
  | .getQosStatus => Sys2Proof.Machine.execGetQosStatus s
  | .getQosAllocatedBw start count => Sys2Proof.Machine.execGetQosAllocatedBw start count s
  | .setQosAllocatedBw start fractions => Sys2Proof.Machine.execSetQosAllocatedBw start fractions s
  | .getQosBwLimit start count => Sys2Proof.Machine.execGetQosBwLimit start count s
  | .setQosBwLimit start fractions => Sys2Proof.Machine.execSetQosBwLimit start fractions s
  | .tunnelSubmit entry block => Sys2Proof.Machine.execTunnelSubmit entry block s
  | .tunnelCollect tag => Sys2Proof.Machine.execTunnelCollect tag s
  | .tunnelEvents want => Sys2Proof.Machine.execTunnelEvents want s
  | .tunnelSubmitExpiry submit dt => Sys2Proof.Machine.execTunnelSubmitExpiry submit dt s
  | .doeDiscovery who index => Sys2Proof.Machine.execDoeDiscovery who index s
  | .cdatTableAccess who handle => Sys2Proof.Machine.execCdatTableAccess who handle s
  | .getVersion who req => Sys2Proof.Machine.execGetVersion who req s
  | .getCapabilities who req => Sys2Proof.Machine.execGetCapabilities who req s
  | .negotiateAlgorithms who req => Sys2Proof.Machine.execNegotiateAlgorithms who req s
  | .getDigests who req => Sys2Proof.Machine.execGetDigests who req s
  | .getCertificate who req => Sys2Proof.Machine.execGetCertificate who req s
  | .challenge who req => Sys2Proof.Machine.execChallenge who req s
  | .getMeasurements who req => Sys2Proof.Machine.execGetMeasurements who req s
  | .repairLoad seq => Sys2Proof.Machine.execRepairLoad seq s
  | .repairReport seq => Sys2Proof.Machine.execRepairReport seq s
  | .selftest seq => Sys2Proof.Machine.execSelftest seq s
  | .calibrate seq => Sys2Proof.Machine.execCalibrate seq s
  | .quiesce seq => Sys2Proof.Machine.execQuiesce seq s
  | .resume seq => Sys2Proof.Machine.execResume seq s
  | .refetchComplete id ok hard pages => Sys2Proof.Machine.execRefetchComplete id ok hard pages s
  | .selftestTestComplete cluster pos pass dt => Sys2Proof.Machine.execSelftestTestComplete cluster pos pass dt s
  | .ucieLaneFailure link mod lane => Sys2Proof.Machine.execUcieLaneFailure link mod lane s
  | .pwrgdAssert ns => Sys2Proof.Machine.execPwrgdAssert ns s
  | .pwrgdDeassert ns => Sys2Proof.Machine.execPwrgdDeassert ns s
  | .perstNAssert ns => Sys2Proof.Machine.execPerstNAssert ns s
  | .perstNDeassert => Sys2Proof.Machine.execPerstNDeassert s
  | .pwrfailNAssert ns => Sys2Proof.Machine.execPwrfailNAssert ns s
  | .railUndervoltage ns => Sys2Proof.Machine.execRailUndervoltage ns s
  | .identityDerived => Sys2Proof.Machine.execIdentityDerived s
  | .firmwareStarted => Sys2Proof.Machine.execFirmwareStarted s
  | .bootSelftestDone defects logicFail noSlots noUnits => Sys2Proof.Machine.execBootSelftestDone defects logicFail noSlots noUnits s
  | .trainingDone modules mts granules nand failed => Sys2Proof.Machine.execTrainingDone modules mts granules nand failed s
  | .throtNAssert ns => Sys2Proof.Machine.execThrotNAssert ns s
  | .throtNRelease => Sys2Proof.Machine.execThrotNRelease s
  | .powerSample dt watts => Sys2Proof.Machine.execPowerSample dt watts s
  | .throttleRequestExpiry dt => Sys2Proof.Machine.execThrottleRequestExpiry dt s
  | .thermalTrip sensor temp => Sys2Proof.Machine.execThermalTrip sensor temp s
  | .thermalHistoryTick dt => Sys2Proof.Machine.execThermalHistoryTick dt s
  | .countersRead seq => Sys2Proof.Machine.execCountersRead seq s
  | .logRead seq => Sys2Proof.Machine.execLogRead seq s
  | .eventMask seq => Sys2Proof.Machine.execEventMask seq s
  | .thermalHistory seq => Sys2Proof.Machine.execThermalHistory seq s
  | .deviceInfo seq => Sys2Proof.Machine.execDeviceInfo seq s
  | .configSet seq => Sys2Proof.Machine.execConfigSet seq s
  | .configGet seq => Sys2Proof.Machine.execConfigGet seq s
  | .unitDescriptorComplete core unit => Sys2Proof.Machine.execUnitDescriptorComplete core unit s
  | .ingressBufferDrain sub => Sys2Proof.Machine.execIngressBufferDrain sub s
  | .qpPacerRelease qpn dt => Sys2Proof.Machine.execQpPacerRelease qpn dt s
  | .msixTableWrite ld vec addr data masked => Sys2Proof.Machine.execMsixTableWrite ld vec addr data masked s
  | .hdmDecoderCommit ld idx base size => Sys2Proof.Machine.execHdmDecoderCommit ld idx base size s
  | .configSpaceWrite ld reg value => Sys2Proof.Machine.execConfigSpaceWrite ld reg value s
  | .pwrfailNDeassert => Sys2Proof.Machine.execPwrfailNDeassert s
  | .busMasterReadComplete id bytes => Sys2Proof.Machine.execBusMasterReadComplete id bytes s

end Sys2Proof.Machine
end

