-- ==== Sys2Proof/Machine/Step.lean ====
section
/-!
DEFINITION. The step: the command at the front of the queue runs; on an empty queue 1 ns of the reference clock passes.
-/

namespace Sys2Proof.Machine

/-- The block idles: time passes unless it is held in reset. [Log entry 2, DESIGN CHOICE.] -/
def idle (s : State) : State := { s with dev := if s.dev.boot.inReset then s.dev else advance s.dev 1 }

/-- One step of the block. [Log entry 2, DESIGN CHOICE.] -/
def step (s : State) : Host.Outcome State Fault Refusal :=
  match s.pending with
  | [] => .next (idle s)
  | c :: rest => exec c { s with pending := rest }

/-- The state with the command that a word spells in front of its queue; unchanged where the word spells none. [Log entry 7, DESIGN CHOICE.] -/
def State.withFetchWord (s : State) (nbits w : Nat) : State :=
  match Sys2Proof.decodeTableWord nbits w with
  | some c => { s with pending := c :: s.pending }
  | none => s

end Sys2Proof.Machine
end

