-- ==== Sys2Proof/Machine/Flags.lean ====
section
/-!
DEFINITION. Status and fault flags: the live views of HUB_STATUS and HUB_FAULT (22 R484, R485), CLAUSE_STATUS and TIME_STATUS (03 R49), and
of a ring's completion-status entry (04 R66).
-/

namespace Sys2Proof.Machine

/-- A flag at a bit position. -/
def flagAt (b : Bool) (pos : Nat) : Nat := if b then 2 ^ pos else 0

/-- The hottest reading in whole °C, rounded down and kept within ±127; 0 until the first reading. -/
def hottestC (d : Dev) : Int := if d.therm.seen then max (-127) (min 127 ((hottest d).2 / 8)) else 0

/-- LINK_WIDTH: 0 down, 1 x4, 2 x8, 3 x16. -/
def linkCode (width : Nat) : Nat := if width = 16 then 3 else if width = 8 then 2 else if width = 4 then 1 else 0

/-- HUB_STATUS (Table 22-4). -/
def hubStatus (d : Dev) : Nat :=
  d.boot.stage + flagAt (d.boot.stage == 8) 8 + flagAt d.tur.singleLd 14 + flagAt d.tur.quiesced 15 + d.therm.level * 2 ^ 16 +
    d.boot.identity * 2 ^ 18 + d.flash.state * 2 ^ 20 + linkCode d.cxl.width * 2 ^ 24 + ofSigned 8 (hottestC d) * 2 ^ 40

/-- The rings of an LD. -/
def ldRings (d : Dev) (n : Nat) : List Ring := d.tur.rings.filter (fun r => r.ld == n && r.num != 16)

/-- FW_STALL: set by its timeout, while a ring to fetch from has entries and until the next acceptance (04 R68). -/
def stalled (d : Dev) : Bool := d.tur.fwStall && d.tur.rings.any (unfetched d)

/-- HUB_FAULT as LD `n` reads it (Table 22-5). [Log entry 26, DEDUCED.] -/
def hubFault (d : Dev) (n : Nat) : Nat :=
  flagAt (d.boot.identity == 3) 1 + flagAt (decide (0 < d.therm.level)) 2 + flagAt (!d.arr.out.isEmpty) 3 +
    flagAt (d.flash.state == 2 || d.flash.state == 4) 4 +
    flagAt (match d.tur.evqs[n]? with | some q => decide (0 < q.lost) | none => false) 5 +
    flagAt ((ldRings d n).any cqFull) 6 + flagAt ((ldRings d n).any (·.fault)) 7 + flagAt d.tur.stallSeen 11 +
    flagAt (d.boot.stage == 10) 12 + flagAt (stalled d) 13 + flagAt d.boot.powerFail 14 + flagAt d.therm.trip 15

/-- CLAUSE_STATUS (Table 3-4). PLANNED_US and the debt round down to whole microseconds. [Log entry 121, DESIGN CHOICE.] -/
def clauseStatus (c : Clk) (lenUs : Nat) : Nat :=
  flagAt c.deferring 0 + c.mode * 2 + flagAt c.shortened 3 + (if c.started then c.planned / 1000 else lenUs) % 2 ^ 16 * 2 ^ 16 +
    Nat.min 65535 (c.debt / 1000) * 2 ^ 32

/-- STATE of TIME_STATUS (Table 3-5): free-running, slewing, or the state of PTP following. -/
def timeState (t : Tim) : Nat := if t.ptp then t.ptpState else if t.slewPpb = 0 then 0 else 1

/-- TIME_STATUS (Table 3-5). -/
def timeStatus (t : Tim) : Nat :=
  timeState t + ofSigned 24 (ratePpb t) * 2 ^ 8 + ofSigned 32 (max (-(2 ^ 31 - 1)) (min (2 ^ 31 - 1) t.offsetNs)) * 2 ^ 32

/-- A ring's completion-status entry (Table 4-6): its low and high halves. [Log entry 22, DEDUCED.] -/
def ringEntry (r : Ring) : Nat × Nat :=
  (flagAt r.admin 0 + flagAt r.phase 1 + r.prio % 4 * 4 + flagAt (cqFull r) 4 + flagAt r.fault 5 + flagAt r.halted 6 +
      flagAt r.enabled 7 + r.faultCause * 2 ^ 12 + r.inFlight % 2 ^ 16 * 2 ^ 16 + r.cqTail * 2 ^ 32 + r.sqHead * 2 ^ 48,
    r.done % 2 ^ 64)

end Sys2Proof.Machine
end

