-- ==== Sys2Proof/Machine/Operands.lean ====
section
/-!
DEFINITION. What a read of a BAR0 register answers (22 R480-R485, 03 R49, 04 R66, R77): the register views of the state.
-/

namespace Sys2Proof.Machine

/-- HUB_ID (Table 22-2): part 0x4096, stepping 0xB0, the interface versions, tag 0x4E4D. -/
def hubId (b : Boot) : Nat := 0x4E4D + b.ifMinor % 256 * 2 ^ 24 + b.ifMajor % 256 * 2 ^ 32 + 0xB0 * 2 ^ 40 + 0x4096 * 2 ^ 48

/-- CLAUSE_CFG (Table 3-3). [Log entry 8, DESIGN CHOICE.] -/
def clauseCfg (g : Grid) : Nat := g.lenUs + g.source * 2 ^ 28 + g.bgPct * 2 ^ 32

/-- An EVQ register (Table 4-10). -/
def evqReg (q : Evq) (off : Nat) : Nat :=
  match off with
  | 0 => q.base * 64
  | 8 => evqControl q
  | 16 => q.head
  | 24 => q.tail + flagAt q.phase 16
  | 32 => q.lost % 2 ^ 48
  | _ => 0

/-- Half `k` of a ring's window entry, in the BAR0 of the LD that owns it. -/
def windowHalf (d : Dev) (n ring : Nat) (k : Nat) : Nat :=
  match findRing d ring with
  | some r => if r.ld = n && ring ≠ 16 then (if k = 0 then (ringEntry r).1 else (ringEntry r).2) else 0
  | none => 0

/-- The 8-byte register at BAR0 offset `off` of LD `n`. HALTED answers the reads of 04 R68 only; before READY the window reads 0. -/
def bar0Reg (g : Grid) (d : Dev) (n off : Nat) : Nat :=
  let live := d.boot.stage ≠ 9
  if off = 0 then (if live then hubId d.boot else 0)
  else if off = 8 then (if live then d.boot.serial else 0)
  else if off = 0x10 then hubStatus d
  else if off = 0x18 then hubFault d n
  else if off = 0x10000 then d.clk.count
  else if off = 0x10008 then d.clk.startNow
  else if off = 0x10010 then clauseCfg g
  else if off = 0x10018 then clauseStatus d.clk g.lenUs
  else if off = 0x10020 then d.tim.now % 2 ^ 64
  else if off = 0x10028 then timeStatus d.tim
  else if 0x20000 ≤ off && off < 0x20028 then (if live then (match d.tur.evqs[n]? with | some q => evqReg q (off - 0x20000) | none => 0) else 0)
  else if 0x100000 ≤ off && off < 0x110000 then
    (if d.boot.stage = 8 || d.boot.stage = 9 then windowHalf d n ((off - 0x100000) / 16) ((off - 0x100000) / 8 % 2) else 0)
  else 0

/-- A read of `width` bytes at BAR0 offset `off` of LD `n`: 8 aligned bytes, one aligned half, and 0 for any other read. -/
def bar0Read (g : Grid) (d : Dev) (n off width : Nat) : Nat :=
  if d.boot.inReset then 0
  else if width = 8 && off % 8 = 0 then bar0Reg g d n off
  else if width = 4 && off % 8 = 0 then bar0Reg g d n off % 2 ^ 32
  else if width = 4 && off % 8 = 4 then bar0Reg g d n (off - 4) / 2 ^ 32 % 2 ^ 32
  else 0

end Sys2Proof.Machine
end

