-- ==== Sys2Proof/Safety.lean ====
section
/-!
DEFINITION. The terms that claims about the block use: when a verb of the Turuk interface can run, what a verb's command and a command of the
device itself do, the settings that the clause grid may have, and the parts of the device that a command leaves as they are.
-/

namespace Sys2Proof.Machine

/-- The verb `v` of opcode `op` has been accepted with number `seq` and may run now: it is in flight and not running, the device answers and
serves verbs, and every wait of 04 R74 that applies to it has ended. -/
def verbRuns (op seq : Nat) (v : Verb) (s : State) : Bool :=
  decide (findVerb s.dev seq = some v) && v.op == op && !v.running && answering s.dev && serving s.dev && mayStart s.dev v

/-- Whether the checks of a verb pass (04 Table 4-8). -/
def passes {α : Type} (x : Except Fail α) : Bool :=
  match x with
  | .ok _ => true
  | .error _ => false

/-- What the command of a verb does where a check fails: the verb completes as the check says, and nothing else happens (04 R75). -/
def VerbFails (mk : Nat → Instr) (op : Nat) (body : Verb → Dev → Except Fail Dev) (wrap : Dev → Dev) : Prop :=
  ∀ (s : State) (seq : Nat) (v : Verb) (f : Fail), verbRuns op seq v s = true → body v (startVerb s.dev v) = .error f →
    exec (mk seq) s = .next { s with dev := wrap (finishFail (startVerb s.dev v) v f) }

/-- `b` differs from `a` at most in what a completion or an event may touch: the rings, the exchange memory with its poison, the interrupts held
pending, and what has gone out. -/
def sameBut (a b : Dev) : Prop := b = { a with tur := b.tur, exch := b.exch, poison := b.poison, cxl := b.cxl, outs := b.outs }

/-- The device is HALTED with nothing left to run: outside reset, PWRGD seen, no NAND operation (19 R444, R446). -/
def halted (d : Dev) : Bool := d.boot.stage == 9 && !d.boot.inReset && d.boot.pwrgdSeen && d.flash.ops.isEmpty

/-- What the command of a verb does in every state where the verb may run and its checks pass: it answers the next state whose device is the one
that the verb leaves, and that device stands to the device at the start of the verb as `post` says. `wrap` is what the command adds around the verb. -/
def VerbDoes (mk : Nat → Instr) (op : Nat) (body : Verb → Dev → Except Fail Dev) (wrap : Dev → Dev) (post : Verb → Dev → Dev → Prop) : Prop :=
  ∀ (s : State) (seq : Nat) (v : Verb), verbRuns op seq v s = true → passes (body v (startVerb s.dev v)) = true →
    ∃ d : Dev, exec (mk seq) s = .next { s with dev := wrap d } ∧ body v (startVerb s.dev v) = .ok d ∧ post v (startVerb s.dev v) d

/-- What a command on the device does in every state in which the device answers and `pre` holds: it answers the next state whose device
stands to the one before as `post` says; the grid settings and the queue stay. -/
def Does (c : Instr) (pre : Dev → Prop) (post : Dev → Dev → Prop) : Prop :=
  ∀ s : State, answering s.dev = true → pre s.dev → ∃ d : Dev, exec c s = .next { s with dev := d } ∧ post s.dev d

/-- The descriptor `x` of opcode `op` stands at core `n`, in the state `c`, which may run it and whose condition holds (07 R143). -/
def descRuns (op n : Nat) (c : Core) (x : Nat) (d : Dev) : Bool :=
  decide (findCore d n = some c) && !c.ended && c.wait == 0 && x == coreDesc c && df x 0 1 == op && condHolds c x

/-- A descriptor's meaning ends in no fault. -/
def meetsNoFault (x : Except Nat Dev) : Bool :=
  match x with
  | .ok _ => true
  | .error _ => false

/-- What follows a descriptor in its own command: jobs that lost their last slice go on, jobs that it stopped end and those that finished complete. -/
def afterDesc (d : Dev) : Dev := settleJobs (endStopped (advanceCut d))

/-- What the command of a descriptor does in every state where its core may run it and it meets no fault (07 R153): it answers the next state, whose
device is the one that the descriptor leaves, with what follows a descriptor in the same command. -/
def DescDoes (mk : Nat → Instr) (op : Nat) (body : Core → Nat → Dev → Except Nat Dev) (post : Core → Nat → Dev → Dev → Prop) : Prop :=
  ∀ (s : State) (n : Nat) (c : Core) (x : Nat), answering s.dev = true → descRuns op n c x s.dev = true → meetsNoFault (body c x s.dev) = true →
    ∃ d : Dev, exec (mk n) s = .next { s with dev := afterDesc d } ∧ body c x s.dev = .ok d ∧ post c x s.dev d

/-- A request packet arrives in order for the QP `q`: counted, policed and buffered, with a congestion mark answered, it leaves the device `b`
(16 R366, R376-R378). -/
def arrives (h : RxHead) (a : Dev) (q : Qp) (b : Dev) : Prop :=
  ∃ b0, rxPacket a h = (some q, b0) ∧ psnPlace q h.psn = 0 ∧ b = ceSeen b0 q h

/-- A control message `m` of type `k` arrives in order on the buddy port `p` and leaves the device `b`, acknowledged as R369 says
(14 R328). -/
def msgArrives (k : Nat) (h : RxHead) (m : List Byte) (a : Dev) (p : BuddyPort) (b : Dev) : Prop :=
  ∃ q c, arrives h a q c ∧ q.part = none ∧ msgType m = k ∧ (takeInOrder c q.qpn 1 h).buddy.ports.find? (fun x => x.qpn == q.qpn) = some p ∧
    b = takeInOrder c q.qpn 1 h

/-- The settings of the clause grid are within their ranges (03 R35, R50). -/
def gridOk (lenUs bgPct source : Nat) : Bool :=
  decide (20 ≤ lenUs) && decide (lenUs ≤ 5000) && decide (2 ≤ bgPct) && decide (bgPct ≤ 25) && decide (source < 2)

/-- The settings in force and those of a CLAUSE_SET that waits are within their ranges. -/
def Grid.legal (g : Grid) : Bool :=
  gridOk g.lenUs g.bgPct g.source && (match g.waiting with | some w => gridOk w.lenUs w.bgPct w.source | none => true)

end Sys2Proof.Machine
end

