-- ==== Sys2Proof/Certificates/Slice0/Obligations.lean ====
section
/-!
DEFINITION. The statements for the provers.
-/

open Sys2Proof Sys2Proof.Machine

/-- A step takes the command at the front of the queue and runs it on the state with the queue's rest; on an empty queue the block idles: 1 ns of the reference clock passes unless the block is held in reset (the model's choice, log entry 2). -/
def Obligations.StepTakesTheFrontCommand : Prop :=
  (∀ (s : State) (c : Instr) (rest : List Instr), s.pending = c :: rest → step s = exec c { s with pending := rest }) ∧
  (∀ s : State, s.pending = [] → step s = .next (idle s)) ∧
  (∀ s : State, s.dev.boot.inReset = true → idle s = s) ∧
  (∀ s : State, s.dev.boot.inReset = false → idle s = { s with dev := advance s.dev 1 })

/-- The block at power-up (03 R35, R42, R46; 04 Table 4-10; 19 R436; 20 R451; 16 R365; 17 Table 17-5): no command waits; the device is in reset, in no boot stage past the first; the grid is at 50 µs, 6 % and the internal timer; no clause has begun and device time is 0 at base rate 0; every counter is 0 and
no event ring is enabled; there is no partition, session, model, kernel, lexicon, grammar, index, QP or window; every port is DISABLED and the media UNMOUNTED; a masked MSI-X table; memory lists nothing. The model's own choices in it are log entries 3, 5. -/
def Obligations.ResetIsPowerUp : Prop :=
  State.reset.pending = [] ∧ State.reset.grid.lenUs = 50 ∧ State.reset.grid.bgPct = 6 ∧ State.reset.grid.source = 0 ∧ State.reset.grid.waiting = none ∧
  State.reset.dev.boot.inReset = true ∧ State.reset.dev.boot.stage = 0 ∧ State.reset.dev.clk.started = false ∧ State.reset.dev.clk.count = 0 ∧
  State.reset.dev.tim.now = 0 ∧ State.reset.dev.tim.basePpb = 0 ∧ State.reset.dev.tim.slewPpb = 0 ∧
  (∀ scope unit num, (ctrGet State.reset.dev scope unit num).val = 0 ∧ (ctrGet State.reset.dev scope unit num).ovf = false) ∧
  State.reset.dev.tur.evqs.length = 16 ∧ (∀ q ∈ State.reset.dev.tur.evqs, q.enable = false ∧ q.vector = 0xFFFF ∧ q.lost = 0) ∧ State.reset.dev.tur.rings = [] ∧
  State.reset.dev.pool.parts = [] ∧ State.reset.dev.kv.cat = [] ∧ State.reset.dev.kv.models = [] ∧ State.reset.dev.arr.kernels = [] ∧
  State.reset.dev.lexicons = [] ∧ State.reset.dev.grammars = [] ∧ State.reset.dev.indexes = [] ∧ State.reset.dev.net.qps = [] ∧ State.reset.dev.net.windows = [] ∧
  (∀ p ∈ State.reset.dev.net.ports, p.state = 0) ∧ State.reset.dev.flash.state = 3 ∧
  (∀ x ∈ State.reset.dev.cxl.lds, x.msixEnable = false ∧ (∀ n, msixMasked x n = true) ∧ x.m1 = 1 ∧ x.m2 = 0 ∧ x.bwAlloc = 16) ∧
  State.reset.dev.exch = [] ∧ (∀ a, memRead State.reset.dev.exch a = 0) ∧ State.reset.dev.poison = []

/-- No command stops the block, and none touches the queue: every command answers a next state with the queue as it was, every step a next state with the queue's rest, and a run of n steps is never cut short and has taken exactly the first n commands, in their order. The model's own choices in it are log entries 2, 7, 28. -/
def Obligations.EveryRunDrainsTheQueue : Prop :=
  (∀ (c : Instr) (s : State), ∃ t, exec c s = .next t ∧ t.pending = s.pending) ∧
  (∀ s : State, ∃ t, step s = .next t ∧ t.pending = s.pending.tail) ∧
  (∀ (n : Nat) (s : State), ∃ t, Sys2Proof.core.run n s = .next t ∧ t.pending = s.pending.drop n)

/-- The settings of the clause grid (03 R35): at power-up L is 50 µs, b is 6 % and the source the internal timer. Every step from settings within their ranges (L of 20 to 5,000 µs, b of 2 to 25 %) leaves settings within them. A step changes L, b or the source only where a boundary (of its own, or at once after an abort or the loss of the tick) puts a CLAUSE_SET that waited into force,
with its values, or where a reset returns them to those of power-up; and only CLAUSE_SET leaves new settings to wait. -/
def Obligations.OnlyClauseSetChangesTheGrid : Prop :=
  (State.reset.grid.lenUs = 50 ∧ State.reset.grid.bgPct = 6 ∧ State.reset.grid.source = 0 ∧ State.reset.grid.legal = true) ∧
  (∀ s t : State, s.grid.legal = true → step s = .next t → t.grid.legal = true) ∧
  (∀ s t : State, step s = .next t →
    (t.grid.lenUs = s.grid.lenUs ∧ t.grid.bgPct = s.grid.bgPct ∧ t.grid.source = s.grid.source) ∨
    (∃ c rest w, s.pending = c :: rest ∧
      ((∃ dt temps bad tests, c = .clauseBoundary dt temps bad tests) ∨ (∃ job dt, c = .jobOverrunAbort job dt) ∨ ∃ dt, c = .tickLossTimeout dt) ∧
      s.grid.waiting = some w ∧ t.grid.lenUs = w.lenUs ∧ t.grid.bgPct = w.bgPct ∧ t.grid.source = w.source ∧ t.grid.waiting = none) ∨
    (t.grid = State.reset.grid ∧ t.dev.clk.started = false)) ∧
  (∀ s t : State, step s = .next t → ∀ w, t.grid.waiting = some w → s.grid.waiting = some w ∨ ∃ seq rest, s.pending = .clauseSet seq :: rest)

/-- Slips (03 R40). At the boundary whose debt exceeds 8 L, and at the one after an abort, the device raises EV_CLAUSE_SLIP and the clause that begins is planned whole and not shortened; at any other boundary it raises none. At the end of such a clause the grid is re-based: with the internal timer the actual boundary
is the new nominal origin, with debt 0; in TICK_IN mode the boundary waits for the first accepted tick at least half a clause after the clause began, and that tick is the origin. -/
def Obligations.SlippedClausesRebase : Prop :=
  (∀ (g : Grid) (d : Dev) (debt : Nat), d.clk.started = true →
    debt = d.tim.elapsed - (nominalTime d.clk (lenNs g) d.tim.elapsed (clauseSetDue g d.clk.count).isSome).1 →
    (d.clk.aborted = true ∨ 8 * lenNs g < debt →
      (∃ e, (turnClause g d).2.tur.history.getLast? = some e ∧ e.2.code = 0x0110) ∧ (turnClause g d).2.clk.planned = lenNs (turnClause g d).1 ∧
      (turnClause g d).2.clk.shortened = false ∧ (turnClause g d).2.clk.rebase = true) ∧
    (d.clk.aborted = false → debt ≤ 8 * lenNs g → (turnClause g d).2.tur.history = d.tur.history ∧ (turnClause g d).2.clk.rebase = false)) ∧
  (∀ (c : Clk) (old l now start : Nat) (fresh : Bool), c.started = true → c.rebase = true → c.mode ≠ 1 →
    (nextClause c old l now start fresh).1.nominal = now ∧ (nextClause c old l now start fresh).1.debt = 0) ∧
  (∀ (c : Clk) (l now : Nat) (busy : Bool), c.started = true → c.rebase = true → c.mode = 1 → c.locking = false → c.aborted = false →
    (boundaryDue c l now busy = true ↔ busy = false ∧ ∃ t ∈ c.ticks, c.start + l / 2 ≤ t)) ∧
  (∀ (c : Clk) (old l now start i t : Nat), c.started = true → c.rebase = true → c.mode = 1 → c.locking = false → c.ticks[i]? = some t →
    c.start + old / 2 ≤ t → (∀ (j u : Nat), j < i → c.ticks[j]? = some u → u < c.start + old / 2) →
    (nextClause c old l now start false).1.nominal = t ∧ (nextClause c old l now start false).1.debt = now - t)

/-- HALTED is final (19 R446): from a halted state every command but an assertion of PERST_N, PWRGD and PWRFAIL_N returning high among them, leaves the device halted, and no ring, completion, event, session, job, port or answer changes; time that passes leaves it halted too. Of the registers only the ready and fault bits
and those of clause and time and the window still read (04 R68). The model's own choices in it are log entries 2, 28. -/
def Obligations.HaltedIsFinal : Prop :=
  (∀ (c : Instr) (s t : State), halted s.dev = true → (∀ ns, c ≠ .perstNAssert ns) → exec c s = .next t →
    halted t.dev = true ∧ t.dev.clk = s.dev.clk ∧ t.dev.tur = s.dev.tur ∧ t.dev.exch = s.dev.exch ∧ t.dev.kv = s.dev.kv ∧ t.dev.arr = s.dev.arr ∧ t.dev.net = s.dev.net ∧
      t.dev.pool = s.dev.pool ∧ t.dev.outs.replies = s.dev.outs.replies ∧ t.dev.outs.frames = s.dev.outs.frames) ∧
  (∀ s t : State, halted s.dev = true → s.pending = [] → step s = .next t → halted t.dev = true) ∧
  (∀ (g : Grid) (d : Dev) (n off : Nat), halted d = true → bar0Reg g d n off ≠ 0 →
    off = 0x10 ∨ off = 0x18 ∨ (0x10000 ≤ off ∧ off ≤ 0x10028) ∨ (0x100000 ≤ off ∧ off < 0x110000))

/-- Byte memories (04 R69, 17 R398): a write is read back and leaves every other byte; a byte string written reads back; a cleared range reads 0; a copied range reads as its source did, which may be the same memory. Each of these keeps the canonical form, and two canonical memories that read alike are equal. The model's own choices in it are log entries 5. -/
def Obligations.MemoryReadsBack : Prop :=
  (∀ (m : Mem) (a b : Nat) (v : Byte), memWf m = true → memWf (memWrite m a v) = true ∧ memRead (memWrite m a v) b = if b = a then v else memRead m b) ∧
  (∀ (m : Mem) (a b : Nat) (bs : List Byte), memWf m = true → memWf (memWriteN m a bs) = true ∧ memReadN (memWriteN m a bs) a bs.length = bs ∧
    (b < a ∨ a + bs.length ≤ b → memRead (memWriteN m a bs) b = memRead m b)) ∧
  (∀ (m : Mem) (a len b : Nat), memWf m = true → memWf (memClear m a len) = true ∧
    memRead (memClear m a len) b = if a ≤ b ∧ b < a + len then 0 else memRead m b) ∧
  (∀ (m m' : Mem) (src dst len b : Nat), memWf m = true → memWf m' = true → memWf (memCopy m src m' dst len) = true ∧
    memRead (memCopy m src m' dst len) b = if dst ≤ b ∧ b < dst + len then memRead m (src + (b - dst)) else memRead m' b) ∧
  (∀ m m' : Mem, memWf m = true → memWf m' = true → (∀ a, memRead m a = memRead m' a) → m = m')

/-- Completions (04 R57, R64, R65, Table 4-5). Where a verb of a host ring finishes, the ring holds nothing, does not hold and has room, the 32 bytes go to the tail of its completion ring with the ring's phase, the tail advances modulo the depth, the phase inverts at the wrap, one more is done and one fewer in flight; the
verb leaves the verbs in flight and every other ring stays. Where the ring is full or holds, the completion is held behind those that are, and memory stays as it is. Nothing that is neither a ring, nor exchange memory, nor an interrupt, nor an output changes. The model's own choices in it are log entries 22, 29. -/
def Obligations.CompletionsArePostedOrHeld : Prop :=
  (∀ (d : Dev) (v : Verb) (r : Ring) (st err : Nat) (fs : List (Nat × Nat × Nat)), findVerb d v.seq = some v → v.ring ≠ 16 → findRing d v.ring = some r →
    r.held = [] → r.holding = false → cqFull r = false →
    (finish d v st err fs).exch = memWriteN d.exch (exKey r.ld (r.cqOff + 32 * r.cqTail)) (withPhase (cplBytes v st err fs) r.phase) ∧
    findVerb (finish d v st err fs) v.seq = none ∧
    (∀ n, n ≠ v.ring → findRing (finish d v st err fs) n = findRing d n) ∧
    ∃ q, findRing (finish d v st err fs) v.ring = some q ∧ q.held = [] ∧ q.cqTail = (r.cqTail + 1) % 2 ^ r.depthLog2 ∧
      q.phase = (if r.cqTail + 1 = 2 ^ r.depthLog2 then !r.phase else r.phase) ∧ q.done = (r.done + 1) % 2 ^ 64 ∧ q.inFlight = r.inFlight - 1 ∧
      q.sqHead = r.sqHead ∧ q.cqHead = r.cqHead) ∧
  (∀ (d : Dev) (v : Verb) (r : Ring) (st err : Nat) (fs : List (Nat × Nat × Nat)), findVerb d v.seq = some v → v.ring ≠ 16 → findRing d v.ring = some r →
    r.holding = true ∨ cqFull r = true →
    (finish d v st err fs).exch = d.exch ∧ findVerb (finish d v st err fs) v.seq = none ∧
    ∃ q, findRing (finish d v st err fs) v.ring = some q ∧ q.held = r.held ++ [⟨cplBytes v st err fs, bitSet (fld v 2 1) 1, v.seq⟩] ∧ q.cqTail = r.cqTail ∧
      q.phase = r.phase ∧ q.done = r.done ∧ q.inFlight = r.inFlight) ∧
  (∀ (d : Dev) (v : Verb) (st err : Nat) (fs : List (Nat × Nat × Nat)), sameBut d (finish d v st err fs))

/-- Events (04 R77-R79; 20 R454, R455). An event takes the next place of the history, which keeps the last 4,096. An event of the whole device reaches every LD: a ring that is enabled, with room and without a mask, advances its tail and counts the record; the last free place takes EV_EVENTS_LOST instead, and a full or disabled ring counts
one more lost. A masked code changes nothing there, and four codes cannot be masked. Nothing beyond the interface changes. The model's own choices in it are log entries 25. -/
def Obligations.EventsReachTheirRings : Prop :=
  (∀ (d : Dev) (e : EventRec), (raiseRec d e).tur.history = (d.tur.history ++ [(d.tur.histNext, e)]).drop (d.tur.history.length + 1 - 4096) ∧
    (raiseRec d e).tur.histNext = d.tur.histNext + 1 ∧ sameBut d (raiseRec d e)) ∧
  (∀ (d : Dev) (e : EventRec) (n : Nat) (q : Evq), e.scope = .device → n < 16 → d.tur.evqs[n]? = some q →
    (suppressed d n e.code = true → (raiseRec d e).tur.evqs[n]? = some q) ∧
    (suppressed d n e.code = false → q.enable = true → q.used < 2 ^ q.depthLog2 →
      (raiseRec d e).tur.evqs[n]? = some { q with
        tail := (q.tail + 1) % 2 ^ q.depthLog2, phase := if q.tail + 1 = 2 ^ q.depthLog2 then !q.phase else q.phase, used := q.used + 1
        lost := if q.used + 1 = 2 ^ q.depthLog2 then satAdd q.lost 1 else q.lost }) ∧
    (suppressed d n e.code = false → q.enable = false ∨ 2 ^ q.depthLog2 ≤ q.used →
      (raiseRec d e).tur.evqs[n]? = some { q with lost := satAdd q.lost 1 })) ∧
  (∀ (d : Dev) (n : Nat) (q : Evq) (e : EventRec), d.tur.evqs[n]? = some q → suppressed d n e.code = false → q.enable = true → q.used + 2 ≤ 2 ^ q.depthLog2 →
    (evqPost d n e).exch = memWriteN d.exch (exKey n (q.base * 64 + q.tail * 64)) (eventBytes e (if q.phase then 1 else 0) 0)) ∧
  (∀ (d : Dev) (n : Nat) (q : Evq) (e : EventRec), d.tur.evqs[n]? = some q → suppressed d n e.code = false → q.enable = true → q.used + 1 = 2 ^ q.depthLog2 →
    (evqPost d n e).exch = memWriteN d.exch (exKey n (q.base * 64 + q.tail * 64)) (eventBytes (lostRecord e (satAdd q.lost 1)) (if q.phase then 1 else 0) 0)) ∧
  (∀ (d : Dev) (ld code : Nat), code = 0x0120 ∨ code = 0x0121 ∨ code = 0x0122 ∨ code = 0x0160 → suppressed d ld code = false)

/-- SAT48 event counters (20 R449, R450): counting adds and stays at 2^48 - 1; where the sum passes that, OVF becomes 1, and EV_COUNTER_SAT enters the history if OVF was 0 and only then. Every other counter keeps its value, and nothing beyond the interface changes. RX_BYTES and TX_BYTES of a sub-port wrap at 2^64. -/
def Obligations.CountersSaturate : Prop :=
  (∀ (d : Dev) (scope unit num n : Nat), ctrWraps scope num = false → ctrGauge scope num = false →
    (ctrGet (bump d scope unit num n) scope unit num).val = Nat.min ((ctrGet d scope unit num).val + n) sat48 ∧
    (ctrGet (bump d scope unit num n) scope unit num).ovf = ((ctrGet d scope unit num).ovf || decide (sat48 < (ctrGet d scope unit num).val + n)) ∧
    ((ctrGet d scope unit num).val + n ≤ sat48 ∨ (ctrGet d scope unit num).ovf = true → (bump d scope unit num n).tur.history = d.tur.history) ∧
    (sat48 < (ctrGet d scope unit num).val + n → (ctrGet d scope unit num).ovf = false →
      ∃ e, (bump d scope unit num n).tur.history.getLast? = some e ∧ e.2.code = 0x0B10)) ∧
  (∀ (d : Dev) (scope unit num n : Nat), ctrWraps scope num = true →
    (ctrGet (bump d scope unit num n) scope unit num).val = ((ctrGet d scope unit num).val + n) % 2 ^ 64) ∧
  (∀ (d : Dev) (scope unit num n s' u' k' : Nat), (s', u', k') ≠ (scope, unit, num) → ctrGet (bump d scope unit num n) s' u' k' = ctrGet d s' u' k') ∧
  (∀ (d : Dev) (scope unit num n : Nat), sameBut d (bump d scope unit num n))

/-- The longest-free rule (02 R20). A number that the rule gives is in its range and free. While some number of the range is free and was never released, the lowest such number is given; else one whose release no free number's release precedes, and the lowest of those released at that instant. No number is given only where none is free. The model's own choices in it are log entries 9. -/
def Obligations.LongestFreeIsGiven : Prop :=
  (∀ (d : Dev) (kind lo count n : Nat) (used : List Nat), longestFree d kind used lo count = some n → lo ≤ n ∧ n < lo + count ∧ n ∉ used) ∧
  (∀ (d : Dev) (kind lo count m : Nat) (used : List Nat), lo ≤ m → m < lo + count → m ∉ used → (∀ x ∈ d.pool.stamps, x.1 = kind → x.2.1 ≠ m) →
    ∃ n, longestFree d kind used lo count = some n ∧ n ≤ m ∧ ∀ x ∈ d.pool.stamps, x.1 = kind → x.2.1 ≠ n) ∧
  (∀ (d : Dev) (kind lo count n : Nat) (used : List Nat), longestFree d kind used lo count = some n → lo + count ≤ 2 ^ 32 →
    (∀ m, lo ≤ m → m < lo + count → m ∉ used → ∃ x ∈ d.pool.stamps, x.1 = kind ∧ x.2.1 = m) →
    ∃ t, (kind, n, t) ∈ d.pool.stamps ∧ ∀ m u, (kind, m, u) ∈ d.pool.stamps → lo ≤ m → m < lo + count → m ∉ used → t < u ∨ (t = u ∧ n ≤ m)) ∧
  (∀ (d : Dev) (kind lo count : Nat) (used : List Nat), longestFree d kind used lo count = none ↔ ∀ m, lo ≤ m → m < lo + count → m ∈ used)

/-- Device time (03 R46, R47). Time that passes in two parts, at any rate above -100 %, gives the same reading, elapsed time, fraction and slew as the whole at once, so no rounding is ever lost. Elapsed time never runs backward. At rate 0 with no fraction pending, n ns of the reference clock are n ns of device time. A slew that ends leaves the rate at
the base rate and nothing to absorb. -/
def Obligations.TimeLosesNothing : Prop :=
  (∀ (t : Tim) (a b : Nat), -1000000000 ≤ ratePpb t → tickTim (tickTim t a) b = tickTim t (a + b)) ∧
  (∀ (t : Tim) (n : Nat), t.elapsed ≤ (advanceTim t n).elapsed ∧ (advanceTim t n).basePpb = t.basePpb) ∧
  (∀ (t : Tim) (n : Nat), t.basePpb = 0 → t.slewPpb = 0 → t.frac = 0 → (advanceTim t n).elapsed = t.elapsed + n ∧ (advanceTim t n).now = (t.now + n) % 2 ^ 64) ∧
  (∀ (t : Tim) (n : Nat), t.slewPpb ≠ 0 → slewNeed t ≤ n →
    ratePpb (advanceTim t n) = t.basePpb ∧ (advanceTim t n).slewLeft = 0 ∧ (advanceTim t n).slewFrac = 0)

/-- The checks of a verb (04 R75): for every verb of the interface that may run, where a check fails the verb completes with the status, the ERR_BYTE and the fields that the check gives, and the command does nothing else. The flash verbs then note the media's health, as after every command. The model's own choices in it are log entries 7, 24. -/
def Obligations.AFailedCheckDoesNothingElse : Prop :=
  VerbFails .sessOpen 0x0401 sessOpenBody id ∧ VerbFails .sessClose 0x0402 sessCloseBody id ∧ VerbFails .discard 0x040B discardBody id ∧
  VerbFails .sessQuery 0x040C sessQueryBody id ∧ VerbFails .sessFork 0x0403 sessForkBody id ∧ VerbFails .append 0x0404 appendBody id ∧
  VerbFails .rollback 0x0407 rollbackBody id ∧ VerbFails .truncate 0x040D truncateBody id ∧ VerbFails .commit 0x0406 commitBody id ∧
  VerbFails .park 0x0408 parkRun id ∧ VerbFails .revive 0x0409 reviveBody id ∧ VerbFails .move 0x040A moveBody id ∧
  VerbFails .pinTiles 0x0305 pinTilesBody id ∧ VerbFails .modelLoad 0x0301 modelLoadBody id ∧ VerbFails .modelUnload 0x0302 modelUnloadBody id ∧
  VerbFails .kernelLoad 0x0303 kernelLoadBody id ∧ VerbFails .kernelUnload 0x0304 kernelUnloadBody id ∧ VerbFails .lexLoad 0x0501 lexLoadBody id ∧
  VerbFails .lexUnload 0x0502 lexUnloadBody id ∧ VerbFails .gramLoad 0x0601 gramLoadBody id ∧ VerbFails .gramUnload 0x0602 gramUnloadBody id ∧
  VerbFails .tokenize 0x0503 tokenizeBody id ∧ VerbFails .detokOpen 0x0504 detokOpenBody id ∧ VerbFails .stopSet 0x0505 stopSetBody id ∧
  VerbFails .detokFlush 0x0506 detokFlushBody id ∧ VerbFails .gramBind 0x0603 gramBindBody id ∧ VerbFails .samplerSet 0x0604 samplerSetBody id ∧
  VerbFails .sample 0x0605 sampleBody id ∧ VerbFails .maskGet 0x0606 maskGetBody id ∧ VerbFails .attend 0x0405 attendBody id ∧
  VerbFails .idxCreate 0x0701 idxCreateBody id ∧ VerbFails .idxDrop 0x0702 idxDropBody id ∧ VerbFails .idxInsert 0x0703 idxInsertBody id ∧
  VerbFails .idxDelete 0x0704 idxDeleteBody id ∧ VerbFails .idxSearch 0x0705 idxSearchBody id ∧ VerbFails .bitmapLoad 0x0707 bitmapLoadBody id ∧
  VerbFails .idxMerge 0x0706 idxMergeBody id ∧ VerbFails .idxRepair 0x0708 idxRepairBody id ∧ VerbFails .idxStats 0x0709 idxStatsBody id ∧
  VerbFails .flMount 0x0801 flMountBody noteHealth ∧ VerbFails .flFormat 0x0802 flFormatBody noteHealth ∧
  VerbFails .flHealth 0x0803 flHealthBody noteHealth ∧ VerbFails .flDiscard 0x0804 flDiscardBody noteHealth ∧
  VerbFails .flSanitize 0x0805 flSanitizeBody noteHealth ∧ VerbFails .flAssign 0x0806 flAssignBody noteHealth ∧
  VerbFails .ckptBegin 0x0901 ckptBeginBody id ∧ VerbFails .ckptStatus 0x0902 ckptStatusBody id ∧
  VerbFails .ckptDrain 0x0903 (ckptDrainBody sendRelease) id ∧ VerbFails .restore 0x0904 restoreBody id ∧
  VerbFails .buddyPair 0x0905 buddyPairBody id ∧ VerbFails .buddyUnpair 0x0906 buddyUnpairBody id ∧ VerbFails .partCreate 0x0201 partCreateBody id ∧
  VerbFails .partDestroy 0x0202 partDestroyBody id ∧ VerbFails .partResize 0x0203 partResizeBody id ∧ VerbFails .partBind 0x0204 partBindBody id ∧
  VerbFails .ctxCreate 0x0205 ctxCreateBody id ∧ VerbFails .ctxDestroy 0x0206 ctxDestroyBody id ∧ VerbFails .scrub 0x0207 scrubBody id ∧
  VerbFails .identityGet 0x010C identityGetBody id ∧ VerbFails .portSet 0x0A01 portSetBody id ∧ VerbFails .qpCreate 0x0A02 qpCreateBody id ∧
  VerbFails .qpModify 0x0A03 qpModifyBody id ∧ VerbFails .qpDestroy 0x0A04 qpDestroyBody id ∧ VerbFails .windowOpen 0x0A05 windowOpenBody id ∧
  VerbFails .windowClose 0x0A06 windowCloseBody id ∧ VerbFails .shaperSet 0x0A07 shaperSetBody id ∧ VerbFails .policerSet 0x0A08 policerSetBody id ∧
  VerbFails .gateListSet 0x0A09 gateListBody id ∧ VerbFails .queueStats 0x0A0A queueStatsBody id ∧
  VerbFails .latencyProbeSet 0x0B04 probeSetBody id ∧ VerbFails .repairLoad 0x0104 repairLoadBody id ∧
  VerbFails .repairReport 0x0105 repairReportBody id ∧ VerbFails .selftest 0x0106 testBody id ∧ VerbFails .calibrate 0x0107 testBody id ∧
  VerbFails .quiesce 0x0108 quiesceBody id ∧ VerbFails .resume 0x0109 resumeBody id ∧
  VerbFails .countersRead 0x0B01 (fun v d => countersReadBody (if fld v 16 1 = 4 then (findIndex d (fld v 18 2)).isSome else
      if fld v 16 1 = 5 then subExists d (fld v 18 2) else true) v d) id ∧
  VerbFails .logRead 0x0B02 logReadBody id ∧ VerbFails .eventMask 0x0B03 eventMaskBody id ∧ VerbFails .thermalHistory 0x0B05 thermalHistoryBody id ∧
  VerbFails .deviceInfo 0x0101 deviceInfoBody id ∧ VerbFails .configSet 0x0102 configSetBody id ∧ VerbFails .configGet 0x0103 configGetBody id ∧
  VerbFails .timeSet 0x010B timeSetBody id ∧
  (∀ (s : State) (seq : Nat) (v : Verb) (f : Fail), verbRuns 0x010A seq v s = true → clauseSetCheck s.grid v = .error f →
    exec (.clauseSet seq) s = .next { s with dev := finishFail (startVerb s.dev v) v f }) ∧
  (∀ (d : Dev) (v : Verb) (f : Fail), sameBut d (finishFail d v f))

/-- SESS_OPEN, SESS_CLOSE, DISCARD and SESS_QUERY complete where their checks pass (09 R193-R195; 02 R25, R26). SESS_OPEN takes a catalog entry
and a slot, charges the slot's objects, and answers the handle of an ACTIVE, empty session. SESS_CLOSE and DISCARD register the end of the session
for the next boundary. SESS_QUERY reports the session and changes nothing else. The model's own choices in it are log entries 7, 9, 14. -/
def Obligations.SessionVerbsComplete : Prop :=
  VerbDoes .sessOpen 0x0401 sessOpenBody id (fun v a d => ∃ i slot m a1,
    pickEntry a = some i ∧ pickSlot a (ctxPart (fld v 18 2 % 2048)) = some slot ∧ findModel a (fld v 16 1) = some m ∧
    (let s := newSess i (entryGen a i + 1) 1 (fld v 18 2 % 2048) slot m.id (mostFree a (ctxPart (fld v 18 2 % 2048))) m.layers
     allocSlot a (ctxPart (fld v 18 2 % 2048)) s.home (allocKey 1 (handleOf s)) m.layers = some a1 ∧
     d = finishOk (putEntry a1 s) v [(8, 4, handleOf s), (12, 4, slot)])) ∧
  VerbDoes .sessClose 0x0402 sessCloseBody id (fun v a d => d = registerOp a v (.close v.seq (fld v 16 4))) ∧
  VerbDoes .discard 0x040B discardBody id (fun v a d => ∃ x, findSess a (fld v 16 4) = some x ∧ x.state ≠ 4 ∧
    d = registerOp a v (.discard v.seq (fld v 16 4))) ∧
  VerbDoes .sessQuery 0x040C sessQueryBody id (fun v a d => ∃ x, findSess a (fld v 16 4) = some x ∧ closedBefore a v x = false ∧
    d = finishOk a v [(8, 1, x.state), (9, 1, sessFlags x), (10, 1, x.model),
      (12, 4, match x.slot with | some n => n + 2 ^ 31 | none => 0), (16, 4, x.log.length),
      (20, 4, match findModel a x.model with | some m => minStored m x | none => 0), (24, 4, countNotHbm a x),
      (28, 4, countFlashOnly a x)])

/-- SESS_FORK, APPEND, ROLLBACK, TRUNCATE and COMMIT, where their checks pass, keep running and register their effect for the next clause boundary
(05 R95, R101, R104-R107; 11 R244): nothing else of the device changes before it. An APPEND of hidden rows (SOURCE 1) lists a job first, which runs KERNEL_IN on them (05 R100; 07 R141).
The model's own choices in it are log entries 7, 35. -/
def Obligations.LengthVerbsWaitForTheBoundary : Prop :=
  VerbDoes .sessFork 0x0403 sessForkBody id (fun v a d => d = registerOp a v (.fork v.seq (fld v 16 4) (fld v 20 4))) ∧
  VerbDoes .append 0x0404 appendBody id (fun v a d =>
    (bitSet (fld v 20 1) 1 = false → d = registerOp a v (.append v.seq)) ∧
    (bitSet (fld v 20 1) 1 = true → ∃ x m, findSess a (fld v 16 4) = some x ∧ findModel a x.model = some m ∧ x.tree = none ∧
      d = startAppendJob a v x m (appendLayers m (fld v 22 2) (fld v 24 2)))) ∧
  VerbDoes .rollback 0x0407 rollbackBody id (fun v a d => d = registerOp a v (.rollback v.seq (fld v 16 4) (fld v 20 1)) ∧
    (fld v 20 1 = 1 ∨ fld v 20 1 = 2)) ∧
  VerbDoes .truncate 0x040D truncateBody id (fun v a d => ∃ x, findSess a (fld v 16 4) = some x ∧ fld v 20 4 ≤ x.log.length ∧
    d = registerOp a v (.truncate v.seq (fld v 16 4) (fld v 20 4))) ∧
  VerbDoes .commit 0x0406 commitBody id (fun v a d => d = registerOp a v (.commit v.seq) ∧ fld v 22 1 ≤ 16 ∧ fld v 23 1 ≤ 16)

/-- PARK, REVIVE, MOVE and PIN_TILES, where their checks pass (09 R196-R199): the first three register their work, which boundaries and movers carry
on; PIN_TILES starts the copy of a pin, or drops one pin or all and completes. MOVER_COPY_COMPLETE for a copy in progress that is no
checkpoint shard marks it complete, or failed, for the next boundary (09 R178, R182); a copied shard enters its checkpoint's staging at once (14 R324). The model's own choices in it are log entries 7, 37, 38, 39. -/
def Obligations.TierVerbsComplete : Prop :=
  VerbDoes .park 0x0408 parkRun id (fun v a d => ∀ d', parkBody v a = .ok d' → d = d' ∧ ∃ s, parkCheck v a = .ok s ∧
    d = registerOp a v (.park {
      seq := v.seq, handle := handleOf s, place := fld v 20 1, durable := bitSet (fld v 21 1) 0, keep := bitSet (fld v 21 1) 1
      phrasePlace := fld v 22 1, stage := 0, ref := 0, copied := 0, waitFlash := [], made := [], image := none, status := stOk })) ∧
  VerbDoes .revive 0x0409 reviveBody id (fun v a d => ∃ r : ReviveOp, d = registerOp a v (.revive r) ∧ r.seq = v.seq ∧ r.handle = fld v 16 4 ∧
    r.release = bitSet (fld v 20 1) 1 ∧ r.promote = fld v 21 1 ∧ r.stage = 0 ∧ r.status = stOk ∧ r.fromImage = bitSet (fld v 20 1) 0 ∧
    (r.fromImage = true → r.handle = 0 ∧ r.model = fld v 22 1 ∧ r.ref = fld v 24 8 ∧ r.check = fld v 32 8 ∧
      r.ctx = if v.admin then fld v 40 2 % 2048 else v.ctx) ∧
    (r.fromImage = false → ∃ x i, findSess a (fld v 16 4) = some x ∧ x.state = 3 ∧ x.image = some i ∧ i.lost ≠ 1 ∧ i.lost ≠ 2 ∧ r.model = x.model ∧
      r.ref = i.ref ∧ r.ctx = x.ctx)) ∧
  VerbDoes .move 0x040A moveBody id (fun v a d => ∃ m : MoveOp, d = registerOp a v (.move m) ∧ m.seq = v.seq ∧ m.mask = fld v 24 1 ∧ m.promote = false ∧
    m.named = m.todo.length ∧ m.done = 0 ∧ m.failed = 0 ∧ m.part = ctxPart (fld v 16 8 / 2 ^ 48 % 2048) ∧
    (fld v 16 8 / 2 ^ 59 = 1 → ∃ x, findSess a (fld v 16 8 % 2 ^ 32) = some x ∧ x.ctx = fld v 16 8 / 2 ^ 48 % 2048 ∧ x.state ≠ 4 ∧ x.state ≠ 6 ∧
      m.todo = movePhrases x (fld v 25 1) (fld v 26 2) (fld v 28 2) (fld v 32 4) (fld v 36 4)) ∧
    (fld v 16 8 / 2 ^ 59 ≠ 1 → fld v 16 8 / 2 ^ 59 = 2 ∧ ∃ x, findPhrase a m.part (fld v 16 8 % 2 ^ 32) = some x ∧ x.ctx = fld v 16 8 / 2 ^ 48 % 2048 ∧
      m.todo = if (fld v 25 1 == 0 || bitSet (fld v 25 1) x.kind) && decide (fld v 26 2 ≤ x.layer) &&
          (fld v 28 2 == 0 || decide (x.layer < fld v 26 2 + fld v 28 2)) && decide (fld v 32 4 < x.firstPos + 64) &&
          (fld v 36 4 == 0 || decide (x.firstPos < fld v 32 4 + fld v 36 4)) then [fld v 16 8 % 2 ^ 32] else [])) ∧
  VerbDoes .pinTiles 0x0305 pinTilesBody id (fun v a d => ∃ x, findModel a (fld v 16 1) = some x ∧
    (fld v 17 1 = 1 → d = keepRunning (queueMover (updModel a (fld v 16 1) (fun y => { y with
      pins := y.pins ++ [{ layer := fld v 18 2, offKib := fld v 20 4, lenKib := fld v 24 4, ready := none, seq := v.seq }] }))
      v.seq 2 (.pin (fld v 16 1) (fld v 18 2) (fld v 20 4))) v) ∧
    (fld v 17 1 = 2 → x.pins.any (pinIs (fld v 18 2) (fld v 20 4) (fld v 24 4)) = true ∧
      ∃ b, b = updModel a (fld v 16 1) (fun y => { y with pins := dropWhere (pinIs (fld v 18 2) (fld v 20 4) (fld v 24 4)) y.pins }) ∧
        d = finishOk b v (pinFields b x.part)) ∧
    (fld v 17 1 = 3 → d = finishOk (updModel a (fld v 16 1) (fun y => { y with pins := [] })) v
      (pinFields (updModel a (fld v 16 1) (fun y => { y with pins := [] })) x.part))) ∧
  (∀ id ok, Does (.moverCopyComplete id ok)
    (fun a => ∀ w ∈ a.kv.movers, w.id = id → ∀ k n, w.what ≠ .shard k n)
    (fun a d => d = { a with
      kv.movers := updWhere (fun w => w.id == id && w.state == 0 && w.clause.isSome) (fun w => { w with state := if ok then 1 else 2 }) a.kv.movers })) ∧
  (∀ id ok w k n, Does (.moverCopyComplete id ok)
    (fun a => a.kv.movers.find? (fun w => w.id == id) = some w ∧ w.what = .shard k n ∧ w.state = 0 ∧ w.clause.isSome = true)
    (fun a d => ∃ ms, ms = updWhere (fun (x : Mover) => x.id == id && x.state == 0 && x.clause.isSome)
        (fun x => { x with state := if ok then 1 else 2 }) a.kv.movers ∧
      d = shardStaged sendShard { a with kv.movers := dropWhere (fun (x : Mover) => x.id == id) ms } (k / 2 ^ 48) (k % 2 ^ 48) n))

/-- MODEL_LOAD, MODEL_UNLOAD, KERNEL_LOAD and KERNEL_UNLOAD, where their checks pass (06 R110-R112, 07 R138, R139): a load lists the new object under the
number that has been free the longest, records who holds it, extends the partition's measurement and answers the ID and the first half of the
digest; an unload frees it, and every cluster's copy of a kernel, and answers ST_OK. The model's own choices in it are log entries 7, 9, 52. -/
def Obligations.ModelAndKernelVerbsComplete : Prop :=
  VerbDoes .modelLoad 0x0301 modelLoadBody id (fun v a d => ∃ (m : Model) (a1 : Dev) (r : Nat) (bs : List Byte),
    argRead a v (fld v 16 8) (fld v 24 8) = .ok bs ∧ longestFree a 6 (a.kv.models.map (·.id)) 0 256 = some m.id ∧
    m.layers = (layerBytes bs).map layerOf ∧ m.digest = sha512 bs ∧ m.weights = weightMem bs ∧ m.pins = [] ∧ m.poison = [] ∧
    allocWeights a m.part m.id ((List.range (weightSections bs).length).zip ((weightSections bs).map (·.2))) = some a1 ∧
    d = finishOk (measure (setOwner { a1 with kv.models := a1.kv.models ++ [m] } 6 m.id (m.part * 64)) m.part 2 m.id r m.digest) v
      [(8, 1, m.id), (16, 16, leNat (m.digest.take 16))]) ∧
  VerbDoes .modelUnload 0x0302 modelUnloadBody id (fun v a d => modelUsed a (fld v 16 1) = false ∧
    d = finishOk (dropModel (nextRelease a) (fld v 16 1)) v []) ∧
  VerbDoes .kernelLoad 0x0303 kernelLoadBody id (fun v a d => ∃ (k : Kernel) (a1 : Dev) (r : Nat) (bs : List Byte),
    argRead a v (fld v 16 8) (fld v 24 8) = .ok bs ∧ longestFree a 7 (a.arr.kernels.map (·.id)) 0 4096 = some k.id ∧ k = kernelOf bs k.id k.part ∧
    allocMost a k.part (fld v 24 8) (kernelKey k.id) 0 = some a1 ∧
    d = finishOk (measure (setOwner { a1 with arr.kernels := a1.arr.kernels ++ [k] } 7 k.id (k.part * 64)) k.part 3 k.id r k.digest) v
      [(8, 2, k.id), (10, 2, 0xFFFF), (16, 16, leNat (k.digest.take 16))]) ∧
  VerbDoes .kernelUnload 0x0304 kernelUnloadBody id (fun v a d => kernelUsed a (fld v 16 2) = false ∧
    d = finishOk (stampFree { freeAllocs (nextRelease a) (kernelKey (fld v 16 2)) with
      arr.kernels := dropWhere (fun (x : Kernel) => x.id == fld v 16 2) (freeAllocs (nextRelease a) (kernelKey (fld v 16 2))).arr.kernels
      arr.kcache := a.arr.kcache.map (fun x => (x.1, x.2.filter (fun n => n != fld v 16 2))) } 7 (fld v 16 2)) v [])

/-- LEX_LOAD, LEX_UNLOAD, GRAM_LOAD and GRAM_UNLOAD, where their checks pass (10 R205-R207, 11 R229, R230): a load lists the new object under the number that
has been free the longest and answers its ID, its charge and its digest; an unload drops it. The model's own choices in it are log entries 7, 9, 52. -/
def Obligations.LexiconAndGrammarVerbsComplete : Prop :=
  VerbDoes .lexLoad 0x0501 lexLoadBody id (fun v a d => ∃ l : Lexicon, longestFree a 8 (a.lexicons.map (·.id)) 0 8 = some l.id ∧
    argRead a v (fld v 16 8) (fld v 24 8) = .ok l.img ∧ lexOk l.img = true ∧ l.units = lexUnits l.img ∧
    l.digest = (sha512 l.img).take 16 ∧ l.damaged = [] ∧
    d = finishOk (setOwner { a with lexicons := a.lexicons ++ [l] } 8 l.id (l.part * 64)) v
      [(8, 1, l.id), (12, 4, l.units * 64), (16, 16, leNat l.digest)]) ∧
  VerbDoes .lexUnload 0x0502 lexUnloadBody id (fun v a d => lexUsed a (fld v 16 1) = false ∧
    d = finishOk (stampFree { nextRelease a with lexicons := dropWhere (fun x => x.id == fld v 16 1) a.lexicons } 8 (fld v 16 1)) v []) ∧
  VerbDoes .gramLoad 0x0601 gramLoadBody id (fun v a d => ∃ (g : Grammar) (a1 : Dev), longestFree a 9 (a.grammars.map (·.id)) 0 64 = some g.id ∧
    argRead a v (fld v 16 8) (fld v 24 8) = .ok g.img ∧ gramOk g.img = true ∧ g.digest = (sha512 g.img).take 16 ∧ allocDdr a g.part (fld v 24 8) (allocKey 9 g.id) 0 = some a1 ∧
    d = finishOk (setOwner { a1 with grammars := a1.grammars ++ [g] } 9 g.id (g.part * 64)) v
      [(8, 1, g.id), (12, 4, ceilDiv (fld v 24 8) 1024), (16, 16, leNat g.digest)]) ∧
  VerbDoes .gramUnload 0x0602 gramUnloadBody id (fun v a d =>
    a.kv.cat.any (fun s => s.state != 0 && s.state != 4 && !s.retired && s.syn.grammar == some (fld v 16 1)) = false ∧
    d = finishOk (freeAllocs (stampFree { nextRelease a with
      grammars := dropWhere (fun x => x.id == fld v 16 1) a.grammars
      gcache := a.gcache.filter (fun x => x.1 != fld v 16 1) } 9 (fld v 16 1)) (allocKey 9 (fld v 16 1))) v [])

/-- TOKENIZE, DETOK_OPEN, STOP_SET, DETOK_FLUSH and TEXT_HEAD_READ_DONE, where their checks pass (10 R212, R217, R219-R221). A TOKENIZE
without a session writes the tokens of its chunk and reports them; with a session it does the same from the session's stream and keeps the
stream's new state, or with ABORT ends the stream. DETOK_OPEN starts an empty stream on the lexicon, or with KEEP gives the stream a new ring; STOP_SET reads the held bytes
again against the new strings and answers the longest; DETOK_FLUSH of mode FLUSH emits the held bytes, DROP forgets them, and CLOSE waits until the ring has taken all. A head
index that has been read counts as the ring's new head. The model's own choices in it are log entries 7, 53, 54. -/
def Obligations.TextVerbsComplete : Prop :=
  VerbDoes .tokenize 0x0503 tokenizeBody id (fun v a d =>
    let none' : EncState := { utf := [], hold := [], cls := 0, toks := [], replaced := 0 }
    let ends := fun (b : Dev) (st : Nat) (e : EncState) (used off : Nat) =>
      finish (outWrite b v (fld v 40 8) (e.toks.flatMap (fun t => natLe t 4))) v st 0xFF
        [(8, 4, e.toks.length), (12, 4, used), (16, 8, off), (24, 2, e.utf.length + e.hold.length), (28, 4, e.replaced)]
    (fld v 16 4 = 0 → ∃ (l : Lexicon) (bs : List Byte) (st : Nat) (e : EncState) (used : Nat), findLex a (fld v 20 1) = some l ∧
      argRead a v (fld v 24 8) (fld v 32 4) = .ok bs ∧ tokenizeChunk l.img (fld v 21 1 / 4 % 4) true none' bs (fld v 36 4) = .ok (st, e, used) ∧
      d = ends a st e used used) ∧
    (fld v 16 4 ≠ 0 → ∃ x l, findSess a (fld v 16 4) = some x ∧ x.tok.lex.bind (findLex a) = some l ∧ bitSet (fld v 21 1) 0 = !x.tok.tkOpen ∧
      (bitSet (fld v 21 1) 4 = true → d = ends (updTok a (fld v 16 4) (fun y => encPut y none' 0 false)) stOk none' 0
        (if bitSet (fld v 21 1) 0 then 0 else x.tok.tkOffset)) ∧
      (bitSet (fld v 21 1) 4 = false → ∃ (p base : Nat) (bs : List Byte) (st : Nat) (e : EncState) (used : Nat) (goesOn : Bool),
        p = (if bitSet (fld v 21 1) 0 then fld v 21 1 / 4 % 4 else x.tok.tkPolicy) ∧ base = (if bitSet (fld v 21 1) 0 then 0 else x.tok.tkOffset) ∧
        argRead a v (fld v 24 8) (fld v 32 4) = .ok bs ∧
        tokenizeChunk l.img p (bitSet (fld v 21 1) 1) (if bitSet (fld v 21 1) 0 then none' else encOf x.tok) bs (fld v 36 4) = .ok (st, e, used) ∧
        goesOn = (!(bitSet (fld v 21 1) 1 && st == stOk)) ∧
        d = ends (updTok a (fld v 16 4) (fun y => { encPut y e (base + used) goesOn with tkPolicy := p, tkLex := l.id })) st
          (if goesOn then e else { e with utf := [], hold := [] }) used (base + used)))) ∧
  VerbDoes .detokOpen 0x0504 detokOpenBody id (fun v a d => ∃ x, findSess a (fld v 16 4) = some x ∧ ∃ f : TokSt → TokSt,
    (∀ t, (f t).ringNamed = (fld v 24 8 != 0) ∧ (f t).ringAddr = fld v 24 8 ∧ (f t).ringLog2 = fld v 32 1 ∧ (f t).ringPhase = true ∧
      (f t).vector = fld v 22 2 ∧ (f t).headAddr = fld v 40 8 ∧ (f t).written = 0 ∧ (f t).headRead = 0) ∧
    (bitSet (fld v 21 1) 0 = true → (∀ t, (f t).detok = t.detok ∧ (f t).lex = t.lex ∧ (f t).offset = t.offset ∧ (f t).seq = t.seq ∧
        (f t).stops = t.stops ∧ (f t).utfHold = t.utfHold ∧ (f t).stopHold = t.stopHold ∧ (f t).pendingRecs = t.pendingRecs) ∧
      d = finishOk (textPump (updTok (forgetHead a (fld v 16 4)) (fld v 16 4) f) (fld v 16 4)) v
        [(8, 4, 0), (12, 4, x.tok.utfHold.length + x.tok.stopHold.length)]) ∧
    (bitSet (fld v 21 1) 0 = false → (∀ t, (f t).detok = 1 ∧ (f t).lex = some (fld v 20 1) ∧ (f t).offset = 0 ∧ (f t).seq = 0 ∧ (f t).stops = [] ∧
        (f t).utfHold = [] ∧ (f t).stopHold = [] ∧ (f t).pendingRecs = []) ∧
      d = finishOk (updTok (forgetHead a (fld v 16 4)) (fld v 16 4) f) v [(8, 4, pendingSize x.tok), (12, 4, 0)])) ∧
  VerbDoes .stopSet 0x0505 stopSetBody id (fun v a d => ∃ x bs, findSess a (fld v 16 4) = some x ∧ x.tok.detok ≠ 0 ∧
    argRead a v (fld v 24 8) (if fld v 21 1 = 0 then 0 else 64 + 64 * fld v 21 1) = .ok bs ∧
    (let r := stopSetAcc (fld v 16 4) x.tok (stopStrings bs (fld v 21 1)) (bitSet (fld v 20 1) 0)
     d = finishOk (postRecs (updTok a (fld v 16 4) (fun y => { r.t with pendingRecs := y.pendingRecs })) (fld v 16 4) r.recs) v
      [(8, 1, ((stopStrings bs (fld v 21 1)).map List.length).foldl Nat.max 0)])) ∧
  VerbDoes .detokFlush 0x0506 detokFlushBody id (fun v a d => ∃ x, findSess a (fld v 16 4) = some x ∧ x.tok.detok ≠ 0 ∧
    (let r := flushAcc (fld v 16 4) x.tok
     let b := updTok a (fld v 16 4) (fun y => { r.t with pendingRecs := y.pendingRecs })
     (fld v 20 1 = 0 → d = finishOk (postRecs b (fld v 16 4) r.recs) v [(8, 4, r.emitted), (12, 4, 0)]) ∧
     (fld v 20 1 = 1 → d = finishOk (updTok a (fld v 16 4) (fun t => { t with utfHold := [], utfPos := 0, stopHold := [], detok := 1 })) v
       [(8, 4, 0), (12, 4, x.tok.utfHold.length + x.tok.stopHold.length)]) ∧
     (fld v 20 1 = 2 → d = textPump (postRecs (keepRunning { b with kv.ops := b.kv.ops ++ [.closeText v.seq (fld v 16 4) r.emitted 0] } v)
       (fld v 16 4) r.recs) (fld v 16 4)))) ∧
  (∀ i value h b x, Does (.textHeadReadDone i value)
    (fun a => a.bus.find? (fun r => r.id == i) = some b ∧ b.why = .textHead h ∧
      findSess { a with bus := dropWhere (fun (r : BusReq) => r.id == i) a.bus } h = some x ∧ x.tok.ringNamed = true ∧ value % 2 ^ 64 ≤ x.tok.written)
    (fun a d => d = textPump (updTok { a with bus := dropWhere (fun (r : BusReq) => r.id == i) a.bus } h
      (fun t => { t with headRead := value % 2 ^ 64 })) h))

/-- GRAM_BIND, SAMPLER_SET, SAMPLE, MASK_GET and ATTEND, where their checks pass (11 R235-R238, 06 R116). GRAM_BIND mode 0 unbinds, mode 1 binds at the start
state and mode 2 at the state that the log's tokens lead to; SAMPLER_SET copies the parameter block; MASK_GET writes the mask of the present state and changes no session; SAMPLE and ATTEND list a job that waits for its
dispatch boundary, under the verb's acceptance number, with the descriptor and the rows that stand in the exchange area. The model's own choices in it are log entries 7, 45, 56. -/
def Obligations.SamplingVerbsComplete : Prop :=
  VerbDoes .gramBind 0x0603 gramBindBody id (fun v a d =>
    (fld v 21 1 = 0 → d = finishOk (updSyn a (fld v 16 4) (fun y => { y with
      mode := 0, grammar := none, gramDigest := [], state := 0, stack := [], finished := false, bindPos := 0 })) v [(12, 4, 0xFFFFFFFF)]) ∧
    (fld v 21 1 = 1 → ∃ x g, findSess a (fld v 16 4) = some x ∧ findGram a (fld v 20 1) = some g ∧
      d = finishOk (updSyn a (fld v 16 4) (fun y => { y with
        mode := 1, grammar := some (fld v 20 1), gramDigest := g.digest, state := fieldAt g.img 6 2, stack := [], finished := false
        bindPos := x.log.length })) v [(8, 2, fieldAt g.img 6 2), (10, 2, 0), (12, 4, 0xFFFFFFFF), (16, 4, x.log.length)]) ∧
    (fld v 21 1 = 2 → ∃ x g y seen, findSess a (fld v 16 4) = some x ∧ findGram a (fld v 20 1) = some g ∧ fld v 24 4 ≤ x.log.length ∧
      replaySyn g.img (endTokens x.syn.params) (x.log.drop (fld v 24 4)) (fld v 24 4) { mode := 1, state := fieldAt g.img 6 2, stack := [] } [] = .ok (y, seen) ∧
      d = finishOk (updSyn (touchMasks a { x.syn with grammar := some (fld v 20 1) } seen) (fld v 16 4) (fun z => { z with
        mode := y.mode, grammar := some (fld v 20 1), gramDigest := g.digest, state := y.state, stack := y.stack, finished := false
        bindPos := fld v 24 4 })) v [(8, 2, y.state), (10, 2, y.stack.length), (12, 4, 0xFFFFFFFF), (16, 4, fld v 24 4)])) ∧
  VerbDoes .samplerSet 0x0604 samplerSetBody id (fun v a d => ∃ ps x, argRead a v (fld v 24 8) 128 = .ok ps ∧ paramsOk ps = true ∧
    findSess a (fld v 16 4) = some x ∧
    d = finishOk (updSess (updSyn a (fld v 16 4) (fun y => { y with
        params := ps, finished := false, setPos := x.log.length, sinceSet := if bitSet (fieldAt ps 31 1) 0 then y.sinceSet else 0 }))
      (fld v 16 4) (fun y => { y with marks := y.marks.filter (fun m => !(m.kind == 3 && (m.first == 0x3040 || m.first == 0x3080))) })) v []) ∧
  VerbDoes .sample 0x0605 sampleBody id (fun v a d => ∃ (b tb : List Byte) (rows : List JobRow) (j : Job),
    areaRead (placeBlock a v) (verbArea (placeBlock a v) v) (fld v 16 8) 64 = .ok b ∧
    sampleHead (placeBlock a v) (verbArea (placeBlock a v) v) b 16 = .ok (rows, tb) ∧
    j.kind = 1 ∧ j.seq = v.seq ∧ j.state = 0 ∧ j.num = a.arr.nextJob ∧ j.launch = none ∧ j.prio = verbPrio (placeBlock a v) v ∧
    j.ctx = fieldAt b 8 2 % 2048 ∧ j.part = ctxPart (fieldAt b 8 2 % 2048) ∧ j.desc = b ++ tb ∧ j.rows.length = rows.length ∧
    d = keepRunning { placeBlock a v with arr.jobs := a.arr.jobs ++ [j], arr.nextJob := (a.arr.nextJob + 1) % 2 ^ 32 } v) ∧
  VerbDoes .maskGet 0x0606 maskGetBody id (fun v a d => ∃ x g, findSess a (fld v 16 4) = some x ∧ x.syn.mode = 1 ∧ sessGram a x.syn = some g ∧
    d = finishOk (outWrite (touchMasks a x.syn [x.syn.state]) v (fld v 24 8) (packBits (maskRow g x.syn))) v
      [(8, 2, x.syn.state), (10, 2, x.syn.stack.length), (12, 4, ((maskRow g x.syn).filter id).length), (16, 1, if endAllowed g x.syn then 1 else 0)]) ∧
  VerbDoes .attend 0x0405 attendBody id (fun v a d => ∃ (b : List Byte) (rows : List JobRow) (m : Model) (j : Job),
    areaRead (placeBlock a v) (verbArea (placeBlock a v) v) (fld v 16 8) 128 = .ok b ∧
    attendHead (placeBlock a v) (verbArea (placeBlock a v) v) b 16 = .ok rows ∧ findModel (placeBlock a v) (fieldAt b 0 1) = some m ∧
    attendRest (placeBlock a v) (verbArea (placeBlock a v) v) b 16 rows m = .ok () ∧
    j.kind = 0 ∧ j.seq = v.seq ∧ j.state = 0 ∧ j.num = a.arr.nextJob ∧ j.launch = none ∧ j.prio = verbPrio (placeBlock a v) v ∧
    j.ctx = fieldAt b 12 2 % 2048 ∧ j.part = ctxPart (fieldAt b 12 2 % 2048) ∧ j.model = m.id ∧ j.layer = fieldAt b 2 2 ∧ j.desc = b ∧
    j.rows.length = rows.length ∧
    d = keepRunning { placeBlock a v with arr.jobs := a.arr.jobs ++ [j], arr.nextJob := (a.arr.nextJob + 1) % 2 ^ 32 } v)

/-- IDX_CREATE, IDX_DROP, IDX_INSERT, IDX_DELETE, IDX_SEARCH and BITMAP_LOAD, where their checks pass (12 R259, R270-R273, R276-R278). IDX_CREATE lists an index
under the number that has been free the longest, with its region; IDX_DROP ends one and answers ST_OK. IDX_INSERT and IDX_DELETE write their records and give the index a writer of the verb's number,
with a result for each item; the changes take effect once the records are durable. IDX_SEARCH lists a job and its search, with the parameters' defaults. BITMAP_LOAD registers its effect for the next boundary. The model's own choices in it are log entries 7, 67, 69. -/
def Obligations.IndexVerbsComplete : Prop :=
  VerbDoes .idxCreate 0x0701 idxCreateBody id (fun v a d => ∃ (x : Index) (a1 : Dev) (c tag : Nat) (ps cb : List Byte),
    longestFree a 10 (a.indexes.map (·.id)) 0 64 = some x.id ∧ x.lpn = fld v 24 8 ∧ x.pages = ixPages x.params ∧ x.nodes = [] ∧ x.writer = none ∧
    x.job = none ∧
    ((fld v 16 1 = 1 ∧ x.state = 1 ∧ ∃ (j : IdxJob) (epoch : Nat) (entry : Option Nat),
        readDescriptor a (ctxPart c) (fld v 24 8) = some (ps, tag, entry, epoch) ∧ makeIndex a x.id c (fld v 24 8) tag 1 ps cb entry epoch = some (x, a1) ∧
        j.kind = 3 ∧ j.op = v.op ∧ j.ring = v.ring ∧ j.tag = fld v 4 4 ∧
        d = finish (updIndex a1 x.id (fun y => { y with job := some j })) v stDeferred 0xFF (createFields x)) ∨
      (fld v 16 1 = 0 ∧ x.state = 4 ∧ ∃ w : IdxWriter,
        argRead a v (fld v 32 8) 64 = .ok ps ∧ argRead a v (fld v 40 8) (1024 * ixDims ps) = .ok cb ∧ tag ≠ 0 ∧
        makeIndex { a with draws := a.draws + 1 } x.id c (fld v 24 8) tag 4 ps cb none 0 = some (x, a1) ∧
        w.seq = v.seq ∧ w.kind = 3 ∧ w.fields = createFields x ∧
        d = keepRunning (parityStep (updIndex (flashWrite (writeDescriptor a1 x) x.part (fld v 24 8 + 1) 0 (objIn 0x0A x.part x.id) true
          ((List.range (ixCbLpns ps)).map (fun i => padTo ((cb.drop (16384 * i)).take 16384) 16384))) x.id (fun y => { y with writer := some w }))) v))) ∧
  VerbDoes .idxDrop 0x0702 idxDropBody id (fun v a d => ∃ x, findIndex a (fld v 16 1 % 64) = some x ∧
    d = finishOk (dropIndex (nextRelease a) x (fld v 17 1 == 1)) v []) ∧
  VerbDoes .idxInsert 0x0703 idxInsertBody id (fun v a d => ∃ (x : Index) (bs : List Byte) (w : IdxWriter),
    findIndex a (fld v 16 1 % 64) = some x ∧ x.state = 0 ∧ argRead a v (fld v 24 8) (fld v 32 8) = .ok bs ∧
    (let is := batchItems x v bs
     let bad := is.filter (fun i => i.status != 0)
     let r := insertRun a x v bs
     w.seq = v.seq ∧ w.kind = 1 ∧ w.offset = fld v 40 8 ∧ w.changes = r.changes ∧ w.results = insertResults is ∧
     w.entry = (if r.ix.entry = x.entry then none else r.ix.entry) ∧ w.status = (if bad.isEmpty then stOk else stPartial) ∧
     w.fields = [(8, 4, (is.filter (fun i => i.status == 0)).length), (12, 4, bad.length), (16, 4, (bad.head?.map (·.pos)).getD 0xFFFFFFFF),
       (20, 4, r.writes), (24, 4, x.epoch)] ∧
     d = keepRunning (parityStep (updIndex (if w.entry.isSome then writeDescriptor r.dev { x with entry := w.entry } else r.dev) x.id
       (fun y => { y with writer := some w }))) v)) ∧
  VerbDoes .idxDelete 0x0704 idxDeleteBody id (fun v a d => ∃ (x : Index) (bs : List Byte) (w : IdxWriter),
    findIndex a (fld v 16 1 % 64) = some x ∧ x.state = 0 ∧ argRead a v (fld v 24 8) (8 * fld v 20 4) = .ok bs ∧
    (let r := deleteRun a x v bs
     w.seq = v.seq ∧ w.kind = 2 ∧ w.offset = fld v 32 8 ∧ w.changes = r.changes ∧ w.results = r.statuses.map byte ∧ w.entry = none ∧
     w.status = (if r.statuses.all (· == 0) then stOk else stPartial) ∧
     w.fields = [(8, 4, r.changes.length), (12, 4, (r.statuses.filter (· == 1)).length)] ∧
     d = keepRunning (parityStep (updIndex r.dev x.id (fun y => { y with writer := some w }))) v)) ∧
  VerbDoes .idxSearch 0x0705 idxSearchBody id (fun v a d => ∃ (x : Index) (b qt : List Byte) (j : Job) (q : Search),
    areaRead (placeBlock a v) (verbArea (placeBlock a v) v) (fld v 16 8) 64 = .ok b ∧ findIndex (placeBlock a v) (fieldAt b 0 1) = some x ∧ x.state = 0 ∧
    areaRead (placeBlock a v) (verbArea (placeBlock a v) v) (fieldAt b 24 8) (64 * fieldAt b 2 2) = .ok qt ∧
    j.kind = 2 ∧ j.seq = v.seq ∧ j.num = (placeBlock a v).arr.nextJob ∧ j.part = x.part ∧ j.desc = b ++ qt ∧ j.state = 0 ∧
    q.job = j.num ∧ q.index = fieldAt b 0 1 ∧ q.begun = false ∧ q.k = fieldAt b 4 4 ∧
    q.l = (if fieldAt b 8 4 = 0 then Nat.max q.k 64 else fieldAt b 8 4) ∧ q.w = (if fieldAt b 12 2 = 0 then 4 else fieldAt b 12 2) ∧
    q.budget = (if fieldAt b 16 4 = 0 then Nat.min (8 * q.l) 65536 else fieldAt b 16 4) ∧ q.queries.length = fieldAt b 2 2 ∧
    d = keepRunning { placeBlock a v with
      arr.jobs := (placeBlock a v).arr.jobs ++ [j], arr.nextJob := (j.num + 1) % 2 ^ 32, searches := (placeBlock a v).searches ++ [q] } v) ∧
  VerbDoes .bitmapLoad 0x0707 bitmapLoadBody id (fun v a d => (∃ x, findIndex a (fld v 16 1 % 64) = some x ∧ x.state = 0) ∧
    d = registerOp a v (.bitmap v.seq))

/-- IDX_MERGE, IDX_REPAIR, IDX_STATS and the ends of an index's background jobs (12 R274, R275, R277, R279). A merge or pass that starts completes with ST_DEFERRED and
becomes the index's job; mode 1 marks the job to stop. MERGE_COMPLETE drops the merged entries of the side list, after the pass where there was one, and REPAIR_PASS_END ends the pass, each with EV_DEFERRED_DONE;
ATTACH_COMPLETE makes the index READY with its structures rebuilt from the records. The model's own choices in it are log entries 7, 62, 67, 69. -/
def Obligations.IndexJobsComplete : Prop :=
  VerbDoes .idxMerge 0x0706 idxMergeBody id (fun v a d => ∃ x, findIndex a (fld v 16 1 % 64) = some x ∧ x.state = 0 ∧
    (fld v 17 1 = 1 → ∃ j, x.job = some j ∧ d = finishOk (putIdxJob a x.id { j with stop := true }) v []) ∧
    (fld v 17 1 = 0 → x.job = none ∧ ∃ j : IdxJob, j.kind = 1 ∧ j.cut = x.side.length ∧ j.total = x.side.length ∧ j.done = 0 ∧ j.merged = 0 ∧
      j.pass = false ∧ j.stop = false ∧ j.ring = v.ring ∧ j.tag = fld v 4 4 ∧ j.op = v.op ∧
      d = finish (updIndex a x.id (fun _ => { x with job := some j })) v stDeferred 0xFF [(8, 4, x.side.length)])) ∧
  VerbDoes .idxRepair 0x0708 idxRepairBody id (fun v a d => ∃ x, findIndex a (fld v 16 1 % 64) = some x ∧ x.state = 0 ∧
    (fld v 17 1 = 1 → ∃ j, x.job = some j ∧ d = finishOk (putIdxJob a x.id { j with stop := true }) v []) ∧
    (fld v 17 1 = 0 → x.job = none ∧ ∃ (y : Index) (j : IdxJob),
      (y, j) = passStart x {
        kind := 2, ring := v.ring, tag := fld v 4 4, op := v.op, cut := 0, done := 0, total := liveCount x, merged := 0, pass := false
        old := 0, sweep := 0, stop := false, linking := none } ∧
      d = finish (updIndex a x.id (fun _ => { y with job := some j })) v stDeferred 0xFF [])) ∧
  VerbDoes .idxStats 0x0709 idxStatsBody id (fun v a d => ∃ x, findIndex a (fld v 16 1 % 64) = some x ∧
    d = finishOk (outWrite a v (fld v 24 8)
      (natLe (liveCount x) 8 ++ natLe (deadCount x) 8 ++ natLe (ixCap x.params - x.nodes.length) 8 ++ natLe x.side.length 4 ++ natLe x.epoch 4 ++
        [byte (if x.dropSeq.isSome then 2 else x.state), byte (match x.job with | some j => j.kind | none => 0), byte x.parity,
          if x.entry.isSome then 1 else 0] ++ List.replicate 4 0 ++ natLe ((x.job.map (·.done)).getD 0) 8 ++ natLe ((x.job.map (·.total)).getD 0) 8 ++
        natLe (x.entry.getD 0) 8)) v []) ∧
  (∀ i x j, Does (.mergeComplete i)
    (fun a => findIndex a i = some x ∧ x.job = some j ∧ j.kind = 1 ∧ j.linking = none ∧ j.pass = false ∧ nextMerge x j.cut = none ∧ deadCount x = 0)
    (fun a d => d = idxDone (updIndex a i (fun y => { y with job := none, side := y.side.drop j.cut })) x j stOk (natLe j.merged 4 ++ natLe 0 8))) ∧
  (∀ i x j, Does (.mergeComplete i)
    (fun a => findIndex a i = some x ∧ x.job = some j ∧ j.kind = 1 ∧ j.linking = none ∧ j.pass = true ∧ nextMerge x j.cut = none ∧ nextLive x j.sweep = none)
    (fun a d => d = idxDone (updIndex (passEnd a x j).2 i (fun y => { y with job := none, side := y.side.drop j.cut })) x j stOk
      (natLe j.merged 4 ++ natLe (passEnd a x j).1 8))) ∧
  (∀ i x j, Does (.repairPassEnd i)
    (fun a => findIndex a i = some x ∧ x.job = some j ∧ j.kind = 2 ∧ j.pass = true ∧ nextLive x j.sweep = none)
    (fun a d => d = idxDone (updIndex (passEnd a x j).2 i (fun y => { y with job := none })) x j stOk [])) ∧
  (∀ i x j, Does (.attachComplete i)
    (fun a => findIndex a i = some x ∧ x.job = some j ∧ j.kind = 3)
    (fun a d => ∃ y : Index, y.id = x.id ∧ y.state = 0 ∧ y.job = none ∧
      y.nodes = (regionRecords a x).map (fun r => (r.node, if r.state = 2 then 2 else 1)) ∧
      y.items = ((regionRecords a x).filter (fun r => r.state != 2)).map (fun r => (r.item, r.node)) ∧
      y.pq = (regionRecords a x).map (fun r => (r.node, r.pq)) ∧
      d = idxDone (updIndex ((regionNodes a x).foldl (tellRead x) a) i (fun z => { y with lostSeen := z.lostSeen })) y j stOk []))

/-- The six flash verbs, where their checks pass (13 R300-R303, R308, R309). FL_MOUNT of mode 1 starts the mount and of mode 0 asks for every page to become durable; FL_FORMAT and FL_SANITIZE list a job and
complete with ST_DEFERRED, the media FORMATTING or SANITIZING where all of it is meant and the granule's pages gone where one granule is; FL_HEALTH reports, with the log where an offset is given; FL_DISCARD registers its discards; FL_ASSIGN puts a granule into an empty
slot, takes one out, or takes one out to be erased. The model's own choices in it are log entries 7, 65. -/
def Obligations.FlashVerbsComplete : Prop :=
  VerbDoes .flMount 0x0801 flMountBody noteHealth (fun v a d =>
    (fld v 16 1 = 1 → (a.flash.state = 3 ∨ a.flash.state = 4) ∧ d = keepRunning { a with flash.mounting := some (some v.seq) } v) ∧
    (fld v 16 1 = 0 → (a.flash.state = 1 ∨ a.flash.state = 2) ∧ d = settleFlash (keepRunning { a with
      flash.unmounting := some v.seq
      flash.pages := updWhere (fun (x : FPage) => !x.durable && x.st != 2) (fun x => { x with want := true }) a.flash.pages } v))) ∧
  VerbDoes .flFormat 0x0802 flFormatBody noteHealth (fun v a d => a.flash.jobs = [] ∧ a.flash.assigned = [] ∧
    d = finish { a with
      flash.jobs := [{ ring := v.ring, tag := fld v 4 4, op := v.op, kind := 1, granule := 0, part := 0, sparePct := fld v 16 1 }]
      flash.state := 5 } v stDeferred 0xFF []) ∧
  VerbDoes .flHealth 0x0803 flHealthBody noteHealth (fun v a d => ∃ b, b = { a with flash := withWear a.flash } ∧
    d = finishOk (if fld v 24 8 = 0 then b else outWrite b v (fld v 24 8) (healthBytes b.flash)) v
      [(8, 1, a.flash.state), (9, 1, spareLeft a.flash), (10, 2, b.flash.health.wearMax), (12, 4, a.flash.health.blocksRetired)]) ∧
  VerbDoes .flDiscard 0x0804 flDiscardBody noteHealth (fun v a d => d = registerOp a v (.discardLpns v.seq)) ∧
  VerbDoes .flSanitize 0x0805 flSanitizeBody noteHealth (fun v a d => a.flash.jobs = [] ∧
    (fld v 16 1 = 0 → a.flash.assigned = [] ∧ d = finish { a with
      flash.jobs := [{ ring := v.ring, tag := fld v 4 4, op := v.op, kind := 2, granule := 0, part := 0, sparePct := 0 }]
      flash.state := 6 } v stDeferred 0xFF []) ∧
    (fld v 16 1 = 1 → (∀ x ∈ a.flash.assigned, x.2.2 ≠ fld v 20 4) ∧ ∃ b,
      b = purgeGranule { a with flash.erasing := upsert (· == fld v 20 4) (fld v 20 4) a.flash.erasing } (fld v 20 4) ∧
      d = deferFlash b v 3 (fld v 20 4) 0 0 b.flash.state [])) ∧
  VerbDoes .flAssign 0x0806 flAssignBody noteHealth (fun v a d =>
    (fld v 16 1 = 1 → (∀ x ∈ a.flash.assigned, x.2.2 ≠ fld v 20 4 ∧ ¬(x.1 = fld v 17 1 ∧ x.2.1 = fld v 18 2)) ∧
      d = finishOk { a with flash.assigned := a.flash.assigned ++ [(fld v 17 1, fld v 18 2, fld v 20 4)] } v
        [(8, 4, (a.flash.assigned.filter (fun x => x.1 == fld v 17 1)).length + 1)]) ∧
    (fld v 16 1 ≠ 1 → ∃ x b, a.flash.assigned.find? (fun y => y.1 == fld v 17 1 && y.2.1 == fld v 18 2) = some x ∧
      b = { a with flash.assigned := dropWhere (fun (y : Nat × Nat × Nat) => y.1 == fld v 17 1 && y.2.1 == fld v 18 2) a.flash.assigned } ∧
      (fld v 16 1 = 2 → d = finishOk b v [(8, 4, granulesHeld b (fld v 17 1))]) ∧
      (fld v 16 1 = 3 → ∃ c, c = purgeGranule { b with flash.erasing := upsert (· == x.2.2) x.2.2 b.flash.erasing } x.2.2 ∧
        d = deferFlash c v 4 x.2.2 (fld v 17 1) 0 c.flash.state [(8, 4, granulesHeld b (fld v 17 1))])))

/-- The ends of flash jobs, of a mount and of NAND operations (13 R291, R294, R297-R300, R304, R307, R309). A format that succeeds leaves the media MOUNTED with nothing assigned or stored, one that fails UNFORMATTED; a
sanitize of the whole media leaves it MOUNTED and erased; one of a granule, or a release with erase, frees the granule; MAP_CHECKPOINT starts a due map checkpoint. A read that decodes delivers, and one that does not is tried again at the next level; a program that succeeds marks its page; an
erase of a block that succeeds counts one more erase; a first timeout retries the operation. MOUNT_COMPLETE without a format record leaves the media UNFORMATTED, without a checkpoint record FAILED, and else MOUNTED after the replay. The model's own choices in it are log entries 7, 61, 63, 66. -/
def Obligations.FlashOperationsComplete : Prop :=
  (∀ ok bad j, Does (.formatComplete ok bad) (fun a => a.flash.jobs.find? (fun x => x.kind == 1) = some j)
    (fun a d => ∃ f : Flash, f.state = (if ok then 1 else 0) ∧ f.formatted = ok ∧ f.assigned = [] ∧ f.pages = [] ∧ f.groups = [] ∧ f.parities = [] ∧ f.ops = [] ∧
      f.erases = a.flash.erases ∧ f.eraseBase = a.flash.eraseBase + 1 ∧ f.sparePct = j.sparePct ∧ (ok = false → f.granules = 0) ∧
      f.jobs = dropWhere (fun x => x.kind == 1) a.flash.jobs ∧
      d = noteHealth (deferredDone { a with flash := f, stored.images := [], stored.phrases := [] } j.ring j.tag j.op (if ok then stOk else stMedia) objDevice
        .device (natLe f.granules 4)))) ∧
  (∀ ok j, Does (.flSanitizeDone ok) (fun a => a.flash.jobs.find? (jobEnds ok a) = some j ∧ j.kind = 2)
    (fun a d => ∃ f : Flash, f.state = 1 ∧ f.pages = [] ∧ f.groups = [] ∧ f.parities = [] ∧ f.ops = [] ∧ f.assigned = a.flash.assigned ∧
      f.jobs = dropWhere (fun x => x == j) a.flash.jobs ∧
      d = noteHealth (deferredDone { a with flash := f, stored.images := [], stored.phrases := [] } j.ring j.tag j.op (if ok then stOk else stMedia) objDevice
        .device []))) ∧
  (∀ ok j, Does (.flSanitizeDone ok) (fun a => a.flash.jobs.find? (jobEnds ok a) = some j ∧ (j.kind = 3 ∨ j.kind = 4))
    (fun a d => ∃ b, b = { a with
        flash.jobs := dropWhere (fun (x : FlashJob) => x == j) a.flash.jobs, flash.erasing := a.flash.erasing.filter (· != j.granule) } ∧
      d = noteHealth (if j.kind = 4 then deferredDone b j.ring j.tag j.op (if ok then stOk else stMedia) (objPart j.part) (.part j.part) []
        else deferredDone b j.ring j.tag j.op (if ok then stOk else stMedia) objDevice .device []))) ∧
  (∀ i bits o g cw n why, Does (.nandReadComplete i true bits g [])
    (fun a => a.flash.ops.find? (fun x => x.id == i) = some o ∧ o.what = .read g cw n why ∧ n < 3)
    (fun a d => d = noteHealth (deliverRead { dropNand a i with
      flash.health := countBits { a.flash.health with softDecodes := satAdd a.flash.health.softDecodes 0 } bits } i false false))) ∧
  (∀ i bits found bad o g cw n why, Does (.nandReadComplete i false bits found bad)
    (fun a => a.flash.ops.find? (fun x => x.id == i) = some o ∧ o.what = .read g cw n why ∧ n < 7)
    (fun a d => ∃ q : NandOp, q = { o with
        what := .read g cw (n + 1) why, level := readLevel a.flash o.channel o.lun o.block (n + 1), issued := a.tim.elapsed, retried := false } ∧
      d = noteHealth { dropNand a i with
        flash.health := { a.flash.health with readRetries := satAdd a.flash.health.readRetries (if n = 1 then 1 else 0) }
        flash.ops := (dropNand a i).flash.ops ++ [q] })) ∧
  (∀ (s : State) i o seq x damaged, s.dev.flash.ops.find? (fun y => y.id == i) = some o → o.what = .data seq →
    s.dev.flash.pages.find? (fun y => y.seq == seq) = some x → s.dev.clk.started = true →
    ∃ f : Flash, f.pages = updWhere (fun (y : FPage) => y.seq == seq) (fun y => { y with st := 1 }) s.dev.flash.pages ∧
      f.ops = dropWhere (fun (y : NandOp) => y.id == i) s.dev.flash.ops ∧
      f.health.nandPages = (s.dev.flash.health.nandPages + 1) % 2 ^ 64 ∧
      f.health.dataPages = (s.dev.flash.health.dataPages + if x.fresh then 1 else 0) % 2 ^ 64 ∧
      ∃ t, exec (.nandProgramComplete i true damaged) s = .next t ∧ t.pending = s.pending ∧
        t.dev = settleHalt (noteHealth (settleFlash { s.dev with flash := f }))) ∧
  (∀ i o bg lane, Does (.nandEraseComplete i true)
    (fun a => a.flash.ops.find? (fun y => y.id == i) = some o ∧ o.what = .erase bg lane)
    (fun a d => ∃ b, b = { dropNand a i with
        flash.erases := upsert (fun (e : Nat × Nat × Nat × Nat) => e.1 == o.channel && e.2.1 == o.lun && e.2.2.1 == o.block)
          (o.channel, o.lun, o.block, blockWear a.flash o.channel o.lun o.block + 1) a.flash.erases } ∧
      d = noteHealth (settleFlash (clearLane b bg lane)))) ∧
  (∀ (s : State) i o dt, (advance s.dev dt).flash.ops.find? (fun y => y.id == i) = some o → o.retried = false →
    o.issued + nandLimit o.what ≤ (advance s.dev dt).tim.elapsed → s.dev.boot.powerFail = false →
    ∃ t, exec (.nandOpTimeout i dt) s = .next t ∧ t.pending = s.pending ∧
      t.dev = noteHealth { advance s.dev dt with
        flash.ops := updWhere (fun (x : NandOp) => x.id == i) (fun x => { x with retried := true, issued := (advance s.dev dt).tim.elapsed }) s.dev.flash.ops }) ∧
  Does .mapCheckpoint (fun a => checkpointDue a.flash = true) (fun a d => d = startCheckpoint a) ∧
  (∀ rec bad absent, Does (.mountComplete ⟨false, rec⟩ bad absent) (fun a => a.flash.mounting = some none ∧ a.boot.stage = 7)
    (fun a d => d = noteHealth { raiseDev { a with flash.mounting := none, flash.state := 0, flash.replayed := 0 } 0x0816 [(1, 0), (8, 0), (8, 0)] with
      boot.bootDone := true })) ∧
  (∀ fmt rec bad absent who, Does (.mountComplete ⟨fmt, rec⟩ bad absent) (fun a => a.flash.mounting = some who)
    (fun a d => ∃ b st, d = noteHealth (if b.boot.stage = 7 && b.flash.mounting.isNone then { b with boot.bootDone := true } else b) ∧
      ((fmt && a.flash.formatted) = false → st = stMedia ∧ b = mountAnswer who { a with flash.mounting := none, flash.state := 0, flash.replayed := 0 } 0 st) ∧
      ((fmt && a.flash.formatted) = true → rec = false → st = stMedia ∧
        b = mountAnswer who { a with flash.mounting := none, flash.state := 4, flash.replayed := 0 } 0 st) ∧
      ((fmt && a.flash.formatted) = true → rec = true → st = stOk ∧
        b = mountAnswer who (startCheckpoint (mountReplay bad absent a).1) (mountReplay bad absent a).2 st)))

/-- CKPT_BEGIN, CKPT_STATUS, CKPT_DRAIN, RESTORE, BUDDY_PAIR and BUDDY_UNPAIR, where their checks pass, and CKPT_STAGED (14 R312, R323-R328, R330, R331). CKPT_BEGIN registers its snapshot
for a boundary; CKPT_STATUS reports, with the manifest where an offset is given; CKPT_DRAIN of mode 3 ends a checkpoint, of mode 2 adds a host copy and of mode 1 a waiter on the flash copy, which begins or is answered; RESTORE registers an operation with its parameter
block; BUDDY_PAIR PREPARE makes a QP for the port and CONNECT readies it and sends HELLO; BUDDY_UNPAIR leaves no port, partner or request. CKPT_STAGED makes a checkpoint whose shards are all formed STAGED, with EV_CKPT_STAGED. The model's own choices in it are log entries 7, 83, 84, 87, 88. -/
def Obligations.CheckpointVerbsComplete : Prop :=
  VerbDoes .ckptBegin 0x0901 ckptBeginBody id (fun v a d => ∃ bs,
    (bitSet (fld v 26 1) 3 = true → argRead a v (fld v 32 8) (4 * fld v 28 4) = .ok bs) ∧ (bitSet (fld v 26 1) 3 = false → bs = []) ∧
    d = registerOp a v (.ckpt v.seq ((List.range (fld v 28 4)).map (fun i => fieldAt bs (4 * i) 4)))) ∧
  VerbDoes .ckptStatus 0x0902 ckptStatusBody id (fun v a d => ∃ c, findCkpt a (ckptCtx v) (fld v 16 8) = some c ∧ c.state ≠ 2 ∧
    d = finishOk (if fld v 32 8 = 0 then a else outWrite a v (fld v 32 8) (manifestBytes a c)) v [(8, 1, c.state),
      (9, 1, (if c.mirrored then 1 else 0) + (if c.durable then 2 else 0) + (if c.hosted then 4 else 0) + (if c.signed then 8 else 0) +
        (if c.mirrorFailed then 16 else 0)),
      (12, 4, (c.shards.filter (·.staged)).length), (16, 8, c.region.getD 0), (24, 4, c.damaged), (28, 4, (manifestBytes a c).length)]) ∧
  VerbDoes .ckptDrain 0x0903 (ckptDrainBody sendRelease) id (fun v a d => ∃ c, findCkpt a (ckptCtx v) (fld v 16 8) = some c ∧
    (fld v 26 1 = 3 → d = finishOk (ckptEnd sendRelease a c) v []) ∧
    (fld v 26 1 = 2 → c.state ≠ 2 ∧ ckptReadable a c = true ∧ regionBytes c ≤ fld v 40 8 ∧ ∃ h : HostDrain, h.who = waiterOf v ∧
      h.ld = partLd a (ctxPart c.ctx) ∧ h.addr = fld v 32 8 ∧ h.bytes = fld v 40 8 ∧
      d = finish (updCkpt a c.ctx c.step (fun x => { x with hosts := x.hosts ++ [h] })) v stDeferred 0xFF []) ∧
    (fld v 26 1 = 1 → c.state ≠ 2 ∧ ∃ a1 b, (c.region.isSome = true → a1 = a) ∧ (c.region = none → takeRegion a c = some a1) ∧
      b = finish (updCkpt a1 c.ctx c.step (fun x => { x with drainWaits := x.drainWaits ++ [waiterOf v] })) v stDeferred 0xFF [] ∧
      d = match findCkpt b c.ctx c.step with
        | some x => if x.durable then answerDrains b x stOk else regionCatchUp b c.ctx c.step
        | none => b)) ∧
  VerbDoes .restore 0x0904 restoreBody id (fun v a d => ∃ r : RestoreOp, r.seq = v.seq ∧ r.stage = 0 ∧ r.data = [] ∧ r.status = stOk ∧
    r.ctx = (if v.admin then fieldAt r.prm 2 2 else v.ctx) ∧ r.base = fieldAt r.prm 8 8 ∧
    argRead a v (fld v 16 8) 128 = .ok r.prm ∧ d = registerOp { a with restores := a.restores ++ [r] } v (.restore v.seq)) ∧
  VerbDoes .buddyPair 0x0905 buddyPairBody id (fun v a d => (fld v 16 1 = 1 → ∃ (q : Qp) (b : Dev) (l : Buddy), takeQpn a = some (q.qpn, b) ∧ q.part = none ∧ q.sub = fld v 17 1 ∧ q.state = 0 ∧
    l.ports = a.buddy.ports ++ [⟨fld v 17 1, q.qpn, fld v 18 1, false, none⟩] ∧ l.area = some (a.buddy.area.getD (fld v 20 4)) ∧
    (a.buddy.area ≠ none → l = { a.buddy with ports := l.ports }) ∧ l.held = a.buddy.held ∧ l.peer = a.buddy.peer ∧ l.reqs = a.buddy.reqs ∧
    d = finishOk { b with draws := b.draws + 2, net.qps := a.net.qps ++ [q], buddy := l } v
      [(8, 4, q.qpn), (12, 4, q.startPsn), (16, 4, l.rkey), (20, 4, l.area.getD 0), (24, 8, a.boot.serial)]) ∧
    (fld v 16 1 = 2 → ∃ p q b c, buddyPort a (fld v 17 1) = some p ∧ findQp a p.qpn = some q ∧ q.state = 0 ∧
      (∀ x, a.buddy.peer = some x → x = fld v 56 8) ∧
      b = qpConnect (drawNat a).2 q 14 7 7 (fld v 24 4) (fld v 28 4) ((drawNat a).1 % 2 ^ 48) (fld v 40 16) 0 ∧
      c = keepRunning { b with
        buddy.ports := updWhere (fun (x : BuddyPort) => x.sub == fld v 17 1) (fun x => { x with connecting := some v.seq }) b.buddy.ports
        buddy.peer := some (fld v 56 8), buddy.peerRkey := fld v 32 4, buddy.lastRx := b.tim.elapsed } v ∧
      d = sendRequest c { p with connecting := some v.seq } 1 ⟨a.boot.serial, 0, 0, 0⟩ 0 (a.buddy.area.getD 0) [])) ∧
  VerbDoes .buddyUnpair 0x0906 buddyUnpairBody id (fun v a d => ∃ (b : Dev) (l : Buddy),
    b = (failMirrors (nextRelease a)).buddy.ports.foldl (fun x p => dropQp x p.qpn) (failMirrors (nextRelease a)) ∧ l.ports = [] ∧ l.peer = none ∧ l.reqs = [] ∧
    (bitSet (fld v 16 1) 0 = true → l.area = none ∧ l.held = [] ∧ l.granules = []) ∧
    (bitSet (fld v 16 1) 0 = false → l.area = b.buddy.area ∧ l.held = b.buddy.held.filter (·.isSealed) ∧ l.granules = b.buddy.granules) ∧
    d = finishOk { b with buddy := l, exch := if bitSet (fld v 16 1) 0 then memClear b.exch areaKey (2 ^ 40) else b.exch } v []) ∧
  (∀ ctx step c a1, Does (.ckptStaged ctx step)
    (fun a => findCkpt a ctx step = some c ∧ c.state = 0 ∧ c.shards.all (·.staged) = true ∧
      allocDdr a (ctxPart ctx) (roundUp (manifestSize c.signed c.shards.length) 16384) (ckptKey ctx step) 0 = some a1)
    (fun _ d => d = sendManifest (regionSeal (raiseCkpt (updCkpt a1 ctx step (fun x => { x with state := 1 })) c 0x0910
      [(4, c.shards.length), (8, sumNat (c.shards.map (fun s => s.raw.length)))]) ctx step) ctx step))

/-- The control messages of the buddy link that a partner sends first or that only settle (14 R327, R328, R330, Table 14-8), on every buddy port and in every state where they arrive in order: HELLO is answered with
HELLO_ACK and the area's size; HELLO_ACK connects the port; HEARTBEAT only notes the time; RELEASE frees the extent and is answered; RELEASED settles the request; FIND is answered with the extent of a sealed mirror, else
with status 5. The timers of the buddy link (14 R328): each heartbeat period every connected port sends HEARTBEAT; a request that has waited 10 ms is sent again; silence of 100 ms ends the connection, with EV_BUDDY_LOST, and fails the mirrors in progress. The model's own choices in it are log entries 70, 73, 79, 83. -/
def Obligations.BuddyMessagesAndTimers : Prop :=
  (∀ h m p b, Does (.hello h m) (fun a => msgArrives 1 h m a p b) (fun _ d => d = sendAnswer b p 2 (msgKey m) 0 0 (b.buddy.area.getD 0))) ∧
  (∀ h m p b, Does (.helloAck h m) (fun a => msgArrives 2 h m a p b ∧ p.connected = false ∧ p.connecting = none)
    (fun _ d => d = raiseDev { b with
      buddy.reqs := dropWhere (fun r => msgType r.msg == 1 && r.sub == p.sub) b.buddy.reqs
      buddy.ports := updWhere (fun x => x.sub == p.sub) (fun x => { x with connected := true, connecting := none }) b.buddy.ports
      buddy.lost := false } 0x0916 [(8, b.buddy.peer.getD 0), (1, p.sub)])) ∧
  (∀ h m p b, Does (.heartbeat h m) (fun a => msgArrives 3 h m a p b) (fun _ d => d = b)) ∧
  (∀ h m p b, Does (.release h m) (fun a => msgArrives 8 h m a p b) (fun _ d => d = sendAnswer (dropHeld b (msgKey m)) p 9 (msgKey m) 0 0 0)) ∧
  (∀ h m p b, Does (.released h m) (fun a => msgArrives 9 h m a p b) (fun _ d => d = settleRequest b 8 (msgKey m))) ∧
  (∀ h m p b x, Does (.find h m) (fun a => msgArrives 10 h m a p b ∧ findHeld b (msgKey m) = some x ∧ x.isSealed = true)
    (fun _ d => d = sendAnswer b p 11 (msgKey m) 0 x.off x.bytes)) ∧
  (∀ h m p b, Does (.find h m) (fun a => msgArrives 10 h m a p b ∧ findHeld b (msgKey m) = none)
    (fun _ d => d = sendAnswer b p 11 (msgKey m) 5 0 0)) ∧
  (∀ dt, Does (.buddyHeartbeatTimer dt)
    (fun a => (advance a dt).buddy.beatAt ≤ (advance a dt).tim.elapsed ∧ connectedPorts a ≠ 0)
    (fun a d => d = (a.buddy.ports.filter (·.connected)).foldl (fun x p => sendAnswer x p 3 ⟨a.boot.serial, 0, 0, 0⟩ 0 0 0)
      { advance a dt with buddy.beatAt := (advance a dt).tim.elapsed + 1000000 })) ∧
  (∀ n dt r p, Does (.buddyRequestResend n dt)
    (fun a => a.buddy.reqs.find? (fun x => x.seq == n) = some r ∧ r.at' + 10000000 ≤ (advance a dt).tim.elapsed ∧ r.resent < 3 ∧ buddyPort a r.sub = some p)
    (fun a d => d = sendControl { advance a dt with
      buddy.reqs := updWhere (fun x => x.seq == n) (fun x => { x with at' := (advance a dt).tim.elapsed, resent := x.resent + 1 }) a.buddy.reqs } p r.msg)) ∧
  (∀ dt, Does (.buddyLossTimeout dt)
    (fun a => connectedPorts a ≠ 0 ∧ a.buddy.lastRx + 100000000 ≤ (advance a dt).tim.elapsed)
    (fun a d => d = failMirrors (raiseDev { advance a dt with
      buddy.ports := a.buddy.ports.map (fun p => { p with connected := false }), buddy.lost := true, buddy.reqs := []
      buddy.held := a.buddy.held.filter (·.isSealed) } 0x0915 [(8, a.buddy.peer.getD 0), (1, connectedPorts a)])))

/-- The control messages that make, seal and find a mirror (14 R329-R331): OPEN is granted the lowest place of the area where the extent fits; GRANT of status 0 gives the checkpoint its extent and sends what is staged; SEAL of a mirror
that is sealed already is answered at once; SEALED of status 0 ends the mirror with EV_CKPT_MIRRORED; FOUND of status 0 starts the reading of the restore that asked; a write with immediate that ends inside an
extent notes its shard as arrived. The model's own choices in it are log entries 73, 79, 83. -/
def Obligations.MirrorMessagesTakeEffect : Prop :=
  (∀ h m p b off, Does (.openMsg h m)
    (fun a => msgArrives 4 h m a p b ∧ findHeld b (msgKey m) = none ∧ b.buddy.held.length < 256 ∧
      firstFit b.buddy.held ((b.buddy.area.getD 0) * 2 ^ 30) (msgBytes m) (b.buddy.held.length + 1) 0 = some off)
    (fun _ d => ∃ x : HeldMirror, x.off = off ∧ x.bytes = msgBytes m ∧ x.isSealed = false ∧ x.serial = (msgKey m).serial ∧ x.step = (msgKey m).step ∧
      x.ctx = (msgKey m).ctx ∧ x.lpart = (msgKey m).lpart ∧
      d = sendAnswer { b with buddy.held := b.buddy.held ++ [x] } p 5 (msgKey m) 0 off (msgBytes m))) ∧
  (∀ h m p b c, Does (.grant h m)
    (fun a => msgArrives 5 h m a p b ∧ ckptOfKey (settleRequest b 4 (msgKey m)) (msgKey m) = some c ∧ c.mirror = 1 ∧ msgStatus m = 0)
    (fun _ d => d = sendManifest ((List.range c.shards.length).foldl (fun a n => sendShard a c.ctx c.step n)
      (updCkpt (settleRequest b 4 (msgKey m)) c.ctx c.step (fun x => { x with mirror := 2, mirrorOff := msgOff m }))) c.ctx c.step)) ∧
  (∀ h m p b x, Does (.sealMsg h m) (fun a => msgArrives 6 h m a p b ∧ findHeld b (msgKey m) = some x ∧ x.isSealed = true)
    (fun _ d => d = sendAnswer b p 7 (msgKey m) 0 x.off x.bytes)) ∧
  (∀ h m p b c, Does (.sealed h m)
    (fun a => msgArrives 7 h m a p b ∧ ckptOfKey (settleRequest b 6 (msgKey m)) (msgKey m) = some c ∧ c.mirror = 3 ∧ msgStatus m = 0)
    (fun _ d => d = raiseCkpt (updCkpt (settleRequest b 6 (msgKey m)) c.ctx c.step (fun x => { x with mirror := 4, mirrored := true })) c 0x0911
      [(8, b.buddy.peer.getD 0)])) ∧
  (∀ h m p b r, Does (.found h m)
    (fun a => msgArrives 11 h m a p b ∧ b.restores.find? (fun r => r.stage == 5 && rKey r == msgKey m) = some r ∧ msgStatus m = 0)
    (fun _ d => d = readMore (settleRequest b 10 (msgKey m)) { r with base := msgOff m, size := msgBytes m })) ∧
  (∀ h va rkey len imm payload q b key, Does (.shardWriteImmediate h va rkey len imm payload)
    (fun a => arrives h a q b ∧ h.first = true ∧ h.last = true ∧ payload.length = len ∧ rdmaTarget b q rkey va len = some (key, none))
    (fun _ d => d = settleJobs (shardArrived imm (key + payload.length - areaKey)
      (takeInOrder (updQp (exWrite b key payload) q.qpn (fun x => { x with cur := none })) q.qpn 1 h))))

/-- PART_CREATE, PART_DESTROY, PART_RESIZE and PART_BIND, where their checks pass (15 R344, R345, R348, R353, R354). PART_CREATE lists an unbound partition with the
totals asked for under the number that has been free the longest, and opens its measurement record; PART_DESTROY ends every object of the partition, drops its row and starts clearing its memory;
PART_RESIZE and a PART_BIND that changes the binding wait for a boundary. REBIND_SWITCH ends a rebinding: the rings, the binding and the text rings turn, with EV_REBOUND, and PART_BIND completes. The model's own choices in it are log entries 7, 90, 91, 93, 94. -/
def Obligations.PartitionVerbsComplete : Prop :=
  VerbDoes .partCreate 0x0201 partCreateBody id (fun v a d => ∃ (x : Part) (kh : List Byte), longestFree a 0x10 (a.pool.parts.map (·.num)) 0 32 = some x.num ∧
    x.bound = none ∧ x.groups = fld v 16 4 ∧ x.slots = fld v 32 4 ∧ x.lexicons = fld v 36 1 ∧ x.grammars = fld v 37 1 ∧ x.ports = fld v 38 1 ∧
    x.qps = fld v 40 2 ∧ x.windows = fld v 42 2 ∧ x.keyId = kh.take 32 ∧ x.phraseNext = 1 ∧ x.ending = false ∧ x.log = [] ∧
    x.ddr = (freeDdr a).take (fld v 28 2) ∧ x.hbm = (List.range 8).flatMap (fun st => (freeHbm a st).take (fld v (20 + st) 1)) ∧
    (fld v 44 2 = 0 → x.ownerKey = [] ∧ kh = List.replicate 64 0) ∧ (fld v 44 2 ≠ 0 → kh = sha512 x.ownerKey) ∧
    d = finishOk (measure { a with pool.parts := a.pool.parts ++ [x] } x.num 1 x.num 0 kh) v [(8, 1, x.num), (12, 4, x.hbm.length), (16, 16, leNat (kh.take 16))]) ∧
  VerbDoes .partDestroy 0x0202 partDestroyBody id (fun v a d => ∃ x, checkPart a v (fld v 16 1) 16 = .ok x ∧
    (let p := fld v 16 1
     let b := endObjects (endContexts (nextRelease a) p) p
     let c := stampFree { b with pool.parts := dropWhere (fun y => y.num == p) b.pool.parts, flash.assigned := b.flash.assigned.filter (fun y => y.1 != p) } 0x10 p
     d = settleClearing (finishOk (startClearing c p v.op x.hbm x.ddr (if bitSet (fld v 17 1) 0 then [] else partFlash a p) none none) v
       [(8, 4, x.hbm.length), (12, 4, x.ddr.length)]) c.pool.clearSeq)) ∧
  VerbDoes .partResize 0x0203 partResizeBody id (fun v a d => d = registerOp a v (.resize v.seq) ∧ ∃ x, checkPart a v (fld v 46 1) 46 = .ok x ∧
    totalsCheck a (some x) (totalsOf v) = .ok ()) ∧
  VerbDoes .partBind 0x0204 partBindBody id (fun v a d => ∃ x, checkPart a v (fld v 16 1) 16 = .ok x ∧
    (x.bound = (if fld v 17 1 = 0xFF then none else some (fld v 17 1)) → d = finishOk a v [(8, 8, a.clk.count)]) ∧
    (x.bound ≠ (if fld v 17 1 = 0xFF then none else some (fld v 17 1)) → d = registerOp a v (.rebind v.seq))) ∧
  (∀ p r x, Does (.rebindSwitch p) (fun a => a.pool.rebinds.find? (fun y => y.part == p) = some r ∧ findPart a p = some x) (fun a d =>
    let b := (partRings a p).foldl (recopyRing (holdLd p x.bound) (holdLd p r.newLd)) a
    let c := updPart { b with
      pool.rebinds := dropWhere (fun y => y.part == p) b.pool.rebinds
      tur.rings := updWhere (fun y => !y.admin && y.part == p) (fun y => { y with ld := holdLd p r.newLd, holding := false }) b.tur.rings } p
      (fun y => { y with bound := r.newLd })
    let e := match r.newLd with | some n => setLastLd c p n | none => c
    let t := detachTexts (abortHostDrains (if x.bound.isNone then freeAllocs e (allocKey 0x2001 p) else e) p) p
    let g := if t.1 = 0 then t.2 else raise t.2 0x0511 (objPart p) (.part p) [(1, 1), (4, t.1)]
    let k := raise g 0x0211 (objPart p) (.part p) [(1, p), (1, x.bound.getD 0xFF), (1, r.newLd.getD 0xFF), (4, r.rings)]
    d = finishSeq ((partRings k p).foldl (fun z y => settleRing (drainHeld 65536 z y.num) y.num) k) r.seq stOk
      [(8, 8, r.point), (16, 4, r.rings), (20, 4, t.1)]))

/-- CTX_CREATE, CTX_DESTROY, SCRUB and IDENTITY_GET, where their checks pass, and ZERO_FILL_COMPLETE (15 R346, R349, R351, R352, R357). CTX_CREATE lists a context and its rings, with clear completion rings, and
writes the ring numbers; CTX_DESTROY ends the context and answers the sessions ended; SCRUB completes with ST_DEFERRED and starts the clearing; IDENTITY_GET writes the public key; the end of a zero-fill frees the granules, in HBM as near-bank operations that are counted (08 R174, R176). The model's own choices in it are log entries 7, 91, 92, 95. -/
def Obligations.ContextAndScrubComplete : Prop :=
  VerbDoes .ctxCreate 0x0205 ctxCreateBody id (fun v a d => ∃ x c nums ld tb, checkPart a v (fld v 16 1) 16 = .ok x ∧ x.bound = some ld ∧
    longestFree a 0x0F (a.pool.ctxs.map (·.id)) (64 * fld v 16 1) 64 = some c ∧ takeRings a (fld v 17 1) [] = some nums ∧
    argRead a v (fld v 24 8) (32 * fld v 17 1) = .ok tb ∧
    (let rs := (nums.zip (chunksOf 32 (fld v 17 1) tb)).map (fun y => newRing y.1 ld (fld v 16 1) c y.2)
     let e := { a with pool.ctxs := a.pool.ctxs ++ [⟨c, if fld v 18 1 = 0 then 16 else fld v 18 1, 0, false⟩], tur.rings := a.tur.rings ++ rs }
     let z := rs.foldl (fun b r => exZero b (exKey ld r.cqOff) (32 * 2 ^ r.depthLog2)) e
     d = finishOk (((List.range (fld v 17 1)).zip nums).foldl (fun b y => outWrite b v (fld v 24 8 + 32 * y.1 + 20) (natLe y.2 2)) z) v [(8, 2, c)])) ∧
  VerbDoes .ctxDestroy 0x0206 ctxDestroyBody id (fun v a d =>
    d = finishOk (endContext (nextRelease a) (fld v 16 2)).2 v [(8, 4, (endContext (nextRelease a) (fld v 16 2)).1)]) ∧
  VerbDoes .scrub 0x0207 scrubBody id (fun v a d =>
    (fld v 16 1 = 1 → d = scrubPart (finish a v stDeferred 0xFF []) (fld v 17 1) v.op (bitSet (fld v 18 1) 0) (some (v.ring, fld v 4 4))
      (if v.ring = 0xFFFF then some v.ld else none)) ∧
    (fld v 16 1 = 0 → d = settleClearing (startClearing (finish a v stDeferred 0xFF []) 0 v.op ((List.range 8).flatMap (freeHbm a)) (freeDdr a) []
      (some (v.ring, fld v 4 4)) none) a.pool.clearSeq)) ∧
  VerbDoes .identityGet 0x010C identityGetBody id (fun v a d =>
    (canSign a = true → a.boot.publicKey ≠ [] → d = finishOk (outWrite a v (fld v 24 8) a.boot.publicKey) v
      [(8, 1, a.boot.identity), (10, 2, a.boot.publicKey.length), (16, 16, leNat ((sha512 a.boot.publicKey).take 16))]) ∧
    (canSign a = false → d = finishOk a v [(8, 1, a.boot.identity), (10, 2, 0), (16, 16, 0)])) ∧
  (∀ rel c, Does (.zeroFillComplete rel true) (fun a => a.pool.clearings.find? (fun x => x.rel == rel) = some c ∧ c.ddr ≠ [])
    (fun a d => d = updClearing a rel (fun x => { x with ddr := [] }))) ∧
  (∀ rel c, Does (.zeroFillComplete rel false) (fun a => a.pool.clearings.find? (fun x => x.rel == rel) = some c ∧ c.hbm ≠ [])
    (fun a d => d = updClearing (c.hbm.foldl countFill a) rel (fun x => { x with hbm := [] })))

/-- PORT_SET, QP_CREATE, QP_MODIFY and QP_DESTROY, where their checks pass (16 R386, R387). PORT_SET sets a port's mode, a sub-port's addresses or its class settings from its block, brings a port to training or takes it down, and reports
the state; a QP is created in INIT, connected to RTS, put to ERROR, reset to INIT with a new PSN, given a rate, or removed. WINDOW_OPEN and WINDOW_CLOSE, where their checks pass (16 R388): a window is opened open, with its memory charged, its first contents free and an RKEY whose upper half is its number; a close ends its accesses at once and completes
when the jobs that it launched have. The model's own choices in it are log entries 7, 72, 76, 77. -/
def Obligations.PortQpAndWindowVerbsComplete : Prop :=
  VerbDoes .portSet 0x0A01 portSetBody id (fun v a d => ∃ p b bs, findPort a (fld v 16 1 / 4) = some p ∧
    blockArg a v (if fld v 17 1 ≤ 3 then 256 else 0) = .ok bs ∧ d = finishOk b v (portReport b (fld v 16 1 / 4)) ∧
    (fld v 17 1 = 1 → portUsed a (fld v 16 1 / 4) = false ∧ p.state = 0 ∧ b = updPort a (fld v 16 1 / 4) (fun x => { x with
      configured := true, split := fieldAt bs 0 1, media := fieldAt bs 1 1, autoneg := bitSet (fieldAt bs 2 1) 0
      degrade := bitSet (fieldAt bs 2 1) 1, half := none })) ∧
    (fld v 17 1 = 2 → p.configured = true ∧ b = updSub a (fld v 16 1) (fun x => { x with
      mac := fieldAt bs 8 6, vlan := fieldAt bs 14 2, ipv4 := fieldAt bs 16 4, ipv6 := fieldAt bs 20 16 })) ∧
    (fld v 17 1 = 3 → p.configured = true ∧ b = updSub a (fld v 16 1) (fun x => { x with newCls := some (classCfgOf bs) })) ∧
    (fld v 17 1 = 4 → p.configured = true ∧ b = if p.state = 0 then updPort a (fld v 16 1 / 4) (fun x => { x with state := 1 }) else a) ∧
    (fld v 17 1 = 5 → portUsed a (fld v 16 1 / 4) = false ∧
      b = updPort (portStop a (fld v 16 1 / 4)) (fld v 16 1 / 4) (fun x => { x with state := 0, half := none, badLanes := [] }))) ∧
  VerbDoes .qpCreate 0x0A02 qpCreateBody id (fun v a d => ∃ (p : Part) (n : Nat) (b : Dev) (q : Qp), findPart a (ctxPart (ctxField v)) = some p ∧ takeQpn a = some (n, b) ∧
    (a.net.qps.filter (fun x => x.part == some p.num)).length < p.qps ∧
    q = newQp (drawNat b).2 n (some p.num) (ctxField v) (fld v 16 1) (fld v 17 1) (512 * 2 ^ fld v 18 1) (fld v 19 1) (fld v 20 4) ((drawNat b).1 % 2 ^ 24) ∧
    q.state = 0 ∧
    d = finishOk (setOwner { (drawNat b).2 with net.qps := (drawNat b).2.net.qps ++ [q] } 0x0D (n % 16384) (ctxField v)) v [(8, 4, n), (12, 4, q.startPsn)]) ∧
  VerbDoes .qpModify 0x0A03 qpModifyBody id (fun v a d => ∃ q b psn, checkQp a v = .ok q ∧
    d = finishOk b v [(8, 1, match findQp b q.qpn with | some x => x.state | none => 0), (12, 4, psn)] ∧
    (fld v 20 1 = 1 → q.state = 0 ∧ psn = 0 ∧ b = qpConnect a q (fld v 21 1) (fld v 22 1 % 8) (fld v 22 1 / 8) (fld v 24 4) (fld v 28 4) (fld v 32 6)
      (fld v 40 16) (fld v 38 2)) ∧
    (fld v 20 1 = 2 → psn = 0 ∧ b = qpError a q.qpn 4) ∧
    (fld v 20 1 = 3 → q.state = 2 ∧ psn = (drawNat a).1 % 2 ^ 24 ∧
      b = updQp (drawNat a).2 q.qpn (fun x => { x with state := 0, startPsn := psn, nextPsn := psn })) ∧
    (fld v 20 1 = 4 → psn = 0 ∧ b = updQp a q.qpn (fun x => { x with newMax := some (fld v 24 4) }))) ∧
  VerbDoes .qpDestroy 0x0A04 qpDestroyBody id (fun v a d => ∃ q, checkQp a v = .ok q ∧ a.net.windows.any (fun w => w.qpn == q.qpn) = false ∧
    d = finishOk (dropQp (nextRelease a) q.qpn) v []) ∧
  VerbDoes .windowOpen 0x0A05 windowOpenBody id (fun v a d => ∃ (q : Qp) (id r : Nat) (bs : List Byte) (b c : Dev) (w : Window), checkQp a v = .ok q ∧ q.state ≠ 2 ∧
    longestFree a 0x0E (a.net.windows.map (·.id)) 0 65535 = some id ∧
    allocMost a (ctxPart (ctxField v)) (fld v 20 4 * 1024) (allocKey 0x0E id) 0 = some b ∧
    r = (drawNat b).1 % 2 ^ 16 ∧ (bs, c) = drawBytes (drawNat b).2 (fld v 20 4 * 1024) ∧
    w = { id := id, part := ctxPart (ctxField v), ctx := ctxField v, qpn := q.qpn, size := fld v 20 4 * 1024, va := fld v 48 8, rkey := id * 2 ^ 16 + r
          cq := bitSet (fld v 26 1) 0, ret := bitSet (fld v 26 1) 1, readOk := bitSet (fld v 26 1) 2, prio := fld v 26 1 / 8 % 4, ring := fld v 28 2
          raddr := fld v 32 8, rrkey := fld v 40 4, closed := false, closing := none, done := 0, returned := [] } ∧
    d = finishOk (setOwner (exWrite { c with net.windows := c.net.windows ++ [w] } (windowKey id) bs) 0x0E id (ctxField v)) v [(8, 2, id), (12, 4, w.rkey)]) ∧
  VerbDoes .windowClose 0x0A06 windowCloseBody id (fun v a d => fld v 16 2 ≠ 0xFFFF ∧
    d = settleWindow (keepRunning (updWindow (nextRelease a) (fld v 16 2) (fun w => { w with closed := true, closing := some v.seq })) v) (fld v 16 2))

/-- SHAPER_SET, POLICER_SET, GATE_LIST_SET, QUEUE_STATS and LATENCY_PROBE_SET, where their checks pass (16 R389-R392): a shaper or a meter waits for the next refill; a gate list is gathered, or with its last part becomes pending with
ST_DEFERRED; QUEUE_STATS writes one block for each class asked for and with its flag clears the histograms; a probe is set or ended, and with its flag the histograms that it fills are cleared. The model's own choices in it are log entries 7, 77, 94. -/
def Obligations.TrafficVerbsComplete : Prop :=
  VerbDoes .shaperSet 0x0A07 shaperSetBody id (fun v a d => ∃ (p : Part) (c : ShaperCfg) (f : SubPort → SubPort), checkPart a v (fld v 17 1) 17 = .ok p ∧
    c = { cir := fld v 20 4, cbs := fld v 24 4, pir := fld v 28 4, pbs := fld v 32 4, overhead := toSigned 8 (fld v 19 1) } ∧
    d = keepRunning { updSub a (fld v 16 1) f with net.shaperWaits := a.net.shaperWaits ++ [v.seq] } v ∧
    (fld v 18 1 = 8 → ∀ x, f x = { x with
      partShapers := upsert (fun (z : Nat × Shaper) => z.1 == p.num) (p.num, { partShaper x p.num with new := some c }) x.partShapers }) ∧
    (fld v 18 1 ≠ 8 → ∀ x, f x = putQueue x { queueOf x p.num (fld v 18 1) with
      shaper := { (queueOf x p.num (fld v 18 1)).shaper with new := some c }
      newQuantum := if fld v 36 4 = 0 then (queueOf x p.num (fld v 18 1)).newQuantum else some (fld v 36 4) })) ∧
  VerbDoes .policerSet 0x0A08 policerSetBody id (fun v a d => ∃ (p : Part) (m : Meter), checkPart a v (fld v 17 1) 17 = .ok p ∧
    m = { part := p.num, cls := fld v 18 1, mode := fld v 19 1 % 4, aware := bitSet (fld v 19 1) 2, cir := fld v 20 4, cbs := fld v 24 4
          pir := fld v 28 4, pbs := fld v 32 4, yellow := fld v 36 1, red := fld v 37 1, tc := 0, tp := 0, last := a.tim.elapsed } ∧
    d = keepRunning { a with net.meterWaits := a.net.meterWaits ++ [(fld v 16 1, { seq := v.seq, meter := m })] } v) ∧
  VerbDoes .gateListSet 0x0A09 gateListBody id (fun v a d => ∃ (x : SubPort) (bs : List Byte) (g : Option Gather),
    findSub a (fld v 16 1) = some x ∧ blockArg a v (8 * fld v 22 2) = .ok bs ∧
    g = gatherPart x (fld v 17 1) (fld v 18 2) (gateEntries bs (fld v 20 2) (fld v 22 2)).1 ∧
    (bitSet (fld v 17 1) 1 = false → d = finishOk (updSub a (fld v 16 1) (fun y => { y with gather := g })) v []) ∧
    (bitSet (fld v 17 1) 1 = true →
      d = finish (updSub (match x.pendGate with | some q => deferredDone a q.ring q.tag 0x0A09 stAborted objDevice .device [] | none => a) (fld v 16 1)
        (fun y => { y with
          pendGate := some { base := fld v 24 8, entries := (g.map gatherList).getD [], ring := v.ring, tag := fld v 4 4 }
          gather := none })) v stDeferred 0xFF [(8, 8, fld v 24 8)])) ∧
  VerbDoes .queueStats 0x0A0A queueStatsBody id (fun v a d => ∃ p x b, checkPart a v (fld v 17 1) 17 = .ok p ∧ findSub a (fld v 16 1) = some x ∧
    (let out := outWrite a v (fld v 24 8) (((List.range 8).filter (bitSet (fld v 18 1))).flatMap (statsBlock x a.tim.elapsed p.num))
     (bitSet (fld v 19 1) 0 = false → b = out) ∧
     (bitSet (fld v 19 1) 0 = true → b = updSub out (fld v 16 1) (fun y => ((List.range 8).filter (bitSet (fld v 18 1))).foldl
       (fun (z : SubPort) c => putQueue z (clearHist (queueOf z p.num c))) y)) ∧
     d = finishOk b v [(8, 1, match findPort b (fld v 16 1 / 4) with | some z => z.state | none => 0)])) ∧
  VerbDoes .latencyProbeSet 0x0B04 probeSetBody id (fun v a d => ∃ f : SubPort → SubPort, d = finishOk (updSub a (fld v 16 1) f) v [] ∧
    ∀ x, f x = { (if bitSet (fld v 19 1) 0 then (selected (fld v 17 1) (fld v 18 1)).foldl
        (fun (z : SubPort) k => putQueue z (clearHist (queueOf z k.1 k.2))) x else x) with
      probe := if fld v 20 4 = 0 then none
        else some { part := fld v 17 1, mask := fld v 18 1, period := fld v 20 4, next := a.tim.now + fld v 20 4 } })

/-- The requests of peers, each where it arrives in order (16 R370, R372, 14 R328): a WRITE places its bytes and takes its PSN; the last packet of a WRITE with immediate on a window launches the job that the immediate names; a READ of a
readable region is answered under the request's PSNs; an access that reaches no open region, or a READ where none is allowed, gets an access NAK, and a launch past 64 jobs or with power failing an RNR NAK; a SEND on a partition's QP gets an invalid-request NAK, and on a buddy QP is a control message. A packet ahead of the expected PSN gets one sequence-error NAK, whatever it is. The model's own choices in it are log entries 70, 72, 74, 75, 79. -/
def Obligations.PeerRequestsAreServed : Prop :=
  (∀ h va rkey n data q b addr k left key w, Does (.rdmaWriteReceive h va rkey n data)
    (fun a => arrives h a q b ∧ (if h.first then some (va, rkey, n) else q.cur) = some (addr, k, left) ∧ data.length ≤ left ∧
      (h.last = true → data.length = left) ∧ rdmaTarget b q k addr left = some (key, w))
    (fun _ d => d = takeInOrder (updQp (exWrite b key data) q.qpn (fun x => { x with
      cur := if h.last then none else some (addr + data.length, k, left - data.length) })) q.qpn 1 h)) ∧
  (∀ h va rkey n imm data q b addr k left key w, Does (.writeWithImmediate h va rkey n imm data)
    (fun a => arrives h a q b ∧ (if h.first then some (va, rkey, n) else q.cur) = some (addr, k, left) ∧ h.last = true ∧ data.length = left ∧
      rdmaTarget b q k addr left = some (key, some w) ∧ (0 < imm / 2 ^ 28 → launchedJobs b w.id < 64 ∧ b.boot.powerFail = false))
    (fun _ d => d = settleJobs (launch (takeInOrder (updQp (exWrite b key data) q.qpn (fun x => { x with cur := none })) q.qpn 1 h) w q imm))) ∧
  (∀ h va rkey n imm data q b addr k left key w, Does (.writeWithImmediate h va rkey n imm data)
    (fun a => arrives h a q b ∧ (if h.first then some (va, rkey, n) else q.cur) = some (addr, k, left) ∧ h.last = true ∧ data.length = left ∧
      rdmaTarget b q k addr left = some (key, some w) ∧ launches w imm = true ∧ (64 ≤ launchedJobs b w.id ∨ b.boot.powerFail = true))
    (fun _ d => d = settleJobs (sendNak b q.qpn (.rnr 10000)))) ∧
  (∀ h va rkey n data q b addr k left, q.part.isSome = true → Does (.rdmaWriteReceive h va rkey n data)
    (fun a => arrives h a q b ∧ (if h.first then some (va, rkey, n) else q.cur) = some (addr, k, left) ∧ data.length ≤ left ∧
      (h.last = true → data.length = left) ∧ rdmaTarget b q k addr left = none)
    (fun _ d => d = refuse b q.qpn .nakAccess)) ∧
  (∀ h va rkey len q b key w, Does (.rdmaReadRequest h va rkey len)
    (fun a => arrives h a q b ∧ rdmaTarget b q rkey va len = some (key, w) ∧ (∀ x, w = some x → x.readOk = true))
    (fun _ d => d = updQp (readAnswer b q (h.psn % 2 ^ 24) key len) q.qpn (fun x => { x with
      expPsn := (x.expPsn + Nat.max 1 (ceilDiv len q.pmtu)) % 2 ^ 24, nakSent := false, msn := (x.msn + 1) % 2 ^ 24, ackDue := 0, ackSince := none }))) ∧
  (∀ h va rkey len q b, Does (.rdmaReadRequest h va rkey len)
    (fun a => arrives h a q b ∧ (rdmaTarget b q rkey va len = none ∨ ∃ key x, rdmaTarget b q rkey va len = some (key, some x) ∧ x.readOk = false))
    (fun _ d => d = refuse b q.qpn .nakAccess)) ∧
  (∀ h m q b, Does (.sendReceive h m) (fun a => arrives h a q b ∧ q.part.isSome = true) (fun _ d => d = refuse b q.qpn .nakInvalid)) ∧
  (∀ h m q b p, Does (.sendReceive h m)
    (fun a => arrives h a q b ∧ q.part = none ∧ (takeInOrder b q.qpn 1 h).buddy.ports.find? (fun x => x.qpn == q.qpn) = some p)
    (fun _ d => d = onControl restoreFound p m (takeInOrder b q.qpn 1 h))) ∧
  (∀ h va rkey n data q b, Does (.rdmaWriteReceive h va rkey n data)
    (fun a => rxPacket a h = (some q, b) ∧ psnPlace q h.psn = 1 ∧ q.nakSent = false)
    (fun _ d => d = sendNak (updQp (ceSeen b q h) q.qpn (fun x => { x with nakSent := true })) q.qpn .nakSeq))

/-- What a peer answers (16 R368, R369, R378): READ data goes to the read that it continues, and the whole of it to the operation that asked; an ACK frees what it acknowledges; a sequence NAK resends, an RNR NAK waits its
time while RNR retries are left and else ends the QP in ERROR, and any other NAK ends the QP in ERROR; a CNP cuts the rate to rate × (1 - alpha/2), not below RATE_MIN. The model's own choices in it are log entries 70, 71, 72, 77. -/
def Obligations.PeerAnswersAreTaken : Prop :=
  (∀ h data q b r, Does (.rdmaReadResponse h data)
    (fun a => rxPacket a h = (some q, b) ∧ q.reads.find? (fun r => (r.psn + r.got.length / Nat.max 1 q.pmtu) % 2 ^ 24 == h.psn % 2 ^ 24) = some r ∧
      ((r.got ++ data).take r.len).length < r.len)
    (fun _ d => d = updQp (ceSeen b q h) q.qpn (fun x => { x with
      reads := updWhere (fun y => y == r) (fun y => { y with got := (r.got ++ data).take r.len }) x.reads }))) ∧
  (∀ h data q b r seq n, Does (.rdmaReadResponse h data)
    (fun a => rxPacket a h = (some q, b) ∧ q.reads.find? (fun r => (r.psn + r.got.length / Nat.max 1 q.pmtu) % 2 ^ 24 == h.psn % 2 ^ 24) = some r ∧
      ((r.got ++ data).take r.len).length = r.len ∧ r.why = .restore seq n)
    (fun _ d => d = restoreData seq ((r.got ++ data).take r.len)
      (qpProgress (updQp (ceSeen b q h) q.qpn (fun x => { x with reads := dropWhere (fun y => y == r) x.reads })) q.qpn (h.psn % 2 ^ 24)))) ∧
  (∀ h q b, Does (.ackReceive h) (fun a => rxPacket a h = (some q, b)) (fun _ d => d = qpProgress (ceSeen b q h) q.qpn (h.psn % 2 ^ 24))) ∧
  (∀ h t q b, Does (.nakReceive h 0 t) (fun a => rxPacket a h = (some q, b))
    (fun _ d => d = qpRetry (qpProgress (countSub (ceSeen b q h) q.sub 15 1) q.qpn ((h.psn + 2 ^ 24 - 1) % 2 ^ 24)) q.qpn 1)) ∧
  (∀ h t q b y, Does (.nakReceive h 1 t)
    (fun a => rxPacket a h = (some q, b) ∧
      findQp (qpProgress (countSub (ceSeen b q h) q.sub 15 1) q.qpn ((h.psn + 2 ^ 24 - 1) % 2 ^ 24)) q.qpn = some y ∧ (y.rnrCfg = 7 ∨ 0 < y.rnrLeft))
    (fun _ d => d = updQp (qpProgress (countSub (ceSeen b q h) q.sub 15 1) q.qpn ((h.psn + 2 ^ 24 - 1) % 2 ^ 24)) q.qpn (fun x => { x with
      rnrLeft := if x.rnrCfg = 7 then x.rnrLeft else x.rnrLeft - 1
      rnrUntil := some ((qpProgress (countSub (ceSeen b q h) q.sub 15 1) q.qpn ((h.psn + 2 ^ 24 - 1) % 2 ^ 24)).tim.elapsed + t), ackStart := none }))) ∧
  (∀ h t q b y, Does (.nakReceive h 1 t)
    (fun a => rxPacket a h = (some q, b) ∧
      findQp (qpProgress (countSub (ceSeen b q h) q.sub 15 1) q.qpn ((h.psn + 2 ^ 24 - 1) % 2 ^ 24)) q.qpn = some y ∧ y.rnrCfg ≠ 7 ∧ y.rnrLeft = 0)
    (fun _ d => d = qpError (qpProgress (countSub (ceSeen b q h) q.sub 15 1) q.qpn ((h.psn + 2 ^ 24 - 1) % 2 ^ 24)) q.qpn 2)) ∧
  (∀ h code t q b, 2 ≤ code → Does (.nakReceive h code t) (fun a => rxPacket a h = (some q, b))
    (fun _ d => d = qpError (countSub (ceSeen b q h) q.sub 15 1) q.qpn 3)) ∧
  (∀ h q b s, Does (.cnpReceive h) (fun a => rxPacket a h = (some q, b) ∧ findSub (countSub b q.sub 13 1) q.sub = some s)
    (fun _ d =>
      let al := dyAdd (dyMul (dyOneMinus (dyNat 1) (orDefault s.cls.gShift 8)) q.alpha) ⟨1, orDefault s.cls.gShift 8⟩
      d = updQp (countSub b q.sub 13 1) q.qpn (fun x => { x with
        alpha := al, target := x.rate, rate := dyMax (dyNat (orDefault s.cls.rateMin 100)) (dyMul q.rate (dyOneMinus al 1)), quiet := 0, cnpSeen := true })))

/-- The other frames of a sub-port that is up (16 R366, R377): an ARP request or a neighbor solicitation for the sub-port's own address is answered, for any other dropped and counted; a frame of another kind is counted by its cause; PFC starts or ends the pause of
each class named that has PFC on. The model's own choices in it are log entries 72, 77. -/
def Obligations.OtherFramesAreHandled : Prop :=
  (∀ s len mac ip x, Does (.arpRequest s len mac ip x.ipv4) (fun a => findSub a s = some x ∧ x.up = true ∧ x.ipv4 ≠ 0)
    (fun a d => d = sendCtl (countSub (countSub a s 1 1) s 3 len) s (.arpReply mac ip))) ∧
  (∀ s len mac ip t x, Does (.arpRequest s len mac ip t) (fun a => findSub a s = some x ∧ x.up = true ∧ (x.ipv4 = 0 ∨ x.ipv4 ≠ t))
    (fun a d => d = countSub (countSub (countSub a s 1 1) s 3 len) s 7 1)) ∧
  (∀ s len mac ip x, Does (.neighborSolicitation s len mac ip x.ipv6) (fun a => findSub a s = some x ∧ x.up = true ∧ x.ipv6 ≠ 0)
    (fun a d => d = sendCtl (countSub (countSub a s 1 1) s 3 len) s (.neighborAdv mac ip))) ∧
  (∀ s len ok x, Does (.otherFrameReceive s len ok) (fun a => findSub a s = some x ∧ x.up = true)
    (fun a d => d = countSub (countSub (countSub a s 1 1) s 3 len) s (if !ok then 5 else if 4224 < len then 6 else 7) 1)) ∧
  (∀ s len mac ip t x, Does (.neighborSolicitation s len mac ip t) (fun a => findSub a s = some x ∧ x.up = true ∧ (x.ipv6 = 0 ∨ x.ipv6 ≠ t))
    (fun a d => d = countSub (countSub (countSub a s 1 1) s 3 len) s 7 1)) ∧
  (∀ s len cs x, Does (.pfcFrameReceive s len cs) (fun a => findSub a s = some x ∧ x.up = true ∧ ∀ y ∈ cs, y.1 < 8)
    (fun a d => d = updSub (countSub (countSub (countSub a s 1 1) s 3 len) s 11 1) s (fun y => cs.foldl (fun (z : SubPort) e =>
      if bitSet z.cls.pfcMask e.1 = false then z else if e.2 = 0 then pauseEnd z e.1 a.tim.elapsed
      else { pauseBegin z e.1 a.tim.elapsed with
        pauseUntil := setPair (pauseBegin z e.1 a.tim.elapsed).pauseUntil e.1 (a.tim.elapsed + quantaNs e.2 (subRate a s)) }) y)))

/-- The timers of a QP (16 R369, R378): each acts once its time has come. A lapsed ACK timer takes a retry; an RNR wait that is over resends; an ACK that is due for 2 µs is sent; the recovery period of a QP below its maximum
rate halves the distance to the target, which rises after five quiet periods; the pacer moves the first waiting packet into its class queue and sets the time of the next by the rate. The model's own choices in it are log entries 70, 71. -/
def Obligations.QpTimersAct : Prop :=
  (∀ n dt q t, Does (.ackTimeout n dt)
    (fun a => findQp (advance a dt) n = some q ∧ q.state = 1 ∧ q.ackStart = some t ∧ t + 4096 * 2 ^ q.timeout ≤ (advance a dt).tim.elapsed)
    (fun a d => d = qpRetry (advance a dt) n 1)) ∧
  (∀ n dt q t, Does (.rnrRetryExpiry n dt)
    (fun a => findQp (advance a dt) n = some q ∧ q.rnrUntil = some t ∧ t ≤ (advance a dt).tim.elapsed)
    (fun a d => d = qpResend (updQp (advance a dt) n (fun x => { x with rnrUntil := none })) n)) ∧
  (∀ n dt q t, Does (.ackCoalesceExpiry n dt)
    (fun a => findQp (advance a dt) n = some q ∧ q.ackSince = some t ∧ t + 2000 ≤ (advance a dt).tim.elapsed)
    (fun a d => d = sendAck (advance a dt) n)) ∧
  (∀ n dt q s, Does (.tIncExpiry n dt)
    (fun a => findQp (advance a dt) n = some q ∧ findSub (advance a dt) q.sub = some s ∧ q.state = 1 ∧ q.tIncAt ≤ (advance a dt).tim.elapsed)
    (fun a d =>
      let x : Qp := { q with
        alpha := if q.cnpSeen then q.alpha else dyMul (dyOneMinus (dyNat 1) (orDefault s.cls.gShift 8)) q.alpha
        cnpSeen := false, maxRate := q.newMax.getD q.maxRate, newMax := none, tIncAt := q.tIncAt + 1000 * orDefault s.cls.tIncUs 55 }
      let m := dyNat (qpMaxRate (advance a dt) x)
      let t := if 5 < q.quiet + 1 then dyMin m (dyAdd q.target (dyNat (orDefault s.cls.rAi 5000))) else q.target
      (dyLe m q.rate = true → d = updQp (advance a dt) n (fun _ => { x with rate := dyMin q.rate m })) ∧
      (dyLe m q.rate = false →
        d = updQp (advance a dt) n (fun _ => { x with quiet := q.quiet + 1, target := t, rate := dyMin m (dyMul (dyAdd q.rate t) ⟨1, 1⟩) })))) ∧
  (∀ n dt q p rest, Does (.qpPacerRelease n dt)
    (fun a => findQp (advance a dt) n = some q ∧ q.outq = p :: rest ∧ q.state = 1 ∧ q.readyAt ≤ (advance a dt).tim.elapsed ∧ q.rnrUntil = none ∧
      (tracked p.kind = true → unackedBytes q + p.len ≤ 4 * 2 ^ 20))
    (fun a d =>
      let b := updQp (advance a dt) n (fun x => { x with
        outq := rest
        readyAt := (advance a dt).tim.elapsed + ceilDiv (p.len * 8000 * 2 ^ q.rate.e) (Nat.max 1 q.rate.m)
        unacked := if tracked p.kind then x.unacked ++ [p] else x.unacked
        ackStart := if tracked p.kind then some (x.ackStart.getD (advance a dt).tim.elapsed) else x.ackStart })
      d = updSub b q.sub (fun s => putQueue s { queueOf s (qpQueue q) q.cls with
        frames := (queueOf s (qpQueue q) q.cls).frames ++ [{ pkt := p, at' := (advance a dt).tim.elapsed }] })))

/-- The timers and the buffers of a sub-port (16 R366, R377, R379-R385). A control frame starts before any queue on an idle sub-port, and with none the frame at the front of the queue that the scheduler picks, charged to its deficit, shapers and counters; a refill takes up new shaper settings, fills every bucket and completes the verbs that wait, with the meters that wait full; a gate entry that has run
gives way to the next; a pending list takes over at its base time; a probe samples the queues it selects; a pause that is over ends; XOFF is repeated at half its time; a class paused for 100 ms is reported once; the ingress buffer drains from its oldest packet, with XON sent when the class falls below its threshold. Training and lane failures (16 R365, R386): a trained single sub-port comes up with EV_PORT_UP, and one that failed to train is reported down with cause 2; a lane that fails at a port whose degrading is off, or which has no whole half left, takes its sub-port down with EV_PORT_DOWN; with degrading on
and the other half clean, the port goes on with that half and EV_PORT_DEGRADED.
Either way the lane is reported (18 R425). The model's own choices in it are log entries 72, 78, 104. -/
def Obligations.SubPortTimersAndTraining : Prop :=
  (∀ s dt x f rest, Does (.egressFrameStart s dt)
    (fun a => findSub (advance a dt) s = some x ∧ x.up = true ∧ x.busyUntil ≤ (advance a dt).tim.elapsed ∧ x.ctl = f :: rest)
    (fun a d => d = startFrame (updSub (advance a dt) s (fun y => { y with ctl := rest })) s f (ctlLen f))) ∧
  (∀ s dt x q f rest, Does (.egressFrameStart s dt)
    (fun a => findSub (advance a dt) s = some x ∧ x.up = true ∧ x.busyUntil ≤ (advance a dt).tim.elapsed ∧ x.ctl = [] ∧
      pickQueue x (subRate (advance a dt) s) (advance a dt).tim.elapsed = some q ∧ q.frames = f :: rest)
    (fun a d => d = startFrame (updSub (advance a dt) s (fun y => { putQueue y { q with
        frames := rest
        deficit := if rest.isEmpty then 0 else q.deficit - countedLen q.shaper f.pkt.len
        shaper := shaperCharge q.shaper f.pkt.len
        txFrames := satAdd q.txFrames 1
        txBytes := (q.txBytes + f.pkt.len) % 2 ^ 64 } with
      turn := setPair y.turn q.cls q.part
      partShapers := upsert (fun (z : Nat × Shaper) => z.1 == q.part) (q.part, shaperCharge (partShaper x q.part) f.pkt.len) y.partShapers })) s
      (.rdma f.pkt) f.pkt.len)) ∧
  (∀ dt, Does (.shaperRefill dt) (fun a => (advance a dt).net.refillAt ≤ (advance a dt).tim.now)
    (fun a d => ∃ b : Dev,
      b = (advance a dt).net.meterWaits.foldl (fun (c : Dev) x => updSub c x.1 (fun y => { y with
          meters := upsert (fun (z : Meter) => z.part == x.2.meter.part && z.cls == x.2.meter.cls)
            { x.2.meter with tc := x.2.meter.cbs * 8000, tp := x.2.meter.pbs * 8000, last := c.tim.elapsed } y.meters }))
        { advance a dt with
          net.subs := (advance a dt).net.subs.map refillSub, net.refillAt := ((advance a dt).tim.now / 1000 + 1) * 1000 } ∧
      d = (b.net.shaperWaits ++ b.net.meterWaits.map (·.2.seq)).foldl
        (fun c q => match findVerb c q with | some v => finishOk c v [(8, 8, c.tim.now)] | none => c)
        { b with net.shaperWaits := [], net.meterWaits := [] })) ∧
  (∀ s dt x g, Does (.gateEntryExpiry s dt)
    (fun a => findSub (advance a dt) s = some x ∧ x.gates[x.gateIdx]? = some g ∧ x.gateStart + g.2 ≤ (advance a dt).tim.elapsed)
    (fun a d => d = updSub (advance a dt) s (fun y => gateAccount { y with
      gateIdx := if y.gateIdx + 1 = y.gates.length then 0 else y.gateIdx + 1, gateStart := y.gateStart + g.2 } (advance a dt).tim.elapsed))) ∧
  (∀ s dt x p, Does (.gateListTakeover s dt)
    (fun a => findSub (advance a dt) s = some x ∧ x.pendGate = some p ∧ p.base ≤ (advance a dt).tim.now)
    (fun a d => d = deferredDone (updSub (advance a dt) s (fun y => gateAccount { y with
      gates := p.entries, gateIdx := 0, gateStart := (advance a dt).tim.elapsed, pendGate := none } (advance a dt).tim.elapsed))
      p.ring p.tag 0x0A09 stOk objDevice .device [])) ∧
  (∀ s dt x p, Does (.latencyProbeSample s dt)
    (fun a => findSub (advance a dt) s = some x ∧ x.probe = some p ∧ p.next ≤ (advance a dt).tim.now)
    (fun a d => d = updSub (advance a dt) s (fun x => { (selected p.part p.mask).foldl
        (fun (b : SubPort) k => putQueue b (sampleQueue (advance a dt).tim.elapsed (queueOf b k.1 k.2))) x with
      probe := some { p with next := p.next + (((advance a dt).tim.now - p.next) / Nat.max 1 p.period + 1) * p.period } }))) ∧
  (∀ s c dt x t, Does (.pfcPauseExpiry s c dt)
    (fun a => findSub (advance a dt) s = some x ∧ pairOf x.pauseUntil c = some t ∧ t ≤ (advance a dt).tim.elapsed)
    (fun a d => d = updSub (advance a dt) s (fun y => pauseEnd y c (advance a dt).tim.elapsed))) ∧
  (∀ s c dt x t, Does (.pfcXoffRefresh s c dt)
    (fun a => findSub (advance a dt) s = some x ∧ pairOf x.xoff c = some t ∧ t ≤ (advance a dt).tim.elapsed)
    (fun a d => d = sendPfc (updSub (advance a dt) s (fun y => { y with
      xoff := setPair y.xoff c (t + quantaNs 0xFFFF (subRate (advance a dt) s) / 2) })) s c 0xFFFF)) ∧
  (∀ s c dt x t, Does (.pauseHeldTimeout s c dt)
    (fun a => findSub (advance a dt) s = some x ∧ pairOf x.pauseSince c = some t ∧ t + 100000000 ≤ (advance a dt).tim.elapsed ∧ x.pauseHeld.contains c = false)
    (fun a d => d = raiseDev (updSub (advance a dt) s (fun y => { y with pauseHeld := c :: y.pauseHeld })) 0x0A14 [(1, s / 4), (1, s % 4), (1, c)])) ∧
  (∀ s x p rest, Does (.ingressBufferDrain s)
    (fun a => findSub a s = some x ∧ x.ingress = p :: rest ∧ pairOf x.xoff p.1 = none)
    (fun a d => d = updSub a s (fun _ => { x with ingress := rest }))) ∧
  (∀ s x p rest, Does (.ingressBufferDrain s)
    (fun a => findSub a s = some x ∧ x.ingress = p :: rest ∧ (pairOf x.xoff p.1).isSome = true ∧
      classBytes { x with ingress := rest } p.1 < x.cls.xonKib * 1024)
    (fun a d => d = sendPfc (updSub (updSub a s (fun _ => { x with ingress := rest })) s (fun z => { z with xoff := dropPair z.xoff p.1 })) s p.1 0)) ∧
  (∀ n dt p x, Does (.portTrainingComplete n 1 dt)
    (fun a => findPort (advance a dt) n = some p ∧ p.state ≠ 0 ∧ p.split = 0 ∧ findSub (advance a dt) (n * 4) = some x ∧ x.up = false)
    (fun a d =>
      let b := raiseDev (updSub (advance a dt) (n * 4) (fun y => { y with up := true, busyUntil := (advance a dt).tim.elapsed })) 0x0A10
        [(1, n), (1, 0), (2, portRate p)]
      d = updPort b n (fun y => { y with state := portStateOf b y }))) ∧
  (∀ n dt p x, Does (.portTrainingComplete n 0 dt)
    (fun a => findPort (advance a dt) n = some p ∧ p.state ≠ 0 ∧ p.split = 0 ∧ findSub (advance a dt) (n * 4) = some x ∧ x.up = false)
    (fun a d =>
      let b := raiseDev (advance a dt) 0x0A11 [(1, n), (1, 0), (1, 2)]
      d = updPort b n (fun y => { y with state := portStateOf b y }))) ∧
  (∀ n lane c u p k, Does (.ethLaneFailure n lane c u)
    (fun a => findPort a n = some p ∧ p.state ≠ 0 ∧ ¬(p.split = 0 ∧ p.degrade = true ∧ p.half = none ∧ ∀ l ∈ p.badLanes, l / 4 ≠ if lane < 4 then 1 else 0) ∧
      (portSubs p).find? (fun k => (subLanes p k).contains lane) = some k)
    (fun a d =>
      let b := subDown (updPort (countSub (countSub a (n * 4 + k) 9 c) (n * 4 + k) 10 u) n (fun _ => { p with
        badLanes := upsert (· == lane) lane p.badLanes })) (n * 4 + k) 1
      d = addReport (updPort b n (fun y => { y with state := portStateOf b y })) { kind := 7, unit := n, loc := lane, spare := 0 } 1)) ∧
  (∀ n lane c u p, lane < 8 → Does (.ethLaneFailure n lane c u)
    (fun a => findPort a n = some p ∧ p.state ≠ 0 ∧ p.degrade = true ∧ p.split = 0 ∧ p.half = none ∧
      ∀ l ∈ p.badLanes, l / 4 ≠ if lane < 4 then 1 else 0)
    (fun a d => d = addReport (raiseDev (updPort (updSub (countSub (countSub a (n * 4) 9 c) (n * 4) 10 u) (n * 4)
        (fun y => linkLost y (countSub (countSub a (n * 4) 9 c) (n * 4) 10 u).tim.elapsed)) n
        (fun _ => { p with badLanes := upsert (· == lane) lane p.badLanes, half := some (if lane < 4 then 1 else 0), state := 1 })) 0x0A12
        [(1, n), (1, lane), (1, if lane < 4 then 1 else 0)]) { kind := 7, unit := n, loc := lane, spare := 0 } 1))

/-- REPAIR_LOAD, REPAIR_REPORT, SELFTEST, CALIBRATE, QUIESCE and RESUME, where their checks pass (18 R423-R425, R428-R430). A map is gathered, and its last part puts it in effect; a report writes the entries asked for; a test is
listed and ends at boundaries; QUIESCE and RESUME wait for their boundary, or complete at once where dispatch is as they would leave it. The model's own choices in it are log entries 7, 104, 107. -/
def Obligations.RepairVerbsComplete : Prop :=
  VerbDoes .repairLoad 0x0104 repairLoadBody id (fun v a d => ∃ (bs head : List Byte) (all : List (Nat × Defect)),
    blockArg a v (16 * fld v 20 4 + (if bitSet (fld v 24 1) 0 then 64 else 0)) = .ok bs ∧
    (head, all) = mapPart a (fld v 16 4) (fld v 20 4) (bitSet (fld v 24 1) 0) bs ∧ fieldAt head 8 8 = a.boot.serial ∧
    (bitSet (fld v 24 1) 1 = false → d = finishOk { a with rep.gathered := some head, rep.parts := all } v []) ∧
    (bitSet (fld v 24 1) 1 = true → d = finishOk (mapFinal { a with rep.gathered := some head, rep.parts := all } head (all.map (·.2))) v [])) ∧
  VerbDoes .repairReport 0x0105 repairReportBody id (fun v a d => ∃ es, es = ((reportHeld a).drop (fld v 16 4)).take
      (if v.ring = 16 then Nat.min 252 (fld v 32 4 / 16) else fld v 32 4 / 16) ∧
    d = finishOk (outWrite a v (fld v 24 8) (es.flatMap (fun e => entryBytes e.defect e.flags e.clause))) v
      ([(8, 4, (reportHeld a).length), (12, 4, es.length)] ++ repairCounts a)) ∧
  VerbDoes .selftest 0x0106 testBody id (fun v a d => d = keepRunning { a with rep.tests := a.rep.tests ++ [
    { seq := v.seq, op := v.op, scope := fld v 16 1, unit := fld v 20 4, done := 0, failed := 0, entries := 0, start := a.tim.elapsed
      left := if v.op = 0x0106 && fld v 16 1 < 2 then testCores a (fld v 16 1) (fld v 20 4) else [], wait := !(fld v 16 1 < 3 || a.tur.quiesced) }] } v) ∧
  VerbDoes .calibrate 0x0107 testBody id (fun v a d => d = keepRunning { a with rep.tests := a.rep.tests ++ [
    { seq := v.seq, op := v.op, scope := fld v 16 1, unit := fld v 20 4, done := 0, failed := 0, entries := 0, start := a.tim.elapsed
      left := if v.op = 0x0106 && fld v 16 1 < 2 then testCores a (fld v 16 1) (fld v 20 4) else [], wait := !(fld v 16 1 < 3 || a.tur.quiesced) }] } v) ∧
  VerbDoes .quiesce 0x0108 quiesceBody id (fun v a d =>
    (a.tur.quiesced = true → d = finishOk a v []) ∧ (a.tur.quiesced = false → d = registerOp a v (.quiesce v.seq))) ∧
  VerbDoes .resume 0x0109 resumeBody id (fun v a d =>
    (a.tur.quiesced = false → d = finishOk a v []) ∧ (a.tur.quiesced = true → d = registerOp a v (.resume v.seq)))

/-- REFETCH_COMPLETE, SELFTEST_TEST_COMPLETE and UCIE_LANE_FAILURE (18 R417, R418, R421, R422, R428). A refetch of a phrase that succeeds clears the poison of the sectors that read back good and counts the others as hard; one that fails leaves the phrase damaged; one of pinned tiles,
of search tables or of a kernel's cache only notes the sectors, and its failure damages the weights, the index or the kernel; one of map segments reports the pages that the segment lost. A core whose rolling test passes after 2 ms returns as a spare; one that fails is retired; a core held by a SELFTEST counts for it, and the last one ends it. A lane that fails takes a spare of its module, or the module runs at half width, with EV_LANE_REPAIRED. The model's own choices in it are log entries 104, 105, 106. -/
def Obligations.RepairEventsTakeEffect : Prop :=
  (∀ id hard pages r, Does (.refetchComplete id true hard pages)
    (fun a => a.arr.refetches.find? (fun x => x.id == id) = some r ∧ r.kind = 0)
    (fun a d => ∃ c,
      c = (hard.filter (fun h => r.sectors.contains h.1)).foldl (fun b h => countHard (hardSector b r.part r.obj r.tier h.1) h.2)
        ((r.sectors.filter (fun s => !hard.any (fun h => h.1 == s))).foldl (fun b s => setPoison b r.part r.obj r.tier s false)
          { a with arr.refetches := dropWhere (fun (x : Refetch) => x.id == id) a.arr.refetches }) ∧
      d = settleJobs (reissueItems (noteRefetch c (objRef 2 (match findPhrase c r.part r.obj with | some x => x.ctx | none => r.part * 64) r.obj)
        r.part r.src r.sectors.length) r.part r.obj))) ∧
  (∀ id hard pages r x, Does (.refetchComplete id false hard pages)
    (fun a => a.arr.refetches.find? (fun y => y.id == id) = some r ∧ r.kind = 0 ∧ findPhrase a r.part r.obj = some x)
    (fun a d => d = settleJobs (reissueItems (r.sectors.foldl (fun b s => phraseDamaged b x s)
      { a with arr.refetches := dropWhere (fun (y : Refetch) => y.id == id) a.arr.refetches }) r.part r.obj))) ∧
  (∀ id ok hard pages r, Does (.refetchComplete id ok hard pages)
    (fun a => a.arr.refetches.find? (fun x => x.id == id) = some r ∧ r.kind ≠ 0)
    (fun a d =>
      let b := { a with arr.refetches := dropWhere (fun (x : Refetch) => x.id == id) a.arr.refetches }
      d = settleJobs (if r.kind = 3 then raiseDev b 0x0817 [(4, r.obj), (8, pages)]
        else if ok then noteRefetch b (objIn (if r.kind = 1 then 6 else if r.kind = 2 then 10 else 7) r.part r.obj) r.part r.src r.sectors.length
        else if r.kind = 1 then weightDamaged b r.obj 0 0
        else if r.kind = 2 then updIndex b r.obj (fun x => { x with state := 3 })
        else kernelDamaged b r.obj 0))) ∧
  (∀ c p pass dt h, Does (.selftestTestComplete c p pass dt)
    (fun a => (advance a dt).arr.held.find? (fun x => x.cluster == c && x.pos == p) = some h ∧ h.since + 2000000 ≤ (advance a dt).tim.elapsed)
    (fun a d => ∃ b e : Dev,
      b = bump { advance a dt with arr.held := dropWhere (fun (x : HeldCore) => x.cluster == c && x.pos == p) (advance a dt).arr.held } 0 0 10 1 ∧
      e = (if pass = true then b else if c = 256 then retireFc b p else retireCore b c p h.why) ∧
      (h.verb = none → d = e) ∧
      (∀ seq, h.verb = some seq → ∃ z, z = updTest e seq (fun t => { t with
          done := t.done + 1, failed := t.failed + (if pass = true then 0 else 1)
          entries := t.entries + (e.rep.report.length - b.rep.report.length) }) ∧
        d = match z.rep.tests.find? (fun t => t.seq == seq) with
          | some t => if t.left.isEmpty then endTest z t stOk else z
          | none => z))) ∧
  (∀ link mod lane, Does (.ucieLaneFailure link mod lane)
    (fun a => a.rep.lanes.any (fun l => l.1 == link && l.2.1 == mod && l.2.2.1 == lane) = false)
    (fun a d => ∃ (spare width : Nat) (b : Dev),
      b = { a with rep.lanes := a.rep.lanes ++ [(link, mod, lane, spare)] } ∧
      spare = (if 0 < moduleSpares a link mod then (Config.moduleSpares link mod - moduleSpares a link mod) % 255 else 255) ∧
      width = (if b.rep.lanes.any (fun l => l.1 == link && l.2.1 == mod && l.2.2.2 == 255) then 32 else 64) ∧
      d = addReport (raiseDev b 0x0154 [(1, link), (1, mod), (1, lane), (1, moduleSpares b link mod), (1, width)])
        { kind := 6, unit := link, loc := mod * 256 + lane, spare := if spare = 255 then 0 else spare } 1))

/-- COUNTERS_READ, LOG_READ, EVENT_MASK, THERMAL_HISTORY, DEVICE_INFO, CONFIG_SET and CONFIG_GET, where their checks pass (20 R452, R454-R458; 22 R486, R488, R489): each writes its records and reports; COUNTERS_READ without flags changes no counter; EVENT_MASK
changes the masks of its LD and range; CONFIG_SET answers the old value and stores the new one; CONFIG_GET answers the stored value. The model's own choices in it are log entries 7, 25. -/
def Obligations.InformationVerbsComplete : Prop :=
  VerbDoes .countersRead 0x0B01 (fun v d => countersReadBody (if fld v 16 1 = 4 then (findIndex d (fld v 18 2)).isSome else
      if fld v 16 1 = 5 then subExists d (fld v 18 2) else true) v d) id (fun v a d =>
    let nums := (rangeFrom (fld v 20 2) (fld v 22 2)).filter (fun n => decide (n ≤ ctrLast (fld v 16 1)))
    let cs := nums.map (ctrGet (noteThrottle a) (fld v 16 1) (fld v 18 2))
    let b := cs.foldl (fun acc c => ctrClear acc c (bitSet (fld v 17 1) 0) (bitSet (fld v 17 1) 1)) (noteThrottle a)
    (fld v 17 1 = 0 → b = noteThrottle a) ∧
    d = finishOk (outWrite b v (fld v 24 8) (cs.flatMap ctrRecord)) v
      [(8, 2, nums.length), (10, 2, ctrLast (fld v 16 1)), (12, 4, (cs.filter (·.ovf)).length), (16, 8, a.tim.now)]) ∧
  VerbDoes .logRead 0x0B02 logReadBody id (fun v a d => (fld v 16 1 = 1 → ∃ p, checkPart a v (fld v 18 2) 18 = .ok p ∧
    (let es := (p.log.filter (fun e => decide (fld v 20 8 ≤ e.num))).take (fld v 28 4)
     let oldest := p.logNext - p.log.length
     d = finishOk (outWrite a v (fld v 32 8) (padTo p.logBase 64 ++ es.flatMap (fun e => padTo e.bytes 80))) v [(8, 4, es.length),
       (12, 8, match es.getLast? with | some e => e.num + 1 | none => Nat.max (fld v 20 8) oldest), (20, 8, oldest), (28, 4, oldest)])) ∧
    (fld v 16 1 = 2 →
    let es := historyRead a v (fld v 20 8) (fld v 28 4)
    let oldest := a.tur.histNext - a.tur.history.length
    d = finishOk (outWrite a v (fld v 32 8) (es.flatMap (fun x => eventBytes x.2 0 x.1))) v [(8, 4, es.length),
      (12, 8, match es.getLast? with | some x => x.1 + 1 | none => Nat.max (fld v 20 8) oldest), (20, 8, oldest), (28, 4, oldest)])) ∧
  VerbDoes .eventMask 0x0B03 eventMaskBody id (fun v a d => ∃ masks,
    d = finishOk { a with tur.masks := masks } v
      [(8, 4, (masks.filter (fun m => m.1 == fld v 16 2 && decide (fld v 20 2 ≤ m.2) && decide (m.2 ≤ fld v 22 2))).length),
       (12, 4, (masks.filter (fun m => m.1 == fld v 16 2)).length)] ∧
    (fld v 18 1 = 3 → masks = a.tur.masks) ∧
    (∀ ld c, (ld ≠ fld v 16 2 ∨ c < fld v 20 2 ∨ fld v 22 2 < c) → ((ld, c) ∈ masks ↔ (ld, c) ∈ a.tur.masks)) ∧
    (fld v 18 1 = 1 → ∀ c, fld v 20 2 ≤ c → c ≤ fld v 22 2 → ((fld v 16 2, c) ∈ masks ↔ unmaskable c = false)) ∧
    (fld v 18 1 = 2 → ∀ c, fld v 20 2 ≤ c → c ≤ fld v 22 2 → (fld v 16 2, c) ∉ masks)) ∧
  VerbDoes .thermalHistory 0x0B05 thermalHistoryBody id (fun v a d => ∃ b, d = finishOk b v [(8, 1, (hottest a).1), (10, 2, tempBits (hottest a).2), (16, 8, a.therm.seconds)] ∧
    (bitSet (fld v 16 1) 0 = false → b = outWrite a v (fld v 24 8) (thermalOut a)) ∧
    (bitSet (fld v 16 1) 0 = true → b = { outWrite a v (fld v 24 8) (thermalOut a) with
      therm.sensors := (outWrite a v (fld v 24 8) (thermalOut a)).therm.sensors.map (fun x => { x with
        bins := List.replicate 24 0, peak := x.current, peakTime := a.tim.now }) })) ∧
  VerbDoes .deviceInfo 0x0101 deviceInfoBody id (fun v a d => d = finishOk (outWrite a v (fld v 24 8) (infoBlock a v)) v
    [(8, 8, a.boot.serial), (16, 2, (clustersIn a).length), (18, 1, a.boot.stage), (19, 1, a.boot.identity), (20, 4, granulesShown a),
     (24, 2, if 7 ≤ a.boot.stage ∧ a.boot.stage ≠ 10 then (freeDdr a).length else 0)]) ∧
  VerbDoes .configSet 0x0102 configSetBody id (fun v a d =>
    (fld v 16 1 = 1 → d = finishOk { a with tur.config := fld v 32 8, tur.configClause := a.clk.count } v [(8, 8, a.tur.config), (16, 8, a.clk.count)]) ∧
    (fld v 16 1 = 2 → d = finishOk { a with tur.label := fld v 32 16, tur.labelClause := a.clk.count } v
      [(8, 8, a.tur.label % 2 ^ 64), (16, 8, a.clk.count)])) ∧
  VerbDoes .configGet 0x0103 configGetBody id (fun v a d =>
    (fld v 16 1 = 1 → d = finishOk a v [(8, 8, a.tur.config), (24, 8, a.tur.configClause)]) ∧
    (fld v 16 1 ≠ 1 → d = finishOk a v [(8, 16, a.tur.label), (24, 8, a.tur.labelClause)]))

/-- CLAUSE_BOUNDARY where the boundary is due (03 R38-R42, 09 R187; 18 R424): time passes, what was late completes, the clock turns to the next clause, whose settings are those of `turnClause`, then come the writes, the transitions and the snapshots, the background work, and the
dispatch of the new clause. JOB_OVERRUN_ABORT aborts the job past the limit, with a boundary at once, and does nothing to another. While no boundary is due, CLAUSE_BOUNDARY only lets time pass. The model's own choices in it are log entries 8, 11, 16, 20, 35, 62, 104. -/
def Obligations.BoundaryTakesPlace : Prop :=
  (∀ dt temps bad tests (s : State), answering s.dev = true → s.dev.boot.powerFail = false →
    boundaryDue (advance s.dev dt).clk (lenNs s.grid) (advance s.dev dt).tim.elapsed (coresBusy (advance s.dev dt)) = true →
    let a := settleLate (nextRelease (advance s.dev dt))
    let t := turnClause (dropWaiting s.grid a) a
    let b := applyAlloc (becomeReady (backgroundWork temps bad tests (settleBoundary t.2)))
    exec (.clauseBoundary dt temps bad tests) s = .next { s with
      grid := t.1
      dev := noteHealth (dispatchMovers (settleLaunches (dispatchClause t.1.lenUs (markStarted b)))) }) ∧
  (∀ dt temps bad tests (s : State), answering s.dev = true →
    boundaryDue (advance s.dev dt).clk (lenNs s.grid) (advance s.dev dt).tim.elapsed (coresBusy (advance s.dev dt)) = false →
    exec (.clauseBoundary dt temps bad tests) s = .next { s with dev := noteHealth (advance s.dev dt) }) ∧
  (∀ job dt (s : State), answering s.dev = true → s.dev.clk.aborted = false → (jobRunning s.dev job = false ∨
      (advance s.dev dt).tim.elapsed < s.dev.clk.start + s.dev.clk.planned + 8000 * s.grid.lenUs) →
    exec (.jobOverrunAbort job dt) s = .next { s with dev := settleJobs (advance s.dev dt) }) ∧
  (∀ job dt (s : State), answering s.dev = true → jobRunning s.dev job = true →
    s.dev.clk.start + s.dev.clk.planned + 8000 * s.grid.lenUs ≤ (advance s.dev dt).tim.elapsed →
    let b := settleJobs (endStopped (abortJob { advance s.dev dt with clk.aborted := true } job))
    b.clk.aborted = true →
    exec (.jobOverrunAbort job dt) s = .next { s with grid := (boundaryAtOnce s.grid b).1, dev := (boundaryAtOnce s.grid b).2 })

/-- The turn of the clock at a boundary (03 R38, R40, R42). After a reset no clause has begun; the first boundary gives the clause counter 0, and every later one adds 1 modulo 2^64, whatever the clause was. Without a CLAUSE_SET and on the internal timer the debt is the time past the nominal boundary; where it is at most 8 L the next clause is planned as max(L/2, L - D); beyond that the clause slips and is planned whole. -/
def Obligations.ClausesFollowTheGrid : Prop :=
  (∀ d : Dev, (resetDev d).clk.started = false) ∧
  (∀ (c : Clk) (old l now start : Nat) (fresh : Bool), (nextClause c old l now start fresh).1.started = true ∧
    (nextClause c old l now start fresh).1.count = if c.started then (c.count + 1) % 2 ^ 64 else 0) ∧
  (∀ (g : Grid) (d : Dev), (turnClause g d).2.clk.count = if d.clk.started then (d.clk.count + 1) % 2 ^ 64 else 0) ∧
  (∀ (c : Clk) (l now start : Nat), c.started = true → c.mode = 0 → c.aborted = false → c.rebase = false →
    (nextClause c l l now start false).1.count = (c.count + 1) % 2 ^ 64 ∧
    (nextClause c l l now start false).1.start = now ∧
    (nextClause c l l now start false).1.nominal = c.nominal + l ∧
    (nextClause c l l now start false).1.debt = now - (c.nominal + l) ∧
    (now - (c.nominal + l) ≤ 8 * l → (nextClause c l l now start false).2 = false ∧
      (nextClause c l l now start false).1.planned = Nat.max (l / 2) (l - (now - (c.nominal + l)))) ∧
    (8 * l < now - (c.nominal + l) → (nextClause c l l now start false).2 = true ∧ (nextClause c l l now start false).1.planned = l ∧
      (nextClause c l l now start false).1.rebase = true))

/-- TICK_IN_EDGE and TICK_LOSS_TIMEOUT (03 R43, R44). A pulse of under 20 ns is not seen, and one of at least 30 ns is. Locked, a tick L ± L/8 after the last is accepted and waits for its boundary, and one at another spacing is counted as rejected and changes
nothing else; a tick that is owed to a boundary already taken waits for none. While locking, a tick at another spacing begins the count again, and one at the right spacing adds to it; the tick that makes six at the right spacing, at least half a clause after its start, locks the grid with EV_TICK_LOCKED. 1.5 L after the last accepted tick the internal timer takes over with EV_TICK_LOST, and where the clause was only waiting for a tick its boundary takes place at that instant; else the grid goes on from the last accepted tick. The model's own choices in it are log entries 17. -/
def Obligations.TicksSteerTheGrid : Prop :=
  (∀ dt high (s : State), answering s.dev = true → (high < 20 ∨ s.dev.clk.mode = 0) → exec (.tickInEdge dt high) s = .next { s with dev := advance s.dev dt }) ∧
  (∀ dt high (s : State), answering s.dev = true → 30 ≤ high → s.dev.clk.mode = 1 → s.dev.clk.owed = 0 →
    goodSpacing (s.grid.lenUs * 1000) s.dev.clk.lastTick (advance s.dev dt).tim.elapsed = true →
    exec (.tickInEdge dt high) s = .next { s with dev := { advance s.dev dt with
      clk.ticks := s.dev.clk.ticks ++ [(advance s.dev dt).tim.elapsed]
      clk.lastTick := (advance s.dev dt).tim.elapsed
      clk.lastTickNow := (advance s.dev dt).tim.now } }) ∧
  (∀ dt high (s : State), answering s.dev = true → 30 ≤ high → s.dev.clk.mode = 1 →
    goodSpacing (s.grid.lenUs * 1000) s.dev.clk.lastTick (advance s.dev dt).tim.elapsed = false →
    exec (.tickInEdge dt high) s = .next { s with dev := bump (advance s.dev dt) 0 0 2 1 }) ∧
  (∀ dt high t (s : State), answering s.dev = true → 30 ≤ high → s.dev.clk.mode = 2 → s.dev.clk.lastSeen = some t → s.dev.clk.goodTicks = 5 →
    goodSpacing (s.grid.lenUs * 1000) t (advance s.dev dt).tim.elapsed = true →
    s.dev.clk.start + s.grid.lenUs * 1000 / 2 ≤ (advance s.dev dt).tim.elapsed →
    let c : Clk := { s.dev.clk with
      mode := 1, locking := true, lastSeen := some (advance s.dev dt).tim.elapsed, lastTick := (advance s.dev dt).tim.elapsed
      lastTickNow := (advance s.dev dt).tim.now, ticks := [(advance s.dev dt).tim.elapsed], owed := 0, goodTicks := 0 }
    exec (.tickInEdge dt high) s = .next { s with dev := raiseDev { advance s.dev dt with clk := c } 0x0112 [(8, (advance s.dev dt).tim.now)] }) ∧
  (∀ dt high (s : State), answering s.dev = true → 30 ≤ high → s.dev.clk.mode = 1 → 0 < s.dev.clk.owed →
    goodSpacing (s.grid.lenUs * 1000) s.dev.clk.lastTick (advance s.dev dt).tim.elapsed = true →
    exec (.tickInEdge dt high) s = .next { s with dev := { advance s.dev dt with
      clk.owed := s.dev.clk.owed - 1
      clk.lastTick := (advance s.dev dt).tim.elapsed
      clk.lastTickNow := (advance s.dev dt).tim.now } }) ∧
  (∀ dt high (s : State), answering s.dev = true → 30 ≤ high → s.dev.clk.mode = 2 →
    (∀ t, s.dev.clk.lastSeen = some t → goodSpacing (s.grid.lenUs * 1000) t (advance s.dev dt).tim.elapsed = false) →
    exec (.tickInEdge dt high) s = .next { s with dev := { advance s.dev dt with
      clk.lastSeen := some (advance s.dev dt).tim.elapsed, clk.goodTicks := 1 } }) ∧
  (∀ dt high t (s : State), answering s.dev = true → 30 ≤ high → s.dev.clk.mode = 2 → s.dev.clk.lastSeen = some t → s.dev.clk.goodTicks < 5 →
    goodSpacing (s.grid.lenUs * 1000) t (advance s.dev dt).tim.elapsed = true →
    exec (.tickInEdge dt high) s = .next { s with dev := { advance s.dev dt with
      clk.lastSeen := some (advance s.dev dt).tim.elapsed, clk.goodTicks := s.dev.clk.goodTicks + 1 } }) ∧
  (∀ dt (s : State), answering s.dev = true → s.dev.clk.mode = 1 →
    2 * s.dev.clk.lastTick + 3 * (s.grid.lenUs * 1000) ≤ 2 * (advance s.dev dt).tim.elapsed →
    let waits := coresBusy (advance s.dev dt) = false ∧ s.dev.clk.start + s.dev.clk.planned ≤ (advance s.dev dt).tim.elapsed ∧ s.dev.clk.ticks = []
    ∃ (c : Clk) (b : Dev),
      (waits → c = { s.dev.clk with mode := 2, goodTicks := 0, lastSeen := none, locking := false, ticks := [], owed := 0, rebase := true }) ∧
      (¬waits → c = { s.dev.clk with
        mode := 2, goodTicks := 0, lastSeen := none, locking := false, ticks := [], owed := 0, nominal := s.dev.clk.lastTick }) ∧
      b = raiseDev (bump { advance s.dev dt with clk := c } 0 0 3 1) 0x0111 [(8, s.dev.clk.lastTickNow)] ∧
      exec (.tickLossTimeout dt) s = .next { s with grid := (boundaryAtOnce s.grid b).1, dev := (boundaryAtOnce s.grid b).2 }) ∧
  (∀ dt (s : State), answering s.dev = true → (s.dev.clk.mode ≠ 1 ∨
      2 * (advance s.dev dt).tim.elapsed < 2 * s.dev.clk.lastTick + 3 * (s.grid.lenUs * 1000)) →
    exec (.tickLossTimeout dt) s = .next { s with dev := advance s.dev dt })

/-- CLAUSE_SET and TIME_SET, where their checks pass, SLEW_END, PTP_MESSAGE_RECEIVE and PTP_SYNC_TIMEOUT (03 R47, R48, R50, R51). CLAUSE_SET waits with its settings for the second boundary after its acceptance. TIME_SET steps device time forward, slews, sets the base rate, or
follows PTP, ending what was steered before. A Sync is answered by a delay request; a follow-up gives the measured offset, which sets a free rate within the limits and steps device time once, where it is behind by more than 1 ms; a delay response gives the path delay; 4 s without a Sync enters the hold state with EV_PTP_LOST. The model's own choices in it are log entries 7, 18, 19, 27. -/
def Obligations.TimeCommandsTakeEffect : Prop :=
  (∀ (s : State) (seq : Nat) (v : Verb) (w : ClauseSetWait), verbRuns 0x010A seq v s = true → clauseSetCheck s.grid v = .ok w →
    exec (.clauseSet seq) s = .next { s with grid := { s.grid with waiting := some w }, dev := keepRunning (startVerb s.dev v) v } ∧
    w.effective = v.accClause + 2 ∧ w.lenUs = (if fld v 16 4 = 0 then s.grid.lenUs else fld v 16 4) ∧
    w.bgPct = (if fld v 20 1 = 0 then s.grid.bgPct else fld v 20 1) ∧ w.source = (if fld v 21 1 = 0 then s.grid.source else fld v 21 1 - 1)) ∧
  VerbDoes .timeSet 0x010B timeSetBody id (fun v a d => ∃ b, d = finishOk b v [(8, 8, b.tim.now)] ∧ 1 ≤ fld v 16 1 ∧ fld v 16 1 ≤ 5 ∧
    (fld v 16 1 = 1 → b = stepTime { a with tim := endSteering a.tim } (fld v 24 8)) ∧
    (fld v 16 1 = 2 → signedOf 64 (fld v 24 8) = 0 → b = { a with tim := endSteering a.tim }) ∧
    (fld v 16 1 = 2 → signedOf 64 (fld v 24 8) ≠ 0 → b = { a with tim := { endSteering a.tim with
      slewPpb := if signedOf 64 (fld v 24 8) < 0 then -min (fld v 20 4 : Int) (headroom (endSteering a.tim).basePpb (signedOf 64 (fld v 24 8)))
        else min (fld v 20 4 : Int) (headroom (endSteering a.tim).basePpb (signedOf 64 (fld v 24 8)))
      slewLeft := signedOf 64 (fld v 24 8), slewFrac := 0 } }) ∧
    (fld v 16 1 = 3 → b = { a with tim := { endSteering a.tim with basePpb := signedOf 64 (fld v 24 8) } }) ∧
    (fld v 16 1 = 4 → subUp a (fld v 17 1) = true ∧ b = { a with tim := { endSteering a.tim with
      ptp := true, ptpPort := fld v 17 1, ptpDomain := fld v 18 1, ptpState := 2, acquired := false, lastSync := a.tim.elapsed, syncT1 := none
      pathDelay := 0 } }) ∧
    (fld v 16 1 = 5 → b = { a with tim := { endSteering a.tim with basePpb := 0 } })) ∧
  (∀ dt, Does (.slewEnd dt) (fun a => a.tim.slewPpb ≠ 0 ∧ slewNeed a.tim ≤ dt) (fun a d => d = advance a dt)) ∧
  (∀ p dom n, Does (.ptpMessageReceive p dom (.sync n none)) (fun a => a.tim.ptp = true ∧ p = a.tim.ptpPort ∧ dom = a.tim.ptpDomain ∧ subUp a p = true)
    (fun a d => d = updSub { a with
      tim.lastSync := a.tim.elapsed, tim.syncSeq := n, tim.syncT2 := a.tim.now, tim.syncT1 := none, tim.delayT3 := a.tim.now
      tim.ptpState := if a.tim.ptpState = 4 then 2 else a.tim.ptpState } p (fun x => { x with ctl := x.ctl ++ [Frame.ptp dom 1 n] }))) ∧
  (∀ p dom n t1, Does (.ptpMessageReceive p dom (.followUp n t1))
    (fun a => a.tim.ptp = true ∧ p = a.tim.ptpPort ∧ dom = a.tim.ptpDomain ∧ subUp a p = true ∧ n = a.tim.syncSeq ∧ a.tim.syncT1 = none)
    (fun a d =>
      let off : Int := (a.tim.syncT2 : Int) - t1 - a.tim.pathDelay
      let x := drawNat { a with
        tim.offsetNs := if off < -(2 ^ 31 - 1) then -(2 ^ 31 - 1) else if 2 ^ 31 - 1 < off then 2 ^ 31 - 1 else off, tim.syncT1 := some t1 }
      let y := drawBool x.2
      let b := { y.2 with tim.basePpb := ((x.1 % 1000001 : Nat) : Int) - 500000, tim.ptpState := if y.1 = true then 3 else 2 }
      d = if b.tim.acquired = true ∨ off.natAbs ≤ 1000000 then b
        else if off < 0 then stepTime { b with tim.acquired := true } (b.tim.now + off.natAbs) else { b with tim.acquired := true })) ∧
  (∀ p dom n t1 t4, Does (.ptpMessageReceive p dom (.delayResp n t4))
    (fun a => a.tim.ptp = true ∧ p = a.tim.ptpPort ∧ dom = a.tim.ptpDomain ∧ subUp a p = true ∧ a.tim.syncT1 = some t1 ∧ n = a.tim.syncSeq)
    (fun a d => d = { a with tim.pathDelay := (((a.tim.syncT2 : Int) - t1) + ((t4 : Int) - a.tim.delayT3)) / 2 })) ∧
  (∀ dt, Does (.ptpSyncTimeout dt)
    (fun a => a.tim.ptp = true ∧ a.tim.ptpState ≠ 4 ∧ a.tim.lastSync + 4000000000 ≤ (advance a dt).tim.elapsed)
    (fun a d => d = raiseDev { advance a dt with tim.ptpState := 4 } 0x0115 [(1, a.tim.ptpPort), (4, ofSigned 32 a.tim.offsetNs)]))

/-- Doorbells and RING_FETCH (04 R57, R60-R62, R70). A write with SQ_UPDATE that goes no way back sets the tail; one with CQ_UPDATE that consumes only posted entries takes the head and posts what was held; RESTART of a halted ring returns it to its first state with a clear
completion ring; one with both does both; RESTART of a ring that is not halted does nothing; a field past the depth faults the ring with cause 1, a tail that goes back with cause 2 and a head past what was posted with cause 3, and a faulted ring takes only heads; a write of another size, or to a ring of another LD, is counted and does nothing. A visit takes up to eight entries of the next ring in order. The model's own choices in it are log entries 7, 23. -/
def Obligations.DoorbellsAndFetch : Prop :=
  (∀ ld num value r, Does (.doorbellSqUpdate ld (0x1000 + 8 * num) 8 value)
    (fun a => bitSet value 33 = false ∧ a.boot.stage = 8 ∧ a.boot.powerFail = false ∧ num ≠ 16 ∧ findRing a num = some r ∧ r.ld = ld ∧ r.enabled = true ∧ r.fault = false ∧
      r.stopped = false ∧ value % 2 ^ 16 < 2 ^ r.depthLog2 ∧
      (r.sqTail + 2 ^ r.depthLog2 - r.sqHead) % 2 ^ r.depthLog2 ≤ (value % 2 ^ 16 + 2 ^ r.depthLog2 - r.sqHead) % 2 ^ r.depthLog2)
    (fun a d => d = updRing a num (fun x => { x with sqTail := value % 2 ^ 16 }))) ∧
  (∀ ld num value r, Does (.doorbellCqUpdate ld (0x1000 + 8 * num) 8 value)
    (fun a => bitSet value 32 = false ∧ a.boot.stage = 8 ∧ a.boot.powerFail = false ∧ num ≠ 16 ∧ findRing a num = some r ∧ r.ld = ld ∧ r.enabled = true ∧ r.fault = false ∧
      value / 2 ^ 16 % 2 ^ 16 < 2 ^ r.depthLog2 ∧ (value / 2 ^ 16 % 2 ^ 16 + 2 ^ r.depthLog2 - r.cqHead) % 2 ^ r.depthLog2 ≤ postedCount r)
    (fun a d => d = takeCqHead a r (value / 2 ^ 16 % 2 ^ 16))) ∧
  (∀ ld num value r, Does (.doorbellRestart ld (0x1000 + 8 * num) 8 value)
    (fun a => a.boot.stage = 8 ∧ a.boot.powerFail = false ∧ num ≠ 16 ∧ findRing a num = some r ∧ r.ld = ld ∧ r.enabled = true ∧ r.halted = true)
    (fun a d => d = exZero (updRing a r.num (fun x => { x with
      sqHead := 0, sqTail := 0, cqHead := 0, cqTail := 0, phase := true, done := 0, faultCause := 0, fault := false, halted := false }))
      (exKey r.ld r.cqOff) (32 * 2 ^ r.depthLog2))) ∧
  (∀ ld num value r, Does (.doorbellSqUpdate ld (0x1000 + 8 * num) 8 value)
    (fun a => a.boot.stage = 8 ∧ a.boot.powerFail = false ∧ num ≠ 16 ∧ findRing a num = some r ∧ r.ld = ld ∧ r.enabled = true ∧ r.fault = false ∧ 2 ^ r.depthLog2 ≤ value % 2 ^ 16)
    (fun a d => d = faultRing a r 1 (value % 2 ^ 63 ||| 2 ^ 32))) ∧
  (∀ ld num value r, Does (.doorbellSqUpdate ld (0x1000 + 8 * num) 8 value)
    (fun a => bitSet value 33 = false ∧ a.boot.stage = 8 ∧ a.boot.powerFail = false ∧ num ≠ 16 ∧ findRing a num = some r ∧ r.ld = ld ∧ r.enabled = true ∧ r.fault = false ∧
      value % 2 ^ 16 < 2 ^ r.depthLog2 ∧
      (value % 2 ^ 16 + 2 ^ r.depthLog2 - r.sqHead) % 2 ^ r.depthLog2 < (r.sqTail + 2 ^ r.depthLog2 - r.sqHead) % 2 ^ r.depthLog2)
    (fun a d => d = faultRing a r 2 (value % 2 ^ 63 ||| 2 ^ 32))) ∧
  (∀ ld num value r, Does (.doorbellCqUpdate ld (0x1000 + 8 * num) 8 value)
    (fun a => bitSet value 32 = false ∧ a.boot.stage = 8 ∧ a.boot.powerFail = false ∧ num ≠ 16 ∧ findRing a num = some r ∧ r.ld = ld ∧ r.enabled = true ∧ r.fault = false ∧
      value / 2 ^ 16 % 2 ^ 16 < 2 ^ r.depthLog2 ∧
      postedCount r < (value / 2 ^ 16 % 2 ^ 16 + 2 ^ r.depthLog2 - r.cqHead) % 2 ^ r.depthLog2)
    (fun a d => d = faultRing a r 3 (value % 2 ^ 63 ||| 2 ^ 33))) ∧
  (∀ ld num value r, Does (.doorbellCqUpdate ld (0x1000 + 8 * num) 8 value)
    (fun a => a.boot.stage = 8 ∧ a.boot.powerFail = false ∧ num ≠ 16 ∧ findRing a num = some r ∧ r.ld = ld ∧ r.enabled = true ∧ r.fault = true ∧
      value / 2 ^ 16 % 2 ^ 16 < 2 ^ r.depthLog2 ∧ (value / 2 ^ 16 % 2 ^ 16 + 2 ^ r.depthLog2 - r.cqHead) % 2 ^ r.depthLog2 ≤ postedCount r)
    (fun a d => d = takeCqHead a r (value / 2 ^ 16 % 2 ^ 16))) ∧
  (∀ ld num value r, Does (.doorbellSqUpdate ld (0x1000 + 8 * num) 8 value)
    (fun a => bitSet value 33 = true ∧ a.boot.stage = 8 ∧ a.boot.powerFail = false ∧ num ≠ 16 ∧ findRing a num = some r ∧ r.ld = ld ∧ r.enabled = true ∧
      r.fault = false ∧ r.stopped = false ∧ value % 2 ^ 16 < 2 ^ r.depthLog2 ∧ value / 2 ^ 16 % 2 ^ 16 < 2 ^ r.depthLog2 ∧
      (r.sqTail + 2 ^ r.depthLog2 - r.sqHead) % 2 ^ r.depthLog2 ≤ (value % 2 ^ 16 + 2 ^ r.depthLog2 - r.sqHead) % 2 ^ r.depthLog2 ∧
      (value / 2 ^ 16 % 2 ^ 16 + 2 ^ r.depthLog2 - r.cqHead) % 2 ^ r.depthLog2 ≤ postedCount r)
    (fun a d => d = takeCqHead (updRing a num (fun x => { x with sqTail := value % 2 ^ 16 })) r (value / 2 ^ 16 % 2 ^ 16))) ∧
  (∀ ld num value r, Does (.doorbellRestart ld (0x1000 + 8 * num) 8 value)
    (fun a => a.boot.stage = 8 ∧ a.boot.powerFail = false ∧ num ≠ 16 ∧ findRing a num = some r ∧ r.ld = ld ∧ r.enabled = true ∧ r.halted = false)
    (fun a d => d = a)) ∧
  (∀ ld off width value, (width ≠ 8 ∨ off % 8 ≠ 0) → Does (.doorbellSqUpdate ld off width value) (fun _ => True) (fun a d => d = bump a 1 ld 1 1)) ∧
  (∀ ld num value, Does (.doorbellSqUpdate ld (0x1000 + 8 * num) 8 value) (fun a => ∀ r, findRing a num = some r → r.ld ≠ ld ∨ r.enabled = false)
    (fun a d => d = bump a 1 ld 2 1)) ∧
  (∀ r, Does .ringFetch (fun a => serving a = true ∧ nextVisit a = some r)
    (fun a d => d = markStarted (visitRing 8 { a with tur.robin := r.num } r.num))) ∧
  Does .ringFetch (fun a => serving a = false ∨ nextVisit a = none) (fun a d => d = a)

/-- The registers of an event ring, of HUB_FAULT and the rest, and the two limits of verbs (04 R68, R74, R77; 22 R481, R485). Enabling an event ring that fits empties and clears it; while it is enabled only its vector and its enable change; a head write that consumes only posted records is taken; STALL_SEEN clears where FW_STALL is 0; a
write at an offset of no rule is ignored; 100 ms without an acceptance while entries wait set FW_STALL; a verb over its limit is noted for the next boundary, and one that is not stays. The model's own choices in it are log entries 21, 23, 26. -/
def Obligations.RegistersAndLimits : Prop :=
  (∀ ld value q, Does (.evqEnableWrite ld 0x20008 8 value)
    (fun a => a.boot.stage = 8 ∧ a.tur.evqs[ld]? = some q ∧ q.enable = false ∧ bitSet (value % 2 ^ 64) 8 = true ∧
      evqFits a ld { q with vector := value % 2 ^ 64 / 2 ^ 16 % 2 ^ 16, depthLog2 := value % 2 ^ 64 % 32 } = true)
    (fun a d => d = exZero (putEvq a ld { q with
      vector := value % 2 ^ 64 / 2 ^ 16 % 2 ^ 16, depthLog2 := value % 2 ^ 64 % 32, enable := true, head := 0, tail := 0, phase := true, used := 0 })
      (exKey ld (q.base * 64)) (64 * 2 ^ (value % 2 ^ 64 % 32)))) ∧
  (∀ ld value q, Does (.evqEnableWrite ld 0x20008 8 value)
    (fun a => a.boot.stage = 8 ∧ a.tur.evqs[ld]? = some q ∧ q.enable = true)
    (fun a d => d = putEvq a ld { q with vector := value % 2 ^ 64 / 2 ^ 16 % 2 ^ 16, enable := bitSet (value % 2 ^ 64) 8 })) ∧
  (∀ ld value q, Does (.evqHeadWrite ld 0x20010 8 value)
    (fun a => a.boot.stage = 8 ∧ a.tur.evqs[ld]? = some q ∧ value % 2 ^ 64 % 2 ^ 16 < 2 ^ q.depthLog2 ∧
      (value % 2 ^ 64 % 2 ^ 16 + 2 ^ q.depthLog2 - q.head) % 2 ^ q.depthLog2 ≤ q.used)
    (fun a d => d = putEvq a ld { q with
      head := value % 2 ^ 64 % 2 ^ 16, used := q.used - (value % 2 ^ 64 % 2 ^ 16 + 2 ^ q.depthLog2 - q.head) % 2 ^ q.depthLog2 })) ∧
  (∀ ld value q, Does (.evqHeadWrite ld 0x20010 8 value)
    (fun a => a.boot.stage = 8 ∧ a.tur.evqs[ld]? = some q ∧ q.used < (value % 2 ^ 64 % 2 ^ 16 + 2 ^ q.depthLog2 - q.head) % 2 ^ q.depthLog2)
    (fun a d => d = a)) ∧
  (Does (.stallSeenClear 0x18 8 (2 ^ 11)) (fun a => a.tur.fwStall = false) (fun a d => d = { a with tur.stallSeen := false })) ∧
  (∀ ld off width value, 0x9000 ≤ off → off < 0x20000 → Does (.registerWrite ld off width value) (fun _ => True) (fun a d => d = a)) ∧
  (∀ ld value q, Does (.registerWrite ld 0x20000 8 value) (fun a => a.boot.stage = 8 ∧ a.tur.evqs[ld]? = some q ∧ q.enable = false)
    (fun a d => d = putEvq a ld { q with base := value % 2 ^ 64 / 64 % 2 ^ 30 })) ∧
  (∀ dt, Does (.fwStallTimeout dt)
    (fun a => (advance a dt).tur.rings.any (unfetched (advance a dt)) = true ∧ a.tur.lastAccept + 100000000 ≤ (advance a dt).tim.elapsed ∧ a.tur.fwStall = false)
    (fun a d => d = { advance a dt with tur.fwStall := true, tur.stallSeen := true })) ∧
  (∀ seq dt, Does (.verbLimitTimeout seq dt)
    (fun a => limitReached (advance (markStarted a) dt) seq = true ∧ a.tur.late.contains seq = false)
    (fun a d => d = { advance (markStarted a) dt with tur.late := a.tur.late ++ [seq] })) ∧
  (∀ seq dt, Does (.verbLimitTimeout seq dt) (fun a => limitReached (advance (markStarted a) dt) seq = false) (fun a d => d = advance (markStarted a) dt))

/-- CXL.mem accesses of a host (17 R400, R401, R404; 18 R415; 04 R69), where the decoders map the address and the link is up: a read answers the 64 bytes of the sector; a sector in error, found so by this read or before, answers with the poison indication, counts, and raises EV_EXCHANGE_ERROR for its LD, and stays poisoned; a sector that a Sanitize hides answers zeros; a near-bank operation in the sector's stack may be cut (08 R171); a read beyond the
area answers all ones with poison; a write stores its bytes within the sector; one beyond the area is dropped and counted. Requests that the device issued, as they end (17 R405, R406): a RESTORE's read gives its data to the restore; an error response ends the request and counts; a timeout does so once 50 ms have passed, and before that nothing happens. The model's own choices in it are log entries 29, 97, 103. -/
def Obligations.HostMemoryAndBusRequests : Prop :=
  (∀ ld hpa x, Does (.cxlMemRead ld hpa false)
    (fun a => hostDpa a ld hpa = some x ∧ x / 64 * 64 < exSize a ld ∧ sanitizeHides a ld (x / 64 * 64) = false ∧ exPoisoned a (exKey ld (x / 64 * 64)) 64 = false)
    (fun a d => d = cutGroups (memAnswer a ld (x / 64 * 64) (memReadN a.exch (exKey ld (x / 64 * 64)) 64) false) (exchStack a ld x).toList)) ∧
  (∀ ld hpa bad x, Does (.cxlMemRead ld hpa bad)
    (fun a => hostDpa a ld hpa = some x ∧ x / 64 * 64 < exSize a ld ∧ sanitizeHides a ld (x / 64 * 64) = false ∧
      (exPoisoned a (exKey ld (x / 64 * 64)) 64 = true ∨ bad = true))
    (fun a d =>
      let b := if exPoisoned a (exKey ld (x / 64 * 64)) 64 = true then a else bump { a with poison := a.poison ++ [exKey ld (x / 64 * 64) / 64] } 0 0 6 1
      d = cutGroups (raise (bump (addRecord (memAnswer b ld (x / 64 * 64) (memReadN a.exch (exKey ld (x / 64 * 64)) 64) true) ld 2 (x / 64 * 64)) 1 ld 4 1) 0x0143
        objDevice (.ld ld) [(1, ld), (8, x / 64 * 64)]) (exchStack a ld x).toList)) ∧
  (∀ ld hpa bad x, Does (.cxlMemRead ld hpa bad)
    (fun a => hostDpa a ld hpa = some x ∧ x / 64 * 64 < exSize a ld ∧ sanitizeHides a ld (x / 64 * 64) = true)
    (fun a d => d = cutGroups (memAnswer a ld (x / 64 * 64) (List.replicate 64 0) false) (exchStack a ld x).toList)) ∧
  (∀ ld hpa bad x, Does (.cxlMemRead ld hpa bad) (fun a => hostDpa a ld hpa = some x ∧ exSize a ld ≤ x / 64 * 64)
    (fun a d => d = cutGroups (bump (memAnswer a ld (x / 64 * 64) (List.replicate 64 255) true) 1 ld 3 1) (exchStack a ld x).toList)) ∧
  (∀ ld hpa bs x, Does (.cxlMemWrite ld hpa bs) (fun a => hostDpa a ld hpa = some x ∧ x < exSize a ld ∧ sanitizeHides a ld x = false)
    (fun a d => d = exWrite a (exKey ld x) (bs.take (64 - x % 64)))) ∧
  (∀ ld hpa bs x, Does (.cxlMemWrite ld hpa bs) (fun a => hostDpa a ld hpa = some x ∧ exSize a ld ≤ x) (fun a d => d = bump a 1 ld 3 1)) ∧
  (∀ i bs b seq, Does (.busMasterReadComplete i bs) (fun a => a.bus.find? (fun r => r.id == i) = some b ∧ b.why = .restoreRead seq)
    (fun a d => d = restoreData seq (padTo bs b.len) { a with bus := dropWhere (fun (x : BusReq) => x.id == i) a.bus })) ∧
  (∀ i b seq, Does (.busMasterErrorResponse i) (fun a => a.bus.find? (fun r => r.id == i) = some b ∧ b.why = .restoreRead seq)
    (fun a d => d = busFailed { a with bus := dropWhere (fun (x : BusReq) => x.id == b.id) a.bus } b.ld)) ∧
  (∀ i b h s, Does (.busMasterErrorResponse i)
    (fun a => a.bus.find? (fun r => r.id == i) = some b ∧ b.why = .textHead h ∧
      findSess (busFailed { a with bus := dropWhere (fun (x : BusReq) => x.id == b.id) a.bus } b.ld) h = some s ∧ s.tok.ringNamed = true)
    (fun a d => d = textDetach (busFailed { a with bus := dropWhere (fun (x : BusReq) => x.id == b.id) a.bus } b.ld) s 2)) ∧
  (∀ i dt b seq, Does (.busMasterTimeout i dt)
    (fun a => a.bus.find? (fun r => r.id == i) = some b ∧ b.why = .restoreRead seq ∧ b.issued + 50000000 ≤ (advance a dt).tim.elapsed)
    (fun a d => d = busFailed { advance a dt with bus := dropWhere (fun (x : BusReq) => x.id == b.id) a.bus } b.ld)) ∧
  (∀ i dt b, Does (.busMasterTimeout i dt)
    (fun a => a.bus.find? (fun r => r.id == i) = some b ∧ (advance a dt).tim.elapsed < b.issued + 50000000) (fun a d => d = advance a dt))

/-- The link and its resets, configuration space, MSI-X and HDM decoders (17 R397, R400, R403-R406). Losing the link and each reset return the CXL.io state of the LDs concerned to its first values with EV_CXL_LINK_DOWN; training raises EV_CXL_LINK_UP; a lane failure halves the width; an FLR also resets
the event-ring registers of its LD. A write of the command register, a BAR or a table entry is stored; a decoder commits in order, in units of 256 MiB, and no other commit takes place. The model's own choices in it are log entries 3, 96, 97, 98. -/
def Obligations.LinkAndConfiguration : Prop :=
  (Does .cxlLinkDown (fun a => a.cxl.width ≠ 0) (fun a d => d = raiseDev { a with cxl.width := 0, cxl.lds := a.cxl.lds.map resetIo } 0x0141 [(1, 1)])) ∧
  (∀ w root bound, w = 16 ∨ w = 8 ∨ w = 4 → Does (.cxlLinkUp w root bound) (fun a => a.cxl.width = 0)
    (fun a d => ∃ lds : List CxlLd,
      lds = ((List.range a.cxl.lds.length).zip a.cxl.lds).map (fun p => { p.2 with bound := if root = true then p.1 == 0 else bitSet bound p.1 }) ∧
      d = raiseDev { a with cxl.width := w, cxl.lds := lds, tur.singleLd := root } 0x0142 [(1, w), (2, 32)])) ∧
  (∀ w root bound, w = 16 ∨ w = 8 ∨ w = 4 → Does (.cxlLinkUp w root bound) (fun a => 0 < a.cxl.width) (fun a d => d = { a with cxl.width := w })) ∧
  (Does (.cxlHotReset none) (fun _ => True) (fun a d => d = raiseDev { a with cxl.lds := a.cxl.lds.map resetIo } 0x0141 [(1, 2)])) ∧
  (∀ n, Does (.cxlHotReset (some n)) (fun _ => True) (fun a d => d = raiseDev (updLd a n resetIo) 0x0141 [(1, 2)])) ∧
  (∀ n x q, Does (.cxlFlr n) (fun a => findLd a n = some x ∧ a.tur.evqs[n]? = some q)
    (fun a d => d = raiseDev { updLd a n resetIo with tur.evqs := setNth a.tur.evqs n (evqReset q) } 0x0141 [(1, 3), (1, n)])) ∧
  (Does .cxlLaneFailure (fun a => 4 < a.cxl.width) (fun a d => d = raiseDev { a with cxl.width := a.cxl.width / 2 } 0x0140 [(1, a.cxl.width), (1, a.cxl.width / 2)])) ∧
  (Does .cxlLaneFailure (fun a => 0 < a.cxl.width ∧ a.cxl.width ≤ 4)
    (fun a d => d = raiseDev { a with cxl.width := 0, cxl.lds := a.cxl.lds.map resetIo } 0x0141 [(1, 1)])) ∧
  (∀ n v, Does (.configSpaceWrite n .command v) (fun _ => True) (fun a d => d = flushMsix (updLd a n (fun x => { x with command := v % 2 ^ 16 })) n)) ∧
  (∀ n v, Does (.configSpaceWrite n .bar0 v) (fun _ => True)
    (fun a d => d = flushMsix (updLd a n (fun x => { x with bar0 := v % 2 ^ 64 / 2 ^ 21 * 2 ^ 21 })) n)) ∧
  (∀ n v, Does (.configSpaceWrite n .bar2 v) (fun _ => True)
    (fun a d => d = flushMsix (updLd a n (fun x => { x with bar2 := v % 2 ^ 64 / 2 ^ 16 * 2 ^ 16 })) n)) ∧
  (∀ n v, Does (.configSpaceWrite n .msixControl v) (fun _ => True)
    (fun a d => d = flushMsix (updLd a n (fun x => { x with msixEnable := bitSet v 15, msixMaskAll := bitSet v 14 })) n)) ∧
  (∀ n vec addr data m, vec < 256 → Does (.msixTableWrite n vec addr data m) (fun _ => True)
    (fun a d => d = flushMsix (updLd a n (fun x => { x with msix := upsert (fun y => y.vec == vec) ⟨vec, addr % 2 ^ 64, data % 2 ^ 32, m⟩ x.msix })) n)) ∧
  (∀ n i base size x, Does (.hdmDecoderCommit n i base size)
    (fun a => findLd a n = some x ∧ i < 2 ∧ i = x.hdm.length ∧ base % 2 ^ 28 = 0 ∧ size % 2 ^ 28 = 0 ∧ size ≠ 0)
    (fun a d => d = updLd a n (fun y => { y with hdm := y.hdm ++ [⟨base, size, true⟩] }))) ∧
  (∀ n i base size x, Does (.hdmDecoderCommit n i base size)
    (fun a => findLd a n = some x ∧ ¬(i < 2 ∧ i = x.hdm.length ∧ base % 2 ^ 28 = 0 ∧ size % 2 ^ 28 = 0 ∧ size ≠ 0)) (fun a d => d = a))

/-- Mailbox commands of an LD whose host can reach it (17 R407, R408, Table 17-4): each answers with its return code and payload, and the setting commands change only what they set. Values that the spec leaves open are drawn from the free values. A command with an operand outside its range answers invalid input and changes nothing. The model's own choices in it are log entries 3, 6, 96, 98. -/
def Obligations.MailboxCommandsAnswer : Prop :=
  (∀ n x, Does (.identifyMemoryDevice n) (fun a => findLd a n = some x ∧ 0 < a.cxl.width)
    (fun a d =>
      let r := drawBytes a 16
      let l := drawBytes r.2 8
      d = reply l.2 n 0x4000 rcOk (r.1 ++ natLe (x.m1 + x.m2) 8 ++ natLe (x.m1 + x.m2) 8 ++ natLe 0 8 ++ natLe 0 8 ++ l.1 ++ natLe 0 4 ++ natLe 256 3 ++
        natLe 0 2 ++ [0] ++ [3]))) ∧
  (∀ n x, Does (.getHealthInfo n) (fun a => findLd a n = some x ∧ 0 < a.cxl.width)
    (fun a d =>
      let h := drawNat a
      let m := drawNat h.2
      let code := fun (k : Nat) => if healthBad a = true then byte (k % 255 + 1) else 0
      let life := if (match x.lifeWarn with | some k => decide (k ≤ lifeUsed a) | none => false) = true then 1 else 0
      let hot := if (match x.tempWarn with | some t => decide (t ≤ dieTemp a) | none => false) = true then 4 else 0
      d = reply m.2 n 0x4200 rcOk ([code h.1, code m.1, byte (life + hot), byte (lifeUsed a)] ++ natLe (ofSigned 16 (dieTemp a)) 2 ++
        natLe (Nat.min a.flash.health.unsafeOff (2 ^ 32 - 1)) 4 ++ natLe (Nat.min x.refetches (2 ^ 32 - 1)) 4 ++ natLe 0 4))) ∧
  (∀ n x, Does (.getAlertConfiguration n) (fun a => findLd a n = some x ∧ 0 < a.cxl.width)
    (fun a d =>
      let c := drawBytes a 5
      d = reply c.2 n 0x4201 rcOk ([byte ((if x.lifeWarn.isSome then 1 else 0) + (if x.tempWarn.isSome then 2 else 0)), 3] ++ c.1.take 1 ++
        [byte (x.lifeWarn.getD 0)] ++ (c.1.drop 1).take 4 ++ natLe (ofSigned 16 (x.tempWarn.getD 0)) 2 ++ natLe 0 2 ++ natLe 0 2 ++ natLe 0 2))) ∧
  (∀ n x valid e life t, valid < 4 → life ≤ 100 → Does (.setAlertConfiguration n valid e life t) (fun a => findLd a n = some x ∧ 0 < a.cxl.width)
    (fun a d => d = reply (updLd a n (fun y => { y with
      lifeWarn := if bitSet valid 0 then (if bitSet e 0 then some life else none) else y.lifeWarn
      tempWarn := if bitSet valid 1 then (if bitSet e 1 then some t else none) else y.tempWarn })) n 0x4202 rcOk [])) ∧
  (∀ n x log, log < 4 → Does (.getEventRecords n log) (fun a => findLd a n = some x ∧ 0 < a.cxl.width)
    (fun a d =>
      let e := drawBytes a 80
      d = reply e.2 n 0x0100 rcOk ([byte (if 31 < (eventLog x log).length then 2 else 0)] ++ List.replicate 19 0 ++
        natLe ((eventLog x log).take 31).length 2 ++ List.replicate 10 0 ++ ((eventLog x log).take 31).flatMap (fun r => cxlRecordBytes r e.1)))) ∧
  (∀ n x log all hs, log < 4 → Does (.clearEventRecords n log all hs)
    (fun a => findLd a n = some x ∧ 0 < a.cxl.width ∧ (all = true ∨ (hs ≠ [] ∧ ((eventLog x log).take hs.length).map (·.handle) = hs)))
    (fun a d =>
      let left := if all = true then [] else (eventLog x log).drop hs.length
      d = reply (updLd a n (fun y => if log = 1 then { y with warnLog := left } else if log = 2 then { y with failLog := left } else y)) n 0x0101 rcOk [])) ∧
  (∀ n x, Does (.getEventInterruptPolicy n) (fun a => findLd a n = some x ∧ 0 < a.cxl.width) (fun a d => d = reply a n 0x0102 rcOk (x.intPolicy.map byte))) ∧
  (∀ n x p, Does (.setEventInterruptPolicy n p)
    (fun a => findLd a n = some x ∧ 0 < a.cxl.width ∧ p.length = 4 ∧ p.all (fun b => decide (b < 256) && decide (b % 4 < 2)) = true)
    (fun a d => d = reply (updLd a n (fun y => { y with intPolicy := p })) n 0x0103 rcOk [])) ∧
  (∀ n x, Does (.getSupportedLogs n) (fun a => findLd a n = some x ∧ 0 < a.cxl.width)
    (fun a d => d = reply a n 0x0400 rcOk (natLe 1 2 ++ List.replicate 6 0 ++ celId ++ natLe 60 4))) ∧
  (∀ n x off len, off + len ≤ 60 → Does (.getLog n celId off len) (fun a => findLd a n = some x ∧ 0 < a.cxl.width)
    (fun a d =>
      let e := drawBytes a 30
      d = reply e.2 n 0x0401 rcOk (((((List.range 15).zip mailboxOps).flatMap (fun y => natLe y.2 2 ++ (e.1.drop (2 * y.1)).take 2)).drop off).take len))) ∧
  (∀ n x op, op ∈ [0x4202, 0x0100, 0x0101, 0x0103, 0x0401] →
    Does (match op with
      | 0x4202 => .setAlertConfiguration n 4 0 0 0
      | 0x0100 => .getEventRecords n 4
      | 0x0101 => .clearEventRecords n 4 true []
      | 0x0103 => .setEventInterruptPolicy n []
      | _ => .getLog n [] 0 0)
      (fun a => findLd a n = some x ∧ 0 < a.cxl.width) (fun a d => d = reply a n op rcInvalid []))

/-- The mailbox commands of poison and sanitizing (17 R408). Get Poison List answers the poisoned sectors of the range; Sanitize of an LD that runs none clears the exchange area above its control area, accepts a SCRUB for each partition of the LD and answers that it runs in the background; a second one is
busy; it ends when its scrubs have. The model's own choices in it are log entries 96, 99. -/
def Obligations.SanitizeAndPoisonList : Prop :=
  (∀ n start len x, Does (.getPoisonList n start len) (fun a => findLd a n = some x ∧ 0 < a.cxl.width)
    (fun a d => ∃ (mine rs : List Nat),
      mine = (sortBy (fun (y z : Nat) => decide (y ≤ z)) (a.poison.filter (fun s => decide (exKey n 0 ≤ s * 64) && decide (s * 64 < exKey n (exSize a n))))).map
        (fun s => s * 64 - exKey n 0) ∧
      rs = (mine.filter (fun y => decide (start ≤ y) && decide (y < start + len * 64))).take 256 ∧
      d = reply (drawNat a).2 n 0x4300 rcOk ([byte (if 256 < mine.length then 2 else 0), 0] ++ natLe a.tim.now 8 ++ natLe rs.length 2 ++ List.replicate 20 0 ++
        rs.flatMap (fun y => natLe (y + (drawNat a).1 % 8) 8 ++ natLe 1 4 ++ natLe 0 4)))) ∧
  (∀ n x, Does (.sanitize n) (fun a => findLd a n = some x ∧ 0 < a.cxl.width ∧ x.sanitizing = false)
    (fun a d => ∃ b, b = ((a.pool.parts.filter (fun p => p.bound == some n)).map (·.num)).foldl (sanitizeScrub n) (updLd a n (fun y => { y with sanitizing := true })) ∧
      d = reply (exZero b (exKey n controlArea) (exSize a n - controlArea)) n 0x4400 rcBackground [])) ∧
  (∀ n x, Does (.sanitize n) (fun a => findLd a n = some x ∧ 0 < a.cxl.width ∧ x.sanitizing = true) (fun a d => d = reply a n 0x4400 rcBusy [])) ∧
  (∀ n x, Does (.mailboxSanitizeDone n)
    (fun a => findLd a n = some x ∧ x.sanitizing = true ∧ a.tur.verbs.any (fun v => v.ring == 0xFFFF && v.ld == n) = false ∧
      a.pool.clearings.any (fun c => c.sanitize == some n) = false)
    (fun a d => d = updLd a n (fun y => { y with sanitizing := false })))

/-- The FM API commands (17 R399, R409): every query answers the present settings; Set LD Allocations with legal ranges that fit holds the granules and answers; the QoS settings are stored and answered back. The model's own choices in it are log entries 3, 96, 99, 100. -/
def Obligations.FmCommandsAnswer : Prop :=
  (Does .getLdInfo (fun _ => True) (fun a d => d = reply a 16 0x5400 rcOk (natLe (576 * 2 ^ 30) 8 ++ natLe 16 2 ++ [3]))) ∧
  (∀ start count, start < 16 → Does (.getLdAllocations start count) (fun _ => True)
    (fun a d => d = reply a 16 0x5401 rcOk ([16, 0, byte start, byte ((a.cxl.lds.drop start).take count).length] ++
      ((a.cxl.lds.drop start).take count).flatMap (fun x => natLe x.m1 8 ++ natLe x.m2 8)))) ∧
  (∀ start ms b, start + ms.length ≤ 16 → ms ≠ [] → ms.all rangesOk = true → Does (.setLdAllocations start ms)
    (fun a =>
      let c := ((rangeFrom start ms.length).zip ms).foldl (fun e x => updLd e x.1 (fun y => { y with newM := some x.2 })) a
      sumNat ((c.cxl.lds.map (fun x => x.newM.getD (x.m1, x.m2))).map (·.1)) ≤ 256 ∧ sumNat ((c.cxl.lds.map (fun x => x.newM.getD (x.m1, x.m2))).map (·.2)) ≤ 2048 ∧
      (∀ n m, (n, m) ∈ (rangeFrom start ms.length).zip ms → resizeBusy a n m = false) ∧ holdExch c = some b)
    (fun _ d => d = reply b 16 0x5402 rcOk ([byte ms.length, byte start, 0, 0] ++ ms.flatMap (fun m => natLe m.1 8 ++ natLe m.2 8)))) ∧
  (Does .getQosControl (fun _ => True) (fun a d => d = reply a 16 0x5403 rcOk (qosBytes a.cxl.qos))) ∧
  (∀ q, q.control < 4 → q.moderate ≤ 100 → q.severe ≤ 100 → q.interval < 256 → q.basis < 65536 → q.collection < 256 →
    Does (.setQosControl q) (fun _ => True) (fun a d => d = reply { a with cxl.qos := q } 16 0x5404 rcOk (qosBytes q))) ∧
  (Does .getQosStatus (fun _ => True) (fun a d => d = reply (drawNat a).2 16 0x5405 rcOk [byte ((drawNat a).1 % 101)])) ∧
  (∀ start count, start < 16 → Does (.getQosAllocatedBw start count) (fun _ => True) (fun a d => d = reply a 16 0x5406 rcOk (fractions a start count (·.bwAlloc)))) ∧
  (∀ start fs, start + fs.length ≤ 16 → fs ≠ [] → (∀ f ∈ fs, f < 256) → Does (.setQosAllocatedBw start fs) (fun _ => True)
    (fun a d =>
      let b := ((rangeFrom start fs.length).zip fs).foldl (fun c y => updLd c y.1 (fun x => { x with bwAlloc := y.2 })) a
      d = reply b 16 0x5407 rcOk (fractions b start fs.length (·.bwAlloc)))) ∧
  (∀ start count, start < 16 → Does (.getQosBwLimit start count) (fun _ => True) (fun a d => d = reply a 16 0x5408 rcOk (fractions a start count (·.bwLimit)))) ∧
  (∀ start fs, start + fs.length ≤ 16 → fs ≠ [] → (∀ f ∈ fs, f < 256) → Does (.setQosBwLimit start fs) (fun _ => True)
    (fun a d =>
      let b := ((rangeFrom start fs.length).zip fs).foldl (fun c y => updLd c y.1 (fun x => { x with bwLimit := y.2 })) a
      d = reply b 16 0x5409 rcOk (fractions b start fs.length (·.bwLimit))))

/-- The Turuk tunnel of the FM-owned LD (17 R410): a submission of at most 4,096 bytes enters ring 16 while fewer than 63 are open, and is answered as full else; a collect takes the oldest completion of its TAG; events are taken oldest first; a submission that waits 1 s reports PENDING. The model's own choices in it are log entries 96, 99. -/
def Obligations.TunnelCommandsAnswer : Prop :=
  (∀ e block r, block.length ≤ 4096 → Does (.tunnelSubmit e block) (fun a => findRing a 16 = some r ∧ hubLoad a < 63)
    (fun a d => d = { a with
      tur.hub := a.tur.hub ++ [⟨e, block, a.tur.submitSeq⟩], tur.hubWaits := a.tur.hubWaits ++ [⟨a.tur.submitSeq, a.tim.elapsed, true⟩]
      tur.submitSeq := a.tur.submitSeq + 1 })) ∧
  (∀ e block r, block.length ≤ 4096 → Does (.tunnelSubmit e block) (fun a => findRing a 16 = some r ∧ 63 ≤ hubLoad a)
    (fun a d => d = tunnelSay a 0 rcOk (tunnelReply 2 0 0 [] []))) ∧
  (∀ e block, Does (.tunnelSubmit e block) (fun _ => 4096 < block.length) (fun a d => d = tunnelSay a 0 rcInvalid [])) ∧
  (∀ tag i h, Does (.tunnelCollect tag) (fun a => a.tur.hubHeld.findIdx? (fun h => tag == 0 || h.tag == tag) = some i ∧ a.tur.hubHeld[i]? = some h)
    (fun a d => d = tunnelSay { a with tur.hubHeld := a.tur.hubHeld.eraseIdx i } 0 rcOk (tunnelReply 0 h.block.length 0 h.cpl h.block))) ∧
  (∀ tag, Does (.tunnelCollect tag) (fun a => a.tur.hubHeld.findIdx? (fun h => tag == 0 || h.tag == tag) = none)
    (fun a d => d = tunnelSay a 0 rcOk (tunnelReply 3 0 0 [] []))) ∧
  (∀ want, 0 < want → want ≤ 62 → Does (.tunnelEvents want) (fun _ => True)
    (fun a d => ∃ bs, bs = putBytes (tunnelReply (if (a.tur.fmQueue.take want).isEmpty then 3 else 0) 0 (a.tur.fmQueue.take want).length []
        ((a.tur.fmQueue.take want).flatMap id)) 48 (natLe a.tur.fmLost 8) ∧
      d = tunnelSay { a with tur.fmQueue := a.tur.fmQueue.drop want } 0 rcOk bs)) ∧
  (∀ n dt w, Does (.tunnelSubmitExpiry n dt)
    (fun a => a.tur.hubWaits.find? (fun w => w.submit == n) = some w ∧ w.waiting = true ∧ w.at' + 1000000000 ≤ (advance a dt).tim.elapsed)
    (fun a d => d = tunnelSay { advance a dt with tur.hubWaits := updWhere (fun x => x.submit == n) (fun x => { x with waiting := false }) a.tur.hubWaits } n rcOk
      (tunnelReply 1 0 0 [] [])))

/-- DOE and SPDM requests whose requester can reach its mailbox (17 R396; 15 R356-R358, Table 15-4): discovery answers the three object types; a CDAT access answers an entry and the next handle; GET_VERSION starts an exchange and offers version 1.2; capabilities, algorithms, digests, certificates, the challenge and measurements are answered in
their order, and a request before its turn gets the error unexpected request. The model's own choices in it are log entries 6, 81, 96, 101. -/
def Obligations.AttestationRequestsAnswered : Prop :=
  (∀ who i, Does (.doeDiscovery who i) (fun a => doeOpen a who = true) (fun a d => d = doeReply a who 0
    (if i = 0 then natLe 1 2 ++ [0, 1] else if i = 1 then natLe 1 2 ++ [1, 2] else if i = 2 then natLe 0x1E98 2 ++ [2, 0] else natLe 0xFFFF 2 ++ [0, 0]))) ∧
  (∀ who h, h ≤ Config.cdatEntries who % 256 → Does (.cdatTableAccess who h) (fun a => doeOpen a who = true)
    (fun a d => ∃ m : Nat × Nat, m = (match findLd a who with | some x => (x.m1, x.m2) | none => (0, 0)) ∧ d = doeReply a who 2 ([0, 0] ++
      natLe (if h + 1 < Config.cdatEntries who % 256 + 1 then h + 1 else 0xFFFF) 2 ++ Config.cdatEntry who m.1 m.2 h))) ∧
  (∀ who req, 4 ≤ req.length → fieldAt req 0 1 = 0x10 → fieldAt req 1 1 = 0x84 → Does (.getVersion who req) (fun a => doeOpen a who = true)
    (fun a d => d = spdmSay (spdmPut a ⟨who, 1, req ++ ([0x10, 0x04, 0, 0, 0, 1] ++ natLe 0x1200 2), [], []⟩) who ([0x10, 0x04, 0, 0, 0, 1] ++ natLe 0x1200 2))) ∧
  (∀ who req, 20 ≤ req.length → fieldAt req 0 1 = 0x12 → fieldAt req 1 1 = 0xE1 →
    Does (.getCapabilities who req) (fun a => doeOpen a who = true ∧ (spdmOf a who).stage = 1)
    (fun a d => ∃ rsp : List Byte,
      rsp = [0x12, 0x61, 0, 0, 0] ++ (drawBytes a 9).1.take 1 ++ [0, 0] ++ natLe 0x16 4 ++ (drawBytes a 9).1.drop 1 ∧
      d = spdmSay (spdmPut (drawBytes a 9).2 { spdmOf a who with stage := 2, vca := (spdmOf a who).vca ++ req ++ rsp }) who rsp)) ∧
  (∀ who req, 32 ≤ req.length → fieldAt req 0 1 = 0x12 → fieldAt req 1 1 = 0xE3 →
    Does (.negotiateAlgorithms who req) (fun a => doeOpen a who = true ∧ (spdmOf a who).stage = 2)
    (fun a d => ∃ rsp : List Byte,
      rsp = [0x12, 0x63, 0, 0] ++ natLe 36 2 ++ [byte (fieldAt req 6 1 &&& 1), 0] ++ natLe (if fieldAt req 6 1 &&& 1 = 1 then 8 else 0) 4 ++
        natLe (fieldAt req 8 4 &&& 0x40) 4 ++ natLe (fieldAt req 12 4 &&& 4) 4 ++ List.replicate 16 0 ∧
      d = spdmSay (spdmPut a { spdmOf a who with
        stage := if fieldAt req 8 4 &&& 0x40 = 0x40 ∧ fieldAt req 12 4 &&& 4 = 4 then 3 else 2
        vca := (spdmOf a who).vca ++ req ++ rsp }) who rsp)) ∧
  (∀ who req, 4 ≤ req.length → fieldAt req 0 1 = 0x12 → fieldAt req 1 1 = 0x81 →
    Does (.getDigests who req) (fun a => doeOpen a who = true ∧ 3 ≤ (spdmOf a who).stage ∧ slotFilled a = true)
    (fun a d => d = spdmSay (spdmPut a { spdmOf a who with certs := (spdmOf a who).certs ++ req ++ ([0x12, 0x01, 0, 1] ++ sha512 (certChain a)) }) who
      ([0x12, 0x01, 0, 1] ++ sha512 (certChain a)))) ∧
  (∀ who req, 8 ≤ req.length → fieldAt req 0 1 = 0x12 → fieldAt req 1 1 = 0x82 → fieldAt req 2 1 = 0 →
    Does (.getCertificate who req) (fun a => doeOpen a who = true ∧ 3 ≤ (spdmOf a who).stage ∧ slotFilled a = true ∧ fieldAt req 4 2 < (certChain a).length)
    (fun a d => ∃ part rsp : List Byte, part = ((certChain a).drop (fieldAt req 4 2)).take (fieldAt req 6 2) ∧
      rsp = [0x12, 0x02, 0, 0] ++ natLe part.length 2 ++ natLe ((certChain a).length - fieldAt req 4 2 - part.length) 2 ++ part ∧
      d = spdmSay (spdmPut a { spdmOf a who with certs := (spdmOf a who).certs ++ req ++ rsp }) who rsp)) ∧
  (∀ who req, 36 ≤ req.length → fieldAt req 0 1 = 0x12 → fieldAt req 1 1 = 0x83 → fieldAt req 2 1 = 0 → fieldAt req 3 1 ∈ [0, 1, 255] →
    Does (.challenge who req) (fun a => doeOpen a who = true ∧ 3 ≤ (spdmOf a who).stage ∧ slotFilled a = true ∧ canSign a = true)
    (fun a d => ∃ (some' : List (Nat × List Byte)) (head : List Byte),
      some' = (if fieldAt req 3 1 = 1 then (measBlocks a who).filter (fun x => decide (x.1 < 4)) else measBlocks a who) ∧
      head = [0x12, 0x03, 0, 1] ++ sha512 (certChain a) ++ (drawBytes a 32).1 ++ (if fieldAt req 3 1 = 0 then [] else sha512 (some'.flatMap (·.2))) ++ natLe 0 2 ∧
      d = spdmSay (spdmPut (drawBytes (drawBytes a 32).2 64).2 { spdmOf a who with certs := [] }) who (head ++ identitySign a.boot.publicKey
        (drawBytes (drawBytes a 32).2 64).1 (spdmSigned ctxChallenge ((spdmOf a who).vca ++ (spdmOf a who).certs ++ req ++ head))))) ∧
  (∀ who req, 4 ≤ req.length → fieldAt req 0 1 = 0x12 → fieldAt req 1 1 = 0xE0 →
    Does (.getMeasurements who req)
    (fun a => doeOpen a who = true ∧ 3 ≤ (spdmOf a who).stage ∧
      (bitSet (fieldAt req 2 1) 0 = true → 37 ≤ req.length ∧ fieldAt req 36 1 = 0 ∧ canSign a = true ∧ slotFilled a = true) ∧
      (fieldAt req 3 1 = 0 ∨ fieldAt req 3 1 = 255 ∨ (measBlocks a who).any (fun x => x.1 == fieldAt req 3 1) = true))
    (fun a d => ∃ (sel : List (Nat × List Byte)) (head : List Byte),
      sel = (if fieldAt req 3 1 = 0 then [] else if fieldAt req 3 1 = 255 then measBlocks a who
        else (measBlocks a who).filter (fun x => x.1 == fieldAt req 3 1)) ∧
      head = [0x12, 0x60, byte (if fieldAt req 3 1 = 0 then (measBlocks a who).length else 0), 0, byte sel.length] ++
        natLe (sel.flatMap (·.2)).length 3 ++ sel.flatMap (·.2) ++ (drawBytes a 32).1 ++ natLe 0 2 ∧
      (bitSet (fieldAt req 2 1) 0 = false → d = spdmSay (spdmPut (drawBytes (drawBytes a 32).2 64).2
        { spdmOf a who with meas := (spdmOf a who).meas ++ req ++ head }) who head) ∧
      (bitSet (fieldAt req 2 1) 0 = true → d = spdmSay (spdmPut (drawBytes (drawBytes a 32).2 64).2 { spdmOf a who with meas := [] }) who
        (head ++ identitySign a.boot.publicKey (drawBytes (drawBytes a 32).2 64).1
          (spdmSigned ctxMeasure ((spdmOf a who).vca ++ ((spdmOf a who).meas ++ req ++ head))))))) ∧
  (∀ who req, 4 ≤ req.length → fieldAt req 0 1 = 0x12 → fieldAt req 1 1 = 0xE0 →
    Does (.getMeasurements who req) (fun a => doeOpen a who = true ∧ (spdmOf a who).stage < 3) (fun a d => d = spdmError a who 4))

/-- The pins and rails (19 R434-R436, R444, R446; 21 R464), in every state. A level of PWRGD of under 10 µs, a PERST_N of under 100 ns, a PWRFAIL_N of under 1 µs and an undervoltage of under 2 µs are not seen. The first PWRGD ends the held reset where PERST_N is high. PWRFAIL_N from training on fails the power: it ends what is in
progress except the NAND programs issued, with EV_POWER_FAIL; before training it halts at once. A reset of 1 µs outside a power failure gives the fresh device and the settings of power-up. The end of the last program halts a device that lost power, or gives it the reset that PERST_N asked for meanwhile. The model's own choices in it are log entries 1, 8, 28, 109. -/
def Obligations.PowerPinsTakeEffect : Prop :=
  (∀ ns (s : State), ns < 10000 → s.dev.boot.powerFail = false → s.dev.clk.started = true →
    exec (.pwrgdAssert ns) s = .next s ∧ exec (.pwrgdDeassert ns) s = .next s) ∧
  (∀ ns (s : State), 10000 ≤ ns → s.dev.boot.powerFail = false → s.dev.clk.started = true → s.dev.boot.pwrgdSeen = false →
    exec (.pwrgdAssert ns) s = .next { s with dev := { s.dev with boot.pwrgd := true, boot.pwrgdSeen := true, boot.inReset := s.dev.boot.perstLow } }) ∧
  (∀ ns (s : State), ns < 1000 → s.dev.boot.powerFail = false → s.dev.clk.started = true → exec (.pwrfailNAssert ns) s = .next s) ∧
  (∀ ns (s : State), ns < 100 → s.dev.boot.powerFail = false → s.dev.clk.started = true → exec (.perstNAssert ns) s = .next s) ∧
  (∀ ns (s : State), ns < 2000 → s.dev.boot.powerFail = false → s.dev.clk.started = true → exec (.railUndervoltage ns) s = .next s) ∧
  (∀ ns (s : State), 10000 ≤ ns → s.dev.boot.pwrgd = true →
    let d := settleHalt (powerFail 2 { s.dev with boot.pwrgd := false })
    exec (.pwrgdDeassert ns) s = .next { s with grid := if d.clk.started then s.grid else freshGrid, dev := d }) ∧
  (∀ ns (s : State), 1000 ≤ ns →
    let d := settleHalt (powerFail 1 { s.dev with boot.pwrfailLow := true })
    exec (.pwrfailNAssert ns) s = .next { s with grid := if d.clk.started then s.grid else freshGrid, dev := d }) ∧
  (∀ ns (s : State), 2000 ≤ ns → s.dev.boot.pwrgd = true →
    let d := settleHalt (powerFail 2 s.dev)
    exec (.railUndervoltage ns) s = .next { s with grid := if d.clk.started then s.grid else freshGrid, dev := d }) ∧
  (∀ ns (s : State), 1000 ≤ ns → s.dev.boot.powerFail = false → answering s.dev = true → 6 < s.dev.boot.stage →
    let b := powerFail 3 { s.dev with boot.perstLow := true }
    let d := settleHalt { b with boot.inReset := true }
    exec (.perstNAssert ns) s = .next { s with grid := if d.clk.started then s.grid else freshGrid, dev := d }) ∧
  (∀ ns (s : State), 1000 ≤ ns → s.dev.boot.powerFail = false → s.dev.boot.stage ≤ 6 →
    exec (.perstNAssert ns) s = .next { s with grid := freshGrid, dev := resetDev { s.dev with boot.perstLow := true, boot.stage := if answering s.dev then 9 else s.dev.boot.stage } }) ∧
  (∀ s : State, s.dev.boot.perstLow = true → s.dev.boot.powerFail = false → s.dev.clk.started = true →
    exec .perstNDeassert s = .next { s with dev := { s.dev with boot.perstLow := false, boot.inReset := !s.dev.boot.pwrgdSeen } }) ∧
  (∀ s : State, s.dev.boot.powerFail = false → s.dev.clk.started = true →
    exec .pwrfailNDeassert s = .next { s with dev := { s.dev with boot.pwrfailLow := false } }) ∧
  (∀ (a : Dev) (k : Nat), answering a = true → a.boot.powerFail = false → a.boot.stage ≤ 6 → powerFail k a = { a with boot.stage := 9 }) ∧
  (∀ (a : Dev) (k : Nat), answering a = true → a.boot.powerFail = false → 6 < a.boot.stage →
    let c := cutErase a
    let b := { c with
      boot.powerFail := true, boot.opLimit := c.flash.nextOp, flash.ops := c.flash.ops.filter isProgram, flash.mounting := none, flash.unmounting := none
      arr.cores := [], arr.slices := [], arr.records := [], kv.movers := [] }
    powerFail k a = raiseDev b 0x0160 [(1, k), (4, b.flash.ops.length)]) ∧
  (∀ (a : Dev), a.boot.powerFail = true → a.boot.inReset = true → issuedPrograms a = [] →
    settleHalt a = { resetDev { a with flash.ops := [] } with
      boot.inReset := a.boot.perstLow || !a.boot.pwrgdSeen, boot.perstLow := a.boot.perstLow }) ∧
  (∀ (a : Dev), a.boot.powerFail = true → a.boot.inReset = false → issuedPrograms a = [] →
    settleHalt a = { a with flash.ops := [], boot.stage := 9 })

/-- The stages of a boot (19 R438-R441; 15 R356, R357; 18 R428) as their events reach them. The first firmware part claims the mailbox, a part comes whole or in pieces that follow one another, and an abort drops it; another sender is busy meanwhile; an image that verifies starts stage 2 and is measured; identity, firmware, self-test and training follow one another, and an event out of its stage does nothing. Training takes all of the modules' capacity where their population and rate are supported, and no DDR else; the mount starts where there is a NAND profile and a DDR tier. The model's own choices in it are log entries 81, 102, 109, 111. -/
def Obligations.BootStagesFollow : Prop :=
  (∀ w, Does (.getFwInfo w) (fun a => (w = 17 ∨ (w < 16 ∧ 0 < a.cxl.width)) ∧ a.boot.stage = 0)
    (fun a d => d = reply (drawBytes a 65).2 w 0x0200 rcOk ([4, 0] ++ (drawBytes a 65).1.take 1 ++ List.replicate 13 0 ++ (drawBytes a 65).1.drop 1))) ∧
  (∀ w, Does (.getFwInfo w) (fun a => (w = 17 ∨ (w < 16 ∧ 0 < a.cxl.width)) ∧ a.boot.stage ≠ 0) (fun a d => d = reply a w 0x0200 rcUnsupported [])) ∧
  (∀ w slot data, Does (.transferFw w 0 slot 0 data)
    (fun a => (w = 17 ∨ (w < 16 ∧ 0 < a.cxl.width)) ∧ a.boot.stage = 0 ∧ (a.boot.claimed = none ∨ a.boot.claimed = some w) ∧ a.boot.transfer = none ∧
      1 ≤ slot ∧ slot ≤ 4 ∧ data ≠ [] ∧ data.length ≤ slotLimit slot)
    (fun a d => d = reply { a with
      boot.claimed := some w, boot.transfer := none
      boot.slots := upsert (fun (x : Nat × List Byte) => x.1 == slot) (slot, data) a.boot.slots } w 0x0201 rcOk [])) ∧
  (∀ w slot data, Does (.transferFw w 1 slot 0 data)
    (fun a => (w = 17 ∨ (w < 16 ∧ 0 < a.cxl.width)) ∧ a.boot.stage = 0 ∧ (a.boot.claimed = none ∨ a.boot.claimed = some w) ∧ a.boot.transfer = none ∧
      1 ≤ slot ∧ slot ≤ 4 ∧ data ≠ [] ∧ data.length ≤ slotLimit slot)
    (fun a d => d = reply { a with boot.claimed := some w, boot.transfer := some (slot, data) } w 0x0201 rcOk [])) ∧
  (∀ w slot off data k got, Does (.transferFw w 2 slot off data)
    (fun a => (w = 17 ∨ (w < 16 ∧ 0 < a.cxl.width)) ∧ a.boot.stage = 0 ∧ a.boot.claimed = some w ∧ a.boot.transfer = some (k, got) ∧
      off * 128 = got.length ∧ got.length + data.length ≤ slotLimit k)
    (fun a d => d = reply { a with boot.transfer := some (k, got ++ data) } w 0x0201 rcOk [])) ∧
  (∀ w slot off data k got, Does (.transferFw w 3 slot off data)
    (fun a => (w = 17 ∨ (w < 16 ∧ 0 < a.cxl.width)) ∧ a.boot.stage = 0 ∧ a.boot.claimed = some w ∧ a.boot.transfer = some (k, got) ∧
      off * 128 = got.length ∧ got.length + data.length ≤ slotLimit k)
    (fun a d => d = reply { a with
      boot.transfer := none, boot.slots := upsert (fun (x : Nat × List Byte) => x.1 == k) (k, got ++ data) a.boot.slots } w 0x0201 rcOk [])) ∧
  (∀ w slot off data, Does (.transferFw w 4 slot off data)
    (fun a => (w = 17 ∨ (w < 16 ∧ 0 < a.cxl.width)) ∧ a.boot.stage = 0 ∧ (a.boot.claimed = none ∨ a.boot.claimed = some w))
    (fun a d => d = reply { a with boot.transfer := none, boot.claimed := none } w 0x0201 rcOk [])) ∧
  (∀ w k act slot off data, w ≠ k → Does (.transferFw w act slot off data)
    (fun a => (w = 17 ∨ (w < 16 ∧ 0 < a.cxl.width)) ∧ a.boot.stage = 0 ∧ a.boot.claimed = some k) (fun a d => d = reply a w 0x0201 rcBusy [])) ∧
  (∀ w, Does (.activateFw w 1)
    (fun a => (w = 17 ∨ (w < 16 ∧ 0 < a.cxl.width)) ∧ a.boot.stage = 0 ∧ (a.boot.claimed = none ∨ a.boot.claimed = some w) ∧ a.boot.transfer = none ∧
      bootSlot a 1 ≠ [] ∧ rsaVerify Config.firmwareKey (Config.fwBody (bootSlot a 1)) (Config.fwSignature (bootSlot a 1)) = true)
    (fun a d => d = reply { a with
      boot.claimed := none, boot.stage := 2, boot.fwDigest := sha512 (bootSlot a 1 ++ bootSlot a 2)
      boot.fwSecurity := Config.fwSecurity (bootSlot a 1) % 2 ^ 16, boot.fwVersion := Config.fwVersion (bootSlot a 1) % 2 ^ 64 } w 0x0202 rcOk [])) ∧
  (∀ w, Does (.activateFw w 1)
    (fun a => (w = 17 ∨ (w < 16 ∧ 0 < a.cxl.width)) ∧ a.boot.stage = 0 ∧ (a.boot.claimed = none ∨ a.boot.claimed = some w) ∧ a.boot.transfer = none ∧
      bootSlot a 1 ≠ [] ∧ rsaVerify Config.firmwareKey (Config.fwBody (bootSlot a 1)) (Config.fwSignature (bootSlot a 1)) = false)
    (fun a d => d = reply { a with boot.claimed := none } w 0x0202 0x0A [])) ∧
  (Does .identityDerived (fun a => a.boot.stage = 2 ∧ (bootSlot a 3).length ≠ 4096)
    (fun a d => d = raiseDev { a with
      boot.stage := 3, boot.ifMajor := 1, boot.ifMinor := Config.fwMinor (bootSlot a 1) % 256, boot.identity := 3 } 0x0130 [(1, 3), (16, 0)])) ∧
  (∀ key, Does .identityDerived (fun a => a.boot.stage = 2 ∧ (bootSlot a 3).length = 4096 ∧ Config.identityKey (bootSlot a 3) = some key)
    (fun a d => ∃ b : Dev,
      let chain := bootSlot a 4
      let leaf := spkiOf (leafOf chain.length chain)
      let ok := chain ≠ [] ∧ leaf = key
      b = { a with
        boot.stage := 3, boot.ifMajor := 1, boot.ifMinor := Config.fwMinor (bootSlot a 1) % 256, boot.identity := if ok then 2 else 1, boot.publicKey := key
        boot.serial := fieldAt (bootSlot a 3) 0 8, boot.chain := if ok then chain else [] } ∧
      ((chain = [] ∨ ok) → d = raiseDev b 0x0130 [(1, b.boot.identity), (16, leNat ((sha512 key).take 16))]) ∧
      (chain ≠ [] → leaf ≠ key → d = raiseDev (raiseDev b 0x0131 [(8, chain.length), (16, leNat ((sha512 leaf).take 16))]) 0x0130
        [(1, b.boot.identity), (16, leNat ((sha512 key).take 16))]))) ∧
  (Does .firmwareStarted (fun a => a.boot.stage = 3)
    (fun a d => d = { a with boot.stage := 4, tur.rings := a.tur.rings ++ [freshRing 16 16 0 0 0 0 6 0 0 true] })) ∧
  (Does .firmwareStarted (fun a => a.boot.stage ≠ 3) (fun a d => d = a)) ∧
  (∀ defects fail slots units, Does (.bootSelftestDone defects fail slots units) (fun a => a.boot.stage = 5)
    (fun a d => ∃ b c : Dev, b = defects.foldl applyDefect { a with rep.noSlots := slots, rep.noUnits := units } ∧
      c = (touchedClusters b).foldl settleCluster b ∧
      d = { c with boot.stage := if fail = true ∨ ∃ die < 4, ∀ k < 64, die * 64 + k ∈ c.arr.out then 10 else 6 })) ∧
  (∀ defects fail slots units, Does (.bootSelftestDone defects fail slots units) (fun a => a.boot.stage ≠ 5) (fun a d => d = a)) ∧
  (∀ modules mts n luns silent k ch b, ddrPopulation modules = some (k, ch) → 4800 ≤ mts → mts ≤ (if k = 2 then 5200 else 6400) →
    Does (.trainingDone modules mts n ⟨luns, silent⟩ []) (fun a => a.boot.stage = 6 ∧ a.pool.hbmGranules.length = 8 ∧ bootSlot a 2 = [] ∧
      a.rep.mapEntries.any (fun x => x.kind == 5) = false ∧ holdExch { a with
        boot.stage := 7, boot.ddrChannels := ch, boot.ddrDpc := k, boot.ddrMts := mts, pool.ddrGranules := sumNat (modules.map (·.gib)) / 4 } = some b)
    (fun _ d => d = { b with boot.bootDone := true })) ∧
  (∀ modules mts n luns silent k ch b, ddrPopulation modules = some (k, ch) → 4800 ≤ mts → mts ≤ (if k = 2 then 5200 else 6400) →
    Does (.trainingDone modules mts n ⟨luns, silent⟩ []) (fun a => a.boot.stage = 6 ∧ a.pool.hbmGranules.length = 8 ∧ bootSlot a 2 ≠ [] ∧
      (findNand luns silent a).rep.mapEntries.any (fun x => x.kind == 5) = false ∧ (findNand luns silent a).pool.hbmGranules.length = 8 ∧
      bootSlot (findNand luns silent a) 2 ≠ [] ∧ holdExch { findNand luns silent a with
        boot.stage := 7, boot.ddrChannels := ch, boot.ddrDpc := k, boot.ddrMts := mts, pool.ddrGranules := sumNat (modules.map (·.gib)) / 4 } = some b ∧
      b.pool.ddrGranules ≠ 0)
    (fun _ d => d = { b with flash.mounting := some none })) ∧
  (∀ modules mts n luns silent b, (ddrPopulation modules = none ∨ mts < 4800) →
    Does (.trainingDone modules mts n ⟨luns, silent⟩ []) (fun a => a.boot.stage = 6 ∧ a.pool.hbmGranules.length = 8 ∧ bootSlot a 2 = [] ∧
      holdExch { a with boot.stage := 7, boot.ddrChannels := 0, boot.ddrDpc := 0, boot.ddrMts := 0, pool.ddrGranules := 0 } = some b)
    (fun _ d => d = { b with boot.bootDone := true })) ∧
  (∀ modules mts n luns silent failed, Does (.trainingDone modules mts n ⟨luns, silent⟩ failed) (fun a => a.boot.stage ≠ 6) (fun a d => d = a))

/-- Throttling and telemetry of temperature (20 R458; 21 R468-R471). THROT_N of 1 µs requests a level until its release; a power sample that comes too early is not taken, and one that comes in time enters the average of ten, which requests level 1 above 1,800 W, level 2 after 10 ms there, and one level less after each 10 ms below 1,700 W; a temperature request ends after 10 ms below; a sensor at its trip value asserts
THERMTRIP_N, reports level 3 and fails the power; a whole second fills one bin of every sensor and of every NAND channel. The model's own choices in it are log entries 30, 110. -/
def Obligations.ThrottlingTakesEffect : Prop :=
  (∀ ns, 1000 ≤ ns → Does (.throtNAssert ns) (fun _ => True) (fun a d => d = { a with therm.byPin := true })) ∧
  (∀ ns, ns < 1000 → Does (.throtNAssert ns) (fun _ => True) (fun a d => d = a)) ∧
  (Does .throtNRelease (fun _ => True) (fun a d => d = { a with therm.byPin := false })) ∧
  (∀ dt w t, Does (.powerSample dt w) (fun a => a.therm.powerAt = some t ∧ (advance a dt).tim.elapsed < t + 100000) (fun a d => d = advance a dt)) ∧
  (∀ dt w, Does (.powerSample dt w) (fun a => a.therm.powerAt = none ∨ ∃ t, a.therm.powerAt = some t ∧ t + 100000 ≤ (advance a dt).tim.elapsed)
    (fun a d => ∃ t u : Therm, t = { a.therm with power := (w :: a.therm.power).take 10, powerAt := some (advance a dt).tim.elapsed } ∧
      d = { advance a dt with therm := u } ∧
      (let now := (advance a dt).tim.elapsed
       let sum := sumNat t.power
       (t.power.length < 10 → u = t) ∧
       (10 ≤ t.power.length → 18000 < sum → u = { t with
         above := some (t.above.getD now), under := none
         byPower := if t.byPower = 0 then 1 else if t.above.getD now + 10000000 ≤ now then 2 else t.byPower }) ∧
       (10 ≤ t.power.length → sum < 17000 → t.under.getD now + 10000000 ≤ now →
         u = { t with above := none, under := some now, byPower := t.byPower - 1 }) ∧
       (10 ≤ t.power.length → sum < 17000 → now < t.under.getD now + 10000000 → u = { t with above := none, under := some (t.under.getD now) }) ∧
       (10 ≤ t.power.length → 17000 ≤ sum → sum ≤ 18000 → u = { t with above := none, under := none })))) ∧
  (∀ dt, Does (.throttleRequestExpiry dt) (fun _ => True) (fun a d => d = { advance a dt with
    therm.reqs := dropWhere (fun r => match r.below with | some s => decide (s + 10000000 ≤ (advance a dt).tim.elapsed) | none => false) a.therm.reqs })) ∧
  (∀ n t (s : State), n < 14 → tempLimit n 3 ≤ t → s.dev.therm.trip = false → answering s.dev = true →
    let d := settleHalt (powerFail 1 (raiseDev { s.dev with therm.trip := true, outs.pins := s.dev.outs.pins ++ [(1, s.dev.tim.elapsed, false)] } 0x0170
      [(1, 3), (1, 1), (1, n), (4, ofSigned 32 t)]))
    exec (.thermalTrip n t) s = .next { s with grid := if d.clk.started then s.grid else freshGrid, dev := d }) ∧
  (∀ dt, Does (.thermalHistoryTick dt) (fun a => a.therm.seconds < (advance a dt).tim.elapsed / 1000000000 ∧ a.therm.seen = true)
    (fun a d => d = tickChannels { advance a dt with
      therm.seconds := a.therm.seconds + 1
      therm.sensors := a.therm.sensors.map (fun x => { x with
        bins := x.bins.set (tempBin (x.second.getD x.current)) (satAdd (nth x.bins (tempBin (x.second.getD x.current)) 0) 1), second := none }) })) ∧
  (∀ dt, Does (.thermalHistoryTick dt) (fun a => (advance a dt).tim.elapsed / 1000000000 ≤ a.therm.seconds) (fun a d => d = advance a dt))

/-- The control descriptors of a core that may run them (07 R143, R148, R149, R151, R152): NOP and SKIP move on; a loop begins with its counter at 0, goes round while its count lasts, and ends; a count of 0 goes to its end; FLAG sets and clears; FLAG_WAIT stays until its flags are set; SEM_WAIT takes from the
semaphore or waits; SEM_SIGNAL and BCAST wait for earlier movement, and what follows them waits for them; a barrier holds the core until all have arrived, and a channel core passes it; END stops the core. A false condition only moves on. The model's own choices in it are log entries 7, 46, 47. -/
def Obligations.ControlDescriptorsComplete : Prop :=
  DescDoes .nop 0x00 nopDesc (fun c x a d => d = updCore a c.num (fun y => goTo a (setDone y (doneFlag x)) (y.pc + 1))) ∧
  DescDoes .skip 0x72 skipDesc (fun c x a d => d = updCore a c.num (fun y => goTo a (setDone y (doneFlag x)) (y.pc + 1 + df x 8 2))) ∧
  DescDoes .loopBegin 0x70 loopBeginDesc (fun c x a d => ∃ n go, n = (if df x 9 1 = 0 then df x 12 4 else fieldAt c.prm (df x 12 4) (prmWidth (df x 12 4))) ∧ n ≤ 65536 ∧
    (0 < n → go = c.pc + 1) ∧ (n = 0 → ∀ k, coreKernel a c = some k → go = loopEndFrom (k.descs.drop (c.pc + 1)) 0 (c.pc + 1)) ∧
    (coreKernel a c = none → go = c.pc + 1) ∧
    d = updCore a c.num (fun y => goTo a { setDone y (doneFlag x) with
      loops := { counter := df x 8 1 % 4, index := 0, count := n, body := c.pc + 1 } :: y.loops, idx := setNth y.idx (df x 8 1 % 4) 0 } go)) ∧
  DescDoes .loopEnd 0x71 loopEndDesc (fun c x a d => (c.loops = [] → d = updCore a c.num (fun y => goTo a (setDone y (doneFlag x)) (y.pc + 1))) ∧
    ∀ l ls, c.loops = l :: ls →
    (l.index + 1 < l.count → d = updCore a c.num (fun y => goTo a { setDone y (doneFlag x) with
      loops := { l with index := l.index + 1 } :: ls, idx := setNth y.idx l.counter (l.index + 1) } l.body)) ∧
    (l.count ≤ l.index + 1 → d = updCore a c.num (fun y => goTo a { setDone y (doneFlag x) with loops := ls } (y.pc + 1)))) ∧
  DescDoes .flag 0x65 flagDesc (fun c x a d => (c.sig ≠ none → d = a) ∧ (c.sig = none →
    ∃ (f : Nat × Dev) (fl : Nat),
      let st := df x 8 8 % 2 ^ 56
      let cl := df x 16 8 % 2 ^ 56
      (st &&& cl = 0 → f = (0, a)) ∧ (st &&& cl ≠ 0 → f = drawNat a) ∧
      fl = sumNat ((List.range 64).map (fun k =>
        if (if bitSet (st &&& cl) k then bitSet f.1 k else if bitSet st k then true else if bitSet cl k then false else bitSet c.flags k) then 2 ^ k else 0)) ∧
      d = updCore (updCore f.2 c.num (fun y => { y with flags := fl })) c.num
        (fun y => goTo (updCore f.2 c.num (fun y => { y with flags := fl })) (setDone y (doneFlag x)) (y.pc + 1)))) ∧
  DescDoes .flagWait 0x66 flagWaitDesc (fun c x a d =>
    let met := if df x 16 1 = 0 then c.flags &&& df x 8 8 = df x 8 8 else c.flags &&& df x 8 8 ≠ 0
    (c.sig = none → met → d = updCore a c.num (fun y => goTo a (setDone y (doneFlag x)) (y.pc + 1))) ∧ ((c.sig ≠ none ∨ ¬met) → d = a)) ∧
  DescDoes .semWait 0x60 semWaitDesc (fun c x a d => (c.sig ≠ none → d = a) ∧ (c.sig = none →
    let m := semOf a c (df x 8 1)
    (m.waiters = [] → df x 12 2 ≤ m.count →
      let b := putSem a c { m with count := m.count - df x 12 2 }
      d = updCore b c.num (fun y => goTo b (setDone y (doneFlag x)) (y.pc + 1))) ∧
    ((m.waiters ≠ [] ∨ m.count < df x 12 2) →
      d = updCore (putSem a c { m with waiters := m.waiters ++ [(c.num, df x 12 2)] }) c.num (fun y => { y with wait := 1 })))) ∧
  DescDoes .semSignal 0x61 semSignalDesc (fun c x a d => (c.sig ≠ none → d = a) ∧
    (c.sig = none → d = settleSignal c.num (updCore a c.num (fun y => goTo a { y with
      sig := some { pc := c.pc, bcast := false, arg := df x 8 1, count := df x 12 2, waits := c.mvts.map (·.id), done := doneFlag x } } (y.pc + 1))))) ∧
  DescDoes .bcast 0x64 bcastDesc (fun c x a d => (c.sig ≠ none → d = a) ∧
    (c.sig = none → d = settleSignal c.num (updCore a c.num (fun y => goTo a { y with
      sig := some { pc := c.pc, bcast := true, arg := df x 8 1 % 64, count := df x 9 1, waits := c.mvts.map (·.id), done := doneFlag x } } (y.pc + 1))))) ∧
  DescDoes .barCl 0x62 barClDesc (fun c x a d => (c.sig ≠ none → d = a) ∧
    (c.sig = none → isChannelCore c = true → d = updCore a c.num (fun y => goTo a (setDone y (doneFlag x)) (y.pc + 1))) ∧
    (c.sig = none → isChannelCore c = false →
      let b := updCore a c.num (fun y => { y with wait := 2 + df x 8 1 % 2 })
      d = if (scopeCores b c (df x 8 1 % 2)).all (fun y => y.wait == 2 + df x 8 1 % 2)
        then (scopeCores b c (df x 8 1 % 2)).foldl (fun z y => passCore z y.num) b else b)) ∧
  DescDoes .barDev 0x63 barDevDesc (fun c x a d => (c.sig ≠ none → d = a) ∧
    (c.sig = none → isChannelCore c = true → d = updCore a c.num (fun y => goTo a (setDone y (doneFlag x)) (y.pc + 1))) ∧
    (c.sig = none → isChannelCore c = false → d = settleBarrier (updCore a c.num (fun y => { y with wait := 4 })) c.slice)) ∧
  DescDoes .endDesc 0x7F endDesc (fun c x a d => (c.sig ≠ none → d = a) ∧
    (c.sig = none → d = updCore a c.num (fun y => { setDone y (doneFlag x) with ended := true }))) ∧
  (∀ (s : State) n c, answering s.dev = true → findCore s.dev n = some c → c.ended = false → c.wait = 0 → df (coreDesc c) 0 1 = 0x00 →
    condHolds c (coreDesc c) = false →
    exec (.nop n) s = .next { s with dev := afterDesc (updCore s.dev n (fun y => goTo s.dev y (y.pc + 1))) })

/-- The MAC descriptors, QUANT and DEQUANT of a core that may run them (07 R144-R147): one whose unit or operands do not admit it yet leaves the device as it is; else it reads its operands, writes its result or its accumulators, and stays outstanding on its unit.
UNIT_DESCRIPTOR_COMPLETE ends what is outstanding on a unit and sets its DONE_FLAG. The model's own choices in it are log entries 7, 29, 48, 49, 51. -/
def Obligations.MatrixDescriptorsComplete : Prop :=
  DescDoes .mm 0x20 mmDesc (fun c x a d =>
    let n := accNum c (df x 24 1) (df x 30 1)
    let la := df x 28 2 * tileBytes (df x 25 1)
    let lb := df x 28 2 * tileBytes (df x 26 1)
    let may := mayIssue c 0 (granulesOf a c x 8 la false ++ granulesOf a c x 16 lb false) [n]
    (may = false → d = a) ∧ (may = true → ∃ b e f acc sat, readAt a c x 8 la = .ok b ∧ readAt b.2 c x 16 lb = .ok e ∧
      (acc, sat) = mmBlocks (bitSet (df x 27 1) 1) (df x 25 1) (df x 26 1) b.1 e.1 (df x 28 2)
        (if bitSet (df x 27 1) 0 then List.replicate 1024 0 else accCodes c n) ∧
      f = setAcc e.2 c.num n acc ∧ d = issueUnit (if sat then updCore f c.num (fun y => setFlag y 63) else f) c x 0 [] [n])) ∧
  DescDoes .accRead 0x22 accReadDesc (fun c x a d =>
    let g := granulesOf a c x 8 (tileBytes (df x 17 1)) true
    (mayIssue c 0 g [df x 16 1] = false → d = a) ∧ (mayIssue c 0 g [df x 16 1] = true → ∃ b,
      writeAt a c x 8 (codesBytes (df x 17 1) ((accCodes c (df x 16 1)).map (accOut (df x 17 1) (df x 20 4)))) = .ok b ∧
      d = issueUnit (if bitSet (df x 18 1) 0 then setAcc b c.num (df x 16 1) (List.replicate 1024 0) else b) c x 0 g
        (if bitSet (df x 18 1) 0 then [df x 16 1] else []))) ∧
  DescDoes .accWrite 0x23 accWriteDesc (fun c x a d =>
    let g := granulesOf a c x 8 4096 false
    (mayIssue c 0 g [df x 16 1] = false → d = a) ∧ (mayIssue c 0 g [df x 16 1] = true → ∃ b, readAt a c x 8 4096 = .ok b ∧
      d = issueUnit (setAcc b.2 c.num (df x 16 1) (elemCodes 7 b.1)) c x 0 [] [df x 16 1])) ∧
  DescDoes .quant 0x30 quantDesc (fun c x a d =>
    let acc := bitSet (df x 26 1) 0
    let gs := if acc then [] else granulesOf a c x 8 (df x 40 2 * tileBytes (df x 24 1)) false
    let gd := granulesOf a c x 16 (df x 40 2 * tileBytes (df x 25 1)) true
    let gw := if orefName x 32 = noName then [] else granulesOf a c x 32 4 true
    let may := mayIssue c 1 (gs ++ gd ++ gw) (if acc then (List.range (df x 40 2)).map (fun i => (df x 8 1 % 16 + i) % 16) else [])
    (may = false → d = a) ∧ (may = true → ∃ (b : List Byte × Dev) (e f : Dev), (acc = true → b = ([], a)) ∧
      (acc = false → readAt a c x 8 (df x 40 2 * tileBytes (df x 24 1)) = .ok b) ∧
      writeAt b.2 c x 16 (convertTiles (df x 25 1) (df x 28 4)
        ((List.range (df x 40 2)).map (fun i => srcTile c acc (df x 8 1 % 16) (df x 24 1) i b.1))).1 = .ok e ∧
      (orefName x 32 = noName → f = e) ∧
      (orefName x 32 ≠ noName → ∃ n, readAt e c x 32 4 = .ok n ∧ writeAt n.2 c x 32 (natLe ((leNat n.1 + (convertTiles (df x 25 1) (df x 28 4)
        ((List.range (df x 40 2)).map (fun i => srcTile c acc (df x 8 1 % 16) (df x 24 1) i b.1))).2) % 2 ^ 32) 4) = .ok f) ∧
      d = issueUnit f c x 1 (gd ++ gw) [])) ∧
  DescDoes .dequant 0x31 dequantDesc (fun c x a d =>
    let gd := granulesOf a c x 16 (df x 40 2 * tileBytes (df x 25 1)) true
    let may := mayIssue c 1 (granulesOf a c x 8 (df x 40 2 * tileBytes (df x 24 1)) false ++ gd) []
    (may = false → d = a) ∧ (may = true → ∃ b e, readAt a c x 8 (df x 40 2 * tileBytes (df x 24 1)) = .ok b ∧
      writeAt b.2 c x 16 (convertTiles (df x 25 1) (df x 28 4) ((List.range (df x 40 2)).map (fun i => srcTile c false 0 (df x 24 1) i b.1))).1 = .ok e ∧
      d = issueUnit e c x 1 gd [])) ∧
  (∀ n u, Does (.unitDescriptorComplete n u) (fun _ => True) (fun a d => d = settleJobs (updCore a n (fun c =>
    match c.units.find? (fun y => y.unit == u) with
    | some y => { setDone c y.done with units := dropWhere (fun (z : UnitOp) => z.unit == u) c.units }
    | none => c))))

/-- The vector descriptors of a core that may run them (07 R145-R147; 06 R121, R127, R128): one that is not admitted yet leaves the device as it is; else it writes its result and stays outstanding on the vector unit. VOP applies its operation to every element of its operands, each whole, broadcast, immediate or from accumulators. The model's own choices in it are log entries 7, 43, 49, 51. -/
def Obligations.VectorDescriptorsComplete : Prop :=
  DescDoes .vop 0x40 vopDesc (fun c x a d =>
    let fmt := df x 41 1
    let op := df x 40 1
    let t := df x 44 2
    let accA := bitSet (df x 46 1) 0
    let accD := bitSet (df x 46 1) 1
    let ga := if accA then [] else granulesOf a c x 16 (t * tileBytes fmt) false
    let gb := if vopUsesB op && df x 42 1 ≠ 4 then granulesOf a c x 24 (bcastCount (df x 42 1) t * (tileBits fmt / 8)) false else []
    let gc := if vopUsesC op && df x 43 1 ≠ 4 then granulesOf a c x 32 (bcastCount (df x 43 1) t * (tileBits fmt / 8)) false else []
    let gd := if accD then [] else granulesOf a c x 8 (t * tileBytes fmt) true
    let na := if accA then (List.range t).map (fun i => (df x 16 1 % 16 + i) % 16) else []
    let nd := if accD then (List.range t).map (fun i => (df x 8 1 % 16 + i) % 16) else []
    (mayIssue c 1 (ga ++ gb ++ gc ++ gd) (na ++ nd) = false → d = a) ∧
    (mayIssue c 1 (ga ++ gb ++ gc ++ gd) (na ++ nd) = true → ∃ (p q r : List Nat × Dev) (out : List Nat),
      (accA = true → p = ((List.range t).flatMap (fun i => (accCodes c (df x 16 1 % 16 + i)).map (accIn fmt)), a)) ∧
      (accA = false → ∃ b, readAt a c x 16 (t * tileBytes fmt) = .ok b ∧ p = (elemCodes fmt b.1, b.2)) ∧
      readBcast (vopUsesB op) (df x 42 1) t fmt 24 c x p.2 = .ok q ∧ readBcast (vopUsesC op) (df x 43 1) t fmt 32 c x q.2 = .ok r ∧
      out = ((List.range (1024 * t)).zip p.1).map (fun e => vopCode fmt op e.2 (bcastAt (df x 42 1) (immCode fmt (df x 48 4)) q.1 e.1)
        (bcastAt (df x 43 1) (immCode fmt (df x 48 4)) r.1 e.1)) ∧
      (accD = true → d = issueUnit ((List.range t).foldl (fun b i =>
        setAcc b c.num (df x 8 1 % 16 + i) (((out.drop (1024 * i)).take 1024).map (accBack fmt))) r.2) c x 1 [] nd) ∧
      (accD = false → ∃ e, writeAt r.2 c x 8 (codesBytes fmt out) = .ok e ∧ d = issueUnit e c x 1 gd []))) ∧
  DescDoes .vred 0x42 vredDesc (fun c x a d =>
    let acc := bitSet (df x 29 1) 0
    let gs := if acc then [] else granulesOf a c x 16 (df x 26 2 * tileBytes (df x 28 1)) false
    let gd := granulesOf a c x 8 128 true
    let may := mayIssue c 1 (gs ++ gd) (if acc then (List.range (df x 26 2)).map (fun i => (df x 16 1 % 16 + i) % 16) else [])
    (may = false → d = a) ∧ (may = true → ∃ (b : List Byte × Dev) (e : Dev), (acc = true → b = ([], a)) ∧
      (acc = false → readAt a c x 16 (df x 26 2 * tileBytes (df x 28 1)) = .ok b) ∧
      writeAt b.2 c x 8 ((List.range 32).flatMap (fun i => natLe (vredOne (df x 24 1)
        (((List.range (df x 26 2)).map (fun t => (srcTile c acc (df x 16 1 % 16) (df x 28 1) t b.1).map enc32)).flatMap (fun v =>
          (List.range 32).map (fun k => if df x 25 1 = 0 then at2 v i k 0 else at2 v k i 0)))) 4)) = .ok e ∧
      d = issueUnit e c x 1 gd [])) ∧
  DescDoes .rotate 0x43 rotateDesc (fun c x a d =>
    let t := ceilDiv (df x 42 2) 32
    let gs := granulesOf a c x 16 (4096 * t) false ++ granulesOf a c x 24 (2 * df x 42 2) false ++ granulesOf a c x 32 128 false
    let gd := granulesOf a c x 8 (4096 * t) true
    (mayIssue c 1 (gs ++ gd) [] = false → d = a) ∧
    (mayIssue c 1 (gs ++ gd) [] = true → ∃ b e f k, readAt a c x 16 (4096 * t) = .ok b ∧ readAt b.2 c x 24 (2 * df x 42 2) = .ok e ∧ readAt e.2 c x 32 128 = .ok f ∧
      writeAt f.2 c x 8 (codesBytes 7 ((List.range (1024 * t)).map (fun i =>
        rotated (df x 40 1) (df x 42 2) (elemCodes 7 b.1) (elemCodes 7 e.1) (elemCodes 7 f.1) (i / 32 % 32) (32 * (i / 1024) + i % 32)))) = .ok k ∧
      d = issueUnit k c x 1 gd [])) ∧
  DescDoes .smxPart 0x50 smxPartDesc (fun c x a d =>
    let accs := (List.range (df x 34 1)).map (fun i => (df x 33 1 + i) % 16)
    let g := granulesOf a c x 8 (tileBytes (df x 36 1)) true ++ (granulesOf a c x 16 128 true ++ granulesOf a c x 24 128 true)
    let may := mayIssue c 1 g (df x 32 1 % 16 :: accs)
    (may = false → d = a) ∧ (may = true → ∃ mb sb rows e f k, readAt a c x 16 128 = .ok mb ∧ readAt mb.2 c x 24 128 = .ok sb ∧
      rows = (List.range 32).map (fun i => smxRow x (coreTree a c) i (fieldAt mb.1 (4 * i) 4) (fieldAt sb.1 (4 * i) 4)
        (((accCodes c (df x 32 1 % 16)).drop (32 * i)).take 32)) ∧
      writeAt sb.2 c x 16 (rows.flatMap (fun r => natLe r.1 4)) = .ok e ∧ writeAt e c x 24 (rows.flatMap (fun r => natLe r.2.1 4)) = .ok f ∧
      writeAt f c x 8 (tileEncode (df x 36 1) (rows.flatMap (fun r => r.2.2.2.map (fun y => fvScale (f32 y) (df x 37 1))))).1 = .ok k ∧
      d = issueUnit (accs.foldl (fun z n => setAcc z c.num n (((List.range 1024).zip (accCodes c n)).map (fun y =>
        f32Mul y.2 (nth (rows.map (·.2.2.1)) (y.1 / 32) f32One)))) k) c x 1 g accs)) ∧
  DescDoes .smxMerge 0x51 smxMergeDesc (fun c x a d =>
    let len := df x 24 2 * (8 + 4 * df x 26 2)
    let gd := granulesOf a c x 8 len true
    let may := mayIssue c 1 (gd ++ granulesOf a c x 16 len false) []
    (may = false → d = a) ∧ (may = true → ∃ b e k, readAt a c x 8 len = .ok b ∧ readAt b.2 c x 16 len = .ok e ∧
      writeAt e.2 c x 8 ((List.range (df x 24 2)).flatMap (fun i => tripleBytes (mergeTriple (tripleAt b.1 (df x 26 2) i) (tripleAt e.1 (df x 26 2) i)))) = .ok k ∧
      d = issueUnit k c x 1 gd []))

/-- The movement descriptors of a core that may run them (07 R136, R145, R147, R148; 05 R90; 08 R164-R173): each resolves its regions, with the errors that its read finds treated, and is issued with its pieces; where sixteen are outstanding the device stays as it is. MOVEMENT_COMPLETE and NB_OPERATION_COMPLETE carry out what is outstanding, set DONE_FLAG and let a
signal go that waited for it: the pieces are moved, a record leaves for the merge unit, rows reach the append unit, and a near-bank operation writes its result, with its errors poisoned and counted. The model's own choices in it are log entries 7, 33, 48, 51, 117, 119. -/
def Obligations.MovementDescriptorsComplete : Prop :=
  (∀ bad, DescDoes (fun n => .tload n bad) 0x10 (tloadDesc bad) (fun c x a d => (mvtRoom c = false → d = a) ∧ (mvtRoom c = true →
    let fmt := df x 34 1
    let t := df x 32 2
    (bitSet (df x 35 1) 1 = true → ∃ r w, resolve a c x 8 256 false = .ok r ∧ resolve a c x 40 4 true = .ok w ∧
      d = issueMvt (readErrors a c r.1 r.2.1 r.2.2 256 bad).1 c x [⟨r.1, r.2.2, noName, 0, 256⟩, ⟨noName, 0, w.1, w.2.2, 4⟩] none []
        (readErrors a c r.1 r.2.1 r.2.2 256 bad).2) ∧
    (bitSet (df x 35 1) 1 = false → bitSet (df x 35 1) 0 = true → ∃ r w k, resolve a c x 8 (t * tileElemBytes fmt) false = .ok r ∧
      resolve a c x 16 (t * tileBytes fmt) true = .ok w ∧ resolve a c x 24 (32 * (df x 36 2 + t)) false = .ok k ∧
      d = issueMvt (readErrors a c r.1 r.2.1 r.2.2 (t * tileElemBytes fmt) bad).1 c x
        (splitPieces fmt t w.1 w.2.2 r.1 r.2.2 k.1 k.2.2 (df x 36 2) true) none [] (readErrors a c r.1 r.2.1 r.2.2 (t * tileElemBytes fmt) bad).2) ∧
    (bitSet (df x 35 1) 1 = false → bitSet (df x 35 1) 0 = false → ∃ r w, resolve a c x 8 (t * tileBytes fmt) false = .ok r ∧
      resolve a c x 16 (t * tileBytes fmt) true = .ok w ∧
      d = issueMvt (readErrors a c r.1 r.2.1 r.2.2 (t * tileBytes fmt) bad).1 c x [⟨r.1, r.2.2, w.1, w.2.2, t * tileBytes fmt⟩] none []
        (readErrors a c r.1 r.2.1 r.2.2 (t * tileBytes fmt) bad).2)))) ∧
  (∀ bad, DescDoes (fun n => .tstore n bad) 0x11 (tstoreDesc bad) (fun c x a d => (mvtRoom c = false → d = a) ∧ (mvtRoom c = true →
    let fmt := df x 34 1
    let t := df x 32 2
    ∃ r e, resolve a c x 8 (t * tileBytes fmt) false = .ok r ∧ e = readErrors a c r.1 r.2.1 r.2.2 (t * tileBytes fmt) bad ∧
      (bitSet (df x 35 1) 0 = true → ∃ w k, resolve a c x 16 (t * tileElemBytes fmt) true = .ok w ∧ resolve a c x 24 (32 * t) true = .ok k ∧
        d = issueMvt e.1 c x (splitPieces fmt t r.1 r.2.2 w.1 w.2.2 k.1 k.2.2 0 false) none [] e.2) ∧
      (bitSet (df x 35 1) 0 = false → ∃ w, resolve a c x 16 (t * tileBytes fmt) true = .ok w ∧
        d = issueMvt e.1 c x [⟨r.1, r.2.2, w.1, w.2.2, t * tileBytes fmt⟩] none [] e.2)))) ∧
  (∀ bad, DescDoes (fun n => .gather n bad) 0x12 (gatherDesc false bad) (fun c x a d => (mvtRoom c = false → d = a) ∧ (mvtRoom c = true →
    let w := df x 34 2 * 64
    ∃ b r t room, readAt a c x 24 (4 * df x 32 2) = .ok b ∧ resolve b.2 c x 8 0 false = .ok r ∧ resolve b.2 c x 16 (df x 32 2 * w) true = .ok t ∧
      room = nameSize b.2 c r.2.1 - r.2.2 ∧ (∀ i ∈ indexList b.1, (i + 1) * w ≤ room) ∧
      d = issueMvt (readErrors b.2 c r.1 r.2.1 r.2.2 room bad).1 c x (((List.range (df x 32 2)).zip (indexList b.1)).map (fun e =>
        ⟨r.1, r.2.2 + e.2 * w, t.1, t.2.2 + e.1 * w, w⟩)) none [] (readErrors b.2 c r.1 r.2.1 r.2.2 room bad).2))) ∧
  (∀ bad, DescDoes (fun n => .scatter n bad) 0x13 (gatherDesc true bad) (fun c x a d => (mvtRoom c = false → d = a) ∧ (mvtRoom c = true →
    let w := df x 34 2 * 64
    ∃ b r t, readAt a c x 24 (4 * df x 32 2) = .ok b ∧ resolve b.2 c x 8 (df x 32 2 * w) false = .ok r ∧ resolve b.2 c x 16 0 true = .ok t ∧
      (∀ i ∈ indexList b.1, (i + 1) * w ≤ nameSize b.2 c t.2.1 - t.2.2) ∧
      d = issueMvt (readErrors b.2 c r.1 r.2.1 r.2.2 (df x 32 2 * w) bad).1 c x (((List.range (df x 32 2)).zip (indexList b.1)).map (fun e =>
        ⟨r.1, r.2.2 + e.1 * w, t.1, t.2.2 + e.2 * w, w⟩)) none [] (readErrors b.2 c r.1 r.2.1 r.2.2 (df x 32 2 * w) bad).2))) ∧
  DescDoes .fill 0x14 fillDesc (fun c x a d => (mvtRoom c = false → d = a) ∧ (mvtRoom c = true →
    ∃ r, resolve a c x 8 (df x 20 2 * 64) true = .ok r ∧ d = issueMvt a c x [⟨srcFill, 0, r.1, r.2.2, df x 20 2 * 64⟩] none [] false)) ∧
  DescDoes .partEmit 0x52 partEmitDesc (fun c x a d => (mvtRoom c = false → d = a) ∧ (mvtRoom c = true →
    let n := 4 * df x 48 2 * df x 50 2
    let ents := df x 48 2 * (recordHeads c x).2
    let own := orefName x 32 == noName
    ∃ (t m s k : Nat × KName × Nat) (o : List Piece) (rec : PartRec),
      resolve a c x 8 (32 + ents * (8 + 4 * df x 52 2)) false = .ok t ∧ resolve a c x 16 n false = .ok m ∧ resolve a c x 24 n false = .ok s ∧
      resolve a c x 40 4 false = .ok k ∧ (own = true → o = []) ∧
      (own = false → ∃ r, resolve a c x 32 (n * df x 52 2) false = .ok r ∧ o = [⟨r.1, r.2.2, noName, 0, n * df x 52 2⟩]) ∧
      rec = { job := c.job, row := c.row, item := c.item, run := c.run, check := 0, queries := df x 48 2, heads := (recordHeads c x).2, vdim := df x 52 2
              kind := df x 54 1, firstQuery := fieldAt c.prm 14 2, firstHead := (recordHeads c x).1, phrases := fieldAt c.prm 36 2
              poisoned := match (findJob a c.job).bind (fun j => (jobRow j c.row).bind (fun r => rowItem r c.item)) with
                | some w => w.refetch
                | none => false
              entries := (List.range ents).map (fun i =>
                ⟨0, 0, if own then (List.range (df x 52 2)).map (accElem c (df x 55 1) (entryRow c x i)) else []⟩) } ∧
      d = issueMvt a c x ([⟨m.1, m.2.2, noName, 0, n⟩, ⟨s.1, s.2.2, noName, 0, n⟩, ⟨k.1, k.2.2, noName, 0, 4⟩] ++ o) (some rec) [] false)) ∧
  DescDoes .appendRows 0x58 appendRowsDesc (fun c x a d => (mvtRoom c = false → d = a) ∧ (mvtRoom c = true → isChannelCore c = false ∧
    (∀ j l r, findJob a c.job = some j → coreLayer a c = some l → jobRow j c.row = some r → df x 20 4 + df x 18 2 ≤ r.qcount ∧
      ∃ t, resolve a c x 8 (df x 18 2 * appendWidth l x * appendElem x) false = .ok t ∧
        d = issueMvt a c x [⟨t.1, t.2.2, noName, 0, df x 18 2 * appendWidth l x * appendElem x⟩] none [] false))) ∧
  DescDoes .nbIssue 0x5C nbIssueDesc (fun c x a d => (mvtRoom c = false → d = a) ∧ (mvtRoom c = true → isChannelCore c = false ∧
    ∃ (k : Nat × KName × Nat) (nb : List Byte × Dev) (y : Nat) (s t p q v e : Nat × Nat),
      resolve a c x 8 64 false = .ok k ∧ readAt a c x 8 64 = .ok nb ∧ y = leNat nb.1 ∧ nbOk y = true ∧
      nbArg nb.2 c y 16 (nbBytes y) false = .ok s ∧ nbArg nb.2 c y 24 (nbBytes y) true = .ok t ∧ nbArg nb.2 c y 32 (nbScalars y) false = .ok p ∧
      nbArg nb.2 c y 40 (nbScalars y) false = .ok q ∧ nbArg nb.2 c y 48 (nbVectors y) false = .ok v ∧ nbArg nb.2 c y 56 4 true = .ok e ∧
      d = issueMvt nb.2 c (x + y * 2 ^ 512) [⟨s.1, s.2, t.1, t.2, nbBytes y⟩, ⟨p.1, p.2, noName, 0, nbScalars y⟩, ⟨q.1, q.2, noName, 0, nbScalars y⟩,
        ⟨v.1, v.2, noName, 0, nbVectors y⟩, ⟨k.1, k.2.2, noName, 0, 64⟩, ⟨noName, 0, e.1, e.2, 4⟩] none [s, t, p, q, v, e] false)) ∧
  (∀ n i c m, Does (.movementComplete n i)
    (fun a => findCore a n = some c ∧ c.mvts.find? (fun m => m.id == i && df m.desc 0 1 != 0x5C) = some m)
    (fun a d => ∃ b : Dev,
      (df m.desc 0 1 = 0x58 → b = appendArrive c m a) ∧
      (∀ r, df m.desc 0 1 ≠ 0x58 → m.record = some r →
        b = { (finishRecord c m r a).2 with arr.records := (finishRecord c m r a).2.arr.records ++ [(finishRecord c m r a).1] }) ∧
      (∀ p q, df m.desc 0 1 ≠ 0x58 → m.record = none → m.pieces = [p, q] → p.dstName = noName → q.srcName = noName → b = doHeader c m p q a) ∧
      (df m.desc 0 1 ≠ 0x58 → m.record = none → (∀ p q, m.pieces = [p, q] → p.dstName ≠ noName ∨ q.srcName ≠ noName) →
        b = m.pieces.foldl (doPiece c m) a) ∧
      d = settleJobs (settleSignal n (updCore b n (fun z =>
        { setDone z (doneFlag (m.desc % 2 ^ 512)) with mvts := dropWhere (fun (q : Mvt) => q.id == m.id) z.mvts })))) ) ∧
  (∀ n i bad c m, Does (.nbOperationComplete n i bad)
    (fun a => findCore a n = some c ∧ c.mvts.find? (fun m => m.id == i && df m.desc 0 1 == 0x5C) = some m)
    (fun a d =>
      let h := nbHits a c m bad
      let w := nbPoison (nbPut c m (nbOperand m 1) (nbResult c m a).1 (nbResult c m a).2) c (nbOperand m 1) h
      let b := nbDamage (nbCount c m a (nbError c m h.length w)) c m (nbAddr a c (nbOperand m 1)).1 h.length
      d = settleJobs (settleSignal n (updCore b n (fun z =>
        { setDone z (doneFlag (m.desc % 2 ^ 512)) with mvts := dropWhere (fun (q : Mvt) => q.id == m.id) z.mvts })))))

/-- Jobs move on (06 R117, R127, R128; 07 R142): a slice all of whose cores have ended leaves with its cores; a SAMPLE or search job then waits for the boundary that makes its result visible, and any other goes on with its items ended and its barriers met; a slice with a core still at work stays. A partial record that arrives is merged, and what waited
for it goes on. The model's own choices in it are log entries 7, 44, 45, 50. -/
def Obligations.SlicesAndRecordsEnd : Prop :=
  (∀ i sl j, Does (.jobSliceEnd i)
    (fun a => findSlice a i = some sl ∧
      (a.arr.cores.filter (fun (c : Core) => c.slice == i)).all (fun c => c.ended && c.units.isEmpty && c.mvts.isEmpty && c.sig.isNone) = true ∧
      findJob (releaseSems { a with
        arr.cores := dropWhere (fun (c : Core) => c.slice == i) a.arr.cores
        arr.slices := dropWhere (fun (y : Slice) => y.id == i) a.arr.slices } sl.job) sl.job = some j)
    (fun a d =>
      let cs := a.arr.cores.filter (fun (c : Core) => c.slice == i)
      let b := releaseSems { a with
        arr.cores := dropWhere (fun (c : Core) => c.slice == i) a.arr.cores
        arr.slices := dropWhere (fun (y : Slice) => y.id == i) a.arr.slices } sl.job
      (usesKernels j = false → d = settleJobs (updJob b j.num (fun y => { y with state := 3 }))) ∧
      (usesKernels j = true → j.phase = 1 →
        d = settleJobs (advanceJob 4 (settleBarriers (cs.foldl (fun e c => updItem e c.job c.row c.item (endItem c)) b) sl.job) sl.job true)) ∧
      (usesKernels j = true → j.phase ≠ 1 → d = settleJobs (advanceJob 4 (settleBarriers b sl.job) sl.job true)))) ∧
  (∀ i sl, Does (.jobSliceEnd i)
    (fun a => findSlice a i = some sl ∧
      (a.arr.cores.filter (fun (c : Core) => c.slice == i)).all (fun c => c.ended && c.units.isEmpty && c.mvts.isEmpty && c.sig.isNone) = false)
    (fun a d => d = settleJobs a)) ∧
  (∀ i p, Does (.partialRecordArrival i) (fun a => a.arr.records[i]? = some p)
    (fun a d =>
      let b := advanceCut (settleBarriers (mergeRecord { a with arr.records := a.arr.records.eraseIdx i } p) p.job)
      d = settleJobs (match findJob b p.job with | some j => if j.state = 4 then advanceJob 4 b p.job true else b | none => b)))
end

