-- ==== Sys2Proof/Laws/Frames.lean ====
section
/-!
SUPPORT. What the shared operations leave as it is: completions, events, counters and exchange memory touch the interface only (sameBut), and time
only device time.
-/

namespace Sys2Proof.Machine

theorem sameBut_refl (a : Dev) : sameBut a a := rfl

theorem sameBut_trans {a b c : Dev} (h1 : sameBut a b) (h2 : sameBut b c) : sameBut a c := by
  unfold sameBut at *
  rw [h2, h1]

theorem sameBut_of {a b : Dev} (t : Turuk) (e : Mem) (p : List Nat) (c : Cxl) (o : Outs)
    (h : b = { a with tur := t, exch := e, poison := p, cxl := c, outs := o }) : sameBut a b := by
  subst h
  rfl

theorem sameBut_ite {a b c : Dev} {p : Prop} [Decidable p] (hb : sameBut a b) (hc : sameBut a c) : sameBut a (if p then b else c) := by
  split <;> assumption

theorem sameBut_foldl {α : Type} (f : Dev → α → Dev) (h : ∀ d x, sameBut d (f d x)) (l : List α) (d : Dev) : sameBut d (l.foldl f d) := by
  induction l generalizing d with
  | nil => exact sameBut_refl d
  | cons x l ih => exact sameBut_trans (h d x) (ih (f d x))

/-- The fields that a completion or an event leaves. -/
theorem sameBut.clk {a b : Dev} (h : sameBut a b) : b.clk = a.clk := by rw [h]
theorem sameBut.tim {a b : Dev} (h : sameBut a b) : b.tim = a.tim := by rw [h]
theorem sameBut.pool {a b : Dev} (h : sameBut a b) : b.pool = a.pool := by rw [h]
theorem sameBut.boot {a b : Dev} (h : sameBut a b) : b.boot = a.boot := by rw [h]
theorem sameBut.kv {a b : Dev} (h : sameBut a b) : b.kv = a.kv := by rw [h]
theorem sameBut.arr {a b : Dev} (h : sameBut a b) : b.arr = a.arr := by rw [h]
theorem sameBut.net {a b : Dev} (h : sameBut a b) : b.net = a.net := by rw [h]
theorem sameBut.flash {a b : Dev} (h : sameBut a b) : b.flash = a.flash := by rw [h]
theorem sameBut.indexes {a b : Dev} (h : sameBut a b) : b.indexes = a.indexes := by rw [h]
theorem sameBut.draws {a b : Dev} (h : sameBut a b) : b.draws = a.draws := by rw [h]

theorem exWrite_sameBut (d : Dev) (k : Nat) (bs : List Byte) : sameBut d (exWrite d k bs) := rfl
theorem exZero_sameBut (d : Dev) (k n : Nat) : sameBut d (exZero d k n) := rfl
theorem updRing_sameBut (d : Dev) (n : Nat) (f : Ring → Ring) : sameBut d (updRing d n f) := rfl
theorem ctrPut_sameBut (d : Dev) (c : Ctr) : sameBut d (ctrPut d c) := rfl
theorem settleRing_sameBut (d : Dev) (n : Nat) : sameBut d (settleRing d n) := rfl

theorem updLd_sameBut (d : Dev) (n : Nat) (f : CxlLd → CxlLd) : sameBut d (updLd d n f) := by
  unfold updLd
  split <;> exact rfl

theorem signalMsix_sameBut (d : Dev) (n v : Nat) : sameBut d (signalMsix d n v) := by
  unfold signalMsix
  split
  · split
    · exact rfl
    · split
      · exact rfl
      · exact sameBut_ite (updLd_sameBut d n _) rfl
  · exact rfl

theorem evqPut_sameBut (d : Dev) (n : Nat) (q : Evq) (e : EventRec) (lost : Nat) : sameBut d (evqPut d n q e lost) :=
  sameBut_trans (sameBut_of _ _ _ _ _ rfl) (signalMsix_sameBut _ n q.vector)

theorem evqPost_sameBut (d : Dev) (n : Nat) (e : EventRec) : sameBut d (evqPost d n e) := by
  unfold evqPost
  split
  · exact rfl
  · split
    · exact rfl
    · exact sameBut_ite rfl (sameBut_ite (evqPut_sameBut _ _ _ _ _) (sameBut_ite (evqPut_sameBut _ _ _ _ _) rfl))

theorem fmPost_sameBut (d : Dev) (e : EventRec) : sameBut d (fmPost d e) := by
  unfold fmPost
  split
  · exact rfl
  · exact sameBut_ite rfl (sameBut_ite rfl rfl)

/-- An event touches the interface only. -/
theorem raiseRec_sameBut (d : Dev) (e : EventRec) : sameBut d (raiseRec d e) := by
  obtain ⟨t, ht⟩ : ∃ t : Turuk, t = { d.tur with
      history := (d.tur.history ++ [(d.tur.histNext, e)]).drop ((d.tur.history ++ [(d.tur.histNext, e)]).length - 4096)
      histNext := d.tur.histNext + 1 } := ⟨_, rfl⟩
  have h0 : sameBut d { d with tur := t } := rfl
  unfold raiseRec
  dsimp only
  rw [← ht]
  split
  · exact sameBut_trans (sameBut_trans h0 (sameBut_foldl _ (fun a n => evqPost_sameBut a n e) _ _)) (fmPost_sameBut _ _)
  · exact sameBut_ite (sameBut_trans h0 (evqPost_sameBut _ _ _)) (sameBut_trans h0 (fmPost_sameBut _ _))
  · exact sameBut_trans h0 (evqPost_sameBut _ _ _)

theorem raise_sameBut (d : Dev) (code obj : Nat) (sc : EvScope) (vals : List (Nat × Nat)) : sameBut d (raise d code obj sc vals) :=
  raiseRec_sameBut d _

theorem raiseDev_sameBut (d : Dev) (code : Nat) (vals : List (Nat × Nat)) : sameBut d (raiseDev d code vals) := raise_sameBut d _ _ _ _

theorem raiseFor_sameBut (d : Dev) (v : Verb) (code obj : Nat) (sc : EvScope) (vals : List (Nat × Nat)) :
    sameBut d (raiseFor d v code obj sc vals) := sameBut_trans (raiseRec_sameBut d _) rfl

theorem deferredDone_sameBut (d : Dev) (ring tag op status obj : Nat) (sc : EvScope) (result : List Byte) :
    sameBut d (deferredDone d ring tag op status obj sc result) := raiseRec_sameBut d _

/-- Counting touches the interface only. -/
theorem bump_counts_only (d : Dev) (scope unit num n : Nat) : (∃ c, bump d scope unit num n = ctrPut d c) ∨
    ∃ c vals, bump d scope unit num n = raise (ctrPut d c) 0x0B10 (ctrObj (ctrPut d c) scope unit) (ctrScope (ctrPut d c) scope unit) vals := by
  unfold bump
  dsimp only
  split
  · exact Or.inl ⟨_, rfl⟩
  · split
    · exact Or.inl ⟨_, rfl⟩
    · split
      · exact Or.inl ⟨_, rfl⟩
      · split
        · exact Or.inl ⟨_, rfl⟩
        · exact Or.inr ⟨_, _, rfl⟩

theorem postCpl_sameBut (d : Dev) (r : Ring) (h : HeldCpl) : sameBut d (postCpl d r h) := by
  unfold postCpl
  exact sameBut_ite (sameBut_trans (sameBut_of _ _ _ _ _ rfl) (signalMsix_sameBut _ _ _)) rfl

theorem drainHeld_sameBut (k : Nat) (d : Dev) (n : Nat) : sameBut d (drainHeld k d n) := by
  induction k generalizing d with
  | zero => exact rfl
  | succ k ih =>
    unfold drainHeld
    split
    · exact rfl
    · split
      · exact rfl
      · exact sameBut_ite rfl (sameBut_trans (sameBut_trans (updRing_sameBut d n _) (postCpl_sameBut _ _ _)) (ih _))

theorem finishHub_sameBut (d : Dev) (v : Verb) (bytes : List Byte) : sameBut d (finishHub d v bytes) := by
  unfold finishHub
  dsimp only
  split
  · exact sameBut_ite rfl rfl
  · exact rfl

theorem startVerb_sameBut (d : Dev) (v : Verb) : sameBut d (startVerb d v) := rfl
theorem keepRunning_sameBut (d : Dev) (v : Verb) : sameBut d (keepRunning d v) := rfl

/-- A verb's output touches the interface only. -/
theorem outWrite_sameBut (d : Dev) (v : Verb) (off : Nat) (bs : List Byte) : sameBut d (outWrite d v off bs) := by
  unfold outWrite
  exact sameBut_ite rfl rfl

end Sys2Proof.Machine
end

