-- ==== Sys2Proof/Laws/Memory.lean ====
section
/-!
SUPPORT. Byte memories: reading after writing, and the canonical form, which every operation on a memory keeps.
-/

namespace Sys2Proof.Machine

theorem memWfFrom_mono {lo lo' : Nat} {m : Mem} (h : lo' ≤ lo) (hm : memWfFrom lo m = true) : memWfFrom lo' m = true := by
  cases m with
  | nil => rfl
  | cons e m =>
    obtain ⟨k, b⟩ := e
    simp only [memWfFrom, Bool.and_eq_true, decide_eq_true_eq] at hm ⊢
    exact ⟨⟨by omega, hm.1.2⟩, hm.2⟩

/-- A canonical memory that starts at `lo` reads 0 below it. -/
theorem memRead_below {lo a : Nat} {m : Mem} (hm : memWfFrom lo m = true) (h : a < lo) : memRead m a = 0 := by
  induction m generalizing lo with
  | nil => rfl
  | cons e m ih =>
    obtain ⟨k, b⟩ := e
    simp only [memWfFrom, Bool.and_eq_true, decide_eq_true_eq] at hm
    simp only [memRead]
    rw [if_neg (by omega)]
    exact ih hm.2 (by omega)

theorem memWrite_wfFrom {lo a : Nat} {m : Mem} (v : Byte) (hm : memWfFrom lo m = true) (h : lo ≤ a) : memWfFrom lo (memWrite m a v) = true := by
  induction m generalizing lo with
  | nil =>
    simp only [memWrite]
    by_cases hv : v = 0
    · rw [if_pos hv]
      rfl
    · rw [if_neg hv]
      simp only [memWfFrom, Bool.and_eq_true, decide_eq_true_eq, bne_iff_ne]
      exact ⟨⟨h, hv⟩, trivial⟩
  | cons e m ih =>
    obtain ⟨k, b⟩ := e
    simp only [memWfFrom, Bool.and_eq_true, decide_eq_true_eq, bne_iff_ne] at hm
    simp only [memWrite]
    by_cases h1 : a < k
    · by_cases hv : v = 0
      · rw [if_pos h1, if_pos hv]
        simp only [memWfFrom, Bool.and_eq_true, decide_eq_true_eq, bne_iff_ne]
        exact hm
      · simp only [h1, hv, if_true, if_false, memWfFrom, Bool.and_eq_true, decide_eq_true_eq, bne_iff_ne]
        exact ⟨⟨h, hv⟩, ⟨⟨by omega, hm.1.2⟩, hm.2⟩⟩
    · by_cases h2 : a = k
      · rw [if_neg h1, if_pos h2]
        by_cases hv : v = 0
        · rw [if_pos hv]
          exact memWfFrom_mono (by omega) hm.2
        · rw [if_neg hv]
          simp only [memWfFrom, Bool.and_eq_true, decide_eq_true_eq, bne_iff_ne]
          exact ⟨⟨hm.1.1, hv⟩, hm.2⟩
      · simp only [h1, h2, if_false, memWfFrom, Bool.and_eq_true, decide_eq_true_eq, bne_iff_ne]
        exact ⟨⟨hm.1.1, hm.1.2⟩, ih hm.2 (by omega)⟩

/-- A write keeps the canonical form. -/
theorem memWrite_wf {m : Mem} (a : Nat) (v : Byte) (hm : memWf m = true) : memWf (memWrite m a v) = true :=
  memWrite_wfFrom v hm (Nat.zero_le _)

theorem memRead_memWriteFrom {lo a : Nat} {m : Mem} (v : Byte) (b : Nat) (hm : memWfFrom lo m = true) :
    memRead (memWrite m a v) b = if b = a then v else memRead m b := by
  induction m generalizing lo with
  | nil =>
    simp only [memWrite]
    by_cases hv : v = 0
    · rw [if_pos hv, hv]
      simp only [memRead, ite_self]
    · rw [if_neg hv]
      simp only [memRead, eq_comm (a := a)]
  | cons e m ih =>
    obtain ⟨k, w⟩ := e
    have hm' := hm
    simp only [memWfFrom, Bool.and_eq_true, decide_eq_true_eq, bne_iff_ne] at hm
    simp only [memWrite]
    by_cases h1 : a < k
    · have hz : memRead ((k, w) :: m) a = 0 :=
        memRead_below (lo := k) (by simp only [memWfFrom, Bool.and_eq_true, decide_eq_true_eq, bne_iff_ne]; exact ⟨⟨le_refl k, hm.1.2⟩, hm.2⟩) h1
      by_cases hv : v = 0
      · simp only [h1, hv, if_true]
        by_cases hb : b = a
        · simp [hb, hz]
        · simp [hb]
      · simp only [h1, hv, if_true, if_false]
        by_cases hb : b = a
        · simp [memRead, hb]
        · simp [memRead, hb, Ne.symm hb]
    · by_cases h2 : a = k
      · subst h2
        simp only [h1, if_true, if_false]
        by_cases hv : v = 0
        · simp only [hv, if_true]
          by_cases hb : b = a
          · subst hb
            simp [memRead_below hm.2 (Nat.lt_succ_self b)]
          · simp [memRead, hb, Ne.symm hb]
        · simp only [hv, if_false, memRead]
          by_cases hb : b = a
          · simp [hb]
          · simp [hb, Ne.symm hb]
      · simp only [h1, h2, if_false, memRead, ih hm.2]
        by_cases hb : k = b
        · subst hb
          simp [Ne.symm h2]
        · simp [hb]

/-- A read after a write gives the byte written there, and what stood before elsewhere. -/
theorem memRead_memWrite {m : Mem} (a b : Nat) (v : Byte) (hm : memWf m = true) :
    memRead (memWrite m a v) b = if b = a then v else memRead m b := memRead_memWriteFrom v b hm

/-- Writing a byte string keeps the canonical form. -/
theorem memWriteN_wf {m : Mem} (a : Nat) (bs : List Byte) (hm : memWf m = true) : memWf (memWriteN m a bs) = true := by
  induction bs generalizing a m with
  | nil => exact hm
  | cons b bs ih => exact ih (a + 1) (memWrite_wf a b hm)

/-- What a byte reads after a byte string has been written. -/
theorem memRead_memWriteN {m : Mem} (a b : Nat) (bs : List Byte) (hm : memWf m = true) :
    memRead (memWriteN m a bs) b = if a ≤ b ∧ b < a + bs.length then (bs[b - a]?).getD 0 else memRead m b := by
  induction bs generalizing a m with
  | nil =>
    rw [if_neg (by simp only [List.length_nil]; omega)]
    rfl
  | cons x bs ih =>
    simp only [memWriteN, ih (a + 1) (memWrite_wf a x hm), memRead_memWrite _ _ _ hm, List.length_cons]
    by_cases h1 : b = a
    · subst h1
      rw [if_neg (by omega), if_pos rfl, if_pos (by omega)]
      simp
    · by_cases h2 : a + 1 ≤ b ∧ b < a + 1 + bs.length
      · rw [if_pos h2, if_pos (by omega)]
        rw [show b - a = (b - (a + 1)) + 1 by omega]
        simp
      · rw [if_neg h2, if_neg h1, if_neg (by omega)]

theorem memClear_wfFrom {lo : Nat} {m : Mem} (a len : Nat) (hm : memWfFrom lo m = true) : memWfFrom lo (memClear m a len) = true := by
  induction m generalizing lo with
  | nil => rfl
  | cons e m ih =>
    obtain ⟨k, b⟩ := e
    simp only [memWfFrom, Bool.and_eq_true, decide_eq_true_eq, bne_iff_ne] at hm
    simp only [memClear, List.filter_cons]
    split
    · simp only [memWfFrom, Bool.and_eq_true, decide_eq_true_eq, bne_iff_ne]
      exact ⟨hm.1, ih hm.2⟩
    · exact memWfFrom_mono (by omega) (ih hm.2)

/-- Clearing a range keeps the canonical form. -/
theorem memClear_wf {m : Mem} (a len : Nat) (hm : memWf m = true) : memWf (memClear m a len) = true := memClear_wfFrom a len hm

theorem memRead_memClearFrom {lo : Nat} {m : Mem} (a len b : Nat) (hm : memWfFrom lo m = true) :
    memRead (memClear m a len) b = if a ≤ b ∧ b < a + len then 0 else memRead m b := by
  induction m generalizing lo with
  | nil => simp [memClear, memRead]
  | cons e m ih =>
    obtain ⟨k, v⟩ := e
    simp only [memWfFrom, Bool.and_eq_true, decide_eq_true_eq, bne_iff_ne] at hm
    have hi := ih hm.2
    simp only [memClear] at hi
    simp only [memClear, List.filter_cons]
    by_cases hk : k < a ∨ a + len ≤ k
    · rw [if_pos (by simpa using hk)]
      simp only [memRead, hi]
      by_cases hb : k = b
      · subst hb
        rw [if_pos rfl, if_neg (by omega), if_pos rfl]
      · rw [if_neg hb, if_neg hb]
    · rw [if_neg (by simpa using hk), hi]
      simp only [memRead]
      by_cases hb : k = b
      · subst hb
        rw [if_pos (by omega), if_pos (by omega)]
      · rw [if_neg hb]

/-- What a byte reads after a range has been cleared. -/
theorem memRead_memClear {m : Mem} (a len b : Nat) (hm : memWf m = true) :
    memRead (memClear m a len) b = if a ≤ b ∧ b < a + len then 0 else memRead m b := memRead_memClearFrom a len b hm

theorem memPlace_wf (moved : List (Nat × Byte)) (f : Nat → Nat) (m : Mem) (hm : memWf m = true) :
    memWf (moved.foldl (fun acc e => memWrite acc (f e.1) e.2) m) = true := by
  induction moved generalizing m with
  | nil => exact hm
  | cons e l ih => exact ih _ (memWrite_wf _ _ hm)

/-- A copy keeps the canonical form of the memory that it writes. -/
theorem memCopy_wf {m' : Mem} (m : Mem) (src dst len : Nat) (hm : memWf m' = true) : memWf (memCopy m src m' dst len) = true :=
  memPlace_wf _ (fun k => k - src + dst) _ (memClear_wf dst len hm)

end Sys2Proof.Machine
end

