-- ==== Sys2Proof/Laws/State.lean ====
section
/-!
SUPPORT. Each named update of the device, field by field: what it does not name stays. True by unfolding; tagged for simp so that no proof
unfolds a record update.
-/

namespace Sys2Proof.Machine

/-! `advance` changes tim only. -/

@[simp] theorem advance_clk (d : Dev) (dt : Nat) : (advance d dt).clk = d.clk := rfl
@[simp] theorem advance_tur (d : Dev) (dt : Nat) : (advance d dt).tur = d.tur := rfl
@[simp] theorem advance_pool (d : Dev) (dt : Nat) : (advance d dt).pool = d.pool := rfl
@[simp] theorem advance_cxl (d : Dev) (dt : Nat) : (advance d dt).cxl = d.cxl := rfl
@[simp] theorem advance_boot (d : Dev) (dt : Nat) : (advance d dt).boot = d.boot := rfl
@[simp] theorem advance_rep (d : Dev) (dt : Nat) : (advance d dt).rep = d.rep := rfl
@[simp] theorem advance_therm (d : Dev) (dt : Nat) : (advance d dt).therm = d.therm := rfl
@[simp] theorem advance_exch (d : Dev) (dt : Nat) : (advance d dt).exch = d.exch := rfl
@[simp] theorem advance_poison (d : Dev) (dt : Nat) : (advance d dt).poison = d.poison := rfl
@[simp] theorem advance_bus (d : Dev) (dt : Nat) : (advance d dt).bus = d.bus := rfl
@[simp] theorem advance_busNext (d : Dev) (dt : Nat) : (advance d dt).busNext = d.busNext := rfl
@[simp] theorem advance_outs (d : Dev) (dt : Nat) : (advance d dt).outs = d.outs := rfl
@[simp] theorem advance_kv (d : Dev) (dt : Nat) : (advance d dt).kv = d.kv := rfl
@[simp] theorem advance_arr (d : Dev) (dt : Nat) : (advance d dt).arr = d.arr := rfl
@[simp] theorem advance_stored (d : Dev) (dt : Nat) : (advance d dt).stored = d.stored := rfl
@[simp] theorem advance_lexicons (d : Dev) (dt : Nat) : (advance d dt).lexicons = d.lexicons := rfl
@[simp] theorem advance_grammars (d : Dev) (dt : Nat) : (advance d dt).grammars = d.grammars := rfl
@[simp] theorem advance_gcache (d : Dev) (dt : Nat) : (advance d dt).gcache = d.gcache := rfl
@[simp] theorem advance_indexes (d : Dev) (dt : Nat) : (advance d dt).indexes = d.indexes := rfl
@[simp] theorem advance_searches (d : Dev) (dt : Nat) : (advance d dt).searches = d.searches := rfl
@[simp] theorem advance_net (d : Dev) (dt : Nat) : (advance d dt).net = d.net := rfl
@[simp] theorem advance_ckpts (d : Dev) (dt : Nat) : (advance d dt).ckpts = d.ckpts := rfl
@[simp] theorem advance_buddy (d : Dev) (dt : Nat) : (advance d dt).buddy = d.buddy := rfl
@[simp] theorem advance_restores (d : Dev) (dt : Nat) : (advance d dt).restores = d.restores := rfl
@[simp] theorem advance_ckptRuns (d : Dev) (dt : Nat) : (advance d dt).ckptRuns = d.ckptRuns := rfl
@[simp] theorem advance_flash (d : Dev) (dt : Nat) : (advance d dt).flash = d.flash := rfl
@[simp] theorem advance_regions (d : Dev) (dt : Nat) : (advance d dt).regions = d.regions := rfl
@[simp] theorem advance_draws (d : Dev) (dt : Nat) : (advance d dt).draws = d.draws := rfl

/-! `ctrPut` changes tur only. -/

@[simp] theorem ctrPut_clk (d : Dev) (c : Ctr) : (ctrPut d c).clk = d.clk := rfl
@[simp] theorem ctrPut_tim (d : Dev) (c : Ctr) : (ctrPut d c).tim = d.tim := rfl
@[simp] theorem ctrPut_pool (d : Dev) (c : Ctr) : (ctrPut d c).pool = d.pool := rfl
@[simp] theorem ctrPut_cxl (d : Dev) (c : Ctr) : (ctrPut d c).cxl = d.cxl := rfl
@[simp] theorem ctrPut_boot (d : Dev) (c : Ctr) : (ctrPut d c).boot = d.boot := rfl
@[simp] theorem ctrPut_rep (d : Dev) (c : Ctr) : (ctrPut d c).rep = d.rep := rfl
@[simp] theorem ctrPut_therm (d : Dev) (c : Ctr) : (ctrPut d c).therm = d.therm := rfl
@[simp] theorem ctrPut_exch (d : Dev) (c : Ctr) : (ctrPut d c).exch = d.exch := rfl
@[simp] theorem ctrPut_poison (d : Dev) (c : Ctr) : (ctrPut d c).poison = d.poison := rfl
@[simp] theorem ctrPut_bus (d : Dev) (c : Ctr) : (ctrPut d c).bus = d.bus := rfl
@[simp] theorem ctrPut_busNext (d : Dev) (c : Ctr) : (ctrPut d c).busNext = d.busNext := rfl
@[simp] theorem ctrPut_outs (d : Dev) (c : Ctr) : (ctrPut d c).outs = d.outs := rfl
@[simp] theorem ctrPut_kv (d : Dev) (c : Ctr) : (ctrPut d c).kv = d.kv := rfl
@[simp] theorem ctrPut_arr (d : Dev) (c : Ctr) : (ctrPut d c).arr = d.arr := rfl
@[simp] theorem ctrPut_stored (d : Dev) (c : Ctr) : (ctrPut d c).stored = d.stored := rfl
@[simp] theorem ctrPut_lexicons (d : Dev) (c : Ctr) : (ctrPut d c).lexicons = d.lexicons := rfl
@[simp] theorem ctrPut_grammars (d : Dev) (c : Ctr) : (ctrPut d c).grammars = d.grammars := rfl
@[simp] theorem ctrPut_gcache (d : Dev) (c : Ctr) : (ctrPut d c).gcache = d.gcache := rfl
@[simp] theorem ctrPut_indexes (d : Dev) (c : Ctr) : (ctrPut d c).indexes = d.indexes := rfl
@[simp] theorem ctrPut_searches (d : Dev) (c : Ctr) : (ctrPut d c).searches = d.searches := rfl
@[simp] theorem ctrPut_net (d : Dev) (c : Ctr) : (ctrPut d c).net = d.net := rfl
@[simp] theorem ctrPut_ckpts (d : Dev) (c : Ctr) : (ctrPut d c).ckpts = d.ckpts := rfl
@[simp] theorem ctrPut_buddy (d : Dev) (c : Ctr) : (ctrPut d c).buddy = d.buddy := rfl
@[simp] theorem ctrPut_restores (d : Dev) (c : Ctr) : (ctrPut d c).restores = d.restores := rfl
@[simp] theorem ctrPut_ckptRuns (d : Dev) (c : Ctr) : (ctrPut d c).ckptRuns = d.ckptRuns := rfl
@[simp] theorem ctrPut_flash (d : Dev) (c : Ctr) : (ctrPut d c).flash = d.flash := rfl
@[simp] theorem ctrPut_regions (d : Dev) (c : Ctr) : (ctrPut d c).regions = d.regions := rfl
@[simp] theorem ctrPut_draws (d : Dev) (c : Ctr) : (ctrPut d c).draws = d.draws := rfl

/-! `updRing` changes tur only. -/

@[simp] theorem updRing_clk (d : Dev) (r : Nat) (f : Ring → Ring) : (updRing d r f).clk = d.clk := rfl
@[simp] theorem updRing_tim (d : Dev) (r : Nat) (f : Ring → Ring) : (updRing d r f).tim = d.tim := rfl
@[simp] theorem updRing_pool (d : Dev) (r : Nat) (f : Ring → Ring) : (updRing d r f).pool = d.pool := rfl
@[simp] theorem updRing_cxl (d : Dev) (r : Nat) (f : Ring → Ring) : (updRing d r f).cxl = d.cxl := rfl
@[simp] theorem updRing_boot (d : Dev) (r : Nat) (f : Ring → Ring) : (updRing d r f).boot = d.boot := rfl
@[simp] theorem updRing_rep (d : Dev) (r : Nat) (f : Ring → Ring) : (updRing d r f).rep = d.rep := rfl
@[simp] theorem updRing_therm (d : Dev) (r : Nat) (f : Ring → Ring) : (updRing d r f).therm = d.therm := rfl
@[simp] theorem updRing_exch (d : Dev) (r : Nat) (f : Ring → Ring) : (updRing d r f).exch = d.exch := rfl
@[simp] theorem updRing_poison (d : Dev) (r : Nat) (f : Ring → Ring) : (updRing d r f).poison = d.poison := rfl
@[simp] theorem updRing_bus (d : Dev) (r : Nat) (f : Ring → Ring) : (updRing d r f).bus = d.bus := rfl
@[simp] theorem updRing_busNext (d : Dev) (r : Nat) (f : Ring → Ring) : (updRing d r f).busNext = d.busNext := rfl
@[simp] theorem updRing_outs (d : Dev) (r : Nat) (f : Ring → Ring) : (updRing d r f).outs = d.outs := rfl
@[simp] theorem updRing_kv (d : Dev) (r : Nat) (f : Ring → Ring) : (updRing d r f).kv = d.kv := rfl
@[simp] theorem updRing_arr (d : Dev) (r : Nat) (f : Ring → Ring) : (updRing d r f).arr = d.arr := rfl
@[simp] theorem updRing_stored (d : Dev) (r : Nat) (f : Ring → Ring) : (updRing d r f).stored = d.stored := rfl
@[simp] theorem updRing_lexicons (d : Dev) (r : Nat) (f : Ring → Ring) : (updRing d r f).lexicons = d.lexicons := rfl
@[simp] theorem updRing_grammars (d : Dev) (r : Nat) (f : Ring → Ring) : (updRing d r f).grammars = d.grammars := rfl
@[simp] theorem updRing_gcache (d : Dev) (r : Nat) (f : Ring → Ring) : (updRing d r f).gcache = d.gcache := rfl
@[simp] theorem updRing_indexes (d : Dev) (r : Nat) (f : Ring → Ring) : (updRing d r f).indexes = d.indexes := rfl
@[simp] theorem updRing_searches (d : Dev) (r : Nat) (f : Ring → Ring) : (updRing d r f).searches = d.searches := rfl
@[simp] theorem updRing_net (d : Dev) (r : Nat) (f : Ring → Ring) : (updRing d r f).net = d.net := rfl
@[simp] theorem updRing_ckpts (d : Dev) (r : Nat) (f : Ring → Ring) : (updRing d r f).ckpts = d.ckpts := rfl
@[simp] theorem updRing_buddy (d : Dev) (r : Nat) (f : Ring → Ring) : (updRing d r f).buddy = d.buddy := rfl
@[simp] theorem updRing_restores (d : Dev) (r : Nat) (f : Ring → Ring) : (updRing d r f).restores = d.restores := rfl
@[simp] theorem updRing_ckptRuns (d : Dev) (r : Nat) (f : Ring → Ring) : (updRing d r f).ckptRuns = d.ckptRuns := rfl
@[simp] theorem updRing_flash (d : Dev) (r : Nat) (f : Ring → Ring) : (updRing d r f).flash = d.flash := rfl
@[simp] theorem updRing_regions (d : Dev) (r : Nat) (f : Ring → Ring) : (updRing d r f).regions = d.regions := rfl
@[simp] theorem updRing_draws (d : Dev) (r : Nat) (f : Ring → Ring) : (updRing d r f).draws = d.draws := rfl

/-! `updPart` changes pool only. -/

@[simp] theorem updPart_clk (d : Dev) (p : Nat) (f : Part → Part) : (updPart d p f).clk = d.clk := rfl
@[simp] theorem updPart_tim (d : Dev) (p : Nat) (f : Part → Part) : (updPart d p f).tim = d.tim := rfl
@[simp] theorem updPart_tur (d : Dev) (p : Nat) (f : Part → Part) : (updPart d p f).tur = d.tur := rfl
@[simp] theorem updPart_cxl (d : Dev) (p : Nat) (f : Part → Part) : (updPart d p f).cxl = d.cxl := rfl
@[simp] theorem updPart_boot (d : Dev) (p : Nat) (f : Part → Part) : (updPart d p f).boot = d.boot := rfl
@[simp] theorem updPart_rep (d : Dev) (p : Nat) (f : Part → Part) : (updPart d p f).rep = d.rep := rfl
@[simp] theorem updPart_therm (d : Dev) (p : Nat) (f : Part → Part) : (updPart d p f).therm = d.therm := rfl
@[simp] theorem updPart_exch (d : Dev) (p : Nat) (f : Part → Part) : (updPart d p f).exch = d.exch := rfl
@[simp] theorem updPart_poison (d : Dev) (p : Nat) (f : Part → Part) : (updPart d p f).poison = d.poison := rfl
@[simp] theorem updPart_bus (d : Dev) (p : Nat) (f : Part → Part) : (updPart d p f).bus = d.bus := rfl
@[simp] theorem updPart_busNext (d : Dev) (p : Nat) (f : Part → Part) : (updPart d p f).busNext = d.busNext := rfl
@[simp] theorem updPart_outs (d : Dev) (p : Nat) (f : Part → Part) : (updPart d p f).outs = d.outs := rfl
@[simp] theorem updPart_kv (d : Dev) (p : Nat) (f : Part → Part) : (updPart d p f).kv = d.kv := rfl
@[simp] theorem updPart_arr (d : Dev) (p : Nat) (f : Part → Part) : (updPart d p f).arr = d.arr := rfl
@[simp] theorem updPart_stored (d : Dev) (p : Nat) (f : Part → Part) : (updPart d p f).stored = d.stored := rfl
@[simp] theorem updPart_lexicons (d : Dev) (p : Nat) (f : Part → Part) : (updPart d p f).lexicons = d.lexicons := rfl
@[simp] theorem updPart_grammars (d : Dev) (p : Nat) (f : Part → Part) : (updPart d p f).grammars = d.grammars := rfl
@[simp] theorem updPart_gcache (d : Dev) (p : Nat) (f : Part → Part) : (updPart d p f).gcache = d.gcache := rfl
@[simp] theorem updPart_indexes (d : Dev) (p : Nat) (f : Part → Part) : (updPart d p f).indexes = d.indexes := rfl
@[simp] theorem updPart_searches (d : Dev) (p : Nat) (f : Part → Part) : (updPart d p f).searches = d.searches := rfl
@[simp] theorem updPart_net (d : Dev) (p : Nat) (f : Part → Part) : (updPart d p f).net = d.net := rfl
@[simp] theorem updPart_ckpts (d : Dev) (p : Nat) (f : Part → Part) : (updPart d p f).ckpts = d.ckpts := rfl
@[simp] theorem updPart_buddy (d : Dev) (p : Nat) (f : Part → Part) : (updPart d p f).buddy = d.buddy := rfl
@[simp] theorem updPart_restores (d : Dev) (p : Nat) (f : Part → Part) : (updPart d p f).restores = d.restores := rfl
@[simp] theorem updPart_ckptRuns (d : Dev) (p : Nat) (f : Part → Part) : (updPart d p f).ckptRuns = d.ckptRuns := rfl
@[simp] theorem updPart_flash (d : Dev) (p : Nat) (f : Part → Part) : (updPart d p f).flash = d.flash := rfl
@[simp] theorem updPart_regions (d : Dev) (p : Nat) (f : Part → Part) : (updPart d p f).regions = d.regions := rfl
@[simp] theorem updPart_draws (d : Dev) (p : Nat) (f : Part → Part) : (updPart d p f).draws = d.draws := rfl

/-! `setLastLd` changes pool only. -/

@[simp] theorem setLastLd_clk (d : Dev) (p n : Nat) : (setLastLd d p n).clk = d.clk := rfl
@[simp] theorem setLastLd_tim (d : Dev) (p n : Nat) : (setLastLd d p n).tim = d.tim := rfl
@[simp] theorem setLastLd_tur (d : Dev) (p n : Nat) : (setLastLd d p n).tur = d.tur := rfl
@[simp] theorem setLastLd_cxl (d : Dev) (p n : Nat) : (setLastLd d p n).cxl = d.cxl := rfl
@[simp] theorem setLastLd_boot (d : Dev) (p n : Nat) : (setLastLd d p n).boot = d.boot := rfl
@[simp] theorem setLastLd_rep (d : Dev) (p n : Nat) : (setLastLd d p n).rep = d.rep := rfl
@[simp] theorem setLastLd_therm (d : Dev) (p n : Nat) : (setLastLd d p n).therm = d.therm := rfl
@[simp] theorem setLastLd_exch (d : Dev) (p n : Nat) : (setLastLd d p n).exch = d.exch := rfl
@[simp] theorem setLastLd_poison (d : Dev) (p n : Nat) : (setLastLd d p n).poison = d.poison := rfl
@[simp] theorem setLastLd_bus (d : Dev) (p n : Nat) : (setLastLd d p n).bus = d.bus := rfl
@[simp] theorem setLastLd_busNext (d : Dev) (p n : Nat) : (setLastLd d p n).busNext = d.busNext := rfl
@[simp] theorem setLastLd_outs (d : Dev) (p n : Nat) : (setLastLd d p n).outs = d.outs := rfl
@[simp] theorem setLastLd_kv (d : Dev) (p n : Nat) : (setLastLd d p n).kv = d.kv := rfl
@[simp] theorem setLastLd_arr (d : Dev) (p n : Nat) : (setLastLd d p n).arr = d.arr := rfl
@[simp] theorem setLastLd_stored (d : Dev) (p n : Nat) : (setLastLd d p n).stored = d.stored := rfl
@[simp] theorem setLastLd_lexicons (d : Dev) (p n : Nat) : (setLastLd d p n).lexicons = d.lexicons := rfl
@[simp] theorem setLastLd_grammars (d : Dev) (p n : Nat) : (setLastLd d p n).grammars = d.grammars := rfl
@[simp] theorem setLastLd_gcache (d : Dev) (p n : Nat) : (setLastLd d p n).gcache = d.gcache := rfl
@[simp] theorem setLastLd_indexes (d : Dev) (p n : Nat) : (setLastLd d p n).indexes = d.indexes := rfl
@[simp] theorem setLastLd_searches (d : Dev) (p n : Nat) : (setLastLd d p n).searches = d.searches := rfl
@[simp] theorem setLastLd_net (d : Dev) (p n : Nat) : (setLastLd d p n).net = d.net := rfl
@[simp] theorem setLastLd_ckpts (d : Dev) (p n : Nat) : (setLastLd d p n).ckpts = d.ckpts := rfl
@[simp] theorem setLastLd_buddy (d : Dev) (p n : Nat) : (setLastLd d p n).buddy = d.buddy := rfl
@[simp] theorem setLastLd_restores (d : Dev) (p n : Nat) : (setLastLd d p n).restores = d.restores := rfl
@[simp] theorem setLastLd_ckptRuns (d : Dev) (p n : Nat) : (setLastLd d p n).ckptRuns = d.ckptRuns := rfl
@[simp] theorem setLastLd_flash (d : Dev) (p n : Nat) : (setLastLd d p n).flash = d.flash := rfl
@[simp] theorem setLastLd_regions (d : Dev) (p n : Nat) : (setLastLd d p n).regions = d.regions := rfl
@[simp] theorem setLastLd_draws (d : Dev) (p n : Nat) : (setLastLd d p n).draws = d.draws := rfl

/-! `stampFree` changes pool only. -/

@[simp] theorem stampFree_clk (d : Dev) (kind n : Nat) : (stampFree d kind n).clk = d.clk := rfl
@[simp] theorem stampFree_tim (d : Dev) (kind n : Nat) : (stampFree d kind n).tim = d.tim := rfl
@[simp] theorem stampFree_tur (d : Dev) (kind n : Nat) : (stampFree d kind n).tur = d.tur := rfl
@[simp] theorem stampFree_cxl (d : Dev) (kind n : Nat) : (stampFree d kind n).cxl = d.cxl := rfl
@[simp] theorem stampFree_boot (d : Dev) (kind n : Nat) : (stampFree d kind n).boot = d.boot := rfl
@[simp] theorem stampFree_rep (d : Dev) (kind n : Nat) : (stampFree d kind n).rep = d.rep := rfl
@[simp] theorem stampFree_therm (d : Dev) (kind n : Nat) : (stampFree d kind n).therm = d.therm := rfl
@[simp] theorem stampFree_exch (d : Dev) (kind n : Nat) : (stampFree d kind n).exch = d.exch := rfl
@[simp] theorem stampFree_poison (d : Dev) (kind n : Nat) : (stampFree d kind n).poison = d.poison := rfl
@[simp] theorem stampFree_bus (d : Dev) (kind n : Nat) : (stampFree d kind n).bus = d.bus := rfl
@[simp] theorem stampFree_busNext (d : Dev) (kind n : Nat) : (stampFree d kind n).busNext = d.busNext := rfl
@[simp] theorem stampFree_outs (d : Dev) (kind n : Nat) : (stampFree d kind n).outs = d.outs := rfl
@[simp] theorem stampFree_kv (d : Dev) (kind n : Nat) : (stampFree d kind n).kv = d.kv := rfl
@[simp] theorem stampFree_arr (d : Dev) (kind n : Nat) : (stampFree d kind n).arr = d.arr := rfl
@[simp] theorem stampFree_stored (d : Dev) (kind n : Nat) : (stampFree d kind n).stored = d.stored := rfl
@[simp] theorem stampFree_lexicons (d : Dev) (kind n : Nat) : (stampFree d kind n).lexicons = d.lexicons := rfl
@[simp] theorem stampFree_grammars (d : Dev) (kind n : Nat) : (stampFree d kind n).grammars = d.grammars := rfl
@[simp] theorem stampFree_gcache (d : Dev) (kind n : Nat) : (stampFree d kind n).gcache = d.gcache := rfl
@[simp] theorem stampFree_indexes (d : Dev) (kind n : Nat) : (stampFree d kind n).indexes = d.indexes := rfl
@[simp] theorem stampFree_searches (d : Dev) (kind n : Nat) : (stampFree d kind n).searches = d.searches := rfl
@[simp] theorem stampFree_net (d : Dev) (kind n : Nat) : (stampFree d kind n).net = d.net := rfl
@[simp] theorem stampFree_ckpts (d : Dev) (kind n : Nat) : (stampFree d kind n).ckpts = d.ckpts := rfl
@[simp] theorem stampFree_buddy (d : Dev) (kind n : Nat) : (stampFree d kind n).buddy = d.buddy := rfl
@[simp] theorem stampFree_restores (d : Dev) (kind n : Nat) : (stampFree d kind n).restores = d.restores := rfl
@[simp] theorem stampFree_ckptRuns (d : Dev) (kind n : Nat) : (stampFree d kind n).ckptRuns = d.ckptRuns := rfl
@[simp] theorem stampFree_flash (d : Dev) (kind n : Nat) : (stampFree d kind n).flash = d.flash := rfl
@[simp] theorem stampFree_regions (d : Dev) (kind n : Nat) : (stampFree d kind n).regions = d.regions := rfl
@[simp] theorem stampFree_draws (d : Dev) (kind n : Nat) : (stampFree d kind n).draws = d.draws := rfl

/-! `nextRelease` changes pool only. -/

@[simp] theorem nextRelease_clk (d : Dev) : (nextRelease d).clk = d.clk := rfl
@[simp] theorem nextRelease_tim (d : Dev) : (nextRelease d).tim = d.tim := rfl
@[simp] theorem nextRelease_tur (d : Dev) : (nextRelease d).tur = d.tur := rfl
@[simp] theorem nextRelease_cxl (d : Dev) : (nextRelease d).cxl = d.cxl := rfl
@[simp] theorem nextRelease_boot (d : Dev) : (nextRelease d).boot = d.boot := rfl
@[simp] theorem nextRelease_rep (d : Dev) : (nextRelease d).rep = d.rep := rfl
@[simp] theorem nextRelease_therm (d : Dev) : (nextRelease d).therm = d.therm := rfl
@[simp] theorem nextRelease_exch (d : Dev) : (nextRelease d).exch = d.exch := rfl
@[simp] theorem nextRelease_poison (d : Dev) : (nextRelease d).poison = d.poison := rfl
@[simp] theorem nextRelease_bus (d : Dev) : (nextRelease d).bus = d.bus := rfl
@[simp] theorem nextRelease_busNext (d : Dev) : (nextRelease d).busNext = d.busNext := rfl
@[simp] theorem nextRelease_outs (d : Dev) : (nextRelease d).outs = d.outs := rfl
@[simp] theorem nextRelease_kv (d : Dev) : (nextRelease d).kv = d.kv := rfl
@[simp] theorem nextRelease_arr (d : Dev) : (nextRelease d).arr = d.arr := rfl
@[simp] theorem nextRelease_stored (d : Dev) : (nextRelease d).stored = d.stored := rfl
@[simp] theorem nextRelease_lexicons (d : Dev) : (nextRelease d).lexicons = d.lexicons := rfl
@[simp] theorem nextRelease_grammars (d : Dev) : (nextRelease d).grammars = d.grammars := rfl
@[simp] theorem nextRelease_gcache (d : Dev) : (nextRelease d).gcache = d.gcache := rfl
@[simp] theorem nextRelease_indexes (d : Dev) : (nextRelease d).indexes = d.indexes := rfl
@[simp] theorem nextRelease_searches (d : Dev) : (nextRelease d).searches = d.searches := rfl
@[simp] theorem nextRelease_net (d : Dev) : (nextRelease d).net = d.net := rfl
@[simp] theorem nextRelease_ckpts (d : Dev) : (nextRelease d).ckpts = d.ckpts := rfl
@[simp] theorem nextRelease_buddy (d : Dev) : (nextRelease d).buddy = d.buddy := rfl
@[simp] theorem nextRelease_restores (d : Dev) : (nextRelease d).restores = d.restores := rfl
@[simp] theorem nextRelease_ckptRuns (d : Dev) : (nextRelease d).ckptRuns = d.ckptRuns := rfl
@[simp] theorem nextRelease_flash (d : Dev) : (nextRelease d).flash = d.flash := rfl
@[simp] theorem nextRelease_regions (d : Dev) : (nextRelease d).regions = d.regions := rfl
@[simp] theorem nextRelease_draws (d : Dev) : (nextRelease d).draws = d.draws := rfl

/-! `setOwner` changes pool only. -/

@[simp] theorem setOwner_clk (d : Dev) (kind n who : Nat) : (setOwner d kind n who).clk = d.clk := rfl
@[simp] theorem setOwner_tim (d : Dev) (kind n who : Nat) : (setOwner d kind n who).tim = d.tim := rfl
@[simp] theorem setOwner_tur (d : Dev) (kind n who : Nat) : (setOwner d kind n who).tur = d.tur := rfl
@[simp] theorem setOwner_cxl (d : Dev) (kind n who : Nat) : (setOwner d kind n who).cxl = d.cxl := rfl
@[simp] theorem setOwner_boot (d : Dev) (kind n who : Nat) : (setOwner d kind n who).boot = d.boot := rfl
@[simp] theorem setOwner_rep (d : Dev) (kind n who : Nat) : (setOwner d kind n who).rep = d.rep := rfl
@[simp] theorem setOwner_therm (d : Dev) (kind n who : Nat) : (setOwner d kind n who).therm = d.therm := rfl
@[simp] theorem setOwner_exch (d : Dev) (kind n who : Nat) : (setOwner d kind n who).exch = d.exch := rfl
@[simp] theorem setOwner_poison (d : Dev) (kind n who : Nat) : (setOwner d kind n who).poison = d.poison := rfl
@[simp] theorem setOwner_bus (d : Dev) (kind n who : Nat) : (setOwner d kind n who).bus = d.bus := rfl
@[simp] theorem setOwner_busNext (d : Dev) (kind n who : Nat) : (setOwner d kind n who).busNext = d.busNext := rfl
@[simp] theorem setOwner_outs (d : Dev) (kind n who : Nat) : (setOwner d kind n who).outs = d.outs := rfl
@[simp] theorem setOwner_kv (d : Dev) (kind n who : Nat) : (setOwner d kind n who).kv = d.kv := rfl
@[simp] theorem setOwner_arr (d : Dev) (kind n who : Nat) : (setOwner d kind n who).arr = d.arr := rfl
@[simp] theorem setOwner_stored (d : Dev) (kind n who : Nat) : (setOwner d kind n who).stored = d.stored := rfl
@[simp] theorem setOwner_lexicons (d : Dev) (kind n who : Nat) : (setOwner d kind n who).lexicons = d.lexicons := rfl
@[simp] theorem setOwner_grammars (d : Dev) (kind n who : Nat) : (setOwner d kind n who).grammars = d.grammars := rfl
@[simp] theorem setOwner_gcache (d : Dev) (kind n who : Nat) : (setOwner d kind n who).gcache = d.gcache := rfl
@[simp] theorem setOwner_indexes (d : Dev) (kind n who : Nat) : (setOwner d kind n who).indexes = d.indexes := rfl
@[simp] theorem setOwner_searches (d : Dev) (kind n who : Nat) : (setOwner d kind n who).searches = d.searches := rfl
@[simp] theorem setOwner_net (d : Dev) (kind n who : Nat) : (setOwner d kind n who).net = d.net := rfl
@[simp] theorem setOwner_ckpts (d : Dev) (kind n who : Nat) : (setOwner d kind n who).ckpts = d.ckpts := rfl
@[simp] theorem setOwner_buddy (d : Dev) (kind n who : Nat) : (setOwner d kind n who).buddy = d.buddy := rfl
@[simp] theorem setOwner_restores (d : Dev) (kind n who : Nat) : (setOwner d kind n who).restores = d.restores := rfl
@[simp] theorem setOwner_ckptRuns (d : Dev) (kind n who : Nat) : (setOwner d kind n who).ckptRuns = d.ckptRuns := rfl
@[simp] theorem setOwner_flash (d : Dev) (kind n who : Nat) : (setOwner d kind n who).flash = d.flash := rfl
@[simp] theorem setOwner_regions (d : Dev) (kind n who : Nat) : (setOwner d kind n who).regions = d.regions := rfl
@[simp] theorem setOwner_draws (d : Dev) (kind n who : Nat) : (setOwner d kind n who).draws = d.draws := rfl

/-! `exWrite` changes exch and poison only. -/

@[simp] theorem exWrite_clk (d : Dev) (k : Nat) (bs : List Byte) : (exWrite d k bs).clk = d.clk := rfl
@[simp] theorem exWrite_tim (d : Dev) (k : Nat) (bs : List Byte) : (exWrite d k bs).tim = d.tim := rfl
@[simp] theorem exWrite_tur (d : Dev) (k : Nat) (bs : List Byte) : (exWrite d k bs).tur = d.tur := rfl
@[simp] theorem exWrite_pool (d : Dev) (k : Nat) (bs : List Byte) : (exWrite d k bs).pool = d.pool := rfl
@[simp] theorem exWrite_cxl (d : Dev) (k : Nat) (bs : List Byte) : (exWrite d k bs).cxl = d.cxl := rfl
@[simp] theorem exWrite_boot (d : Dev) (k : Nat) (bs : List Byte) : (exWrite d k bs).boot = d.boot := rfl
@[simp] theorem exWrite_rep (d : Dev) (k : Nat) (bs : List Byte) : (exWrite d k bs).rep = d.rep := rfl
@[simp] theorem exWrite_therm (d : Dev) (k : Nat) (bs : List Byte) : (exWrite d k bs).therm = d.therm := rfl
@[simp] theorem exWrite_bus (d : Dev) (k : Nat) (bs : List Byte) : (exWrite d k bs).bus = d.bus := rfl
@[simp] theorem exWrite_busNext (d : Dev) (k : Nat) (bs : List Byte) : (exWrite d k bs).busNext = d.busNext := rfl
@[simp] theorem exWrite_outs (d : Dev) (k : Nat) (bs : List Byte) : (exWrite d k bs).outs = d.outs := rfl
@[simp] theorem exWrite_kv (d : Dev) (k : Nat) (bs : List Byte) : (exWrite d k bs).kv = d.kv := rfl
@[simp] theorem exWrite_arr (d : Dev) (k : Nat) (bs : List Byte) : (exWrite d k bs).arr = d.arr := rfl
@[simp] theorem exWrite_stored (d : Dev) (k : Nat) (bs : List Byte) : (exWrite d k bs).stored = d.stored := rfl
@[simp] theorem exWrite_lexicons (d : Dev) (k : Nat) (bs : List Byte) : (exWrite d k bs).lexicons = d.lexicons := rfl
@[simp] theorem exWrite_grammars (d : Dev) (k : Nat) (bs : List Byte) : (exWrite d k bs).grammars = d.grammars := rfl
@[simp] theorem exWrite_gcache (d : Dev) (k : Nat) (bs : List Byte) : (exWrite d k bs).gcache = d.gcache := rfl
@[simp] theorem exWrite_indexes (d : Dev) (k : Nat) (bs : List Byte) : (exWrite d k bs).indexes = d.indexes := rfl
@[simp] theorem exWrite_searches (d : Dev) (k : Nat) (bs : List Byte) : (exWrite d k bs).searches = d.searches := rfl
@[simp] theorem exWrite_net (d : Dev) (k : Nat) (bs : List Byte) : (exWrite d k bs).net = d.net := rfl
@[simp] theorem exWrite_ckpts (d : Dev) (k : Nat) (bs : List Byte) : (exWrite d k bs).ckpts = d.ckpts := rfl
@[simp] theorem exWrite_buddy (d : Dev) (k : Nat) (bs : List Byte) : (exWrite d k bs).buddy = d.buddy := rfl
@[simp] theorem exWrite_restores (d : Dev) (k : Nat) (bs : List Byte) : (exWrite d k bs).restores = d.restores := rfl
@[simp] theorem exWrite_ckptRuns (d : Dev) (k : Nat) (bs : List Byte) : (exWrite d k bs).ckptRuns = d.ckptRuns := rfl
@[simp] theorem exWrite_flash (d : Dev) (k : Nat) (bs : List Byte) : (exWrite d k bs).flash = d.flash := rfl
@[simp] theorem exWrite_regions (d : Dev) (k : Nat) (bs : List Byte) : (exWrite d k bs).regions = d.regions := rfl
@[simp] theorem exWrite_draws (d : Dev) (k : Nat) (bs : List Byte) : (exWrite d k bs).draws = d.draws := rfl

/-! `exZero` changes exch and poison only. -/

@[simp] theorem exZero_clk (d : Dev) (k len : Nat) : (exZero d k len).clk = d.clk := rfl
@[simp] theorem exZero_tim (d : Dev) (k len : Nat) : (exZero d k len).tim = d.tim := rfl
@[simp] theorem exZero_tur (d : Dev) (k len : Nat) : (exZero d k len).tur = d.tur := rfl
@[simp] theorem exZero_pool (d : Dev) (k len : Nat) : (exZero d k len).pool = d.pool := rfl
@[simp] theorem exZero_cxl (d : Dev) (k len : Nat) : (exZero d k len).cxl = d.cxl := rfl
@[simp] theorem exZero_boot (d : Dev) (k len : Nat) : (exZero d k len).boot = d.boot := rfl
@[simp] theorem exZero_rep (d : Dev) (k len : Nat) : (exZero d k len).rep = d.rep := rfl
@[simp] theorem exZero_therm (d : Dev) (k len : Nat) : (exZero d k len).therm = d.therm := rfl
@[simp] theorem exZero_bus (d : Dev) (k len : Nat) : (exZero d k len).bus = d.bus := rfl
@[simp] theorem exZero_busNext (d : Dev) (k len : Nat) : (exZero d k len).busNext = d.busNext := rfl
@[simp] theorem exZero_outs (d : Dev) (k len : Nat) : (exZero d k len).outs = d.outs := rfl
@[simp] theorem exZero_kv (d : Dev) (k len : Nat) : (exZero d k len).kv = d.kv := rfl
@[simp] theorem exZero_arr (d : Dev) (k len : Nat) : (exZero d k len).arr = d.arr := rfl
@[simp] theorem exZero_stored (d : Dev) (k len : Nat) : (exZero d k len).stored = d.stored := rfl
@[simp] theorem exZero_lexicons (d : Dev) (k len : Nat) : (exZero d k len).lexicons = d.lexicons := rfl
@[simp] theorem exZero_grammars (d : Dev) (k len : Nat) : (exZero d k len).grammars = d.grammars := rfl
@[simp] theorem exZero_gcache (d : Dev) (k len : Nat) : (exZero d k len).gcache = d.gcache := rfl
@[simp] theorem exZero_indexes (d : Dev) (k len : Nat) : (exZero d k len).indexes = d.indexes := rfl
@[simp] theorem exZero_searches (d : Dev) (k len : Nat) : (exZero d k len).searches = d.searches := rfl
@[simp] theorem exZero_net (d : Dev) (k len : Nat) : (exZero d k len).net = d.net := rfl
@[simp] theorem exZero_ckpts (d : Dev) (k len : Nat) : (exZero d k len).ckpts = d.ckpts := rfl
@[simp] theorem exZero_buddy (d : Dev) (k len : Nat) : (exZero d k len).buddy = d.buddy := rfl
@[simp] theorem exZero_restores (d : Dev) (k len : Nat) : (exZero d k len).restores = d.restores := rfl
@[simp] theorem exZero_ckptRuns (d : Dev) (k len : Nat) : (exZero d k len).ckptRuns = d.ckptRuns := rfl
@[simp] theorem exZero_flash (d : Dev) (k len : Nat) : (exZero d k len).flash = d.flash := rfl
@[simp] theorem exZero_regions (d : Dev) (k len : Nat) : (exZero d k len).regions = d.regions := rfl
@[simp] theorem exZero_draws (d : Dev) (k len : Nat) : (exZero d k len).draws = d.draws := rfl

/-! `keepRunning` changes tur only. -/

@[simp] theorem keepRunning_clk (d : Dev) (v : Verb) : (keepRunning d v).clk = d.clk := rfl
@[simp] theorem keepRunning_tim (d : Dev) (v : Verb) : (keepRunning d v).tim = d.tim := rfl
@[simp] theorem keepRunning_pool (d : Dev) (v : Verb) : (keepRunning d v).pool = d.pool := rfl
@[simp] theorem keepRunning_cxl (d : Dev) (v : Verb) : (keepRunning d v).cxl = d.cxl := rfl
@[simp] theorem keepRunning_boot (d : Dev) (v : Verb) : (keepRunning d v).boot = d.boot := rfl
@[simp] theorem keepRunning_rep (d : Dev) (v : Verb) : (keepRunning d v).rep = d.rep := rfl
@[simp] theorem keepRunning_therm (d : Dev) (v : Verb) : (keepRunning d v).therm = d.therm := rfl
@[simp] theorem keepRunning_exch (d : Dev) (v : Verb) : (keepRunning d v).exch = d.exch := rfl
@[simp] theorem keepRunning_poison (d : Dev) (v : Verb) : (keepRunning d v).poison = d.poison := rfl
@[simp] theorem keepRunning_bus (d : Dev) (v : Verb) : (keepRunning d v).bus = d.bus := rfl
@[simp] theorem keepRunning_busNext (d : Dev) (v : Verb) : (keepRunning d v).busNext = d.busNext := rfl
@[simp] theorem keepRunning_outs (d : Dev) (v : Verb) : (keepRunning d v).outs = d.outs := rfl
@[simp] theorem keepRunning_kv (d : Dev) (v : Verb) : (keepRunning d v).kv = d.kv := rfl
@[simp] theorem keepRunning_arr (d : Dev) (v : Verb) : (keepRunning d v).arr = d.arr := rfl
@[simp] theorem keepRunning_stored (d : Dev) (v : Verb) : (keepRunning d v).stored = d.stored := rfl
@[simp] theorem keepRunning_lexicons (d : Dev) (v : Verb) : (keepRunning d v).lexicons = d.lexicons := rfl
@[simp] theorem keepRunning_grammars (d : Dev) (v : Verb) : (keepRunning d v).grammars = d.grammars := rfl
@[simp] theorem keepRunning_gcache (d : Dev) (v : Verb) : (keepRunning d v).gcache = d.gcache := rfl
@[simp] theorem keepRunning_indexes (d : Dev) (v : Verb) : (keepRunning d v).indexes = d.indexes := rfl
@[simp] theorem keepRunning_searches (d : Dev) (v : Verb) : (keepRunning d v).searches = d.searches := rfl
@[simp] theorem keepRunning_net (d : Dev) (v : Verb) : (keepRunning d v).net = d.net := rfl
@[simp] theorem keepRunning_ckpts (d : Dev) (v : Verb) : (keepRunning d v).ckpts = d.ckpts := rfl
@[simp] theorem keepRunning_buddy (d : Dev) (v : Verb) : (keepRunning d v).buddy = d.buddy := rfl
@[simp] theorem keepRunning_restores (d : Dev) (v : Verb) : (keepRunning d v).restores = d.restores := rfl
@[simp] theorem keepRunning_ckptRuns (d : Dev) (v : Verb) : (keepRunning d v).ckptRuns = d.ckptRuns := rfl
@[simp] theorem keepRunning_flash (d : Dev) (v : Verb) : (keepRunning d v).flash = d.flash := rfl
@[simp] theorem keepRunning_regions (d : Dev) (v : Verb) : (keepRunning d v).regions = d.regions := rfl
@[simp] theorem keepRunning_draws (d : Dev) (v : Verb) : (keepRunning d v).draws = d.draws := rfl

/-! `putEntry` changes kv and pool only. -/

@[simp] theorem putEntry_clk (d : Dev) (s : Sess) : (putEntry d s).clk = d.clk := rfl
@[simp] theorem putEntry_tim (d : Dev) (s : Sess) : (putEntry d s).tim = d.tim := rfl
@[simp] theorem putEntry_tur (d : Dev) (s : Sess) : (putEntry d s).tur = d.tur := rfl
@[simp] theorem putEntry_cxl (d : Dev) (s : Sess) : (putEntry d s).cxl = d.cxl := rfl
@[simp] theorem putEntry_boot (d : Dev) (s : Sess) : (putEntry d s).boot = d.boot := rfl
@[simp] theorem putEntry_rep (d : Dev) (s : Sess) : (putEntry d s).rep = d.rep := rfl
@[simp] theorem putEntry_therm (d : Dev) (s : Sess) : (putEntry d s).therm = d.therm := rfl
@[simp] theorem putEntry_exch (d : Dev) (s : Sess) : (putEntry d s).exch = d.exch := rfl
@[simp] theorem putEntry_poison (d : Dev) (s : Sess) : (putEntry d s).poison = d.poison := rfl
@[simp] theorem putEntry_bus (d : Dev) (s : Sess) : (putEntry d s).bus = d.bus := rfl
@[simp] theorem putEntry_busNext (d : Dev) (s : Sess) : (putEntry d s).busNext = d.busNext := rfl
@[simp] theorem putEntry_outs (d : Dev) (s : Sess) : (putEntry d s).outs = d.outs := rfl
@[simp] theorem putEntry_arr (d : Dev) (s : Sess) : (putEntry d s).arr = d.arr := rfl
@[simp] theorem putEntry_stored (d : Dev) (s : Sess) : (putEntry d s).stored = d.stored := rfl
@[simp] theorem putEntry_lexicons (d : Dev) (s : Sess) : (putEntry d s).lexicons = d.lexicons := rfl
@[simp] theorem putEntry_grammars (d : Dev) (s : Sess) : (putEntry d s).grammars = d.grammars := rfl
@[simp] theorem putEntry_gcache (d : Dev) (s : Sess) : (putEntry d s).gcache = d.gcache := rfl
@[simp] theorem putEntry_indexes (d : Dev) (s : Sess) : (putEntry d s).indexes = d.indexes := rfl
@[simp] theorem putEntry_searches (d : Dev) (s : Sess) : (putEntry d s).searches = d.searches := rfl
@[simp] theorem putEntry_net (d : Dev) (s : Sess) : (putEntry d s).net = d.net := rfl
@[simp] theorem putEntry_ckpts (d : Dev) (s : Sess) : (putEntry d s).ckpts = d.ckpts := rfl
@[simp] theorem putEntry_buddy (d : Dev) (s : Sess) : (putEntry d s).buddy = d.buddy := rfl
@[simp] theorem putEntry_restores (d : Dev) (s : Sess) : (putEntry d s).restores = d.restores := rfl
@[simp] theorem putEntry_ckptRuns (d : Dev) (s : Sess) : (putEntry d s).ckptRuns = d.ckptRuns := rfl
@[simp] theorem putEntry_flash (d : Dev) (s : Sess) : (putEntry d s).flash = d.flash := rfl
@[simp] theorem putEntry_regions (d : Dev) (s : Sess) : (putEntry d s).regions = d.regions := rfl
@[simp] theorem putEntry_draws (d : Dev) (s : Sess) : (putEntry d s).draws = d.draws := rfl

/-! `updSess` changes kv only. -/

@[simp] theorem updSess_clk (d : Dev) (h : Nat) (f : Sess → Sess) : (updSess d h f).clk = d.clk := rfl
@[simp] theorem updSess_tim (d : Dev) (h : Nat) (f : Sess → Sess) : (updSess d h f).tim = d.tim := rfl
@[simp] theorem updSess_tur (d : Dev) (h : Nat) (f : Sess → Sess) : (updSess d h f).tur = d.tur := rfl
@[simp] theorem updSess_pool (d : Dev) (h : Nat) (f : Sess → Sess) : (updSess d h f).pool = d.pool := rfl
@[simp] theorem updSess_cxl (d : Dev) (h : Nat) (f : Sess → Sess) : (updSess d h f).cxl = d.cxl := rfl
@[simp] theorem updSess_boot (d : Dev) (h : Nat) (f : Sess → Sess) : (updSess d h f).boot = d.boot := rfl
@[simp] theorem updSess_rep (d : Dev) (h : Nat) (f : Sess → Sess) : (updSess d h f).rep = d.rep := rfl
@[simp] theorem updSess_therm (d : Dev) (h : Nat) (f : Sess → Sess) : (updSess d h f).therm = d.therm := rfl
@[simp] theorem updSess_exch (d : Dev) (h : Nat) (f : Sess → Sess) : (updSess d h f).exch = d.exch := rfl
@[simp] theorem updSess_poison (d : Dev) (h : Nat) (f : Sess → Sess) : (updSess d h f).poison = d.poison := rfl
@[simp] theorem updSess_bus (d : Dev) (h : Nat) (f : Sess → Sess) : (updSess d h f).bus = d.bus := rfl
@[simp] theorem updSess_busNext (d : Dev) (h : Nat) (f : Sess → Sess) : (updSess d h f).busNext = d.busNext := rfl
@[simp] theorem updSess_outs (d : Dev) (h : Nat) (f : Sess → Sess) : (updSess d h f).outs = d.outs := rfl
@[simp] theorem updSess_arr (d : Dev) (h : Nat) (f : Sess → Sess) : (updSess d h f).arr = d.arr := rfl
@[simp] theorem updSess_stored (d : Dev) (h : Nat) (f : Sess → Sess) : (updSess d h f).stored = d.stored := rfl
@[simp] theorem updSess_lexicons (d : Dev) (h : Nat) (f : Sess → Sess) : (updSess d h f).lexicons = d.lexicons := rfl
@[simp] theorem updSess_grammars (d : Dev) (h : Nat) (f : Sess → Sess) : (updSess d h f).grammars = d.grammars := rfl
@[simp] theorem updSess_gcache (d : Dev) (h : Nat) (f : Sess → Sess) : (updSess d h f).gcache = d.gcache := rfl
@[simp] theorem updSess_indexes (d : Dev) (h : Nat) (f : Sess → Sess) : (updSess d h f).indexes = d.indexes := rfl
@[simp] theorem updSess_searches (d : Dev) (h : Nat) (f : Sess → Sess) : (updSess d h f).searches = d.searches := rfl
@[simp] theorem updSess_net (d : Dev) (h : Nat) (f : Sess → Sess) : (updSess d h f).net = d.net := rfl
@[simp] theorem updSess_ckpts (d : Dev) (h : Nat) (f : Sess → Sess) : (updSess d h f).ckpts = d.ckpts := rfl
@[simp] theorem updSess_buddy (d : Dev) (h : Nat) (f : Sess → Sess) : (updSess d h f).buddy = d.buddy := rfl
@[simp] theorem updSess_restores (d : Dev) (h : Nat) (f : Sess → Sess) : (updSess d h f).restores = d.restores := rfl
@[simp] theorem updSess_ckptRuns (d : Dev) (h : Nat) (f : Sess → Sess) : (updSess d h f).ckptRuns = d.ckptRuns := rfl
@[simp] theorem updSess_flash (d : Dev) (h : Nat) (f : Sess → Sess) : (updSess d h f).flash = d.flash := rfl
@[simp] theorem updSess_regions (d : Dev) (h : Nat) (f : Sess → Sess) : (updSess d h f).regions = d.regions := rfl
@[simp] theorem updSess_draws (d : Dev) (h : Nat) (f : Sess → Sess) : (updSess d h f).draws = d.draws := rfl

/-! `updPhrase` changes kv only. -/

@[simp] theorem updPhrase_clk (d : Dev) (p id : Nat) (f : Phrase → Phrase) : (updPhrase d p id f).clk = d.clk := rfl
@[simp] theorem updPhrase_tim (d : Dev) (p id : Nat) (f : Phrase → Phrase) : (updPhrase d p id f).tim = d.tim := rfl
@[simp] theorem updPhrase_tur (d : Dev) (p id : Nat) (f : Phrase → Phrase) : (updPhrase d p id f).tur = d.tur := rfl
@[simp] theorem updPhrase_pool (d : Dev) (p id : Nat) (f : Phrase → Phrase) : (updPhrase d p id f).pool = d.pool := rfl
@[simp] theorem updPhrase_cxl (d : Dev) (p id : Nat) (f : Phrase → Phrase) : (updPhrase d p id f).cxl = d.cxl := rfl
@[simp] theorem updPhrase_boot (d : Dev) (p id : Nat) (f : Phrase → Phrase) : (updPhrase d p id f).boot = d.boot := rfl
@[simp] theorem updPhrase_rep (d : Dev) (p id : Nat) (f : Phrase → Phrase) : (updPhrase d p id f).rep = d.rep := rfl
@[simp] theorem updPhrase_therm (d : Dev) (p id : Nat) (f : Phrase → Phrase) : (updPhrase d p id f).therm = d.therm := rfl
@[simp] theorem updPhrase_exch (d : Dev) (p id : Nat) (f : Phrase → Phrase) : (updPhrase d p id f).exch = d.exch := rfl
@[simp] theorem updPhrase_poison (d : Dev) (p id : Nat) (f : Phrase → Phrase) : (updPhrase d p id f).poison = d.poison := rfl
@[simp] theorem updPhrase_bus (d : Dev) (p id : Nat) (f : Phrase → Phrase) : (updPhrase d p id f).bus = d.bus := rfl
@[simp] theorem updPhrase_busNext (d : Dev) (p id : Nat) (f : Phrase → Phrase) : (updPhrase d p id f).busNext = d.busNext := rfl
@[simp] theorem updPhrase_outs (d : Dev) (p id : Nat) (f : Phrase → Phrase) : (updPhrase d p id f).outs = d.outs := rfl
@[simp] theorem updPhrase_arr (d : Dev) (p id : Nat) (f : Phrase → Phrase) : (updPhrase d p id f).arr = d.arr := rfl
@[simp] theorem updPhrase_stored (d : Dev) (p id : Nat) (f : Phrase → Phrase) : (updPhrase d p id f).stored = d.stored := rfl
@[simp] theorem updPhrase_lexicons (d : Dev) (p id : Nat) (f : Phrase → Phrase) : (updPhrase d p id f).lexicons = d.lexicons := rfl
@[simp] theorem updPhrase_grammars (d : Dev) (p id : Nat) (f : Phrase → Phrase) : (updPhrase d p id f).grammars = d.grammars := rfl
@[simp] theorem updPhrase_gcache (d : Dev) (p id : Nat) (f : Phrase → Phrase) : (updPhrase d p id f).gcache = d.gcache := rfl
@[simp] theorem updPhrase_indexes (d : Dev) (p id : Nat) (f : Phrase → Phrase) : (updPhrase d p id f).indexes = d.indexes := rfl
@[simp] theorem updPhrase_searches (d : Dev) (p id : Nat) (f : Phrase → Phrase) : (updPhrase d p id f).searches = d.searches := rfl
@[simp] theorem updPhrase_net (d : Dev) (p id : Nat) (f : Phrase → Phrase) : (updPhrase d p id f).net = d.net := rfl
@[simp] theorem updPhrase_ckpts (d : Dev) (p id : Nat) (f : Phrase → Phrase) : (updPhrase d p id f).ckpts = d.ckpts := rfl
@[simp] theorem updPhrase_buddy (d : Dev) (p id : Nat) (f : Phrase → Phrase) : (updPhrase d p id f).buddy = d.buddy := rfl
@[simp] theorem updPhrase_restores (d : Dev) (p id : Nat) (f : Phrase → Phrase) : (updPhrase d p id f).restores = d.restores := rfl
@[simp] theorem updPhrase_ckptRuns (d : Dev) (p id : Nat) (f : Phrase → Phrase) : (updPhrase d p id f).ckptRuns = d.ckptRuns := rfl
@[simp] theorem updPhrase_flash (d : Dev) (p id : Nat) (f : Phrase → Phrase) : (updPhrase d p id f).flash = d.flash := rfl
@[simp] theorem updPhrase_regions (d : Dev) (p id : Nat) (f : Phrase → Phrase) : (updPhrase d p id f).regions = d.regions := rfl
@[simp] theorem updPhrase_draws (d : Dev) (p id : Nat) (f : Phrase → Phrase) : (updPhrase d p id f).draws = d.draws := rfl

/-! `updModel` changes kv only. -/

@[simp] theorem updModel_clk (d : Dev) (m : Nat) (f : Model → Model) : (updModel d m f).clk = d.clk := rfl
@[simp] theorem updModel_tim (d : Dev) (m : Nat) (f : Model → Model) : (updModel d m f).tim = d.tim := rfl
@[simp] theorem updModel_tur (d : Dev) (m : Nat) (f : Model → Model) : (updModel d m f).tur = d.tur := rfl
@[simp] theorem updModel_pool (d : Dev) (m : Nat) (f : Model → Model) : (updModel d m f).pool = d.pool := rfl
@[simp] theorem updModel_cxl (d : Dev) (m : Nat) (f : Model → Model) : (updModel d m f).cxl = d.cxl := rfl
@[simp] theorem updModel_boot (d : Dev) (m : Nat) (f : Model → Model) : (updModel d m f).boot = d.boot := rfl
@[simp] theorem updModel_rep (d : Dev) (m : Nat) (f : Model → Model) : (updModel d m f).rep = d.rep := rfl
@[simp] theorem updModel_therm (d : Dev) (m : Nat) (f : Model → Model) : (updModel d m f).therm = d.therm := rfl
@[simp] theorem updModel_exch (d : Dev) (m : Nat) (f : Model → Model) : (updModel d m f).exch = d.exch := rfl
@[simp] theorem updModel_poison (d : Dev) (m : Nat) (f : Model → Model) : (updModel d m f).poison = d.poison := rfl
@[simp] theorem updModel_bus (d : Dev) (m : Nat) (f : Model → Model) : (updModel d m f).bus = d.bus := rfl
@[simp] theorem updModel_busNext (d : Dev) (m : Nat) (f : Model → Model) : (updModel d m f).busNext = d.busNext := rfl
@[simp] theorem updModel_outs (d : Dev) (m : Nat) (f : Model → Model) : (updModel d m f).outs = d.outs := rfl
@[simp] theorem updModel_arr (d : Dev) (m : Nat) (f : Model → Model) : (updModel d m f).arr = d.arr := rfl
@[simp] theorem updModel_stored (d : Dev) (m : Nat) (f : Model → Model) : (updModel d m f).stored = d.stored := rfl
@[simp] theorem updModel_lexicons (d : Dev) (m : Nat) (f : Model → Model) : (updModel d m f).lexicons = d.lexicons := rfl
@[simp] theorem updModel_grammars (d : Dev) (m : Nat) (f : Model → Model) : (updModel d m f).grammars = d.grammars := rfl
@[simp] theorem updModel_gcache (d : Dev) (m : Nat) (f : Model → Model) : (updModel d m f).gcache = d.gcache := rfl
@[simp] theorem updModel_indexes (d : Dev) (m : Nat) (f : Model → Model) : (updModel d m f).indexes = d.indexes := rfl
@[simp] theorem updModel_searches (d : Dev) (m : Nat) (f : Model → Model) : (updModel d m f).searches = d.searches := rfl
@[simp] theorem updModel_net (d : Dev) (m : Nat) (f : Model → Model) : (updModel d m f).net = d.net := rfl
@[simp] theorem updModel_ckpts (d : Dev) (m : Nat) (f : Model → Model) : (updModel d m f).ckpts = d.ckpts := rfl
@[simp] theorem updModel_buddy (d : Dev) (m : Nat) (f : Model → Model) : (updModel d m f).buddy = d.buddy := rfl
@[simp] theorem updModel_restores (d : Dev) (m : Nat) (f : Model → Model) : (updModel d m f).restores = d.restores := rfl
@[simp] theorem updModel_ckptRuns (d : Dev) (m : Nat) (f : Model → Model) : (updModel d m f).ckptRuns = d.ckptRuns := rfl
@[simp] theorem updModel_flash (d : Dev) (m : Nat) (f : Model → Model) : (updModel d m f).flash = d.flash := rfl
@[simp] theorem updModel_regions (d : Dev) (m : Nat) (f : Model → Model) : (updModel d m f).regions = d.regions := rfl
@[simp] theorem updModel_draws (d : Dev) (m : Nat) (f : Model → Model) : (updModel d m f).draws = d.draws := rfl

/-! `updCore` changes arr only. -/

@[simp] theorem updCore_clk (d : Dev) (n : Nat) (f : Core → Core) : (updCore d n f).clk = d.clk := rfl
@[simp] theorem updCore_tim (d : Dev) (n : Nat) (f : Core → Core) : (updCore d n f).tim = d.tim := rfl
@[simp] theorem updCore_tur (d : Dev) (n : Nat) (f : Core → Core) : (updCore d n f).tur = d.tur := rfl
@[simp] theorem updCore_pool (d : Dev) (n : Nat) (f : Core → Core) : (updCore d n f).pool = d.pool := rfl
@[simp] theorem updCore_cxl (d : Dev) (n : Nat) (f : Core → Core) : (updCore d n f).cxl = d.cxl := rfl
@[simp] theorem updCore_boot (d : Dev) (n : Nat) (f : Core → Core) : (updCore d n f).boot = d.boot := rfl
@[simp] theorem updCore_rep (d : Dev) (n : Nat) (f : Core → Core) : (updCore d n f).rep = d.rep := rfl
@[simp] theorem updCore_therm (d : Dev) (n : Nat) (f : Core → Core) : (updCore d n f).therm = d.therm := rfl
@[simp] theorem updCore_exch (d : Dev) (n : Nat) (f : Core → Core) : (updCore d n f).exch = d.exch := rfl
@[simp] theorem updCore_poison (d : Dev) (n : Nat) (f : Core → Core) : (updCore d n f).poison = d.poison := rfl
@[simp] theorem updCore_bus (d : Dev) (n : Nat) (f : Core → Core) : (updCore d n f).bus = d.bus := rfl
@[simp] theorem updCore_busNext (d : Dev) (n : Nat) (f : Core → Core) : (updCore d n f).busNext = d.busNext := rfl
@[simp] theorem updCore_outs (d : Dev) (n : Nat) (f : Core → Core) : (updCore d n f).outs = d.outs := rfl
@[simp] theorem updCore_kv (d : Dev) (n : Nat) (f : Core → Core) : (updCore d n f).kv = d.kv := rfl
@[simp] theorem updCore_stored (d : Dev) (n : Nat) (f : Core → Core) : (updCore d n f).stored = d.stored := rfl
@[simp] theorem updCore_lexicons (d : Dev) (n : Nat) (f : Core → Core) : (updCore d n f).lexicons = d.lexicons := rfl
@[simp] theorem updCore_grammars (d : Dev) (n : Nat) (f : Core → Core) : (updCore d n f).grammars = d.grammars := rfl
@[simp] theorem updCore_gcache (d : Dev) (n : Nat) (f : Core → Core) : (updCore d n f).gcache = d.gcache := rfl
@[simp] theorem updCore_indexes (d : Dev) (n : Nat) (f : Core → Core) : (updCore d n f).indexes = d.indexes := rfl
@[simp] theorem updCore_searches (d : Dev) (n : Nat) (f : Core → Core) : (updCore d n f).searches = d.searches := rfl
@[simp] theorem updCore_net (d : Dev) (n : Nat) (f : Core → Core) : (updCore d n f).net = d.net := rfl
@[simp] theorem updCore_ckpts (d : Dev) (n : Nat) (f : Core → Core) : (updCore d n f).ckpts = d.ckpts := rfl
@[simp] theorem updCore_buddy (d : Dev) (n : Nat) (f : Core → Core) : (updCore d n f).buddy = d.buddy := rfl
@[simp] theorem updCore_restores (d : Dev) (n : Nat) (f : Core → Core) : (updCore d n f).restores = d.restores := rfl
@[simp] theorem updCore_ckptRuns (d : Dev) (n : Nat) (f : Core → Core) : (updCore d n f).ckptRuns = d.ckptRuns := rfl
@[simp] theorem updCore_flash (d : Dev) (n : Nat) (f : Core → Core) : (updCore d n f).flash = d.flash := rfl
@[simp] theorem updCore_regions (d : Dev) (n : Nat) (f : Core → Core) : (updCore d n f).regions = d.regions := rfl
@[simp] theorem updCore_draws (d : Dev) (n : Nat) (f : Core → Core) : (updCore d n f).draws = d.draws := rfl

/-! `updJob` changes arr only. -/

@[simp] theorem updJob_clk (d : Dev) (n : Nat) (f : Job → Job) : (updJob d n f).clk = d.clk := rfl
@[simp] theorem updJob_tim (d : Dev) (n : Nat) (f : Job → Job) : (updJob d n f).tim = d.tim := rfl
@[simp] theorem updJob_tur (d : Dev) (n : Nat) (f : Job → Job) : (updJob d n f).tur = d.tur := rfl
@[simp] theorem updJob_pool (d : Dev) (n : Nat) (f : Job → Job) : (updJob d n f).pool = d.pool := rfl
@[simp] theorem updJob_cxl (d : Dev) (n : Nat) (f : Job → Job) : (updJob d n f).cxl = d.cxl := rfl
@[simp] theorem updJob_boot (d : Dev) (n : Nat) (f : Job → Job) : (updJob d n f).boot = d.boot := rfl
@[simp] theorem updJob_rep (d : Dev) (n : Nat) (f : Job → Job) : (updJob d n f).rep = d.rep := rfl
@[simp] theorem updJob_therm (d : Dev) (n : Nat) (f : Job → Job) : (updJob d n f).therm = d.therm := rfl
@[simp] theorem updJob_exch (d : Dev) (n : Nat) (f : Job → Job) : (updJob d n f).exch = d.exch := rfl
@[simp] theorem updJob_poison (d : Dev) (n : Nat) (f : Job → Job) : (updJob d n f).poison = d.poison := rfl
@[simp] theorem updJob_bus (d : Dev) (n : Nat) (f : Job → Job) : (updJob d n f).bus = d.bus := rfl
@[simp] theorem updJob_busNext (d : Dev) (n : Nat) (f : Job → Job) : (updJob d n f).busNext = d.busNext := rfl
@[simp] theorem updJob_outs (d : Dev) (n : Nat) (f : Job → Job) : (updJob d n f).outs = d.outs := rfl
@[simp] theorem updJob_kv (d : Dev) (n : Nat) (f : Job → Job) : (updJob d n f).kv = d.kv := rfl
@[simp] theorem updJob_stored (d : Dev) (n : Nat) (f : Job → Job) : (updJob d n f).stored = d.stored := rfl
@[simp] theorem updJob_lexicons (d : Dev) (n : Nat) (f : Job → Job) : (updJob d n f).lexicons = d.lexicons := rfl
@[simp] theorem updJob_grammars (d : Dev) (n : Nat) (f : Job → Job) : (updJob d n f).grammars = d.grammars := rfl
@[simp] theorem updJob_gcache (d : Dev) (n : Nat) (f : Job → Job) : (updJob d n f).gcache = d.gcache := rfl
@[simp] theorem updJob_indexes (d : Dev) (n : Nat) (f : Job → Job) : (updJob d n f).indexes = d.indexes := rfl
@[simp] theorem updJob_searches (d : Dev) (n : Nat) (f : Job → Job) : (updJob d n f).searches = d.searches := rfl
@[simp] theorem updJob_net (d : Dev) (n : Nat) (f : Job → Job) : (updJob d n f).net = d.net := rfl
@[simp] theorem updJob_ckpts (d : Dev) (n : Nat) (f : Job → Job) : (updJob d n f).ckpts = d.ckpts := rfl
@[simp] theorem updJob_buddy (d : Dev) (n : Nat) (f : Job → Job) : (updJob d n f).buddy = d.buddy := rfl
@[simp] theorem updJob_restores (d : Dev) (n : Nat) (f : Job → Job) : (updJob d n f).restores = d.restores := rfl
@[simp] theorem updJob_ckptRuns (d : Dev) (n : Nat) (f : Job → Job) : (updJob d n f).ckptRuns = d.ckptRuns := rfl
@[simp] theorem updJob_flash (d : Dev) (n : Nat) (f : Job → Job) : (updJob d n f).flash = d.flash := rfl
@[simp] theorem updJob_regions (d : Dev) (n : Nat) (f : Job → Job) : (updJob d n f).regions = d.regions := rfl
@[simp] theorem updJob_draws (d : Dev) (n : Nat) (f : Job → Job) : (updJob d n f).draws = d.draws := rfl

/-! `updSlice` changes arr only. -/

@[simp] theorem updSlice_clk (d : Dev) (n : Nat) (f : Slice → Slice) : (updSlice d n f).clk = d.clk := rfl
@[simp] theorem updSlice_tim (d : Dev) (n : Nat) (f : Slice → Slice) : (updSlice d n f).tim = d.tim := rfl
@[simp] theorem updSlice_tur (d : Dev) (n : Nat) (f : Slice → Slice) : (updSlice d n f).tur = d.tur := rfl
@[simp] theorem updSlice_pool (d : Dev) (n : Nat) (f : Slice → Slice) : (updSlice d n f).pool = d.pool := rfl
@[simp] theorem updSlice_cxl (d : Dev) (n : Nat) (f : Slice → Slice) : (updSlice d n f).cxl = d.cxl := rfl
@[simp] theorem updSlice_boot (d : Dev) (n : Nat) (f : Slice → Slice) : (updSlice d n f).boot = d.boot := rfl
@[simp] theorem updSlice_rep (d : Dev) (n : Nat) (f : Slice → Slice) : (updSlice d n f).rep = d.rep := rfl
@[simp] theorem updSlice_therm (d : Dev) (n : Nat) (f : Slice → Slice) : (updSlice d n f).therm = d.therm := rfl
@[simp] theorem updSlice_exch (d : Dev) (n : Nat) (f : Slice → Slice) : (updSlice d n f).exch = d.exch := rfl
@[simp] theorem updSlice_poison (d : Dev) (n : Nat) (f : Slice → Slice) : (updSlice d n f).poison = d.poison := rfl
@[simp] theorem updSlice_bus (d : Dev) (n : Nat) (f : Slice → Slice) : (updSlice d n f).bus = d.bus := rfl
@[simp] theorem updSlice_busNext (d : Dev) (n : Nat) (f : Slice → Slice) : (updSlice d n f).busNext = d.busNext := rfl
@[simp] theorem updSlice_outs (d : Dev) (n : Nat) (f : Slice → Slice) : (updSlice d n f).outs = d.outs := rfl
@[simp] theorem updSlice_kv (d : Dev) (n : Nat) (f : Slice → Slice) : (updSlice d n f).kv = d.kv := rfl
@[simp] theorem updSlice_stored (d : Dev) (n : Nat) (f : Slice → Slice) : (updSlice d n f).stored = d.stored := rfl
@[simp] theorem updSlice_lexicons (d : Dev) (n : Nat) (f : Slice → Slice) : (updSlice d n f).lexicons = d.lexicons := rfl
@[simp] theorem updSlice_grammars (d : Dev) (n : Nat) (f : Slice → Slice) : (updSlice d n f).grammars = d.grammars := rfl
@[simp] theorem updSlice_gcache (d : Dev) (n : Nat) (f : Slice → Slice) : (updSlice d n f).gcache = d.gcache := rfl
@[simp] theorem updSlice_indexes (d : Dev) (n : Nat) (f : Slice → Slice) : (updSlice d n f).indexes = d.indexes := rfl
@[simp] theorem updSlice_searches (d : Dev) (n : Nat) (f : Slice → Slice) : (updSlice d n f).searches = d.searches := rfl
@[simp] theorem updSlice_net (d : Dev) (n : Nat) (f : Slice → Slice) : (updSlice d n f).net = d.net := rfl
@[simp] theorem updSlice_ckpts (d : Dev) (n : Nat) (f : Slice → Slice) : (updSlice d n f).ckpts = d.ckpts := rfl
@[simp] theorem updSlice_buddy (d : Dev) (n : Nat) (f : Slice → Slice) : (updSlice d n f).buddy = d.buddy := rfl
@[simp] theorem updSlice_restores (d : Dev) (n : Nat) (f : Slice → Slice) : (updSlice d n f).restores = d.restores := rfl
@[simp] theorem updSlice_ckptRuns (d : Dev) (n : Nat) (f : Slice → Slice) : (updSlice d n f).ckptRuns = d.ckptRuns := rfl
@[simp] theorem updSlice_flash (d : Dev) (n : Nat) (f : Slice → Slice) : (updSlice d n f).flash = d.flash := rfl
@[simp] theorem updSlice_regions (d : Dev) (n : Nat) (f : Slice → Slice) : (updSlice d n f).regions = d.regions := rfl
@[simp] theorem updSlice_draws (d : Dev) (n : Nat) (f : Slice → Slice) : (updSlice d n f).draws = d.draws := rfl

/-! `updIndex` changes indexes only. -/

@[simp] theorem updIndex_clk (d : Dev) (i : Nat) (f : Index → Index) : (updIndex d i f).clk = d.clk := rfl
@[simp] theorem updIndex_tim (d : Dev) (i : Nat) (f : Index → Index) : (updIndex d i f).tim = d.tim := rfl
@[simp] theorem updIndex_tur (d : Dev) (i : Nat) (f : Index → Index) : (updIndex d i f).tur = d.tur := rfl
@[simp] theorem updIndex_pool (d : Dev) (i : Nat) (f : Index → Index) : (updIndex d i f).pool = d.pool := rfl
@[simp] theorem updIndex_cxl (d : Dev) (i : Nat) (f : Index → Index) : (updIndex d i f).cxl = d.cxl := rfl
@[simp] theorem updIndex_boot (d : Dev) (i : Nat) (f : Index → Index) : (updIndex d i f).boot = d.boot := rfl
@[simp] theorem updIndex_rep (d : Dev) (i : Nat) (f : Index → Index) : (updIndex d i f).rep = d.rep := rfl
@[simp] theorem updIndex_therm (d : Dev) (i : Nat) (f : Index → Index) : (updIndex d i f).therm = d.therm := rfl
@[simp] theorem updIndex_exch (d : Dev) (i : Nat) (f : Index → Index) : (updIndex d i f).exch = d.exch := rfl
@[simp] theorem updIndex_poison (d : Dev) (i : Nat) (f : Index → Index) : (updIndex d i f).poison = d.poison := rfl
@[simp] theorem updIndex_bus (d : Dev) (i : Nat) (f : Index → Index) : (updIndex d i f).bus = d.bus := rfl
@[simp] theorem updIndex_busNext (d : Dev) (i : Nat) (f : Index → Index) : (updIndex d i f).busNext = d.busNext := rfl
@[simp] theorem updIndex_outs (d : Dev) (i : Nat) (f : Index → Index) : (updIndex d i f).outs = d.outs := rfl
@[simp] theorem updIndex_kv (d : Dev) (i : Nat) (f : Index → Index) : (updIndex d i f).kv = d.kv := rfl
@[simp] theorem updIndex_arr (d : Dev) (i : Nat) (f : Index → Index) : (updIndex d i f).arr = d.arr := rfl
@[simp] theorem updIndex_stored (d : Dev) (i : Nat) (f : Index → Index) : (updIndex d i f).stored = d.stored := rfl
@[simp] theorem updIndex_lexicons (d : Dev) (i : Nat) (f : Index → Index) : (updIndex d i f).lexicons = d.lexicons := rfl
@[simp] theorem updIndex_grammars (d : Dev) (i : Nat) (f : Index → Index) : (updIndex d i f).grammars = d.grammars := rfl
@[simp] theorem updIndex_gcache (d : Dev) (i : Nat) (f : Index → Index) : (updIndex d i f).gcache = d.gcache := rfl
@[simp] theorem updIndex_searches (d : Dev) (i : Nat) (f : Index → Index) : (updIndex d i f).searches = d.searches := rfl
@[simp] theorem updIndex_net (d : Dev) (i : Nat) (f : Index → Index) : (updIndex d i f).net = d.net := rfl
@[simp] theorem updIndex_ckpts (d : Dev) (i : Nat) (f : Index → Index) : (updIndex d i f).ckpts = d.ckpts := rfl
@[simp] theorem updIndex_buddy (d : Dev) (i : Nat) (f : Index → Index) : (updIndex d i f).buddy = d.buddy := rfl
@[simp] theorem updIndex_restores (d : Dev) (i : Nat) (f : Index → Index) : (updIndex d i f).restores = d.restores := rfl
@[simp] theorem updIndex_ckptRuns (d : Dev) (i : Nat) (f : Index → Index) : (updIndex d i f).ckptRuns = d.ckptRuns := rfl
@[simp] theorem updIndex_flash (d : Dev) (i : Nat) (f : Index → Index) : (updIndex d i f).flash = d.flash := rfl
@[simp] theorem updIndex_regions (d : Dev) (i : Nat) (f : Index → Index) : (updIndex d i f).regions = d.regions := rfl
@[simp] theorem updIndex_draws (d : Dev) (i : Nat) (f : Index → Index) : (updIndex d i f).draws = d.draws := rfl

/-! `updSub` changes net only. -/

@[simp] theorem updSub_clk (d : Dev) (s : Nat) (f : SubPort → SubPort) : (updSub d s f).clk = d.clk := rfl
@[simp] theorem updSub_tim (d : Dev) (s : Nat) (f : SubPort → SubPort) : (updSub d s f).tim = d.tim := rfl
@[simp] theorem updSub_tur (d : Dev) (s : Nat) (f : SubPort → SubPort) : (updSub d s f).tur = d.tur := rfl
@[simp] theorem updSub_pool (d : Dev) (s : Nat) (f : SubPort → SubPort) : (updSub d s f).pool = d.pool := rfl
@[simp] theorem updSub_cxl (d : Dev) (s : Nat) (f : SubPort → SubPort) : (updSub d s f).cxl = d.cxl := rfl
@[simp] theorem updSub_boot (d : Dev) (s : Nat) (f : SubPort → SubPort) : (updSub d s f).boot = d.boot := rfl
@[simp] theorem updSub_rep (d : Dev) (s : Nat) (f : SubPort → SubPort) : (updSub d s f).rep = d.rep := rfl
@[simp] theorem updSub_therm (d : Dev) (s : Nat) (f : SubPort → SubPort) : (updSub d s f).therm = d.therm := rfl
@[simp] theorem updSub_exch (d : Dev) (s : Nat) (f : SubPort → SubPort) : (updSub d s f).exch = d.exch := rfl
@[simp] theorem updSub_poison (d : Dev) (s : Nat) (f : SubPort → SubPort) : (updSub d s f).poison = d.poison := rfl
@[simp] theorem updSub_bus (d : Dev) (s : Nat) (f : SubPort → SubPort) : (updSub d s f).bus = d.bus := rfl
@[simp] theorem updSub_busNext (d : Dev) (s : Nat) (f : SubPort → SubPort) : (updSub d s f).busNext = d.busNext := rfl
@[simp] theorem updSub_outs (d : Dev) (s : Nat) (f : SubPort → SubPort) : (updSub d s f).outs = d.outs := rfl
@[simp] theorem updSub_kv (d : Dev) (s : Nat) (f : SubPort → SubPort) : (updSub d s f).kv = d.kv := rfl
@[simp] theorem updSub_arr (d : Dev) (s : Nat) (f : SubPort → SubPort) : (updSub d s f).arr = d.arr := rfl
@[simp] theorem updSub_stored (d : Dev) (s : Nat) (f : SubPort → SubPort) : (updSub d s f).stored = d.stored := rfl
@[simp] theorem updSub_lexicons (d : Dev) (s : Nat) (f : SubPort → SubPort) : (updSub d s f).lexicons = d.lexicons := rfl
@[simp] theorem updSub_grammars (d : Dev) (s : Nat) (f : SubPort → SubPort) : (updSub d s f).grammars = d.grammars := rfl
@[simp] theorem updSub_gcache (d : Dev) (s : Nat) (f : SubPort → SubPort) : (updSub d s f).gcache = d.gcache := rfl
@[simp] theorem updSub_indexes (d : Dev) (s : Nat) (f : SubPort → SubPort) : (updSub d s f).indexes = d.indexes := rfl
@[simp] theorem updSub_searches (d : Dev) (s : Nat) (f : SubPort → SubPort) : (updSub d s f).searches = d.searches := rfl
@[simp] theorem updSub_ckpts (d : Dev) (s : Nat) (f : SubPort → SubPort) : (updSub d s f).ckpts = d.ckpts := rfl
@[simp] theorem updSub_buddy (d : Dev) (s : Nat) (f : SubPort → SubPort) : (updSub d s f).buddy = d.buddy := rfl
@[simp] theorem updSub_restores (d : Dev) (s : Nat) (f : SubPort → SubPort) : (updSub d s f).restores = d.restores := rfl
@[simp] theorem updSub_ckptRuns (d : Dev) (s : Nat) (f : SubPort → SubPort) : (updSub d s f).ckptRuns = d.ckptRuns := rfl
@[simp] theorem updSub_flash (d : Dev) (s : Nat) (f : SubPort → SubPort) : (updSub d s f).flash = d.flash := rfl
@[simp] theorem updSub_regions (d : Dev) (s : Nat) (f : SubPort → SubPort) : (updSub d s f).regions = d.regions := rfl
@[simp] theorem updSub_draws (d : Dev) (s : Nat) (f : SubPort → SubPort) : (updSub d s f).draws = d.draws := rfl

/-! `updPort` changes net only. -/

@[simp] theorem updPort_clk (d : Dev) (n : Nat) (f : EPort → EPort) : (updPort d n f).clk = d.clk := rfl
@[simp] theorem updPort_tim (d : Dev) (n : Nat) (f : EPort → EPort) : (updPort d n f).tim = d.tim := rfl
@[simp] theorem updPort_tur (d : Dev) (n : Nat) (f : EPort → EPort) : (updPort d n f).tur = d.tur := rfl
@[simp] theorem updPort_pool (d : Dev) (n : Nat) (f : EPort → EPort) : (updPort d n f).pool = d.pool := rfl
@[simp] theorem updPort_cxl (d : Dev) (n : Nat) (f : EPort → EPort) : (updPort d n f).cxl = d.cxl := rfl
@[simp] theorem updPort_boot (d : Dev) (n : Nat) (f : EPort → EPort) : (updPort d n f).boot = d.boot := rfl
@[simp] theorem updPort_rep (d : Dev) (n : Nat) (f : EPort → EPort) : (updPort d n f).rep = d.rep := rfl
@[simp] theorem updPort_therm (d : Dev) (n : Nat) (f : EPort → EPort) : (updPort d n f).therm = d.therm := rfl
@[simp] theorem updPort_exch (d : Dev) (n : Nat) (f : EPort → EPort) : (updPort d n f).exch = d.exch := rfl
@[simp] theorem updPort_poison (d : Dev) (n : Nat) (f : EPort → EPort) : (updPort d n f).poison = d.poison := rfl
@[simp] theorem updPort_bus (d : Dev) (n : Nat) (f : EPort → EPort) : (updPort d n f).bus = d.bus := rfl
@[simp] theorem updPort_busNext (d : Dev) (n : Nat) (f : EPort → EPort) : (updPort d n f).busNext = d.busNext := rfl
@[simp] theorem updPort_outs (d : Dev) (n : Nat) (f : EPort → EPort) : (updPort d n f).outs = d.outs := rfl
@[simp] theorem updPort_kv (d : Dev) (n : Nat) (f : EPort → EPort) : (updPort d n f).kv = d.kv := rfl
@[simp] theorem updPort_arr (d : Dev) (n : Nat) (f : EPort → EPort) : (updPort d n f).arr = d.arr := rfl
@[simp] theorem updPort_stored (d : Dev) (n : Nat) (f : EPort → EPort) : (updPort d n f).stored = d.stored := rfl
@[simp] theorem updPort_lexicons (d : Dev) (n : Nat) (f : EPort → EPort) : (updPort d n f).lexicons = d.lexicons := rfl
@[simp] theorem updPort_grammars (d : Dev) (n : Nat) (f : EPort → EPort) : (updPort d n f).grammars = d.grammars := rfl
@[simp] theorem updPort_gcache (d : Dev) (n : Nat) (f : EPort → EPort) : (updPort d n f).gcache = d.gcache := rfl
@[simp] theorem updPort_indexes (d : Dev) (n : Nat) (f : EPort → EPort) : (updPort d n f).indexes = d.indexes := rfl
@[simp] theorem updPort_searches (d : Dev) (n : Nat) (f : EPort → EPort) : (updPort d n f).searches = d.searches := rfl
@[simp] theorem updPort_ckpts (d : Dev) (n : Nat) (f : EPort → EPort) : (updPort d n f).ckpts = d.ckpts := rfl
@[simp] theorem updPort_buddy (d : Dev) (n : Nat) (f : EPort → EPort) : (updPort d n f).buddy = d.buddy := rfl
@[simp] theorem updPort_restores (d : Dev) (n : Nat) (f : EPort → EPort) : (updPort d n f).restores = d.restores := rfl
@[simp] theorem updPort_ckptRuns (d : Dev) (n : Nat) (f : EPort → EPort) : (updPort d n f).ckptRuns = d.ckptRuns := rfl
@[simp] theorem updPort_flash (d : Dev) (n : Nat) (f : EPort → EPort) : (updPort d n f).flash = d.flash := rfl
@[simp] theorem updPort_regions (d : Dev) (n : Nat) (f : EPort → EPort) : (updPort d n f).regions = d.regions := rfl
@[simp] theorem updPort_draws (d : Dev) (n : Nat) (f : EPort → EPort) : (updPort d n f).draws = d.draws := rfl

/-! `updQp` changes net only. -/

@[simp] theorem updQp_clk (d : Dev) (n : Nat) (f : Qp → Qp) : (updQp d n f).clk = d.clk := rfl
@[simp] theorem updQp_tim (d : Dev) (n : Nat) (f : Qp → Qp) : (updQp d n f).tim = d.tim := rfl
@[simp] theorem updQp_tur (d : Dev) (n : Nat) (f : Qp → Qp) : (updQp d n f).tur = d.tur := rfl
@[simp] theorem updQp_pool (d : Dev) (n : Nat) (f : Qp → Qp) : (updQp d n f).pool = d.pool := rfl
@[simp] theorem updQp_cxl (d : Dev) (n : Nat) (f : Qp → Qp) : (updQp d n f).cxl = d.cxl := rfl
@[simp] theorem updQp_boot (d : Dev) (n : Nat) (f : Qp → Qp) : (updQp d n f).boot = d.boot := rfl
@[simp] theorem updQp_rep (d : Dev) (n : Nat) (f : Qp → Qp) : (updQp d n f).rep = d.rep := rfl
@[simp] theorem updQp_therm (d : Dev) (n : Nat) (f : Qp → Qp) : (updQp d n f).therm = d.therm := rfl
@[simp] theorem updQp_exch (d : Dev) (n : Nat) (f : Qp → Qp) : (updQp d n f).exch = d.exch := rfl
@[simp] theorem updQp_poison (d : Dev) (n : Nat) (f : Qp → Qp) : (updQp d n f).poison = d.poison := rfl
@[simp] theorem updQp_bus (d : Dev) (n : Nat) (f : Qp → Qp) : (updQp d n f).bus = d.bus := rfl
@[simp] theorem updQp_busNext (d : Dev) (n : Nat) (f : Qp → Qp) : (updQp d n f).busNext = d.busNext := rfl
@[simp] theorem updQp_outs (d : Dev) (n : Nat) (f : Qp → Qp) : (updQp d n f).outs = d.outs := rfl
@[simp] theorem updQp_kv (d : Dev) (n : Nat) (f : Qp → Qp) : (updQp d n f).kv = d.kv := rfl
@[simp] theorem updQp_arr (d : Dev) (n : Nat) (f : Qp → Qp) : (updQp d n f).arr = d.arr := rfl
@[simp] theorem updQp_stored (d : Dev) (n : Nat) (f : Qp → Qp) : (updQp d n f).stored = d.stored := rfl
@[simp] theorem updQp_lexicons (d : Dev) (n : Nat) (f : Qp → Qp) : (updQp d n f).lexicons = d.lexicons := rfl
@[simp] theorem updQp_grammars (d : Dev) (n : Nat) (f : Qp → Qp) : (updQp d n f).grammars = d.grammars := rfl
@[simp] theorem updQp_gcache (d : Dev) (n : Nat) (f : Qp → Qp) : (updQp d n f).gcache = d.gcache := rfl
@[simp] theorem updQp_indexes (d : Dev) (n : Nat) (f : Qp → Qp) : (updQp d n f).indexes = d.indexes := rfl
@[simp] theorem updQp_searches (d : Dev) (n : Nat) (f : Qp → Qp) : (updQp d n f).searches = d.searches := rfl
@[simp] theorem updQp_ckpts (d : Dev) (n : Nat) (f : Qp → Qp) : (updQp d n f).ckpts = d.ckpts := rfl
@[simp] theorem updQp_buddy (d : Dev) (n : Nat) (f : Qp → Qp) : (updQp d n f).buddy = d.buddy := rfl
@[simp] theorem updQp_restores (d : Dev) (n : Nat) (f : Qp → Qp) : (updQp d n f).restores = d.restores := rfl
@[simp] theorem updQp_ckptRuns (d : Dev) (n : Nat) (f : Qp → Qp) : (updQp d n f).ckptRuns = d.ckptRuns := rfl
@[simp] theorem updQp_flash (d : Dev) (n : Nat) (f : Qp → Qp) : (updQp d n f).flash = d.flash := rfl
@[simp] theorem updQp_regions (d : Dev) (n : Nat) (f : Qp → Qp) : (updQp d n f).regions = d.regions := rfl
@[simp] theorem updQp_draws (d : Dev) (n : Nat) (f : Qp → Qp) : (updQp d n f).draws = d.draws := rfl

/-! `updWindow` changes net only. -/

@[simp] theorem updWindow_clk (d : Dev) (id : Nat) (f : Window → Window) : (updWindow d id f).clk = d.clk := rfl
@[simp] theorem updWindow_tim (d : Dev) (id : Nat) (f : Window → Window) : (updWindow d id f).tim = d.tim := rfl
@[simp] theorem updWindow_tur (d : Dev) (id : Nat) (f : Window → Window) : (updWindow d id f).tur = d.tur := rfl
@[simp] theorem updWindow_pool (d : Dev) (id : Nat) (f : Window → Window) : (updWindow d id f).pool = d.pool := rfl
@[simp] theorem updWindow_cxl (d : Dev) (id : Nat) (f : Window → Window) : (updWindow d id f).cxl = d.cxl := rfl
@[simp] theorem updWindow_boot (d : Dev) (id : Nat) (f : Window → Window) : (updWindow d id f).boot = d.boot := rfl
@[simp] theorem updWindow_rep (d : Dev) (id : Nat) (f : Window → Window) : (updWindow d id f).rep = d.rep := rfl
@[simp] theorem updWindow_therm (d : Dev) (id : Nat) (f : Window → Window) : (updWindow d id f).therm = d.therm := rfl
@[simp] theorem updWindow_exch (d : Dev) (id : Nat) (f : Window → Window) : (updWindow d id f).exch = d.exch := rfl
@[simp] theorem updWindow_poison (d : Dev) (id : Nat) (f : Window → Window) : (updWindow d id f).poison = d.poison := rfl
@[simp] theorem updWindow_bus (d : Dev) (id : Nat) (f : Window → Window) : (updWindow d id f).bus = d.bus := rfl
@[simp] theorem updWindow_busNext (d : Dev) (id : Nat) (f : Window → Window) : (updWindow d id f).busNext = d.busNext := rfl
@[simp] theorem updWindow_outs (d : Dev) (id : Nat) (f : Window → Window) : (updWindow d id f).outs = d.outs := rfl
@[simp] theorem updWindow_kv (d : Dev) (id : Nat) (f : Window → Window) : (updWindow d id f).kv = d.kv := rfl
@[simp] theorem updWindow_arr (d : Dev) (id : Nat) (f : Window → Window) : (updWindow d id f).arr = d.arr := rfl
@[simp] theorem updWindow_stored (d : Dev) (id : Nat) (f : Window → Window) : (updWindow d id f).stored = d.stored := rfl
@[simp] theorem updWindow_lexicons (d : Dev) (id : Nat) (f : Window → Window) : (updWindow d id f).lexicons = d.lexicons := rfl
@[simp] theorem updWindow_grammars (d : Dev) (id : Nat) (f : Window → Window) : (updWindow d id f).grammars = d.grammars := rfl
@[simp] theorem updWindow_gcache (d : Dev) (id : Nat) (f : Window → Window) : (updWindow d id f).gcache = d.gcache := rfl
@[simp] theorem updWindow_indexes (d : Dev) (id : Nat) (f : Window → Window) : (updWindow d id f).indexes = d.indexes := rfl
@[simp] theorem updWindow_searches (d : Dev) (id : Nat) (f : Window → Window) : (updWindow d id f).searches = d.searches := rfl
@[simp] theorem updWindow_ckpts (d : Dev) (id : Nat) (f : Window → Window) : (updWindow d id f).ckpts = d.ckpts := rfl
@[simp] theorem updWindow_buddy (d : Dev) (id : Nat) (f : Window → Window) : (updWindow d id f).buddy = d.buddy := rfl
@[simp] theorem updWindow_restores (d : Dev) (id : Nat) (f : Window → Window) : (updWindow d id f).restores = d.restores := rfl
@[simp] theorem updWindow_ckptRuns (d : Dev) (id : Nat) (f : Window → Window) : (updWindow d id f).ckptRuns = d.ckptRuns := rfl
@[simp] theorem updWindow_flash (d : Dev) (id : Nat) (f : Window → Window) : (updWindow d id f).flash = d.flash := rfl
@[simp] theorem updWindow_regions (d : Dev) (id : Nat) (f : Window → Window) : (updWindow d id f).regions = d.regions := rfl
@[simp] theorem updWindow_draws (d : Dev) (id : Nat) (f : Window → Window) : (updWindow d id f).draws = d.draws := rfl

/-! `updCkpt` changes ckpts only. -/

@[simp] theorem updCkpt_clk (d : Dev) (ctx step : Nat) (f : Ckpt → Ckpt) : (updCkpt d ctx step f).clk = d.clk := rfl
@[simp] theorem updCkpt_tim (d : Dev) (ctx step : Nat) (f : Ckpt → Ckpt) : (updCkpt d ctx step f).tim = d.tim := rfl
@[simp] theorem updCkpt_tur (d : Dev) (ctx step : Nat) (f : Ckpt → Ckpt) : (updCkpt d ctx step f).tur = d.tur := rfl
@[simp] theorem updCkpt_pool (d : Dev) (ctx step : Nat) (f : Ckpt → Ckpt) : (updCkpt d ctx step f).pool = d.pool := rfl
@[simp] theorem updCkpt_cxl (d : Dev) (ctx step : Nat) (f : Ckpt → Ckpt) : (updCkpt d ctx step f).cxl = d.cxl := rfl
@[simp] theorem updCkpt_boot (d : Dev) (ctx step : Nat) (f : Ckpt → Ckpt) : (updCkpt d ctx step f).boot = d.boot := rfl
@[simp] theorem updCkpt_rep (d : Dev) (ctx step : Nat) (f : Ckpt → Ckpt) : (updCkpt d ctx step f).rep = d.rep := rfl
@[simp] theorem updCkpt_therm (d : Dev) (ctx step : Nat) (f : Ckpt → Ckpt) : (updCkpt d ctx step f).therm = d.therm := rfl
@[simp] theorem updCkpt_exch (d : Dev) (ctx step : Nat) (f : Ckpt → Ckpt) : (updCkpt d ctx step f).exch = d.exch := rfl
@[simp] theorem updCkpt_poison (d : Dev) (ctx step : Nat) (f : Ckpt → Ckpt) : (updCkpt d ctx step f).poison = d.poison := rfl
@[simp] theorem updCkpt_bus (d : Dev) (ctx step : Nat) (f : Ckpt → Ckpt) : (updCkpt d ctx step f).bus = d.bus := rfl
@[simp] theorem updCkpt_busNext (d : Dev) (ctx step : Nat) (f : Ckpt → Ckpt) : (updCkpt d ctx step f).busNext = d.busNext := rfl
@[simp] theorem updCkpt_outs (d : Dev) (ctx step : Nat) (f : Ckpt → Ckpt) : (updCkpt d ctx step f).outs = d.outs := rfl
@[simp] theorem updCkpt_kv (d : Dev) (ctx step : Nat) (f : Ckpt → Ckpt) : (updCkpt d ctx step f).kv = d.kv := rfl
@[simp] theorem updCkpt_arr (d : Dev) (ctx step : Nat) (f : Ckpt → Ckpt) : (updCkpt d ctx step f).arr = d.arr := rfl
@[simp] theorem updCkpt_stored (d : Dev) (ctx step : Nat) (f : Ckpt → Ckpt) : (updCkpt d ctx step f).stored = d.stored := rfl
@[simp] theorem updCkpt_lexicons (d : Dev) (ctx step : Nat) (f : Ckpt → Ckpt) : (updCkpt d ctx step f).lexicons = d.lexicons := rfl
@[simp] theorem updCkpt_grammars (d : Dev) (ctx step : Nat) (f : Ckpt → Ckpt) : (updCkpt d ctx step f).grammars = d.grammars := rfl
@[simp] theorem updCkpt_gcache (d : Dev) (ctx step : Nat) (f : Ckpt → Ckpt) : (updCkpt d ctx step f).gcache = d.gcache := rfl
@[simp] theorem updCkpt_indexes (d : Dev) (ctx step : Nat) (f : Ckpt → Ckpt) : (updCkpt d ctx step f).indexes = d.indexes := rfl
@[simp] theorem updCkpt_searches (d : Dev) (ctx step : Nat) (f : Ckpt → Ckpt) : (updCkpt d ctx step f).searches = d.searches := rfl
@[simp] theorem updCkpt_net (d : Dev) (ctx step : Nat) (f : Ckpt → Ckpt) : (updCkpt d ctx step f).net = d.net := rfl
@[simp] theorem updCkpt_buddy (d : Dev) (ctx step : Nat) (f : Ckpt → Ckpt) : (updCkpt d ctx step f).buddy = d.buddy := rfl
@[simp] theorem updCkpt_restores (d : Dev) (ctx step : Nat) (f : Ckpt → Ckpt) : (updCkpt d ctx step f).restores = d.restores := rfl
@[simp] theorem updCkpt_ckptRuns (d : Dev) (ctx step : Nat) (f : Ckpt → Ckpt) : (updCkpt d ctx step f).ckptRuns = d.ckptRuns := rfl
@[simp] theorem updCkpt_flash (d : Dev) (ctx step : Nat) (f : Ckpt → Ckpt) : (updCkpt d ctx step f).flash = d.flash := rfl
@[simp] theorem updCkpt_regions (d : Dev) (ctx step : Nat) (f : Ckpt → Ckpt) : (updCkpt d ctx step f).regions = d.regions := rfl
@[simp] theorem updCkpt_draws (d : Dev) (ctx step : Nat) (f : Ckpt → Ckpt) : (updCkpt d ctx step f).draws = d.draws := rfl

/-! `putEvq` changes tur only. -/

@[simp] theorem putEvq_clk (d : Dev) (n : Nat) (q : Evq) : (putEvq d n q).clk = d.clk := rfl
@[simp] theorem putEvq_tim (d : Dev) (n : Nat) (q : Evq) : (putEvq d n q).tim = d.tim := rfl
@[simp] theorem putEvq_pool (d : Dev) (n : Nat) (q : Evq) : (putEvq d n q).pool = d.pool := rfl
@[simp] theorem putEvq_cxl (d : Dev) (n : Nat) (q : Evq) : (putEvq d n q).cxl = d.cxl := rfl
@[simp] theorem putEvq_boot (d : Dev) (n : Nat) (q : Evq) : (putEvq d n q).boot = d.boot := rfl
@[simp] theorem putEvq_rep (d : Dev) (n : Nat) (q : Evq) : (putEvq d n q).rep = d.rep := rfl
@[simp] theorem putEvq_therm (d : Dev) (n : Nat) (q : Evq) : (putEvq d n q).therm = d.therm := rfl
@[simp] theorem putEvq_exch (d : Dev) (n : Nat) (q : Evq) : (putEvq d n q).exch = d.exch := rfl
@[simp] theorem putEvq_poison (d : Dev) (n : Nat) (q : Evq) : (putEvq d n q).poison = d.poison := rfl
@[simp] theorem putEvq_bus (d : Dev) (n : Nat) (q : Evq) : (putEvq d n q).bus = d.bus := rfl
@[simp] theorem putEvq_busNext (d : Dev) (n : Nat) (q : Evq) : (putEvq d n q).busNext = d.busNext := rfl
@[simp] theorem putEvq_outs (d : Dev) (n : Nat) (q : Evq) : (putEvq d n q).outs = d.outs := rfl
@[simp] theorem putEvq_kv (d : Dev) (n : Nat) (q : Evq) : (putEvq d n q).kv = d.kv := rfl
@[simp] theorem putEvq_arr (d : Dev) (n : Nat) (q : Evq) : (putEvq d n q).arr = d.arr := rfl
@[simp] theorem putEvq_stored (d : Dev) (n : Nat) (q : Evq) : (putEvq d n q).stored = d.stored := rfl
@[simp] theorem putEvq_lexicons (d : Dev) (n : Nat) (q : Evq) : (putEvq d n q).lexicons = d.lexicons := rfl
@[simp] theorem putEvq_grammars (d : Dev) (n : Nat) (q : Evq) : (putEvq d n q).grammars = d.grammars := rfl
@[simp] theorem putEvq_gcache (d : Dev) (n : Nat) (q : Evq) : (putEvq d n q).gcache = d.gcache := rfl
@[simp] theorem putEvq_indexes (d : Dev) (n : Nat) (q : Evq) : (putEvq d n q).indexes = d.indexes := rfl
@[simp] theorem putEvq_searches (d : Dev) (n : Nat) (q : Evq) : (putEvq d n q).searches = d.searches := rfl
@[simp] theorem putEvq_net (d : Dev) (n : Nat) (q : Evq) : (putEvq d n q).net = d.net := rfl
@[simp] theorem putEvq_ckpts (d : Dev) (n : Nat) (q : Evq) : (putEvq d n q).ckpts = d.ckpts := rfl
@[simp] theorem putEvq_buddy (d : Dev) (n : Nat) (q : Evq) : (putEvq d n q).buddy = d.buddy := rfl
@[simp] theorem putEvq_restores (d : Dev) (n : Nat) (q : Evq) : (putEvq d n q).restores = d.restores := rfl
@[simp] theorem putEvq_ckptRuns (d : Dev) (n : Nat) (q : Evq) : (putEvq d n q).ckptRuns = d.ckptRuns := rfl
@[simp] theorem putEvq_flash (d : Dev) (n : Nat) (q : Evq) : (putEvq d n q).flash = d.flash := rfl
@[simp] theorem putEvq_regions (d : Dev) (n : Nat) (q : Evq) : (putEvq d n q).regions = d.regions := rfl
@[simp] theorem putEvq_draws (d : Dev) (n : Nat) (q : Evq) : (putEvq d n q).draws = d.draws := rfl

/-! `memAnswer` changes outs only. -/

@[simp] theorem memAnswer_clk (d : Dev) (n dpa : Nat) (bs : List Byte) (poison : Bool) : (memAnswer d n dpa bs poison).clk = d.clk := rfl
@[simp] theorem memAnswer_tim (d : Dev) (n dpa : Nat) (bs : List Byte) (poison : Bool) : (memAnswer d n dpa bs poison).tim = d.tim := rfl
@[simp] theorem memAnswer_tur (d : Dev) (n dpa : Nat) (bs : List Byte) (poison : Bool) : (memAnswer d n dpa bs poison).tur = d.tur := rfl
@[simp] theorem memAnswer_pool (d : Dev) (n dpa : Nat) (bs : List Byte) (poison : Bool) : (memAnswer d n dpa bs poison).pool = d.pool := rfl
@[simp] theorem memAnswer_cxl (d : Dev) (n dpa : Nat) (bs : List Byte) (poison : Bool) : (memAnswer d n dpa bs poison).cxl = d.cxl := rfl
@[simp] theorem memAnswer_boot (d : Dev) (n dpa : Nat) (bs : List Byte) (poison : Bool) : (memAnswer d n dpa bs poison).boot = d.boot := rfl
@[simp] theorem memAnswer_rep (d : Dev) (n dpa : Nat) (bs : List Byte) (poison : Bool) : (memAnswer d n dpa bs poison).rep = d.rep := rfl
@[simp] theorem memAnswer_therm (d : Dev) (n dpa : Nat) (bs : List Byte) (poison : Bool) : (memAnswer d n dpa bs poison).therm = d.therm := rfl
@[simp] theorem memAnswer_exch (d : Dev) (n dpa : Nat) (bs : List Byte) (poison : Bool) : (memAnswer d n dpa bs poison).exch = d.exch := rfl
@[simp] theorem memAnswer_poison (d : Dev) (n dpa : Nat) (bs : List Byte) (poison : Bool) : (memAnswer d n dpa bs poison).poison = d.poison := rfl
@[simp] theorem memAnswer_bus (d : Dev) (n dpa : Nat) (bs : List Byte) (poison : Bool) : (memAnswer d n dpa bs poison).bus = d.bus := rfl
@[simp] theorem memAnswer_busNext (d : Dev) (n dpa : Nat) (bs : List Byte) (poison : Bool) : (memAnswer d n dpa bs poison).busNext = d.busNext := rfl
@[simp] theorem memAnswer_kv (d : Dev) (n dpa : Nat) (bs : List Byte) (poison : Bool) : (memAnswer d n dpa bs poison).kv = d.kv := rfl
@[simp] theorem memAnswer_arr (d : Dev) (n dpa : Nat) (bs : List Byte) (poison : Bool) : (memAnswer d n dpa bs poison).arr = d.arr := rfl
@[simp] theorem memAnswer_stored (d : Dev) (n dpa : Nat) (bs : List Byte) (poison : Bool) : (memAnswer d n dpa bs poison).stored = d.stored := rfl
@[simp] theorem memAnswer_lexicons (d : Dev) (n dpa : Nat) (bs : List Byte) (poison : Bool) : (memAnswer d n dpa bs poison).lexicons = d.lexicons := rfl
@[simp] theorem memAnswer_grammars (d : Dev) (n dpa : Nat) (bs : List Byte) (poison : Bool) : (memAnswer d n dpa bs poison).grammars = d.grammars := rfl
@[simp] theorem memAnswer_gcache (d : Dev) (n dpa : Nat) (bs : List Byte) (poison : Bool) : (memAnswer d n dpa bs poison).gcache = d.gcache := rfl
@[simp] theorem memAnswer_indexes (d : Dev) (n dpa : Nat) (bs : List Byte) (poison : Bool) : (memAnswer d n dpa bs poison).indexes = d.indexes := rfl
@[simp] theorem memAnswer_searches (d : Dev) (n dpa : Nat) (bs : List Byte) (poison : Bool) : (memAnswer d n dpa bs poison).searches = d.searches := rfl
@[simp] theorem memAnswer_net (d : Dev) (n dpa : Nat) (bs : List Byte) (poison : Bool) : (memAnswer d n dpa bs poison).net = d.net := rfl
@[simp] theorem memAnswer_ckpts (d : Dev) (n dpa : Nat) (bs : List Byte) (poison : Bool) : (memAnswer d n dpa bs poison).ckpts = d.ckpts := rfl
@[simp] theorem memAnswer_buddy (d : Dev) (n dpa : Nat) (bs : List Byte) (poison : Bool) : (memAnswer d n dpa bs poison).buddy = d.buddy := rfl
@[simp] theorem memAnswer_restores (d : Dev) (n dpa : Nat) (bs : List Byte) (poison : Bool) : (memAnswer d n dpa bs poison).restores = d.restores := rfl
@[simp] theorem memAnswer_ckptRuns (d : Dev) (n dpa : Nat) (bs : List Byte) (poison : Bool) : (memAnswer d n dpa bs poison).ckptRuns = d.ckptRuns := rfl
@[simp] theorem memAnswer_flash (d : Dev) (n dpa : Nat) (bs : List Byte) (poison : Bool) : (memAnswer d n dpa bs poison).flash = d.flash := rfl
@[simp] theorem memAnswer_regions (d : Dev) (n dpa : Nat) (bs : List Byte) (poison : Bool) : (memAnswer d n dpa bs poison).regions = d.regions := rfl
@[simp] theorem memAnswer_draws (d : Dev) (n dpa : Nat) (bs : List Byte) (poison : Bool) : (memAnswer d n dpa bs poison).draws = d.draws := rfl

/-! `reply` changes outs only. -/

@[simp] theorem reply_clk (d : Dev) (ld op code : Nat) (bs : List Byte) : (reply d ld op code bs).clk = d.clk := rfl
@[simp] theorem reply_tim (d : Dev) (ld op code : Nat) (bs : List Byte) : (reply d ld op code bs).tim = d.tim := rfl
@[simp] theorem reply_tur (d : Dev) (ld op code : Nat) (bs : List Byte) : (reply d ld op code bs).tur = d.tur := rfl
@[simp] theorem reply_pool (d : Dev) (ld op code : Nat) (bs : List Byte) : (reply d ld op code bs).pool = d.pool := rfl
@[simp] theorem reply_cxl (d : Dev) (ld op code : Nat) (bs : List Byte) : (reply d ld op code bs).cxl = d.cxl := rfl
@[simp] theorem reply_boot (d : Dev) (ld op code : Nat) (bs : List Byte) : (reply d ld op code bs).boot = d.boot := rfl
@[simp] theorem reply_rep (d : Dev) (ld op code : Nat) (bs : List Byte) : (reply d ld op code bs).rep = d.rep := rfl
@[simp] theorem reply_therm (d : Dev) (ld op code : Nat) (bs : List Byte) : (reply d ld op code bs).therm = d.therm := rfl
@[simp] theorem reply_exch (d : Dev) (ld op code : Nat) (bs : List Byte) : (reply d ld op code bs).exch = d.exch := rfl
@[simp] theorem reply_poison (d : Dev) (ld op code : Nat) (bs : List Byte) : (reply d ld op code bs).poison = d.poison := rfl
@[simp] theorem reply_bus (d : Dev) (ld op code : Nat) (bs : List Byte) : (reply d ld op code bs).bus = d.bus := rfl
@[simp] theorem reply_busNext (d : Dev) (ld op code : Nat) (bs : List Byte) : (reply d ld op code bs).busNext = d.busNext := rfl
@[simp] theorem reply_kv (d : Dev) (ld op code : Nat) (bs : List Byte) : (reply d ld op code bs).kv = d.kv := rfl
@[simp] theorem reply_arr (d : Dev) (ld op code : Nat) (bs : List Byte) : (reply d ld op code bs).arr = d.arr := rfl
@[simp] theorem reply_stored (d : Dev) (ld op code : Nat) (bs : List Byte) : (reply d ld op code bs).stored = d.stored := rfl
@[simp] theorem reply_lexicons (d : Dev) (ld op code : Nat) (bs : List Byte) : (reply d ld op code bs).lexicons = d.lexicons := rfl
@[simp] theorem reply_grammars (d : Dev) (ld op code : Nat) (bs : List Byte) : (reply d ld op code bs).grammars = d.grammars := rfl
@[simp] theorem reply_gcache (d : Dev) (ld op code : Nat) (bs : List Byte) : (reply d ld op code bs).gcache = d.gcache := rfl
@[simp] theorem reply_indexes (d : Dev) (ld op code : Nat) (bs : List Byte) : (reply d ld op code bs).indexes = d.indexes := rfl
@[simp] theorem reply_searches (d : Dev) (ld op code : Nat) (bs : List Byte) : (reply d ld op code bs).searches = d.searches := rfl
@[simp] theorem reply_net (d : Dev) (ld op code : Nat) (bs : List Byte) : (reply d ld op code bs).net = d.net := rfl
@[simp] theorem reply_ckpts (d : Dev) (ld op code : Nat) (bs : List Byte) : (reply d ld op code bs).ckpts = d.ckpts := rfl
@[simp] theorem reply_buddy (d : Dev) (ld op code : Nat) (bs : List Byte) : (reply d ld op code bs).buddy = d.buddy := rfl
@[simp] theorem reply_restores (d : Dev) (ld op code : Nat) (bs : List Byte) : (reply d ld op code bs).restores = d.restores := rfl
@[simp] theorem reply_ckptRuns (d : Dev) (ld op code : Nat) (bs : List Byte) : (reply d ld op code bs).ckptRuns = d.ckptRuns := rfl
@[simp] theorem reply_flash (d : Dev) (ld op code : Nat) (bs : List Byte) : (reply d ld op code bs).flash = d.flash := rfl
@[simp] theorem reply_regions (d : Dev) (ld op code : Nat) (bs : List Byte) : (reply d ld op code bs).regions = d.regions := rfl
@[simp] theorem reply_draws (d : Dev) (ld op code : Nat) (bs : List Byte) : (reply d ld op code bs).draws = d.draws := rfl

/-! `spdmPut` changes cxl only. -/

@[simp] theorem spdmPut_clk (d : Dev) (s : Spdm) : (spdmPut d s).clk = d.clk := rfl
@[simp] theorem spdmPut_tim (d : Dev) (s : Spdm) : (spdmPut d s).tim = d.tim := rfl
@[simp] theorem spdmPut_tur (d : Dev) (s : Spdm) : (spdmPut d s).tur = d.tur := rfl
@[simp] theorem spdmPut_pool (d : Dev) (s : Spdm) : (spdmPut d s).pool = d.pool := rfl
@[simp] theorem spdmPut_boot (d : Dev) (s : Spdm) : (spdmPut d s).boot = d.boot := rfl
@[simp] theorem spdmPut_rep (d : Dev) (s : Spdm) : (spdmPut d s).rep = d.rep := rfl
@[simp] theorem spdmPut_therm (d : Dev) (s : Spdm) : (spdmPut d s).therm = d.therm := rfl
@[simp] theorem spdmPut_exch (d : Dev) (s : Spdm) : (spdmPut d s).exch = d.exch := rfl
@[simp] theorem spdmPut_poison (d : Dev) (s : Spdm) : (spdmPut d s).poison = d.poison := rfl
@[simp] theorem spdmPut_bus (d : Dev) (s : Spdm) : (spdmPut d s).bus = d.bus := rfl
@[simp] theorem spdmPut_busNext (d : Dev) (s : Spdm) : (spdmPut d s).busNext = d.busNext := rfl
@[simp] theorem spdmPut_outs (d : Dev) (s : Spdm) : (spdmPut d s).outs = d.outs := rfl
@[simp] theorem spdmPut_kv (d : Dev) (s : Spdm) : (spdmPut d s).kv = d.kv := rfl
@[simp] theorem spdmPut_arr (d : Dev) (s : Spdm) : (spdmPut d s).arr = d.arr := rfl
@[simp] theorem spdmPut_stored (d : Dev) (s : Spdm) : (spdmPut d s).stored = d.stored := rfl
@[simp] theorem spdmPut_lexicons (d : Dev) (s : Spdm) : (spdmPut d s).lexicons = d.lexicons := rfl
@[simp] theorem spdmPut_grammars (d : Dev) (s : Spdm) : (spdmPut d s).grammars = d.grammars := rfl
@[simp] theorem spdmPut_gcache (d : Dev) (s : Spdm) : (spdmPut d s).gcache = d.gcache := rfl
@[simp] theorem spdmPut_indexes (d : Dev) (s : Spdm) : (spdmPut d s).indexes = d.indexes := rfl
@[simp] theorem spdmPut_searches (d : Dev) (s : Spdm) : (spdmPut d s).searches = d.searches := rfl
@[simp] theorem spdmPut_net (d : Dev) (s : Spdm) : (spdmPut d s).net = d.net := rfl
@[simp] theorem spdmPut_ckpts (d : Dev) (s : Spdm) : (spdmPut d s).ckpts = d.ckpts := rfl
@[simp] theorem spdmPut_buddy (d : Dev) (s : Spdm) : (spdmPut d s).buddy = d.buddy := rfl
@[simp] theorem spdmPut_restores (d : Dev) (s : Spdm) : (spdmPut d s).restores = d.restores := rfl
@[simp] theorem spdmPut_ckptRuns (d : Dev) (s : Spdm) : (spdmPut d s).ckptRuns = d.ckptRuns := rfl
@[simp] theorem spdmPut_flash (d : Dev) (s : Spdm) : (spdmPut d s).flash = d.flash := rfl
@[simp] theorem spdmPut_regions (d : Dev) (s : Spdm) : (spdmPut d s).regions = d.regions := rfl
@[simp] theorem spdmPut_draws (d : Dev) (s : Spdm) : (spdmPut d s).draws = d.draws := rfl

/-! `dropNand` changes flash only. -/

@[simp] theorem dropNand_clk (d : Dev) (id : Nat) : (dropNand d id).clk = d.clk := rfl
@[simp] theorem dropNand_tim (d : Dev) (id : Nat) : (dropNand d id).tim = d.tim := rfl
@[simp] theorem dropNand_tur (d : Dev) (id : Nat) : (dropNand d id).tur = d.tur := rfl
@[simp] theorem dropNand_pool (d : Dev) (id : Nat) : (dropNand d id).pool = d.pool := rfl
@[simp] theorem dropNand_cxl (d : Dev) (id : Nat) : (dropNand d id).cxl = d.cxl := rfl
@[simp] theorem dropNand_boot (d : Dev) (id : Nat) : (dropNand d id).boot = d.boot := rfl
@[simp] theorem dropNand_rep (d : Dev) (id : Nat) : (dropNand d id).rep = d.rep := rfl
@[simp] theorem dropNand_therm (d : Dev) (id : Nat) : (dropNand d id).therm = d.therm := rfl
@[simp] theorem dropNand_exch (d : Dev) (id : Nat) : (dropNand d id).exch = d.exch := rfl
@[simp] theorem dropNand_poison (d : Dev) (id : Nat) : (dropNand d id).poison = d.poison := rfl
@[simp] theorem dropNand_bus (d : Dev) (id : Nat) : (dropNand d id).bus = d.bus := rfl
@[simp] theorem dropNand_busNext (d : Dev) (id : Nat) : (dropNand d id).busNext = d.busNext := rfl
@[simp] theorem dropNand_outs (d : Dev) (id : Nat) : (dropNand d id).outs = d.outs := rfl
@[simp] theorem dropNand_kv (d : Dev) (id : Nat) : (dropNand d id).kv = d.kv := rfl
@[simp] theorem dropNand_arr (d : Dev) (id : Nat) : (dropNand d id).arr = d.arr := rfl
@[simp] theorem dropNand_stored (d : Dev) (id : Nat) : (dropNand d id).stored = d.stored := rfl
@[simp] theorem dropNand_lexicons (d : Dev) (id : Nat) : (dropNand d id).lexicons = d.lexicons := rfl
@[simp] theorem dropNand_grammars (d : Dev) (id : Nat) : (dropNand d id).grammars = d.grammars := rfl
@[simp] theorem dropNand_gcache (d : Dev) (id : Nat) : (dropNand d id).gcache = d.gcache := rfl
@[simp] theorem dropNand_indexes (d : Dev) (id : Nat) : (dropNand d id).indexes = d.indexes := rfl
@[simp] theorem dropNand_searches (d : Dev) (id : Nat) : (dropNand d id).searches = d.searches := rfl
@[simp] theorem dropNand_net (d : Dev) (id : Nat) : (dropNand d id).net = d.net := rfl
@[simp] theorem dropNand_ckpts (d : Dev) (id : Nat) : (dropNand d id).ckpts = d.ckpts := rfl
@[simp] theorem dropNand_buddy (d : Dev) (id : Nat) : (dropNand d id).buddy = d.buddy := rfl
@[simp] theorem dropNand_restores (d : Dev) (id : Nat) : (dropNand d id).restores = d.restores := rfl
@[simp] theorem dropNand_ckptRuns (d : Dev) (id : Nat) : (dropNand d id).ckptRuns = d.ckptRuns := rfl
@[simp] theorem dropNand_regions (d : Dev) (id : Nat) : (dropNand d id).regions = d.regions := rfl
@[simp] theorem dropNand_draws (d : Dev) (id : Nat) : (dropNand d id).draws = d.draws := rfl

/-! `registerOp` changes kv and tur only. -/

@[simp] theorem registerOp_clk (d : Dev) (v : Verb) (o : Op) : (registerOp d v o).clk = d.clk := rfl
@[simp] theorem registerOp_tim (d : Dev) (v : Verb) (o : Op) : (registerOp d v o).tim = d.tim := rfl
@[simp] theorem registerOp_pool (d : Dev) (v : Verb) (o : Op) : (registerOp d v o).pool = d.pool := rfl
@[simp] theorem registerOp_cxl (d : Dev) (v : Verb) (o : Op) : (registerOp d v o).cxl = d.cxl := rfl
@[simp] theorem registerOp_boot (d : Dev) (v : Verb) (o : Op) : (registerOp d v o).boot = d.boot := rfl
@[simp] theorem registerOp_rep (d : Dev) (v : Verb) (o : Op) : (registerOp d v o).rep = d.rep := rfl
@[simp] theorem registerOp_therm (d : Dev) (v : Verb) (o : Op) : (registerOp d v o).therm = d.therm := rfl
@[simp] theorem registerOp_exch (d : Dev) (v : Verb) (o : Op) : (registerOp d v o).exch = d.exch := rfl
@[simp] theorem registerOp_poison (d : Dev) (v : Verb) (o : Op) : (registerOp d v o).poison = d.poison := rfl
@[simp] theorem registerOp_bus (d : Dev) (v : Verb) (o : Op) : (registerOp d v o).bus = d.bus := rfl
@[simp] theorem registerOp_busNext (d : Dev) (v : Verb) (o : Op) : (registerOp d v o).busNext = d.busNext := rfl
@[simp] theorem registerOp_outs (d : Dev) (v : Verb) (o : Op) : (registerOp d v o).outs = d.outs := rfl
@[simp] theorem registerOp_arr (d : Dev) (v : Verb) (o : Op) : (registerOp d v o).arr = d.arr := rfl
@[simp] theorem registerOp_stored (d : Dev) (v : Verb) (o : Op) : (registerOp d v o).stored = d.stored := rfl
@[simp] theorem registerOp_lexicons (d : Dev) (v : Verb) (o : Op) : (registerOp d v o).lexicons = d.lexicons := rfl
@[simp] theorem registerOp_grammars (d : Dev) (v : Verb) (o : Op) : (registerOp d v o).grammars = d.grammars := rfl
@[simp] theorem registerOp_gcache (d : Dev) (v : Verb) (o : Op) : (registerOp d v o).gcache = d.gcache := rfl
@[simp] theorem registerOp_indexes (d : Dev) (v : Verb) (o : Op) : (registerOp d v o).indexes = d.indexes := rfl
@[simp] theorem registerOp_searches (d : Dev) (v : Verb) (o : Op) : (registerOp d v o).searches = d.searches := rfl
@[simp] theorem registerOp_net (d : Dev) (v : Verb) (o : Op) : (registerOp d v o).net = d.net := rfl
@[simp] theorem registerOp_ckpts (d : Dev) (v : Verb) (o : Op) : (registerOp d v o).ckpts = d.ckpts := rfl
@[simp] theorem registerOp_buddy (d : Dev) (v : Verb) (o : Op) : (registerOp d v o).buddy = d.buddy := rfl
@[simp] theorem registerOp_restores (d : Dev) (v : Verb) (o : Op) : (registerOp d v o).restores = d.restores := rfl
@[simp] theorem registerOp_ckptRuns (d : Dev) (v : Verb) (o : Op) : (registerOp d v o).ckptRuns = d.ckptRuns := rfl
@[simp] theorem registerOp_flash (d : Dev) (v : Verb) (o : Op) : (registerOp d v o).flash = d.flash := rfl
@[simp] theorem registerOp_regions (d : Dev) (v : Verb) (o : Op) : (registerOp d v o).regions = d.regions := rfl
@[simp] theorem registerOp_draws (d : Dev) (v : Verb) (o : Op) : (registerOp d v o).draws = d.draws := rfl

/-! What the plain updates write. -/

@[simp] theorem advance_tim (d : Dev) (dt : Nat) : (advance d dt).tim = advanceTim d.tim dt := rfl
@[simp] theorem updRing_rings (d : Dev) (r : Nat) (f : Ring → Ring) : (updRing d r f).tur.rings = updWhere (fun x => x.num == r) f d.tur.rings := rfl
@[simp] theorem updQp_qps (d : Dev) (n : Nat) (f : Qp → Qp) : (updQp d n f).net.qps = updWhere (fun q => q.qpn == n) f d.net.qps := rfl
@[simp] theorem updIndex_indexes (d : Dev) (i : Nat) (f : Index → Index) : (updIndex d i f).indexes = updWhere (fun x => x.id == i) f d.indexes := rfl
@[simp] theorem putEvq_evqs (d : Dev) (n : Nat) (q : Evq) : (putEvq d n q).tur.evqs = setNth d.tur.evqs n q := rfl
@[simp] theorem dropNand_ops (d : Dev) (id : Nat) : (dropNand d id).flash.ops = dropWhere (fun o => o.id == id) d.flash.ops := rfl
@[simp] theorem nextRelease_relSeq (d : Dev) : (nextRelease d).pool.relSeq = d.pool.relSeq + 1 := rfl

end Sys2Proof.Machine
end

