-- ==== Sys2Proof/Laws/Step.lean ====
section
/-!
SUPPORT. What a command can do to the state, said once: it acts on the device alone, on grid and device, or as a power event; it always answers a
next state, and never touches the queue.
-/

namespace Sys2Proof.Machine

/-- Every command acts in one of four ways. -/
theorem exec_shape (c : Instr) :
    (∃ f, ∀ s, exec c s = onDev f s) ∨ (∃ f, ∀ s, exec c s = onLen f s) ∨
      (∃ f, ∀ s, exec c s = onGrid f s) ∨ ∃ f, ∀ s, exec c s = onPower f s := by
  cases c with
  | clauseBoundary dt temps bad tests => exact Or.inr (Or.inr (Or.inl ⟨_, fun s => by show execClauseBoundary dt temps bad tests s = _; unfold execClauseBoundary; rfl⟩))
  | jobOverrunAbort job dt => exact Or.inr (Or.inr (Or.inl ⟨_, fun s => by show execJobOverrunAbort job dt s = _; unfold execJobOverrunAbort; rfl⟩))
  | tickInEdge dt highNs => exact Or.inr (Or.inl ⟨_, fun s => by show execTickInEdge dt highNs s = _; unfold execTickInEdge; rfl⟩)
  | tickLossTimeout dt => exact Or.inr (Or.inr (Or.inl ⟨_, fun s => by show execTickLossTimeout dt s = _; unfold execTickLossTimeout; rfl⟩))
  | slewEnd dt => exact Or.inl ⟨_, fun s => by show execSlewEnd dt s = _; unfold execSlewEnd; rfl⟩
  | ptpMessageReceive sub domain m => exact Or.inl ⟨_, fun s => by show execPtpMessageReceive sub domain m s = _; unfold execPtpMessageReceive; rfl⟩
  | ptpSyncTimeout dt => exact Or.inl ⟨_, fun s => by show execPtpSyncTimeout dt s = _; unfold execPtpSyncTimeout; rfl⟩
  | clauseSet seq => exact Or.inr (Or.inr (Or.inl ⟨_, fun s => by show execClauseSet seq s = _; unfold execClauseSet; rfl⟩))
  | timeSet seq => exact Or.inl ⟨_, fun s => by show execTimeSet seq s = _; unfold execTimeSet; rfl⟩
  | doorbellSqUpdate ld off width value => exact Or.inl ⟨_, fun s => by show execDoorbellSqUpdate ld off width value s = _; unfold execDoorbellSqUpdate; rfl⟩
  | doorbellCqUpdate ld off width value => exact Or.inl ⟨_, fun s => by show execDoorbellCqUpdate ld off width value s = _; unfold execDoorbellCqUpdate; rfl⟩
  | doorbellRestart ld off width value => exact Or.inl ⟨_, fun s => by show execDoorbellRestart ld off width value s = _; unfold execDoorbellRestart; rfl⟩
  | ringFetch => exact Or.inl ⟨_, fun s => by show execRingFetch s = _; unfold execRingFetch; rfl⟩
  | evqEnableWrite ld off width value => exact Or.inl ⟨_, fun s => by show execEvqEnableWrite ld off width value s = _; unfold execEvqEnableWrite; rfl⟩
  | evqHeadWrite ld off width value => exact Or.inl ⟨_, fun s => by show execEvqHeadWrite ld off width value s = _; unfold execEvqHeadWrite; rfl⟩
  | stallSeenClear off width value => exact Or.inl ⟨_, fun s => by show execStallSeenClear off width value s = _; unfold execStallSeenClear; rfl⟩
  | registerWrite ld off width value => exact Or.inl ⟨_, fun s => by show execRegisterWrite ld off width value s = _; unfold execRegisterWrite; rfl⟩
  | fwStallTimeout dt => exact Or.inl ⟨_, fun s => by show execFwStallTimeout dt s = _; unfold execFwStallTimeout; rfl⟩
  | verbLimitTimeout seq dt => exact Or.inl ⟨_, fun s => by show execVerbLimitTimeout seq dt s = _; unfold execVerbLimitTimeout; rfl⟩
  | sessFork seq => exact Or.inl ⟨_, fun s => by show execSessFork seq s = _; unfold execSessFork; rfl⟩
  | append seq => exact Or.inl ⟨_, fun s => by show execAppend seq s = _; unfold execAppend; rfl⟩
  | rollback seq => exact Or.inl ⟨_, fun s => by show execRollback seq s = _; unfold execRollback; rfl⟩
  | truncate seq => exact Or.inl ⟨_, fun s => by show execTruncate seq s = _; unfold execTruncate; rfl⟩
  | modelLoad seq => exact Or.inl ⟨_, fun s => by show execModelLoad seq s = _; unfold execModelLoad; rfl⟩
  | modelUnload seq => exact Or.inl ⟨_, fun s => by show execModelUnload seq s = _; unfold execModelUnload; rfl⟩
  | attend seq => exact Or.inl ⟨_, fun s => by show execAttend seq s = _; unfold execAttend; rfl⟩
  | jobSliceEnd slice => exact Or.inl ⟨_, fun s => by show execJobSliceEnd slice s = _; unfold execJobSliceEnd; rfl⟩
  | partialRecordArrival place => exact Or.inl ⟨_, fun s => by show execPartialRecordArrival place s = _; unfold execPartialRecordArrival; rfl⟩
  | kernelLoad seq => exact Or.inl ⟨_, fun s => by show execKernelLoad seq s = _; unfold execKernelLoad; rfl⟩
  | kernelUnload seq => exact Or.inl ⟨_, fun s => by show execKernelUnload seq s = _; unfold execKernelUnload; rfl⟩
  | nop core => exact Or.inl ⟨_, fun s => by show execNop core s = _; unfold execNop; rfl⟩
  | tload core bad => exact Or.inl ⟨_, fun s => by show execTload core bad s = _; unfold execTload; rfl⟩
  | tstore core bad => exact Or.inl ⟨_, fun s => by show execTstore core bad s = _; unfold execTstore; rfl⟩
  | gather core bad => exact Or.inl ⟨_, fun s => by show execGather core bad s = _; unfold execGather; rfl⟩
  | scatter core bad => exact Or.inl ⟨_, fun s => by show execScatter core bad s = _; unfold execScatter; rfl⟩
  | fill core => exact Or.inl ⟨_, fun s => by show execFill core s = _; unfold execFill; rfl⟩
  | mm core => exact Or.inl ⟨_, fun s => by show execMm core s = _; unfold execMm; rfl⟩
  | accRead core => exact Or.inl ⟨_, fun s => by show execAccRead core s = _; unfold execAccRead; rfl⟩
  | accWrite core => exact Or.inl ⟨_, fun s => by show execAccWrite core s = _; unfold execAccWrite; rfl⟩
  | quant core => exact Or.inl ⟨_, fun s => by show execQuant core s = _; unfold execQuant; rfl⟩
  | dequant core => exact Or.inl ⟨_, fun s => by show execDequant core s = _; unfold execDequant; rfl⟩
  | vop core => exact Or.inl ⟨_, fun s => by show execVop core s = _; unfold execVop; rfl⟩
  | vred core => exact Or.inl ⟨_, fun s => by show execVred core s = _; unfold execVred; rfl⟩
  | rotate core => exact Or.inl ⟨_, fun s => by show execRotate core s = _; unfold execRotate; rfl⟩
  | smxPart core => exact Or.inl ⟨_, fun s => by show execSmxPart core s = _; unfold execSmxPart; rfl⟩
  | smxMerge core => exact Or.inl ⟨_, fun s => by show execSmxMerge core s = _; unfold execSmxMerge; rfl⟩
  | partEmit core => exact Or.inl ⟨_, fun s => by show execPartEmit core s = _; unfold execPartEmit; rfl⟩
  | appendRows core => exact Or.inl ⟨_, fun s => by show execAppendRows core s = _; unfold execAppendRows; rfl⟩
  | nbIssue core => exact Or.inl ⟨_, fun s => by show execNbIssue core s = _; unfold execNbIssue; rfl⟩
  | nbOperationComplete core id bad => exact Or.inl ⟨_, fun s => by show execNbOperationComplete core id bad s = _; unfold execNbOperationComplete; rfl⟩
  | movementComplete core id => exact Or.inl ⟨_, fun s => by show execMovementComplete core id s = _; unfold execMovementComplete; rfl⟩
  | semWait core => exact Or.inl ⟨_, fun s => by show execSemWait core s = _; unfold execSemWait; rfl⟩
  | semSignal core => exact Or.inl ⟨_, fun s => by show execSemSignal core s = _; unfold execSemSignal; rfl⟩
  | barCl core => exact Or.inl ⟨_, fun s => by show execBarCl core s = _; unfold execBarCl; rfl⟩
  | barDev core => exact Or.inl ⟨_, fun s => by show execBarDev core s = _; unfold execBarDev; rfl⟩
  | bcast core => exact Or.inl ⟨_, fun s => by show execBcast core s = _; unfold execBcast; rfl⟩
  | flag core => exact Or.inl ⟨_, fun s => by show execFlag core s = _; unfold execFlag; rfl⟩
  | flagWait core => exact Or.inl ⟨_, fun s => by show execFlagWait core s = _; unfold execFlagWait; rfl⟩
  | loopBegin core => exact Or.inl ⟨_, fun s => by show execLoopBegin core s = _; unfold execLoopBegin; rfl⟩
  | loopEnd core => exact Or.inl ⟨_, fun s => by show execLoopEnd core s = _; unfold execLoopEnd; rfl⟩
  | skip core => exact Or.inl ⟨_, fun s => by show execSkip core s = _; unfold execSkip; rfl⟩
  | endDesc core => exact Or.inl ⟨_, fun s => by show execEndDesc core s = _; unfold execEndDesc; rfl⟩
  | zeroFillComplete rel ddr => exact Or.inl ⟨_, fun s => by show execZeroFillComplete rel ddr s = _; unfold execZeroFillComplete; rfl⟩
  | pinTiles seq => exact Or.inl ⟨_, fun s => by show execPinTiles seq s = _; unfold execPinTiles; rfl⟩
  | sessOpen seq => exact Or.inl ⟨_, fun s => by show execSessOpen seq s = _; unfold execSessOpen; rfl⟩
  | sessClose seq => exact Or.inl ⟨_, fun s => by show execSessClose seq s = _; unfold execSessClose; rfl⟩
  | discard seq => exact Or.inl ⟨_, fun s => by show execDiscard seq s = _; unfold execDiscard; rfl⟩
  | sessQuery seq => exact Or.inl ⟨_, fun s => by show execSessQuery seq s = _; unfold execSessQuery; rfl⟩
  | park seq => exact Or.inl ⟨_, fun s => by show execPark seq s = _; unfold execPark; rfl⟩
  | revive seq => exact Or.inl ⟨_, fun s => by show execRevive seq s = _; unfold execRevive; rfl⟩
  | move seq => exact Or.inl ⟨_, fun s => by show execMove seq s = _; unfold execMove; rfl⟩
  | moverCopyComplete id ok => exact Or.inl ⟨_, fun s => by show execMoverCopyComplete id ok s = _; unfold execMoverCopyComplete; rfl⟩
  | lexLoad seq => exact Or.inl ⟨_, fun s => by show execLexLoad seq s = _; unfold execLexLoad; rfl⟩
  | lexUnload seq => exact Or.inl ⟨_, fun s => by show execLexUnload seq s = _; unfold execLexUnload; rfl⟩
  | tokenize seq => exact Or.inl ⟨_, fun s => by show execTokenize seq s = _; unfold execTokenize; rfl⟩
  | detokOpen seq => exact Or.inl ⟨_, fun s => by show execDetokOpen seq s = _; unfold execDetokOpen; rfl⟩
  | stopSet seq => exact Or.inl ⟨_, fun s => by show execStopSet seq s = _; unfold execStopSet; rfl⟩
  | detokFlush seq => exact Or.inl ⟨_, fun s => by show execDetokFlush seq s = _; unfold execDetokFlush; rfl⟩
  | textHeadReadDone id value => exact Or.inl ⟨_, fun s => by show execTextHeadReadDone id value s = _; unfold execTextHeadReadDone; rfl⟩
  | gramLoad seq => exact Or.inl ⟨_, fun s => by show execGramLoad seq s = _; unfold execGramLoad; rfl⟩
  | gramUnload seq => exact Or.inl ⟨_, fun s => by show execGramUnload seq s = _; unfold execGramUnload; rfl⟩
  | gramBind seq => exact Or.inl ⟨_, fun s => by show execGramBind seq s = _; unfold execGramBind; rfl⟩
  | samplerSet seq => exact Or.inl ⟨_, fun s => by show execSamplerSet seq s = _; unfold execSamplerSet; rfl⟩
  | sample seq => exact Or.inl ⟨_, fun s => by show execSample seq s = _; unfold execSample; rfl⟩
  | maskGet seq => exact Or.inl ⟨_, fun s => by show execMaskGet seq s = _; unfold execMaskGet; rfl⟩
  | commit seq => exact Or.inl ⟨_, fun s => by show execCommit seq s = _; unfold execCommit; rfl⟩
  | idxCreate seq => exact Or.inl ⟨_, fun s => by show execIdxCreate seq s = _; unfold execIdxCreate; rfl⟩
  | idxDrop seq => exact Or.inl ⟨_, fun s => by show execIdxDrop seq s = _; unfold execIdxDrop; rfl⟩
  | idxInsert seq => exact Or.inl ⟨_, fun s => by show execIdxInsert seq s = _; unfold execIdxInsert; rfl⟩
  | idxDelete seq => exact Or.inl ⟨_, fun s => by show execIdxDelete seq s = _; unfold execIdxDelete; rfl⟩
  | idxSearch seq => exact Or.inl ⟨_, fun s => by show execIdxSearch seq s = _; unfold execIdxSearch; rfl⟩
  | idxMerge seq => exact Or.inl ⟨_, fun s => by show execIdxMerge seq s = _; unfold execIdxMerge; rfl⟩
  | bitmapLoad seq => exact Or.inl ⟨_, fun s => by show execBitmapLoad seq s = _; unfold execBitmapLoad; rfl⟩
  | idxRepair seq => exact Or.inl ⟨_, fun s => by show execIdxRepair seq s = _; unfold execIdxRepair; rfl⟩
  | idxStats seq => exact Or.inl ⟨_, fun s => by show execIdxStats seq s = _; unfold execIdxStats; rfl⟩
  | mergeComplete id => exact Or.inl ⟨_, fun s => by show execMergeComplete id s = _; unfold execMergeComplete; rfl⟩
  | repairPassEnd id => exact Or.inl ⟨_, fun s => by show execRepairPassEnd id s = _; unfold execRepairPassEnd; rfl⟩
  | attachComplete id => exact Or.inl ⟨_, fun s => by show execAttachComplete id s = _; unfold execAttachComplete; rfl⟩
  | flMount seq => exact Or.inl ⟨_, fun s => by show execFlMount seq s = _; unfold execFlMount; rfl⟩
  | flFormat seq => exact Or.inl ⟨_, fun s => by show execFlFormat seq s = _; unfold execFlFormat; rfl⟩
  | flHealth seq => exact Or.inl ⟨_, fun s => by show execFlHealth seq s = _; unfold execFlHealth; rfl⟩
  | flDiscard seq => exact Or.inl ⟨_, fun s => by show execFlDiscard seq s = _; unfold execFlDiscard; rfl⟩
  | flSanitize seq => exact Or.inl ⟨_, fun s => by show execFlSanitize seq s = _; unfold execFlSanitize; rfl⟩
  | flAssign seq => exact Or.inl ⟨_, fun s => by show execFlAssign seq s = _; unfold execFlAssign; rfl⟩
  | formatComplete ok bad => exact Or.inl ⟨_, fun s => by show execFormatComplete ok bad s = _; unfold execFormatComplete; rfl⟩
  | flSanitizeDone ok => exact Or.inl ⟨_, fun s => by show execFlSanitizeDone ok s = _; unfold execFlSanitizeDone; rfl⟩
  | nandReadComplete id ok bits found bad => exact Or.inl ⟨_, fun s => by show execNandReadComplete id ok bits found bad s = _; unfold execNandReadComplete; rfl⟩
  | nandProgramComplete id ok damaged => exact Or.inr (Or.inr (Or.inr ⟨_, fun s => by show execNandProgramComplete id ok damaged s = _; unfold execNandProgramComplete; rfl⟩))
  | nandEraseComplete id ok => exact Or.inl ⟨_, fun s => by show execNandEraseComplete id ok s = _; unfold execNandEraseComplete; rfl⟩
  | nandOpTimeout id dt => exact Or.inr (Or.inr (Or.inr ⟨_, fun s => by show execNandOpTimeout id dt s = _; unfold execNandOpTimeout; rfl⟩))
  | mapCheckpoint => exact Or.inl ⟨_, fun s => by show execMapCheckpoint s = _; unfold execMapCheckpoint; rfl⟩
  | mountComplete recs bad absent => exact Or.inl ⟨_, fun s => by show execMountComplete recs bad absent s = _; unfold execMountComplete; rfl⟩
  | ckptBegin seq => exact Or.inl ⟨_, fun s => by show execCkptBegin seq s = _; unfold execCkptBegin; rfl⟩
  | ckptStatus seq => exact Or.inl ⟨_, fun s => by show execCkptStatus seq s = _; unfold execCkptStatus; rfl⟩
  | ckptDrain seq => exact Or.inl ⟨_, fun s => by show execCkptDrain seq s = _; unfold execCkptDrain; rfl⟩
  | restore seq => exact Or.inl ⟨_, fun s => by show execRestore seq s = _; unfold execRestore; rfl⟩
  | buddyPair seq => exact Or.inl ⟨_, fun s => by show execBuddyPair seq s = _; unfold execBuddyPair; rfl⟩
  | buddyUnpair seq => exact Or.inl ⟨_, fun s => by show execBuddyUnpair seq s = _; unfold execBuddyUnpair; rfl⟩
  | ckptStaged ctx step => exact Or.inl ⟨_, fun s => by show execCkptStaged ctx step s = _; unfold execCkptStaged; rfl⟩
  | hello h m => exact Or.inl ⟨_, fun s => by show execHello h m s = _; unfold execHello; rfl⟩
  | helloAck h m => exact Or.inl ⟨_, fun s => by show execHelloAck h m s = _; unfold execHelloAck; rfl⟩
  | heartbeat h m => exact Or.inl ⟨_, fun s => by show execHeartbeat h m s = _; unfold execHeartbeat; rfl⟩
  | openMsg h m => exact Or.inl ⟨_, fun s => by show execOpenMsg h m s = _; unfold execOpenMsg; rfl⟩
  | grant h m => exact Or.inl ⟨_, fun s => by show execGrant h m s = _; unfold execGrant; rfl⟩
  | sealMsg h m => exact Or.inl ⟨_, fun s => by show execSealMsg h m s = _; unfold execSealMsg; rfl⟩
  | sealed h m => exact Or.inl ⟨_, fun s => by show execSealed h m s = _; unfold execSealed; rfl⟩
  | release h m => exact Or.inl ⟨_, fun s => by show execRelease h m s = _; unfold execRelease; rfl⟩
  | released h m => exact Or.inl ⟨_, fun s => by show execReleased h m s = _; unfold execReleased; rfl⟩
  | find h m => exact Or.inl ⟨_, fun s => by show execFind h m s = _; unfold execFind; rfl⟩
  | found h m => exact Or.inl ⟨_, fun s => by show execFound h m s = _; unfold execFound; rfl⟩
  | shardWriteImmediate h va rkey dmaLen imm payload => exact Or.inl ⟨_, fun s => by show execShardWriteImmediate h va rkey dmaLen imm payload s = _; unfold execShardWriteImmediate; rfl⟩
  | buddyHeartbeatTimer dt => exact Or.inl ⟨_, fun s => by show execBuddyHeartbeatTimer dt s = _; unfold execBuddyHeartbeatTimer; rfl⟩
  | buddyRequestResend req dt => exact Or.inl ⟨_, fun s => by show execBuddyRequestResend req dt s = _; unfold execBuddyRequestResend; rfl⟩
  | buddyLossTimeout dt => exact Or.inl ⟨_, fun s => by show execBuddyLossTimeout dt s = _; unfold execBuddyLossTimeout; rfl⟩
  | partCreate seq => exact Or.inl ⟨_, fun s => by show execPartCreate seq s = _; unfold execPartCreate; rfl⟩
  | partDestroy seq => exact Or.inl ⟨_, fun s => by show execPartDestroy seq s = _; unfold execPartDestroy; rfl⟩
  | partResize seq => exact Or.inl ⟨_, fun s => by show execPartResize seq s = _; unfold execPartResize; rfl⟩
  | partBind seq => exact Or.inl ⟨_, fun s => by show execPartBind seq s = _; unfold execPartBind; rfl⟩
  | rebindSwitch part => exact Or.inl ⟨_, fun s => by show execRebindSwitch part s = _; unfold execRebindSwitch; rfl⟩
  | ctxCreate seq => exact Or.inl ⟨_, fun s => by show execCtxCreate seq s = _; unfold execCtxCreate; rfl⟩
  | ctxDestroy seq => exact Or.inl ⟨_, fun s => by show execCtxDestroy seq s = _; unfold execCtxDestroy; rfl⟩
  | scrub seq => exact Or.inl ⟨_, fun s => by show execScrub seq s = _; unfold execScrub; rfl⟩
  | identityGet seq => exact Or.inl ⟨_, fun s => by show execIdentityGet seq s = _; unfold execIdentityGet; rfl⟩
  | portSet seq => exact Or.inl ⟨_, fun s => by show execPortSet seq s = _; unfold execPortSet; rfl⟩
  | qpCreate seq => exact Or.inl ⟨_, fun s => by show execQpCreate seq s = _; unfold execQpCreate; rfl⟩
  | qpModify seq => exact Or.inl ⟨_, fun s => by show execQpModify seq s = _; unfold execQpModify; rfl⟩
  | qpDestroy seq => exact Or.inl ⟨_, fun s => by show execQpDestroy seq s = _; unfold execQpDestroy; rfl⟩
  | windowOpen seq => exact Or.inl ⟨_, fun s => by show execWindowOpen seq s = _; unfold execWindowOpen; rfl⟩
  | windowClose seq => exact Or.inl ⟨_, fun s => by show execWindowClose seq s = _; unfold execWindowClose; rfl⟩
  | shaperSet seq => exact Or.inl ⟨_, fun s => by show execShaperSet seq s = _; unfold execShaperSet; rfl⟩
  | policerSet seq => exact Or.inl ⟨_, fun s => by show execPolicerSet seq s = _; unfold execPolicerSet; rfl⟩
  | gateListSet seq => exact Or.inl ⟨_, fun s => by show execGateListSet seq s = _; unfold execGateListSet; rfl⟩
  | queueStats seq => exact Or.inl ⟨_, fun s => by show execQueueStats seq s = _; unfold execQueueStats; rfl⟩
  | latencyProbeSet seq => exact Or.inl ⟨_, fun s => by show execLatencyProbeSet seq s = _; unfold execLatencyProbeSet; rfl⟩
  | rdmaWriteReceive h va rkey dmaLen payload => exact Or.inl ⟨_, fun s => by show execRdmaWriteReceive h va rkey dmaLen payload s = _; unfold execRdmaWriteReceive; rfl⟩
  | writeWithImmediate h va rkey dmaLen imm payload => exact Or.inl ⟨_, fun s => by show execWriteWithImmediate h va rkey dmaLen imm payload s = _; unfold execWriteWithImmediate; rfl⟩
  | rdmaReadRequest h va rkey len => exact Or.inl ⟨_, fun s => by show execRdmaReadRequest h va rkey len s = _; unfold execRdmaReadRequest; rfl⟩
  | rdmaReadResponse h payload => exact Or.inl ⟨_, fun s => by show execRdmaReadResponse h payload s = _; unfold execRdmaReadResponse; rfl⟩
  | sendReceive h payload => exact Or.inl ⟨_, fun s => by show execSendReceive h payload s = _; unfold execSendReceive; rfl⟩
  | ackReceive h => exact Or.inl ⟨_, fun s => by show execAckReceive h s = _; unfold execAckReceive; rfl⟩
  | nakReceive h code timerNs => exact Or.inl ⟨_, fun s => by show execNakReceive h code timerNs s = _; unfold execNakReceive; rfl⟩
  | cnpReceive h => exact Or.inl ⟨_, fun s => by show execCnpReceive h s = _; unfold execCnpReceive; rfl⟩
  | pfcFrameReceive sub len quanta => exact Or.inl ⟨_, fun s => by show execPfcFrameReceive sub len quanta s = _; unfold execPfcFrameReceive; rfl⟩
  | arpRequest sub len mac ip target => exact Or.inl ⟨_, fun s => by show execArpRequest sub len mac ip target s = _; unfold execArpRequest; rfl⟩
  | neighborSolicitation sub len mac ip target => exact Or.inl ⟨_, fun s => by show execNeighborSolicitation sub len mac ip target s = _; unfold execNeighborSolicitation; rfl⟩
  | otherFrameReceive sub len fcsOk => exact Or.inl ⟨_, fun s => by show execOtherFrameReceive sub len fcsOk s = _; unfold execOtherFrameReceive; rfl⟩
  | egressFrameStart sub dt => exact Or.inl ⟨_, fun s => by show execEgressFrameStart sub dt s = _; unfold execEgressFrameStart; rfl⟩
  | ackTimeout qpn dt => exact Or.inl ⟨_, fun s => by show execAckTimeout qpn dt s = _; unfold execAckTimeout; rfl⟩
  | rnrRetryExpiry qpn dt => exact Or.inl ⟨_, fun s => by show execRnrRetryExpiry qpn dt s = _; unfold execRnrRetryExpiry; rfl⟩
  | ackCoalesceExpiry qpn dt => exact Or.inl ⟨_, fun s => by show execAckCoalesceExpiry qpn dt s = _; unfold execAckCoalesceExpiry; rfl⟩
  | tIncExpiry qpn dt => exact Or.inl ⟨_, fun s => by show execTIncExpiry qpn dt s = _; unfold execTIncExpiry; rfl⟩
  | shaperRefill dt => exact Or.inl ⟨_, fun s => by show execShaperRefill dt s = _; unfold execShaperRefill; rfl⟩
  | gateEntryExpiry sub dt => exact Or.inl ⟨_, fun s => by show execGateEntryExpiry sub dt s = _; unfold execGateEntryExpiry; rfl⟩
  | gateListTakeover sub dt => exact Or.inl ⟨_, fun s => by show execGateListTakeover sub dt s = _; unfold execGateListTakeover; rfl⟩
  | latencyProbeSample sub dt => exact Or.inl ⟨_, fun s => by show execLatencyProbeSample sub dt s = _; unfold execLatencyProbeSample; rfl⟩
  | pfcPauseExpiry sub cls dt => exact Or.inl ⟨_, fun s => by show execPfcPauseExpiry sub cls dt s = _; unfold execPfcPauseExpiry; rfl⟩
  | pfcXoffRefresh sub cls dt => exact Or.inl ⟨_, fun s => by show execPfcXoffRefresh sub cls dt s = _; unfold execPfcXoffRefresh; rfl⟩
  | pauseHeldTimeout sub cls dt => exact Or.inl ⟨_, fun s => by show execPauseHeldTimeout sub cls dt s = _; unfold execPauseHeldTimeout; rfl⟩
  | portTrainingComplete port up dt => exact Or.inl ⟨_, fun s => by show execPortTrainingComplete port up dt s = _; unfold execPortTrainingComplete; rfl⟩
  | ethLaneFailure port lane corrected uncorrectable => exact Or.inl ⟨_, fun s => by show execEthLaneFailure port lane corrected uncorrectable s = _; unfold execEthLaneFailure; rfl⟩
  | cxlMemRead ld hpa bad => exact Or.inl ⟨_, fun s => by show execCxlMemRead ld hpa bad s = _; unfold execCxlMemRead; rfl⟩
  | cxlMemWrite ld hpa bytes => exact Or.inl ⟨_, fun s => by show execCxlMemWrite ld hpa bytes s = _; unfold execCxlMemWrite; rfl⟩
  | cxlLinkDown => exact Or.inl ⟨_, fun s => by show execCxlLinkDown s = _; unfold execCxlLinkDown; rfl⟩
  | cxlLinkUp width root bound => exact Or.inl ⟨_, fun s => by show execCxlLinkUp width root bound s = _; unfold execCxlLinkUp; rfl⟩
  | cxlHotReset only => exact Or.inl ⟨_, fun s => by show execCxlHotReset only s = _; unfold execCxlHotReset; rfl⟩
  | cxlFlr ld => exact Or.inl ⟨_, fun s => by show execCxlFlr ld s = _; unfold execCxlFlr; rfl⟩
  | cxlLaneFailure => exact Or.inl ⟨_, fun s => by show execCxlLaneFailure s = _; unfold execCxlLaneFailure; rfl⟩
  | busMasterErrorResponse id => exact Or.inl ⟨_, fun s => by show execBusMasterErrorResponse id s = _; unfold execBusMasterErrorResponse; rfl⟩
  | busMasterTimeout id dt => exact Or.inl ⟨_, fun s => by show execBusMasterTimeout id dt s = _; unfold execBusMasterTimeout; rfl⟩
  | identifyMemoryDevice ld => exact Or.inl ⟨_, fun s => by show execIdentifyMemoryDevice ld s = _; unfold execIdentifyMemoryDevice; rfl⟩
  | getHealthInfo ld => exact Or.inl ⟨_, fun s => by show execGetHealthInfo ld s = _; unfold execGetHealthInfo; rfl⟩
  | getAlertConfiguration ld => exact Or.inl ⟨_, fun s => by show execGetAlertConfiguration ld s = _; unfold execGetAlertConfiguration; rfl⟩
  | setAlertConfiguration ld valid enable life temp => exact Or.inl ⟨_, fun s => by show execSetAlertConfiguration ld valid enable life temp s = _; unfold execSetAlertConfiguration; rfl⟩
  | getEventRecords ld log => exact Or.inl ⟨_, fun s => by show execGetEventRecords ld log s = _; unfold execGetEventRecords; rfl⟩
  | clearEventRecords ld log all handles => exact Or.inl ⟨_, fun s => by show execClearEventRecords ld log all handles s = _; unfold execClearEventRecords; rfl⟩
  | getEventInterruptPolicy ld => exact Or.inl ⟨_, fun s => by show execGetEventInterruptPolicy ld s = _; unfold execGetEventInterruptPolicy; rfl⟩
  | setEventInterruptPolicy ld policy => exact Or.inl ⟨_, fun s => by show execSetEventInterruptPolicy ld policy s = _; unfold execSetEventInterruptPolicy; rfl⟩
  | getSupportedLogs ld => exact Or.inl ⟨_, fun s => by show execGetSupportedLogs ld s = _; unfold execGetSupportedLogs; rfl⟩
  | getLog ld uuid first len => exact Or.inl ⟨_, fun s => by show execGetLog ld uuid first len s = _; unfold execGetLog; rfl⟩
  | getPoisonList ld start len => exact Or.inl ⟨_, fun s => by show execGetPoisonList ld start len s = _; unfold execGetPoisonList; rfl⟩
  | sanitize ld => exact Or.inl ⟨_, fun s => by show execSanitize ld s = _; unfold execSanitize; rfl⟩
  | mailboxSanitizeDone ld => exact Or.inl ⟨_, fun s => by show execMailboxSanitizeDone ld s = _; unfold execMailboxSanitizeDone; rfl⟩
  | getFwInfo who => exact Or.inl ⟨_, fun s => by show execGetFwInfo who s = _; unfold execGetFwInfo; rfl⟩
  | transferFw who action slot first data => exact Or.inl ⟨_, fun s => by show execTransferFw who action slot first data s = _; unfold execTransferFw; rfl⟩
  | activateFw who slot => exact Or.inl ⟨_, fun s => by show execActivateFw who slot s = _; unfold execActivateFw; rfl⟩
  | getLdInfo => exact Or.inl ⟨_, fun s => by show execGetLdInfo s = _; unfold execGetLdInfo; rfl⟩
  | getLdAllocations start count => exact Or.inl ⟨_, fun s => by show execGetLdAllocations start count s = _; unfold execGetLdAllocations; rfl⟩
  | setLdAllocations start ranges => exact Or.inl ⟨_, fun s => by show execSetLdAllocations start ranges s = _; unfold execSetLdAllocations; rfl⟩
  | getQosControl => exact Or.inl ⟨_, fun s => by show execGetQosControl s = _; unfold execGetQosControl; rfl⟩
  | setQosControl qos => exact Or.inl ⟨_, fun s => by show execSetQosControl qos s = _; unfold execSetQosControl; rfl⟩
  | getQosStatus => exact Or.inl ⟨_, fun s => by show execGetQosStatus s = _; unfold execGetQosStatus; rfl⟩
  | getQosAllocatedBw start count => exact Or.inl ⟨_, fun s => by show execGetQosAllocatedBw start count s = _; unfold execGetQosAllocatedBw; rfl⟩
  | setQosAllocatedBw start fractions => exact Or.inl ⟨_, fun s => by show execSetQosAllocatedBw start fractions s = _; unfold execSetQosAllocatedBw; rfl⟩
  | getQosBwLimit start count => exact Or.inl ⟨_, fun s => by show execGetQosBwLimit start count s = _; unfold execGetQosBwLimit; rfl⟩
  | setQosBwLimit start fractions => exact Or.inl ⟨_, fun s => by show execSetQosBwLimit start fractions s = _; unfold execSetQosBwLimit; rfl⟩
  | tunnelSubmit entry block => exact Or.inl ⟨_, fun s => by show execTunnelSubmit entry block s = _; unfold execTunnelSubmit; rfl⟩
  | tunnelCollect tag => exact Or.inl ⟨_, fun s => by show execTunnelCollect tag s = _; unfold execTunnelCollect; rfl⟩
  | tunnelEvents want => exact Or.inl ⟨_, fun s => by show execTunnelEvents want s = _; unfold execTunnelEvents; rfl⟩
  | tunnelSubmitExpiry submit dt => exact Or.inl ⟨_, fun s => by show execTunnelSubmitExpiry submit dt s = _; unfold execTunnelSubmitExpiry; rfl⟩
  | doeDiscovery who index => exact Or.inl ⟨_, fun s => by show execDoeDiscovery who index s = _; unfold execDoeDiscovery; rfl⟩
  | cdatTableAccess who handle => exact Or.inl ⟨_, fun s => by show execCdatTableAccess who handle s = _; unfold execCdatTableAccess; rfl⟩
  | getVersion who req => exact Or.inl ⟨_, fun s => by show execGetVersion who req s = _; unfold execGetVersion; rfl⟩
  | getCapabilities who req => exact Or.inl ⟨_, fun s => by show execGetCapabilities who req s = _; unfold execGetCapabilities; rfl⟩
  | negotiateAlgorithms who req => exact Or.inl ⟨_, fun s => by show execNegotiateAlgorithms who req s = _; unfold execNegotiateAlgorithms; rfl⟩
  | getDigests who req => exact Or.inl ⟨_, fun s => by show execGetDigests who req s = _; unfold execGetDigests; rfl⟩
  | getCertificate who req => exact Or.inl ⟨_, fun s => by show execGetCertificate who req s = _; unfold execGetCertificate; rfl⟩
  | challenge who req => exact Or.inl ⟨_, fun s => by show execChallenge who req s = _; unfold execChallenge; rfl⟩
  | getMeasurements who req => exact Or.inl ⟨_, fun s => by show execGetMeasurements who req s = _; unfold execGetMeasurements; rfl⟩
  | repairLoad seq => exact Or.inl ⟨_, fun s => by show execRepairLoad seq s = _; unfold execRepairLoad; rfl⟩
  | repairReport seq => exact Or.inl ⟨_, fun s => by show execRepairReport seq s = _; unfold execRepairReport; rfl⟩
  | selftest seq => exact Or.inl ⟨_, fun s => by show execSelftest seq s = _; unfold execSelftest; rfl⟩
  | calibrate seq => exact Or.inl ⟨_, fun s => by show execCalibrate seq s = _; unfold execCalibrate; rfl⟩
  | quiesce seq => exact Or.inl ⟨_, fun s => by show execQuiesce seq s = _; unfold execQuiesce; rfl⟩
  | resume seq => exact Or.inl ⟨_, fun s => by show execResume seq s = _; unfold execResume; rfl⟩
  | refetchComplete id ok hard pages => exact Or.inl ⟨_, fun s => by show execRefetchComplete id ok hard pages s = _; unfold execRefetchComplete; rfl⟩
  | selftestTestComplete cluster pos pass dt => exact Or.inl ⟨_, fun s => by show execSelftestTestComplete cluster pos pass dt s = _; unfold execSelftestTestComplete; rfl⟩
  | ucieLaneFailure link mod lane => exact Or.inl ⟨_, fun s => by show execUcieLaneFailure link mod lane s = _; unfold execUcieLaneFailure; rfl⟩
  | pwrgdAssert ns => exact Or.inr (Or.inr (Or.inr ⟨_, fun s => by show execPwrgdAssert ns s = _; unfold execPwrgdAssert; rfl⟩))
  | pwrgdDeassert ns => exact Or.inr (Or.inr (Or.inr ⟨_, fun s => by show execPwrgdDeassert ns s = _; unfold execPwrgdDeassert; rfl⟩))
  | perstNAssert ns => exact Or.inr (Or.inr (Or.inr ⟨_, fun s => by show execPerstNAssert ns s = _; unfold execPerstNAssert; rfl⟩))
  | perstNDeassert => exact Or.inr (Or.inr (Or.inr ⟨_, fun s => by show execPerstNDeassert s = _; unfold execPerstNDeassert; rfl⟩))
  | pwrfailNAssert ns => exact Or.inr (Or.inr (Or.inr ⟨_, fun s => by show execPwrfailNAssert ns s = _; unfold execPwrfailNAssert; rfl⟩))
  | railUndervoltage ns => exact Or.inr (Or.inr (Or.inr ⟨_, fun s => by show execRailUndervoltage ns s = _; unfold execRailUndervoltage; rfl⟩))
  | identityDerived => exact Or.inl ⟨_, fun s => by show execIdentityDerived s = _; unfold execIdentityDerived; rfl⟩
  | firmwareStarted => exact Or.inl ⟨_, fun s => by show execFirmwareStarted s = _; unfold execFirmwareStarted; rfl⟩
  | bootSelftestDone defects logicFail noSlots noUnits => exact Or.inl ⟨_, fun s => by show execBootSelftestDone defects logicFail noSlots noUnits s = _; unfold execBootSelftestDone; rfl⟩
  | trainingDone modules mts granules nand failed => exact Or.inl ⟨_, fun s => by show execTrainingDone modules mts granules nand failed s = _; unfold execTrainingDone; rfl⟩
  | throtNAssert ns => exact Or.inl ⟨_, fun s => by show execThrotNAssert ns s = _; unfold execThrotNAssert; rfl⟩
  | throtNRelease => exact Or.inl ⟨_, fun s => by show execThrotNRelease s = _; unfold execThrotNRelease; rfl⟩
  | powerSample dt watts => exact Or.inl ⟨_, fun s => by show execPowerSample dt watts s = _; unfold execPowerSample; rfl⟩
  | throttleRequestExpiry dt => exact Or.inl ⟨_, fun s => by show execThrottleRequestExpiry dt s = _; unfold execThrottleRequestExpiry; rfl⟩
  | thermalTrip sensor temp => exact Or.inr (Or.inr (Or.inr ⟨_, fun s => by show execThermalTrip sensor temp s = _; unfold execThermalTrip; rfl⟩))
  | thermalHistoryTick dt => exact Or.inl ⟨_, fun s => by show execThermalHistoryTick dt s = _; unfold execThermalHistoryTick; rfl⟩
  | countersRead seq => exact Or.inl ⟨_, fun s => by show execCountersRead seq s = _; unfold execCountersRead; rfl⟩
  | logRead seq => exact Or.inl ⟨_, fun s => by show execLogRead seq s = _; unfold execLogRead; rfl⟩
  | eventMask seq => exact Or.inl ⟨_, fun s => by show execEventMask seq s = _; unfold execEventMask; rfl⟩
  | thermalHistory seq => exact Or.inl ⟨_, fun s => by show execThermalHistory seq s = _; unfold execThermalHistory; rfl⟩
  | deviceInfo seq => exact Or.inl ⟨_, fun s => by show execDeviceInfo seq s = _; unfold execDeviceInfo; rfl⟩
  | configSet seq => exact Or.inl ⟨_, fun s => by show execConfigSet seq s = _; unfold execConfigSet; rfl⟩
  | configGet seq => exact Or.inl ⟨_, fun s => by show execConfigGet seq s = _; unfold execConfigGet; rfl⟩
  | unitDescriptorComplete core unit => exact Or.inl ⟨_, fun s => by show execUnitDescriptorComplete core unit s = _; unfold execUnitDescriptorComplete; rfl⟩
  | ingressBufferDrain sub => exact Or.inl ⟨_, fun s => by show execIngressBufferDrain sub s = _; unfold execIngressBufferDrain; rfl⟩
  | qpPacerRelease qpn dt => exact Or.inl ⟨_, fun s => by show execQpPacerRelease qpn dt s = _; unfold execQpPacerRelease; rfl⟩
  | msixTableWrite ld vec addr data masked => exact Or.inl ⟨_, fun s => by show execMsixTableWrite ld vec addr data masked s = _; unfold execMsixTableWrite; rfl⟩
  | hdmDecoderCommit ld idx base size => exact Or.inl ⟨_, fun s => by show execHdmDecoderCommit ld idx base size s = _; unfold execHdmDecoderCommit; rfl⟩
  | configSpaceWrite ld reg value => exact Or.inl ⟨_, fun s => by show execConfigSpaceWrite ld reg value s = _; unfold execConfigSpaceWrite; rfl⟩
  | pwrfailNDeassert => exact Or.inr (Or.inr (Or.inr ⟨_, fun s => by show execPwrfailNDeassert s = _; unfold execPwrfailNDeassert; rfl⟩))
  | busMasterReadComplete id bytes => exact Or.inl ⟨_, fun s => by show execBusMasterReadComplete id bytes s = _; unfold execBusMasterReadComplete; rfl⟩

theorem onDev_frame (f : Dev → Dev) (s : State) : ∃ d, onDev f s = .next { s with dev := d } := ⟨_, rfl⟩

theorem onLen_frame (f : Nat → Dev → Dev) (s : State) : ∃ d, onLen f s = .next { s with dev := d } := ⟨_, rfl⟩

theorem onGrid_frame (f : Grid → Dev → Grid × Dev) (s : State) : ∃ g d, onGrid f s = .next { s with grid := g, dev := d } := by
  unfold onGrid
  split
  · exact ⟨_, _, rfl⟩
  · exact ⟨s.grid, s.dev, rfl⟩

theorem onPower_frame (f : Dev → Dev) (s : State) : ∃ g d, onPower f s = .next { s with grid := g, dev := d } := ⟨_, _, rfl⟩

/-- What any command does to the state: a next state, with the queue as it was. -/
theorem exec_frame (c : Instr) (s : State) : ∃ g d, exec c s = .next { s with grid := g, dev := d } := by
  rcases exec_shape c with ⟨f, h⟩ | ⟨f, h⟩ | ⟨f, h⟩ | ⟨f, h⟩
  · exact ⟨s.grid, _, h s⟩
  · exact ⟨s.grid, _, h s⟩
  · rw [h s]
    exact onGrid_frame _ s
  · exact ⟨_, _, h s⟩

end Sys2Proof.Machine
end

