-- ==== Sys2Proof/Laws/Verbs.lean ====
section
/-!
SUPPORT. What a command of the device and the command of a verb can do, said once: onDev, runVerb, the checks, and how VerbDoes and Does follow.
-/

namespace Sys2Proof.Machine

theorem onDev_answers (f : Dev → Dev) (s : State) (h : answering s.dev = true) : onDev f s = .next { s with dev := f s.dev } := by
  simp [onDev, h]

theorem onDev_silent (f : Dev → Dev) (s : State) (h : answering s.dev = false) : onDev f s = .next s := by
  simp [onDev, h]

theorem onLen_eq (f : Nat → Dev → Dev) (s : State) : onLen f s = onDev (f s.grid.lenUs) s := rfl

theorem verbRuns_iff (op seq : Nat) (v : Verb) (s : State) : verbRuns op seq v s = true ↔
    findVerb s.dev seq = some v ∧ v.op = op ∧ v.running = false ∧ answering s.dev = true ∧ serving s.dev = true ∧ mayStart s.dev v = true := by
  simp [verbRuns, and_assoc]

/-- A verb whose checks pass leaves the device that its body answers. -/
theorem runVerb_ok {op seq : Nat} {v : Verb} {s : State} {body : Verb → Dev → Except Fail Dev} {d : Dev}
    (h : verbRuns op seq v s = true) (hb : body v (startVerb s.dev v) = .ok d) : runVerb op seq body s.dev = d := by
  obtain ⟨h1, h2, h3, -, h5, h6⟩ := (verbRuns_iff _ _ _ _).1 h
  simp [runVerb, h1, h2, h3, h5, h6, hb]

/-- A verb whose check fails completes as the check says, and does nothing else. -/
theorem runVerb_error {op seq : Nat} {v : Verb} {s : State} {body : Verb → Dev → Except Fail Dev} {f : Fail}
    (h : verbRuns op seq v s = true) (hb : body v (startVerb s.dev v) = .error f) :
    runVerb op seq body s.dev = finishFail (startVerb s.dev v) v f := by
  obtain ⟨h1, h2, h3, -, h5, h6⟩ := (verbRuns_iff _ _ _ _).1 h
  simp [runVerb, h1, h2, h3, h5, h6, hb]

theorem verbRuns_answering {op seq : Nat} {v : Verb} {s : State} (h : verbRuns op seq v s = true) : answering s.dev = true :=
  ((verbRuns_iff _ _ _ _).1 h).2.2.2.1

theorem passes_iff {α : Type} (x : Except Fail α) : passes x = true ↔ ∃ a, x = .ok a := by
  cases x <;> simp [passes]

theorem meetsNoFault_iff (x : Except Nat Dev) : meetsNoFault x = true ↔ ∃ d, x = .ok d := by
  cases x <;> simp [meetsNoFault]

theorem verbDoes_of {mk : Nat → Instr} {op : Nat} {body : Verb → Dev → Except Fail Dev} {wrap : Dev → Dev} {post : Verb → Dev → Dev → Prop}
    (hx : ∀ s seq, exec (mk seq) s = onDev (fun d => wrap (runVerb op seq body d)) s) (hp : ∀ v a d, body v a = .ok d → post v a d) :
    VerbDoes mk op body wrap post := by
  intro s seq v h hb
  obtain ⟨d, hb⟩ := (passes_iff _).1 hb
  refine ⟨d, ?_, hb, hp _ _ _ hb⟩
  rw [hx, onDev_answers _ _ (verbRuns_answering h), runVerb_ok h hb]

/-- What the command of a verb does where a check fails. -/
theorem verbFails_of {mk : Nat → Instr} {op : Nat} {body : Verb → Dev → Except Fail Dev} {wrap : Dev → Dev}
    (hx : ∀ s seq, exec (mk seq) s = onDev (fun d => wrap (runVerb op seq body d)) s) : VerbFails mk op body wrap := by
  intro s seq v f h hb
  rw [hx, onDev_answers _ _ (verbRuns_answering h), runVerb_error h hb]

theorem does_of {c : Instr} {pre : Dev → Prop} {post : Dev → Dev → Prop} (f : Dev → Dev) (hx : ∀ s, exec c s = onDev f s)
    (hp : ∀ a, answering a = true → pre a → post a (f a)) : Does c pre post := by
  intro s h hpre
  exact ⟨f s.dev, by rw [hx, onDev_answers _ _ h], hp _ h hpre⟩

theorem descRuns_facts {op n : Nat} {c : Core} {x : Nat} {d : Dev} (h : descRuns op n c x d = true) :
    findCore d n = some c ∧ c.ended = false ∧ c.wait = 0 ∧ x = coreDesc c ∧ df x 0 1 = op ∧ condHolds c x = true := by
  simpa [descRuns, and_assoc] using h

/-- A descriptor that its core may run and that meets no fault leaves the device that its body answers. -/
theorem runDesc_ok {op n : Nat} {body : Core → Nat → Dev → Except Nat Dev} {c : Core} {x : Nat} {d d' : Dev}
    (h : descRuns op n c x d = true) (hb : body c x d = .ok d') : runDesc op n body d = d' := by
  obtain ⟨h1, h2, h3, rfl, h5, h6⟩ := descRuns_facts h
  simp [runDesc, h1, h2, h3, h5, h6, hb]

theorem descDoes_of {mk : Nat → Instr} {op : Nat} {body : Core → Nat → Dev → Except Nat Dev} {post : Core → Nat → Dev → Dev → Prop}
    (hx : ∀ s n, exec (mk n) s = onDev (fun d => settleJobs (coreRow op n body d)) s) (hp : ∀ c x a d, body c x a = .ok d → post c x a d) :
    DescDoes mk op body post := by
  intro s n c x ha h hb
  obtain ⟨d, hb⟩ := (meetsNoFault_iff _).1 hb
  refine ⟨d, ?_, hb, hp _ _ _ _ hb⟩
  rw [hx, onDev_answers _ _ ha, coreRow, runDesc_ok h hb]
  rfl

@[simp] theorem need_ok (st : Nat) (b : Bool) : need st b = .ok () ↔ b = true := by
  cases b <;> simp [need, failSt]

@[simp] theorem needRange_ok (off : Nat) (b : Bool) : needRange off b = .ok () ↔ b = true := by
  cases b <;> simp [needRange, failRange]

theorem bind_ok {α β : Type} {x : Except Fail α} {f : α → Except Fail β} {b : β} : (x >>= f) = .ok b ↔ ∃ a, x = .ok a ∧ f a = .ok b := by
  cases x <;> simp [bind, Except.bind]

@[simp] theorem failSt_ne {α : Type} (st : Nat) (x : α) : (failSt st : Except Fail α) = .ok x ↔ False := by simp [failSt]
@[simp] theorem failId_ne {α : Type} (st off : Nat) (x : α) : (failId st off : Except Fail α) = .ok x ↔ False := by simp [failId]
@[simp] theorem failRange_ne {α : Type} (off : Nat) (x : α) : (failRange off : Except Fail α) = .ok x ↔ False := by simp [failRange]
@[simp] theorem failWith_ne {α : Type} (st : Nat) (fs : List (Nat × Nat × Nat)) (x : α) : (failWith st fs : Except Fail α) = .ok x ↔ False := by
  simp [failWith]

theorem failSt_ite {α : Type} (st : Nat) (p : Prop) [Decidable p] (x : Except Fail α) (y : α) :
    (if p then failSt st else x) = .ok y ↔ ¬p ∧ x = .ok y := by
  by_cases h : p <;> simp [h]

theorem failRange_ite {α : Type} (off : Nat) (p : Prop) [Decidable p] (x : Except Fail α) (y : α) :
    (if p then failRange off else x) = .ok y ↔ ¬p ∧ x = .ok y := by
  by_cases h : p <;> simp [h]

end Sys2Proof.Machine
end

