-- ==== Sys2Proof/Tests/Base.lean ====
section
/-!
SUPPORT. A small READY device for the tests and witnesses, and the verbs, cores and packets that they put before it.
-/

namespace Sys2Proof.Tests

open Sys2Proof Sys2Proof.Machine

/-- A submission entry from its fields: (offset, value). -/
def entryOf (fs : List (Nat × Nat)) : Entry := BitVec.ofNat 512 (fs.foldl (fun a f => a + f.2 * 2 ^ (8 * f.1)) 0)

/-- A verb accepted as number 9 on the admin ring of LD 0. -/
def verbOf (op : Nat) (fs : List (Nat × Nat)) : Verb :=
  { seq := 9, ring := 0, op := op, entry := entryOf ((0, op) :: fs), block := [], blockEnd := 0, submit := 0, ld := 0, part := 0, ctx := 0
    admin := true, accClause := 10, accTime := 0, started := none, running := false, event := false }

def stateOf (d : Dev) : State := { State.reset with dev := d }

def withVerb (d : Dev) (v : Verb) : Dev := { d with tur.verbs := d.tur.verbs ++ [v] }

/-- The verb may run and its checks pass. -/
def runsV (d : Dev) (body : Verb → Dev → Except Fail Dev) (v : Verb) : Bool :=
  verbRuns v.op v.seq v (stateOf (withVerb d v)) && passes (body v (startVerb (withVerb d v) v))

/-- The verb of opcode `op` with the fields `fs` may run and its checks pass. -/
def runs (d : Dev) (op : Nat) (body : Verb → Dev → Except Fail Dev) (fs : List (Nat × Nat)) : Bool := runsV d body (verbOf op fs)

/-- What `runs` says: the hypotheses of a verb's statement. -/
theorem runs_holds {d : Dev} {op : Nat} {body : Verb → Dev → Except Fail Dev} {fs : List (Nat × Nat)} (h : runs d op body fs = true) :
    verbRuns op 9 (verbOf op fs) (stateOf (withVerb d (verbOf op fs))) = true ∧
      ∃ e, body (verbOf op fs) (startVerb (stateOf (withVerb d (verbOf op fs))).dev (verbOf op fs)) = .ok e := by
  simp only [runs, runsV, Bool.and_eq_true] at h
  refine ⟨h.1, ?_⟩
  cases hb : body (verbOf op fs) (startVerb (withVerb d (verbOf op fs)) (verbOf op fs)) with
  | ok e => exact ⟨e, hb⟩
  | error f => simp [hb, passes] at h

/-- The verb may run and a check fails. -/
def failsV (d : Dev) (op : Nat) (body : Verb → Dev → Except Fail Dev) (fs : List (Nat × Nat)) : Bool :=
  verbRuns op 9 (verbOf op fs) (stateOf (withVerb d (verbOf op fs))) && !passes (body (verbOf op fs) (startVerb (withVerb d (verbOf op fs)) (verbOf op fs)))

/-- Bytes from their fields: (offset, length, value), `n` in all. -/
def bytesOf (n : Nat) (fs : List (Nat × Nat × Nat)) : List Byte :=
  fs.foldl (fun a f => putBytes a f.1 (natLe f.2.2 f.2.1)) (List.replicate n 0)

/-- The admin ring of LD 0. -/
def ring0 : Ring :=
  { num := 0, ld := 0, part := 0, ctx := 0, sqOff := 0x1000, cqOff := 0x2000, depthLog2 := 6, prio := 0, vector := 0xFFFF, sqHead := 0, sqTail := 0
    cqHead := 0, cqTail := 0, phase := true, done := 0, inFlight := 1, faultCause := 0, fault := false, halted := false, enabled := true
    admin := true, stopped := false, holding := false, held := [] }

/-- Partition 0, bound to LD 0: 8 HBM granules on each of two stacks and 4 of DDR. -/
def part0 : Part :=
  { num := 0, bound := some 0, groups := 1, hbm := (List.range 8).flatMap (fun g => [(0, g), (1, g)]), ddr := [0, 1, 2, 3], slots := 8
    lexicons := 2, grammars := 4, ports := 15, signed := false, qps := 8, windows := 4, ownerKey := [], keyId := [], digest := List.replicate 64 0
    log := [], logNext := 0, logBase := List.replicate 64 0, phraseNext := 1, joining := 0, ending := false }

def ctx0 : Ctx := { id := 0, share := 1, deficit := 0, ending := false }

/-- A layer that stores: both storage kinds absent but for the stem. -/
def layer0 : LayerRec :=
  { kind := 0, norm := 0, posMode := 0, inflect := 0, sL := 32, sP := 0, h := 0, stemFmt := 1, directFmt := 0, dD := 0, pD := 0, qh := 1, dqk := 32
    dv := 32, absorbMax := 0, scale := 0x3F800000, eps := 0x3F800000, kIn := 0, kAtt := 0, kOut := 0, rh := 0, rk := 0, rv := 0, thin := 0
    thinMax := 0, weightsOff := 0, weightsKib := 4 }

def kernel0 : Kernel :=
  { id := 0, part := 0, digest := List.replicate 64 0, descs := [0x7F], names := [], sems := 0, gangLog2 := 0, caps := 1, tsBytes := 0, csBytes := 0
    semScopes := 0, bytes := 384, poison := [], damaged := [] }

def model0 : Model :=
  { id := 0, part := 0, hidden := 256, layers := [layer0], digest := List.replicate 64 0, weights := [], pins := [], poison := [], damaged := [] }

/-- Session 0 of context 0 with a token log of 4, ACTIVE in slot 0. -/
def sess0 : Sess := { newSess 0 1 1 0 0 0 0 [layer0] with log := [1, 2, 3, 4] }

/-- A lexicon of one special token, its unknown token. -/
def lexImage : List Byte :=
  bytesOf 112 [(0, 4, 1), (4, 4, 1), (12, 4, 2 ^ 31), (16, 8, 64), (24, 8, 72), (32, 8, 1), (40, 8, 80), (48, 8, 112), (64, 8, 2 ^ 32 + 2 ^ 24), (72, 1, 0x41)]

def lex0 : Lexicon := { id := 0, part := 0, digest := List.replicate 16 0, units := 1, img := lexImage, damaged := [] }

/-- A grammar of one state over 4 tokens that allows none. -/
def gramImage : List Byte :=
  bytesOf 192 [(0, 4, 1), (4, 2, 1), (8, 4, 4), (12, 4, 1), (24, 8, 64), (32, 8, 128), (40, 8, 192), (48, 8, 192), (56, 8, 192), (68, 4, 0xFFFFFFFF)]

def gram0 : Grammar := { id := 0, part := 0, digest := List.replicate 16 0, img := gramImage, damaged := [] }

/-- An index of 16 FP32 vectors of 4 elements, READY, on LPN 0. -/
def ixParams : List Byte :=
  bytesOf 64 [(0, 1, 1), (2, 1, 1), (3, 1, 4), (4, 2, 4), (6, 2, 1), (8, 8, 16), (16, 2, 16)]

def index0 : Index :=
  { id := 0, part := 0, ctx := 0, params := ixParams, codebook := [], tag := 1, lpn := 0, pages := ixPages ixParams, rs := ixRs ixParams
    ddr := ixDdr ixParams, epoch := 0, parity := 0, state := 0, entry := none, nodes := [], items := [], pq := [], side := [], maps := []
    job := none, writer := none, lostSeen := [], dropSeq := none }

/-- A device that is READY, linked and in clause 10, with one partition, one context, one kernel, one model and one session. -/
def ready : Dev :=
  { freshDev with
    boot := { freshBoot with stage := 8, inReset := false, pwrgdSeen := true, pwrgd := true, perstLow := false, bootDone := true, ddrChannels := 12 }
    clk := { freshClk with started := true, count := 10, start := 500000, nominal := 500000 }
    tim := { freshTim with elapsed := 500000, now := 500000 }
    tur := { freshTuruk with rings := [ring0], nextSeq := 10 }
    cxl := { freshCxl with width := 16 }
    pool := { freshPool with
      parts := [part0], ctxs := [ctx0], ddrGranules := 64
      owners := [(0x0F, 0, 0), (1, 0, 0), (6, 0, 0), (7, 0, 0), (0x20, 0, 0)] }
    kv := { freshKv with cat := [sess0], models := [model0] }
    arr := { freshArr with kernels := [kernel0] } }

def idxJob0 : IdxJob :=
  { kind := 1, ring := 0, tag := 0, op := 0x0706, cut := 0, done := 0, total := 0, merged := 0, pass := false, old := 0, sweep := 0, stop := false
    linking := none }

/-- Bytes laid into the exchange area of LD 0, above those that it holds. -/
def laid (d : Dev) (off : Nat) (bs : List Byte) : Dev :=
  { d with exch := d.exch ++ ((List.range bs.length).zip bs).filterMap (fun x => if x.2 = 0 then none else some (off + x.1, x.2)) }

/-- The READY device with a lexicon, a grammar, an index, and mounted flash of which partition 0 holds one granule. -/
def ready2 : Dev :=
  { ready with
    pool.owners := ready.pool.owners ++ [(8, 0, 0), (9, 0, 0), (10, 0, 0), (0x0D, 0, 0), (0x0E, 0, 0)]
    lexicons := [lex0]
    grammars := [gram0]
    indexes := [index0]
    flash := { freshFlash with state := 1, formatted := true, sparePct := 7, granules := 64, assigned := [(0, 0, 0)] } }

/-- Index 0 of mode `m` with the background job `j`. -/
def indexed (m : Nat) (j : Option IdxJob) : Dev := { ready2 with indexes := [{ index0 with params := putBytes ixParams 0 (natLe m 1), job := j }] }

/-- A context ring of context 0. -/
def ring17 : Ring := { ring0 with num := 17, admin := false, sqOff := 0x10000, cqOff := 0x11000, inFlight := 0 }

def sub0 : SubPort := { freshSub 0 with up := true, mac := 2, ipv4 := 10, ipv6 := 11 }

def port0 : EPort := { freshPort 0 with configured := true, state := 2 }

/-- Context 0's QP, in RTS. -/
def qp0 : Qp := { newQp ready 16384 (some 0) 0 0 0 1024 0 0 100 with state := 1, expPsn := 5 }

/-- The QP of the buddy port. -/
def qpB : Qp := { newQp ready 16385 none 0 0 0 4096 0 0 100 with state := 1, expPsn := 5 }

def window0 : Window :=
  { id := 0, part := 0, ctx := 0, qpn := 16384, size := 65536, va := 0x10000, rkey := 7, cq := false, ret := false, readOk := true, prio := 0
    ring := 17, raddr := 0, rrkey := 0, closed := false, closing := none, done := 0, returned := [] }

def buddyPort0 : BuddyPort := { sub := 0, qpn := 16385, tclass := 0, connected := true, connecting := none }

/-- A checkpoint of context 0 that is STAGED, of no shards. -/
def ckpt0 : Ckpt :=
  { ctx := 0, step := 1, lpart := 0, state := 1, mirrored := false, durable := false, hosted := false, signed := false, full := false
    mirrorFailed := false, clause := 0, time := 0, sessions := 0, omitted := 0, damaged := 0, jobs := 0, shards := [], refs := [], signature := []
    mirror := 0, mirrorOff := 0, mirrorSent := [], region := none, regionPages := 0, writtenFlash := [], sealedFlash := false, drainWaits := []
    hosts := [], freed := false }

/-- The READY device with a trained port, a QP, a window, a buddy port whose partner is device 5, a context ring and a checkpoint. -/
def ready3 : Dev :=
  { ready with
    pool.owners := ready.pool.owners ++ [(0x0D, 0, 0), (0x0E, 0, 0)]
    tur.rings := [ring0, ring17]
    net := { freshNet with ports := port0 :: (List.range 3).map (fun n => freshPort (n + 1)), subs := sub0 :: (List.range 15).map (fun n => freshSub (n + 1))
                           qps := [qp0, qpB], windows := [window0] }
    buddy := { freshBuddy with area := some 4, ports := [buddyPort0], peer := some 5, rkey := 9 }
    ckpts := [ckpt0] }

/-- The same with the first `n` bytes at offset 0x4000 of the exchange area. -/
def laid4 (d : Dev) (n : Nat) (fs : List (Nat × Nat × Nat)) : Dev := laid d 0x4000 (bytesOf n fs)

/-- The device answers and the condition holds: the hypotheses of a statement on a command of the device itself. -/
def on (d : Dev) (b : Bool) : Bool := answering d && b

/-- The head of a packet for QP `n` that is in order. -/
def headOf (n : Nat) : RxHead :=
  { sub := 0, len := 100, fcsOk := true, icrcOk := true, tagged := false, pcp := 0, dscp := 0, ce := false, qpn := n, psn := 5, first := true, last := true
    ackReq := true }

/-- A control message of the buddy link, of mirror `step` of serial number `ser`. -/
def msgOf (k ser step size : Nat) : List Byte := bytesOf 128 [(0, 1, k), (8, 8, ser), (16, 8, step), (40, 8, size)]

def arrived (h : RxHead) (a : Dev) : Option (Qp × Dev) :=
  match rxPacket a h with
  | (some q, b) => if psnPlace q h.psn = 0 then some (q, ceSeen b q h) else none
  | (none, _) => none

def msgArrived (k : Nat) (h : RxHead) (m : List Byte) (a : Dev) : Option (BuddyPort × Dev) :=
  match arrived h a with
  | some (q, c) =>
    if q.part = none ∧ msgType m = k then
      ((takeInOrder c q.qpn 1 h).buddy.ports.find? (fun x => x.qpn == q.qpn)).map
        (fun p => (p, takeInOrder c q.qpn 1 h))
    else none
  | none => none

theorem arrives_of_arrived {h : RxHead} {a b : Dev} {q : Qp} (e : arrived h a = some (q, b)) : arrives h a q b := by
  unfold arrived at e
  split at e
  · rename_i q0 b0 hr
    split at e
    · simp only [Option.some.injEq, Prod.mk.injEq] at e
      obtain ⟨rfl, rfl⟩ := e
      exact ⟨b0, hr, ‹_›, rfl⟩
    · cases e
  · cases e

theorem msgArrives_of_msgArrived {k : Nat} {h : RxHead} {m : List Byte} {a b : Dev} {p : BuddyPort} (e : msgArrived k h m a = some (p, b)) :
    msgArrives k h m a p b := by
  unfold msgArrived at e
  split at e
  · rename_i q c hq
    split at e
    · rename_i hc
      simp only [Option.map_eq_some_iff, Prod.mk.injEq] at e
      obtain ⟨x, hx, rfl, rfl⟩ := e
      exact ⟨q, c, arrives_of_arrived hq, hc.1, hc.2, hx, rfl⟩
    · cases e
  · cases e

end Sys2Proof.Tests
end

