-- ==== Sys2Proof/Tests/Cores.lean ====
section
/-!
SUPPORT. Witnesses for the statements about cores and jobs, and for those about the whole block.
-/

namespace Sys2Proof.Tests

open Sys2Proof Sys2Proof.Machine

set_option Elab.async false

/-- A descriptor from its fields: (offset, value). -/
def descOf (fs : List (Nat × Nat)) : Nat := fs.foldl (fun a f => a + f.2 * 2 ^ (8 * f.1)) 0

def row0 : JobRow := { noJobRow with qcount := 1, cached := 4, handle := 0x1000000 }

/-- An attention job in its second phase, with one row. -/
def job0 : Job :=
  { noJob with seq := 5, begun := some 0, sessions := [0x1000000], state := 1, phase := 1, rows := [row0], dispClause := 9, given := [0] }

def slice0 : Slice := { id := 0, job := 0, channel := false, clusters := [0], cores := [0], cs := [], sems := [], barriers := 0 }

def core0 : Core := freshCore 0 0 0 0 0 0 0 [] 0 0 0 0

/-- The core `c` stands at the descriptor `x`. -/
def at' (x : Nat) (c : Core) : Core := { c with queue := [x] }

/-- The core `c` at the descriptor `x`; name 0 of its kernel is 256 KiB of its tile store, name 1 as much scratch. -/
def coring (x : Nat) (c : Core) : Dev :=
  { ready with arr := { ready.arr with
      kernels := [{ kernel0 with descs := [x], names := [⟨0, 7, 0, 4096, 0⟩, ⟨13, 7, 0, 4096, 0⟩] }]
      cores := [at' x c], slices := [slice0], jobs := [job0] } }

/-- The core may run the descriptor with the fields `fs`, and it meets no fault. -/
def descOk (op : Nat) (body : Core → Nat → Dev → Except Nat Dev) (fs : List (Nat × Nat)) (c : Core) : Bool :=
  let x := descOf ((0, op) :: fs)
  on (coring x c) (descRuns op c.num (at' x c) x (coring x c) && (body (at' x c) x (coring x c)).isOk)

/-- An operand in name 1. -/
def scratch : Nat := 2 ^ 52

/-- A core whose signal waits for movement, and a channel core. -/
def signalling : Core := { core0 with sig := some { pc := 0, bcast := false, arg := 0, count := 1, waits := [0], done := none } }

def channel0 : Core := { core0 with num := 4096 }

theorem witness_ControlDescriptorsComplete :
    descOk 0x00 nopDesc [] core0 = true ∧ descOk 0x00 nopDesc [(2, 0x85)] core0 = true ∧ descOk 0x72 skipDesc [(8, 3)] core0 = true ∧
    descOk 0x70 loopBeginDesc [(12, 65536)] core0 = true ∧ descOk 0x70 loopBeginDesc [] core0 = true ∧ descOk 0x70 loopBeginDesc [(9, 1)] core0 = true ∧
    [[⟨0, 0, 2, 0⟩], [⟨0, 1, 2, 0⟩], []].all (fun l => descOk 0x71 loopEndDesc [] { core0 with loops := l }) = true ∧
    [core0, signalling].all (fun c =>
      descOk 0x65 flagDesc [(8, 1)] c && descOk 0x65 flagDesc [(8, 3), (16, 1)] c && descOk 0x66 flagWaitDesc [(8, 1)] c && descOk 0x66 flagWaitDesc [] c &&
      descOk 0x60 semWaitDesc [] c && descOk 0x60 semWaitDesc [(12, 1)] c && descOk 0x61 semSignalDesc [(12, 1)] c && descOk 0x64 bcastDesc [(8, 3)] c &&
      descOk 0x62 barClDesc [] c && descOk 0x62 barClDesc [(8, 1)] c && descOk 0x63 barDevDesc [] c && descOk 0x7F endDesc [] c) = true ∧
    descOk 0x62 barClDesc [] channel0 = true ∧ descOk 0x63 barDevDesc [] channel0 = true ∧
    (let x := descOf [(2, 0xC5)]
     on (coring x core0) (findCore (coring x core0) 0 == some (at' x core0) && !condHolds (at' x core0) (coreDesc (at' x core0)) &&
      df (coreDesc (at' x core0)) 0 1 == 0)) = true := by decide +kernel

/-- A core whose MAC and vector units are busy. -/
def busyCore : Core := { core0 with units := [⟨0, [], [], none⟩, ⟨1, [], [], none⟩] }

theorem witness_MatrixDescriptorsComplete :
    descOk 0x20 mmDesc [(28, 1)] core0 = true ∧ descOk 0x20 mmDesc [(28, 1)] busyCore = true ∧ descOk 0x22 accReadDesc [(17, 7)] core0 = true ∧
    descOk 0x22 accReadDesc [(17, 7)] busyCore = true ∧ descOk 0x23 accWriteDesc [] core0 = true ∧ descOk 0x23 accWriteDesc [] busyCore = true ∧
    descOk 0x30 quantDesc [(16, 1024), (24, 7), (25, 1), (26, 1), (32, noName * 2 ^ 52), (40, 1)] core0 = true ∧
    descOk 0x30 quantDesc [(16, 1024), (24, 7), (25, 1), (32, noName * 2 ^ 52), (40, 1)] busyCore = true ∧
    descOk 0x30 quantDesc [(16, 1024), (24, 7), (25, 1), (32, 3000), (40, 1)] core0 = true ∧
    descOk 0x31 dequantDesc [(16, 1024), (24, 1), (25, 7), (40, 1)] core0 = true ∧ descOk 0x31 dequantDesc [(40, 1)] busyCore = true ∧ answering ready = true := by
  decide +kernel

theorem witness_VectorDescriptorsComplete :
    descOk 0x40 vopDesc [(41, 1), (44, 1)] core0 = true ∧ descOk 0x40 vopDesc [(40, 12), (41, 7), (42, 1), (43, 4), (44, 1), (46, 3)] core0 = true ∧ descOk 0x40 vopDesc [(44, 1)] busyCore = true ∧ descOk 0x42 vredDesc [(26, 1), (28, 7)] core0 = true ∧
    descOk 0x42 vredDesc [(26, 1), (28, 7), (29, 1)] core0 = true ∧ descOk 0x42 vredDesc [(26, 1)] busyCore = true ∧ descOk 0x43 rotateDesc [(42, 2)] core0 = true ∧
    descOk 0x43 rotateDesc [(42, 2)] busyCore = true ∧ descOk 0x50 smxPartDesc [(36, 1)] core0 = true ∧ descOk 0x50 smxPartDesc [(36, 1)] busyCore = true ∧
    descOk 0x51 smxMergeDesc [(24, 1), (26, 1)] core0 = true ∧ descOk 0x51 smxMergeDesc [(24, 1), (26, 1)] busyCore = true := by decide +kernel

def mvt0 (x : Nat) : Mvt := { id := 0, desc := x, pieces := [], record := none, args := [], bad := false, racy := [] }

/-- A core with sixteen movement descriptors outstanding. -/
def fullCore : Core := { core0 with mvts := List.replicate 16 (mvt0 0) }

/-- A KV-update block of 64 bytes with no source. -/
def nbBlock : List Byte := bytesOf 64 [(1, 1, 3), (2, 1, 1), (4, 2, 1), (8, 4, 1), (12, 4, 1), (23, 1, 0xFF), (22, 1, 0xF0), (24, 8, 2 ^ 52), (39, 1, 0xFF), (38, 1, 0xF0), (47, 1, 0xFF), (46, 1, 0xF0), (55, 1, 0xFF), (54, 1, 0xF0), (63, 1, 0xFF), (62, 1, 0xF0)]

def nbCore : Core := { core0 with ts := memWriteN [] 0 nbBlock }

/-- Core 0 with the movement `m` outstanding. -/
def carrying (m : Mvt) : Dev := coring 0 { core0 with mvts := [m] }

/-- MOVEMENT_COMPLETE finds the movement `m`. -/
def carried (m : Mvt) : Bool :=
  on (carrying m) ((findCore (carrying m) 0).any (fun c => c.mvts.find? (fun q => q.id == 0 && df q.desc 0 1 != 0x5C) == some m))

def rec0 : PartRec :=
  { job := 0, row := 0, item := 0, run := 0, check := 0, queries := 1, heads := 1, vdim := 1, kind := 0, firstQuery := 0, firstHead := 0, phrases := 0
    poisoned := false, entries := [] }

/-- The near-bank operation of `nbBlock`, issued. -/
def nbMvt : Mvt := { mvt0 (0x5C + leNat nbBlock * 2 ^ 512) with args := [(noName, 0), (1, 0), (noName, 0), (noName, 0), (noName, 0), (noName, 0)] }

theorem witness_MovementDescriptorsComplete :
    [core0, fullCore].all (fun c => descOk 0x10 (tloadDesc []) [(32, 1), (34, 1)] c && descOk 0x10 (tloadDesc []) [(32, 1), (34, 1), (35, 1)] c &&
      descOk 0x10 (tloadDesc [1]) [(8, scratch), (32, 1), (34, 1), (35, 2)] c && descOk 0x11 (tstoreDesc [3]) [(32, 1), (34, 1)] c &&
      descOk 0x11 (tstoreDesc []) [(32, 1), (34, 1), (35, 1)] c &&
      descOk 0x12 (gatherDesc false []) [(8, scratch), (32, 1), (34, 1)] c && descOk 0x13 (gatherDesc true []) [(16, scratch), (32, 1), (34, 1)] c &&
      descOk 0x14 fillDesc [(20, 1)] c && descOk 0x52 partEmitDesc [(48, 1), (50, 1), (52, 1)] c &&
      descOk 0x52 partEmitDesc [(32, noName * 2 ^ 52), (48, 1), (50, 1), (52, 1)] c && descOk 0x58 appendRowsDesc [(17, 7), (18, 1)] c) = true ∧
    descOk 0x5C nbIssueDesc [] nbCore = true ∧ descOk 0x5C nbIssueDesc [] { nbCore with mvts := fullCore.mvts } = true ∧
    [mvt0 0x58, { mvt0 0x52 with record := some rec0 }, { mvt0 0x10 with pieces := [⟨0, 0, noName, 0, 256⟩, ⟨noName, 0, 0, 0, 4⟩] },
      { mvt0 0x10 with pieces := [⟨0, 0, 1, 0, 64⟩] }].all carried = true ∧
    on (carrying nbMvt) ((findCore (carrying nbMvt) 0).any (fun c => c.mvts.find? (fun q => q.id == 0 && df q.desc 0 1 == 0x5C) == some nbMvt)) = true := by
  decide +kernel

def ended : Core := { core0 with ended := true }

/-- The first condition of a slice's end. -/
def sliceDone (d : Dev) (i : Nat) : Bool :=
  (d.arr.cores.filter (fun (c : Core) => c.slice == i)).all (fun c => c.ended && c.units.isEmpty && c.mvts.isEmpty && c.sig.isNone)

/-- The core has ended and its job is of kind `k` in phase `p`. -/
def kinded (k p : Nat) : Dev := { coring 0 ended with arr := { (coring 0 ended).arr with jobs := [{ job0 with kind := k, phase := p }] } }

theorem witness_SlicesAndRecordsEnd :
    [(0, 1), (0, 2), (1, 0), (2, 0), (5, 0)].all (fun k =>
      on (kinded k.1 k.2) (sliceDone (kinded k.1 k.2) 0 && (findSlice (kinded k.1 k.2) 0).isSome && (findJob (kinded k.1 k.2) 0).any (fun j => j.kind == k.1))) = true ∧
    on (coring 0 core0) (!sliceDone (coring 0 core0) 0 && (findSlice (coring 0 core0) 0).isSome) = true ∧
    on { ready with arr := { ready.arr with records := [rec0] } } (ready.arr.records.isEmpty && ([rec0] : List PartRec)[0]?.isSome) = true := by
  decide +kernel

theorem witness_StepTakesTheFrontCommand :
    State.reset.pending = [] ∧ State.reset.dev.boot.inReset = true ∧ (stateOf ready).dev.boot.inReset = false ∧
    ({ State.reset with pending := [.throtNRelease] } : State).pending = .throtNRelease :: [] := by decide +kernel

def haltedDev : Dev := { ready with boot := { ready.boot with stage := 9 } }

theorem witness_HaltedIsFinal :
    halted haltedDev = true ∧ bar0Reg freshGrid haltedDev 0 0x10 ≠ 0 := by decide +kernel

theorem witness_MemoryReadsBack : memWf [] = true ∧ memWf (memWriteN [] 5 [1, 0, 2]) = true ∧ memWf State.reset.dev.exch = true := by decide +kernel

theorem witness_CompletionsArePostedOrHeld :
    (findVerb (withVerb ready (verbOf 0x0402 [])) 9).isSome = true ∧ ring0.held = [] ∧ ring0.holding = false ∧ cqFull ring0 = false ∧
    cqFull { ring0 with cqTail := 63 } = true ∧ (findRing ready 0).isSome = true := by decide +kernel

theorem witness_EventsReachTheirRings :
    freshDev.tur.evqs[15]?.isSome = true ∧ suppressed freshDev 0 0x0110 = false ∧ suppressed { freshDev with tur.masks := [(0, 0x0110)] } 0 0x0110 = true ∧
    (1 : Nat) < 2 ^ 6 ∧ 62 + 2 ≤ 2 ^ 6 ∧ 63 + 1 = 2 ^ 6 := by decide +kernel

theorem witness_CountersSaturate :
    ctrWraps 0 1 = false ∧ ctrGauge 0 1 = false ∧ ctrWraps 5 3 = true ∧ (ctrGet ready 0 0 1).val + sat48 ≤ sat48 ∧ sat48 < (ctrGet ready 0 0 1).val + (sat48 + 1) ∧
    (ctrGet ready 0 0 1).ovf = false := by decide +kernel

theorem witness_LongestFreeIsGiven :
    longestFree freshDev 6 [0] 0 256 = some 1 ∧ longestFree freshDev 6 [0] 0 1 = none ∧
    longestFree { freshDev with pool.stamps := [(6, 0, 8), (6, 1, 3)] } 6 [] 0 2 = some 1 := by decide +kernel

theorem witness_TimeLosesNothing :
    -1000000000 ≤ ratePpb freshTim ∧ freshTim.basePpb = 0 ∧ freshTim.slewPpb = 0 ∧ freshTim.frac = 0 ∧
    slewNeed { freshTim with slewPpb := 500000, slewLeft := 1 } ≤ 2000 := by decide +kernel

end Sys2Proof.Tests
end

