-- ==== Sys2Proof/Tests/Events.lean ====
section
/-!
SUPPORT. Witnesses: for every statement about commands of the device itself, states and operands that meet its hypotheses, one for each clause.
-/

namespace Sys2Proof.Tests

open Sys2Proof Sys2Proof.Machine

set_option Elab.async false

def busReq (why : BusWhy) : BusReq := { id := 0, ld := 0, read := true, addr := 0, len := 4, issued := 0, why := why }

theorem witness_TextVerbsComplete_head :
    on { ready with
      bus := [busReq (.textHead 0x1000000)]
      kv.cat := [{ sess0 with tok := { sess0.tok with ringNamed := true, written := 8 } }] }
      ((findSess { ready with kv.cat := [{ sess0 with tok := { sess0.tok with ringNamed := true, written := 8 } }] } 0x1000000).any
        (fun x => x.tok.ringNamed && decide (8 % 2 ^ 64 ≤ x.tok.written))) = true := by decide +kernel

theorem witness_IndexJobsComplete_ends :
    on (indexed 0 (some idxJob0)) ((findIndex (indexed 0 (some idxJob0)) 0).any (fun x => x.job == some idxJob0 && nextMerge x 0 == none && deadCount x == 0)) = true ∧
    on (indexed 1 (some { idxJob0 with kind := 2, pass := true }))
      ((findIndex (indexed 1 (some { idxJob0 with kind := 2, pass := true })) 0).any (fun x => nextLive x 0 == none)) = true ∧
    on (indexed 1 (some { idxJob0 with kind := 3 })) ((findIndex (indexed 1 (some { idxJob0 with kind := 3 })) 0).any (fun x => x.job.any (·.kind == 3))) = true := by
  decide +kernel

def flJob (k : Nat) : FlashJob := { ring := 0, tag := 0, op := 0x0802, kind := k, granule := 0, part := 0, sparePct := 7 }

def flashing (f : Flash → Flash) : Dev := { ready2 with flash := f ready2.flash }

def flPage : FPage :=
  { seq := 0, gpage := 0, ver := 0, kind := 1, fresh := true, reloc := false, hot := false, set := 0, bg := 0, stripe := 0, lane := 0, st := 0
    want := false, durable := false, lost := false, bad := [], gone := 0, data := [], obj := 0 }

def nandOp (w : NandWhat) : NandOp := { id := 0, channel := 0, lun := 0, block := 0, level := 0, what := w, issued := 0, retried := false }

def nanding (w : NandWhat) : Dev := flashing (fun f => { f with ops := [nandOp w], pages := [flPage] })

/-- The NAND operation 0 is the one that `nanding` put there. -/
def nandFound (w : NandWhat) : Bool := on (nanding w) ((nanding w).flash.ops.find? (fun o => o.id == 0) == some (nandOp w))

/-- The flash job `k` is the one that ends. -/
def endsJob (k : Nat) (ok : Bool) : Bool :=
  on (flashing (fun f => { f with jobs := [flJob k] }))
    ((flashing (fun f => { f with jobs := [flJob k] })).flash.jobs.find? (jobEnds ok (flashing (fun f => { f with jobs := [flJob k] }))) == some (flJob k))

theorem witness_FlashOperationsComplete :
    on (flashing (fun f => { f with jobs := [flJob 1] })) ((flashing (fun f => { f with jobs := [flJob 1] })).flash.jobs.any (·.kind == 1)) = true ∧
    [2, 3, 4].all (fun k => endsJob k true && endsJob k false) = true ∧
    nandFound (.read 0 0 2 0) = true ∧ nandFound (.read 0 0 6 0) = true ∧ nandFound (.data 0) = true ∧ (nanding (.data 0)).flash.pages.any (·.seq == 0) = true ∧
    nandFound (.erase 0 0) = true ∧ ready2.boot.powerFail = false ∧ ready2.clk.started = true ∧
    (nandOp (.data 0)).issued + nandLimit (.data 0) ≤ (advance (nanding (.data 0)) (nandLimit (.data 0) - 500000)).tim.elapsed ∧
    on ready2 (checkpointDue { ready2.flash with sinceCkptPages := 131072 } && checkpointDue { ready2.flash with sinceCkptClauses := 200000 }) = true ∧
    [none, some 9].all (fun w => on { ready2 with flash := { ready2.flash with mounting := some w }, boot := { ready2.boot with stage := 7 } }
      (ready2.flash.formatted)) = true := by decide +kernel

theorem witness_CheckpointVerbsComplete_staged :
    on { ready3 with ckpts := [{ ckpt0 with state := 0 }] }
      ((allocDdr { ready3 with ckpts := [{ ckpt0 with state := 0 }] } (ctxPart 0) (roundUp (manifestSize false 0) 16384) (ckptKey 0 1) 0).isSome) = true := by
  decide +kernel

/-- The buddy port as it is before HELLO_ACK. -/
def connecting : Dev := { ready3 with buddy := { ready3.buddy with ports := [{ buddyPort0 with connected := false }] } }

def mirror0 (isSealed : Bool) : HeldMirror :=
  { serial := 5, ctx := 0, lpart := 0, step := 1, off := 0, bytes := 16384, isSealed := isSealed, arrived := [], sealWait := none }

def holding (isSealed : Bool) : Dev := { ready3 with buddy := { ready3.buddy with held := [mirror0 isSealed] } }

def req0 : CtlReq := { seq := 1, msg := msgOf 4 0 1 0, sub := 0, at' := 0, resent := 2 }

def asking : Dev := { ready3 with buddy := { ready3.buddy with reqs := [req0] } }

theorem witness_BuddyMessagesAndTimers :
    [(1, ready3), (3, ready3), (8, ready3), (9, ready3)].all (fun x => on x.2 (msgArrived x.1 (headOf 16385) (msgOf x.1 5 1 0) x.2).isSome) = true ∧
    on connecting ((msgArrived 2 (headOf 16385) (msgOf 2 5 0 0) connecting).any (fun x => !x.1.connected && x.1.connecting == none)) = true ∧
    on (holding true) ((msgArrived 10 (headOf 16385) (msgOf 10 5 1 0) (holding true)).any
      (fun x => (findHeld x.2 (msgKey (msgOf 10 5 1 0))).any (·.isSealed))) = true ∧
    on ready3 ((msgArrived 10 (headOf 16385) (msgOf 10 5 1 0) ready3).any (fun x => (findHeld x.2 (msgKey (msgOf 10 5 1 0))).isNone)) = true ∧
    on ready3 (decide ((advance ready3 0).buddy.beatAt ≤ (advance ready3 0).tim.elapsed) && connectedPorts ready3 != 0) = true ∧
    on asking (decide (req0.at' + 10000000 ≤ (advance asking 9500000).tim.elapsed) && decide (req0.resent < 3) && (buddyPort asking 0).isSome) = true ∧
    on ready3 (decide (ready3.buddy.lastRx + 100000000 ≤ (advance ready3 99500000).tim.elapsed)) = true := by decide +kernel

def mirroring (n : Nat) : Dev := { ready3 with ckpts := [{ ckpt0 with mirror := n }] }

def finding : Dev :=
  { ready3 with restores := [{ seq := 0, ctx := 0, prm := bytesOf 128 [(0, 1, 5), (32, 8, 5), (40, 8, 1)], stage := 5, data := [], bad := [], base := 0, size := 0, status := 0 }] }

theorem witness_MirrorMessagesTakeEffect :
    on ready3 ((msgArrived 4 (headOf 16385) (msgOf 4 5 1 16384) ready3).any (fun x => (findHeld x.2 (msgKey (msgOf 4 5 1 16384))).isNone &&
      firstFit x.2.buddy.held ((x.2.buddy.area.getD 0) * 2 ^ 30) 16384 (x.2.buddy.held.length + 1) 0 == some 0)) = true ∧
    on (mirroring 1) ((msgArrived 5 (headOf 16385) (msgOf 5 0 1 0) (mirroring 1)).any (fun x =>
      (ckptOfKey (settleRequest x.2 4 (msgKey (msgOf 5 0 1 0))) (msgKey (msgOf 5 0 1 0))).any (·.mirror == 1))) = true ∧
    on (holding true) ((msgArrived 6 (headOf 16385) (msgOf 6 5 1 0) (holding true)).any
      (fun x => (findHeld x.2 (msgKey (msgOf 6 5 1 0))).any (·.isSealed))) = true ∧
    on (mirroring 3) ((msgArrived 7 (headOf 16385) (msgOf 7 0 1 0) (mirroring 3)).any (fun x =>
      (ckptOfKey (settleRequest x.2 6 (msgKey (msgOf 7 0 1 0))) (msgKey (msgOf 7 0 1 0))).any (·.mirror == 3))) = true ∧
    on finding ((msgArrived 11 (headOf 16385) (msgOf 11 5 1 0) finding).any
      (fun x => x.2.restores.any (fun r => r.stage == 5 && rKey r == msgKey (msgOf 11 5 1 0)))) = true ∧
    on ready3 ((arrived (headOf 16385) ready3).any (fun x => (rdmaTarget x.2 x.1 9 0 2).any (fun y => y.2.isNone))) = true := by decide +kernel

def rebinding : Dev :=
  { ready with pool := { ready.pool with rebinds := [{ part := 0, newLd := some 1, seq := 9, point := 0, copied := false, rings := 0 }] } }

theorem witness_PartitionVerbsComplete_switch :
    on rebinding (rebinding.pool.rebinds.any (·.part == 0) && (findPart rebinding 0).isSome) = true := by decide +kernel

def clearing : Dev :=
  { ready with pool := { ready.pool with
      clearings := [{ rel := 0, part := 0, op := 0x0207, hbm := [(0, 0)], ddr := [0], hbmAll := 1, ddrAll := 1, flash := [], who := none, sanitize := none }] } }

theorem witness_ContextAndScrubComplete_end :
    on clearing (clearing.pool.clearings.any (fun c => c.rel == 0 && !c.ddr.isEmpty && !c.hbm.isEmpty)) = true := by decide +kernel

end Sys2Proof.Tests
end

