-- ==== Sys2Proof/Tests/Verbs.lean ====
section
/-!
SUPPORT. Witnesses: for every statement about verbs, a device and a submission entry that meet its hypotheses, one for each verb and for each form
that the statement tells apart.
-/

namespace Sys2Proof.Tests

open Sys2Proof Sys2Proof.Machine

set_option Elab.async false

def h0 : Nat := 0x1000000

def modelImage : List Byte := bytesOf 320 [(0, 4, 1), (4, 4, 1), (8, 4, 256), (16, 8, 320), (24, 8, 256), (256, 1, 2)]

def kernelImage : List Byte := bytesOf 384 [(0, 4, 1), (4, 4, 1), (6, 2, 1), (20, 4, 256), (24, 4, 320), (32, 4, 384), (320, 1, 0x7F)]

def withSess (d : Dev) (f : Sess → Sess) : Dev := { d with kv.cat := [f sess0] }

/-- The session with an open detokenizer. -/
def detoking (d : Dev) : Dev := withSess d (fun s => { s with tok := { s.tok with detok := 1, lex := some 0 } })

def countersBody (v : Verb) (d : Dev) : Except Fail Dev :=
  countersReadBody (if fld v 16 1 = 4 then (findIndex d (fld v 18 2)).isSome else if fld v 16 1 = 5 then subExists d (fld v 18 2) else true) v d

theorem witness_SessionVerbsComplete :
    runs ready 0x0401 sessOpenBody [] = true ∧ runs ready 0x0402 sessCloseBody [(16, h0)] = true ∧ runs ready 0x040B discardBody [(16, h0)] = true ∧
    runs ready 0x040C sessQueryBody [(16, h0)] = true := by decide +kernel

/-- The session with an open tokenizer stream too. -/
def tokking (d : Dev) : Dev := withSess d (fun s => { s with tok := { s.tok with detok := 1, lex := some 0, tkOpen := true } })

/-- The session PARKED. -/
def parked : Dev := withSess ready (fun s => { s with state := 3, slot := none, image := some ⟨2 ^ 62, true, 0⟩ })

/-- A stem phrase of 64 positions that is sealed. -/
def phrase0 : Phrase :=
  { part := 0, ctx := 0, id := 1, fmt := 1, kind := 0, layer := 0, firstPos := 0, count := 64, model := 0, version := 1, dimA := 32, dimB := 0
    saturated := 0, clamped := false, replaced := false, sealed := true, draft := false, creator := h0, rows := [], refs := 1, holds := 0
    hbm := some 0, ddr := false, flash := none, imageHolds := 0, poisonHbm := [], poisonDdr := [], hardHbm := [], hardDdr := [] }

def phrased : Dev := { ready with kv.phrases := [phrase0] }

/-- The model with a pin of its first 4 KiB. -/
def pinned : Dev := { ready with kv.models := [{ model0 with pins := [⟨0, 0, 4, some 10, 1⟩] }] }

def mover0 (w : MoveWhat) : Mover := { id := 3, seq := 9, order := 2, prio := 0, promo := false, run := none, clause := some 9, what := w, state := 0 }

def moving (w : MoveWhat) : Dev := { ready3 with kv.movers := [mover0 w] }

theorem witness_LengthVerbsWaitForTheBoundary :
    runs (laid ready 0x4000 (List.replicate 1024 0)) 0x0404 appendBody [(16, h0), (20, 2), (24, 1), (32, 2), (40, 0x4000), (48, 1024)] = true ∧
    runs ready 0x0407 rollbackBody [(16, h0), (20, 2)] = true ∧
    runs ready 0x0403 sessForkBody [(16, h0), (20, 2)] = true ∧
    runs ready 0x0404 appendBody [(16, h0), (20, 0), (24, 1), (32, 4), (40, 0x4000), (48, 256)] = true ∧
    runs ready 0x0407 rollbackBody [(16, h0), (20, 1)] = true ∧ runs ready 0x040D truncateBody [(16, h0), (20, 4)] = true ∧
    runs ready 0x0406 commitBody [(16, h0)] = true := by decide +kernel

theorem witness_TierVerbsComplete :
    runs ready 0x0408 parkRun [(16, h0), (20, 1)] = true ∧ runs ready 0x0408 parkBody [(16, h0), (20, 1)] = true ∧
    runs ready 0x0409 reviveBody [(20, 1), (24, 2 ^ 62)] = true ∧
    runs ready 0x040A moveBody [(16, 2 ^ 59 + h0), (24, 1)] = true ∧ runs ready 0x0305 pinTilesBody [(17, 1), (24, 4)] = true ∧
    runs ready 0x0305 pinTilesBody [(17, 3)] = true ∧ runs pinned 0x0305 pinTilesBody [(17, 2), (24, 4)] = true ∧
    runs parked 0x0409 reviveBody [(16, h0)] = true ∧ runs phrased 0x040A moveBody [(16, 2 ^ 60 + 1), (24, 1)] = true ∧
    on (moving (.pin 0 0 0)) ((moving (.pin 0 0 0)).kv.movers.all (fun w => w.what == .pin 0 0 0)) = true ∧
    on (moving (.shard 1 0)) ((moving (.shard 1 0)).kv.movers.find? (fun w => w.id == 3) == some (mover0 (.shard 1 0))) = true := by decide +kernel

theorem witness_ModelAndKernelVerbsComplete :
    runs (laid ready 0x4000 modelImage) 0x0301 modelLoadBody [(12, 0x8000), (16, 0x4000), (24, 320)] = true ∧
    runs { ready with kv.cat := [] } 0x0302 modelUnloadBody [] = true ∧
    runs (laid ready 0x4000 kernelImage) 0x0303 kernelLoadBody [(12, 0x8000), (16, 0x4000), (24, 384)] = true ∧
    runs { ready with kv.models := [] } 0x0304 kernelUnloadBody [] = true := by decide +kernel

theorem witness_LexiconAndGrammarVerbsComplete :
    runs (laid ready 0x4000 lexImage) 0x0501 lexLoadBody [(12, 0x8000), (16, 0x4000), (24, 112)] = true ∧ runs ready2 0x0502 lexUnloadBody [] = true ∧
    runs (laid ready 0x4000 gramImage) 0x0601 gramLoadBody [(12, 0x8000), (16, 0x4000), (24, 192)] = true ∧ runs ready2 0x0602 gramUnloadBody [] = true := by
  decide +kernel

theorem witness_TextVerbsComplete :
    runs ready2 0x0503 tokenizeBody [(21, 3), (24, 0x4000), (32, 1), (36, 4), (40, 0x5000)] = true ∧ runs ready2 0x0504 detokOpenBody [(16, h0)] = true ∧
    runs (tokking ready2) 0x0503 tokenizeBody [(16, h0), (21, 2), (24, 0x4000), (32, 1), (36, 4), (40, 0x5000)] = true ∧
    runs (detoking ready2) 0x0503 tokenizeBody [(16, h0), (21, 1), (24, 0x4000), (32, 1), (36, 4), (40, 0x5000)] = true ∧
    runs (tokking ready2) 0x0503 tokenizeBody [(16, h0), (21, 16), (36, 4), (40, 0x5000)] = true ∧
    runs (detoking ready2) 0x0503 tokenizeBody [(16, h0), (21, 17), (36, 4), (40, 0x5000)] = true ∧
    runs (detoking ready2) 0x0504 detokOpenBody [(16, h0), (21, 1)] = true ∧ runs (detoking ready2) 0x0505 stopSetBody [(16, h0)] = true ∧
    [0, 1, 2].all (fun k => runs (detoking ready2) 0x0506 detokFlushBody [(16, h0), (20, k)]) = true := by decide +kernel

theorem witness_SamplingVerbsComplete :
    [0, 1, 2].all (fun k => runs ready2 0x0603 gramBindBody [(16, h0), (21, k), (24, if k = 2 then 4 else 0)]) = true ∧
    runs ready2 0x0604 samplerSetBody [(16, h0), (24, 0x4000)] = true ∧
    runs (laid4 ready2 64 [(0, 4, 1), (16, 8, 0x5000), (24, 8, 0x6000), (32, 8, 0x7000)]) 0x0605 sampleBody [(16, 0x4000)] = true ∧
    runs (withSess ready2 (fun s => { s with syn := { s.syn with mode := 1, grammar := some 0 } })) 0x0606 maskGetBody [(16, h0), (24, 0x4000), (32, 64)] = true ∧
    runs (laid (laid4 ready2 96 [(4, 4, 1), (8, 4, 1), (16, 8, 0x5000), (24, 8, 0x6000), (40, 8, 0x7000), (64, 8, 0x8000)]) 0x5000 (bytesOf 32 [(4, 2, 1)]))
      0x0405 attendBody [(16, 0x4000)] = true := by decide +kernel

def page0 : FPage :=
  { seq := 0, gpage := 0, ver := 0, kind := 1, fresh := false, reloc := false, hot := false, set := 0, bg := 0, stripe := 0, lane := 0, st := 1
    want := false, durable := true, lost := false, bad := [], gone := 0, data := padTo (ixParams ++ natLe 1 4) 4096, obj := 0 }

/-- An index's region on flash whose index is not attached. -/
def attachable : Dev := { ready2 with indexes := [], flash := { ready2.flash with pages := [page0] } }

theorem witness_IndexVerbsComplete :
    runs (laid ready2 0x4000 ixParams) 0x0701 idxCreateBody [(12, 0x8000), (24, 64), (32, 0x4000), (40, 0x5000)] = true ∧
    runs attachable 0x0701 idxCreateBody [(12, 0x8000), (16, 1)] = true ∧ runs ready2 0x0702 idxDropBody [] = true ∧ runs ready2 0x0703 idxInsertBody [(20, 1), (24, 0x4000), (32, 64), (40, 0x5000)] = true ∧
    runs ready2 0x0704 idxDeleteBody [(20, 1), (24, 0x4000), (32, 0x5000)] = true ∧
    runs (laid4 ready2 64 [(2, 2, 1), (4, 4, 1), (24, 8, 0x5000), (32, 8, 0x6000)]) 0x0705 idxSearchBody [(16, 0x4000)] = true ∧
    runs ready2 0x0707 bitmapLoadBody [(18, 0xFFFF), (32, 0x4000)] = true := by decide +kernel

theorem witness_IndexJobsComplete :
    runs (indexed 0 none) 0x0706 idxMergeBody [] = true ∧ runs (indexed 0 (some { idxJob0 with kind := 1 })) 0x0706 idxMergeBody [(17, 1)] = true ∧
    runs ready2 0x0708 idxRepairBody [] = true ∧ runs (indexed 1 (some { idxJob0 with kind := 2 })) 0x0708 idxRepairBody [(17, 1)] = true ∧
    runs (indexed 1 none) 0x0708 idxRepairBody [] = true ∧ runs ready2 0x0702 idxDropBody [(17, 1)] = true ∧
    runs ready2 0x0709 idxStatsBody [(24, 0x4000)] = true := by
  decide +kernel

def noFlash (st : Nat) : Dev := { ready2 with flash := { ready2.flash with state := st, assigned := [] } }

theorem witness_FlashVerbsComplete :
    runs (noFlash 3) 0x0801 flMountBody [(16, 1)] = true ∧ runs (noFlash 3) 0x0802 flFormatBody [(16, 7), (20, 0x464D5446)] = true ∧
    runs ready2 0x0803 flHealthBody [] = true ∧ runs ready2 0x0804 flDiscardBody [(32, 1)] = true ∧
    runs (noFlash 1) 0x0805 flSanitizeBody [(24, 0x534E5A54)] = true ∧ runs ready2 0x0806 flAssignBody [(16, 1), (18, 1), (20, 1)] = true ∧
    runs ready2 0x0801 flMountBody [] = true ∧ runs (noFlash 4) 0x0801 flMountBody [(16, 1)] = true ∧ runs ready2 0x0803 flHealthBody [(24, 0x4000)] = true ∧
    runs (noFlash 1) 0x0805 flSanitizeBody [(16, 1), (20, 3), (24, 0x534E5A54)] = true ∧ runs ready2 0x0806 flAssignBody [(16, 2)] = true ∧
    runs ready2 0x0806 flAssignBody [(16, 3)] = true := by
  decide +kernel

/-- The checkpoint on a device with flash of which partition 0 holds a granule. -/
def flashed : Dev := { ready3 with flash := ready2.flash }

/-- The buddy port before BUDDY_PAIR CONNECT. -/
def unpaired : Dev :=
  { ready3 with buddy.ports := [{ buddyPort0 with connected := false }], net.qps := [qp0, { qpB with state := 0 }] }

theorem witness_CheckpointVerbsComplete :
    runs (laid4 ready 4 [(0, 4, h0)]) 0x0901 ckptBeginBody [(26, 8), (28, 1), (32, 0x4000)] = true ∧
    runs flashed 0x0903 (ckptDrainBody sendRelease) [(16, 1), (26, 1)] = true ∧
    runs { flashed with ckpts := [{ ckpt0 with durable := true, region := some 0 }] } 0x0903 (ckptDrainBody sendRelease) [(16, 1), (26, 1)] = true ∧
    runs unpaired 0x0905 buddyPairBody [(16, 2), (56, 5)] = true ∧
    runs ready 0x0901 ckptBeginBody [(24, 0)] = true ∧ runs ready3 0x0902 ckptStatusBody [(16, 1)] = true ∧
    runs ready3 0x0902 ckptStatusBody [(16, 1), (32, 0x4000), (40, 4096)] = true ∧ runs ready3 0x0903 (ckptDrainBody sendRelease) [(16, 1), (26, 3)] = true ∧
    runs ready3 0x0903 (ckptDrainBody sendRelease) [(16, 1), (26, 2), (32, 0x4000), (40, 2 ^ 30)] = true ∧
    runs (laid4 ready3 128 [(0, 1, 6), (40, 8, 1), (56, 8, 0x5000)]) 0x0904 restoreBody [(16, 0x4000)] = true ∧
    runs { ready3 with buddy := freshBuddy } 0x0905 buddyPairBody [(16, 1), (20, 4)] = true ∧ runs ready3 0x0906 buddyUnpairBody [] = true ∧
    runs ready3 0x0906 buddyUnpairBody [(16, 1)] = true := by decide +kernel

/-- A public key of 550 bytes, of a modulus of 4,096 bits. -/
def rsaKey : List Byte :=
  [0x30, 0x82, 2, 0x22, 0x30, 0x0D, 6, 9, 0x2A, 0x86, 0x48, 0x86, 0xF7, 0x0D, 1, 1, 1, 5, 0, 3, 0x82, 2, 0x0F, 0, 0x30, 0x82, 2, 0x0A, 2, 0x82, 2, 1, 0,
   0x80] ++ List.replicate 511 0 ++ [2, 3, 1, 0, 1]

theorem witness_PartitionVerbsComplete :
    runs (laid ready 0x4000 rsaKey) 0x0201 partCreateBody [(16, 2), (20, 1), (28, 1), (32, 1), (44, 550), (56, 0x4000)] = true ∧
    runs ready 0x0204 partBindBody [(17, 1)] = true ∧
    runs ready 0x0201 partCreateBody [(16, 2), (20, 1), (28, 1), (32, 1)] = true ∧ runs ready 0x0202 partDestroyBody [] = true ∧
    runs ready 0x0203 partResizeBody [(16, 1), (20, 4), (21, 4), (28, 2), (32, 8), (36, 2), (37, 4), (38, 15), (40, 8), (42, 4)] = true ∧
    runs ready 0x0204 partBindBody [] = true ∧ runs ready 0x0204 partBindBody [(17, 0xFF)] = true := by decide +kernel

theorem witness_ContextAndScrubComplete :
    runs (laid4 ready 32 [(0, 8, 0x10000), (8, 8, 0x11000), (16, 1, 6)]) 0x0205 ctxCreateBody [(17, 1), (24, 0x4000)] = true ∧
    runs ready 0x0206 ctxDestroyBody [] = true ∧ runs ready 0x0207 scrubBody [] = true ∧ runs ready 0x0207 scrubBody [(16, 1)] = true ∧
    runs ready 0x010C identityGetBody [(24, 0x4000), (32, 1024)] = true ∧ runs { ready with boot.identity := 2, boot.publicKey := [1] } 0x010C identityGetBody
      [(24, 0x4000), (32, 1024)] = true := by decide +kernel

def withQp (n : Nat) : Dev := { ready3 with net.qps := [{ qp0 with state := n }] }

theorem witness_PortQpAndWindowVerbsComplete :
    runs (laid4 { ready3 with net.qps := [], net.ports := [{ port0 with state := 0 }] } 256 [(1, 1, 1)]) 0x0A01 portSetBody [(17, 1), (56, 0x4000)] = true ∧
    runs (laid4 ready3 256 [(8, 6, 2), (16, 4, 1)]) 0x0A01 portSetBody [(17, 2), (56, 0x4000)] = true ∧
    runs (laid4 ready3 256 [(4, 2, 16), (6, 2, 8)]) 0x0A01 portSetBody [(17, 3), (56, 0x4000)] = true ∧
    runs ready3 0x0A01 portSetBody [(17, 4)] = true ∧ runs { ready3 with net.qps := [] } 0x0A01 portSetBody [(17, 5)] = true ∧
    runs ready3 0x0A02 qpCreateBody [(18, 1)] = true ∧ runs (withQp 0) 0x0A03 qpModifyBody [(16, 16384), (20, 1), (32, 2)] = true ∧
    runs ready3 0x0A03 qpModifyBody [(16, 16384), (20, 2)] = true ∧ runs (withQp 2) 0x0A03 qpModifyBody [(16, 16384), (20, 3)] = true ∧
    runs ready3 0x0A03 qpModifyBody [(16, 16384), (20, 4), (24, 100)] = true ∧ runs { ready3 with net.windows := [] } 0x0A04 qpDestroyBody [(16, 16384)] = true ∧
    runs ready3 0x0A05 windowOpenBody [(16, 16384), (20, 64), (28, 17)] = true ∧ runs ready3 0x0A06 windowCloseBody [] = true := by decide +kernel

theorem witness_TrafficVerbsComplete :
    runs ready3 0x0A07 shaperSetBody [(18, 8)] = true ∧ runs ready3 0x0A07 shaperSetBody [(18, 7)] = true ∧ runs ready3 0x0A08 policerSetBody [(19, 1)] = true ∧
    runs (laid4 ready3 8 [(0, 4, 1000), (4, 1, 255)]) 0x0A09 gateListBody [(17, 1), (18, 1), (22, 1), (56, 0x4000)] = true ∧
    runs (laid4 ready3 8 [(0, 4, 1000), (4, 1, 255)]) 0x0A09 gateListBody [(17, 3), (18, 1), (22, 1), (24, 10 ^ 7), (56, 0x4000)] = true ∧
    runs (laid4 ready3 8 [(0, 4, 1000), (4, 1, 255)]) 0x0A09 gateListBody [(17, 1), (18, 2), (22, 1), (56, 0x4000)] = true ∧
    runs ready3 0x0A0A queueStatsBody [(18, 255), (19, 1), (24, 0x4000)] = true ∧ runs ready3 0x0B04 probeSetBody [(18, 1), (19, 1), (20, 1000)] = true ∧
    runs ready3 0x0A0A queueStatsBody [(18, 1), (24, 0x4000)] = true ∧ runs ready3 0x0B04 probeSetBody [(18, 1), (20, 1000)] = true ∧
    runs ready3 0x0B04 probeSetBody [(18, 1)] = true := by decide +kernel

theorem witness_RepairVerbsComplete :
    runs (laid4 ready3 64 [(0, 4, 1)]) 0x0104 repairLoadBody [(24, 3), (56, 0x4000)] = true ∧
    runs (laid4 ready3 64 [(0, 4, 1)]) 0x0104 repairLoadBody [(24, 1), (56, 0x4000)] = true ∧ runs ready3 0x0105 repairReportBody [(24, 0x4000), (32, 16)] = true ∧
    runs ready3 0x0106 testBody [(16, 1)] = true ∧ runs ready3 0x0107 testBody [(16, 2)] = true ∧ runs ready3 0x0108 quiesceBody [] = true ∧
    runs ready3 0x0109 resumeBody [] = true ∧ runs { ready3 with tur.quiesced := true } 0x0108 quiesceBody [] = true ∧
    runs { ready3 with tur.quiesced := true } 0x0109 resumeBody [] = true := by decide +kernel

/-- A single-LD host, which has the rights of a fabric manager. -/
def single : Dev := { ready3 with tur.singleLd := true }

theorem witness_InformationVerbsComplete :
    runs ready3 0x0B01 countersBody [(20, 1), (22, 1), (24, 0x4000)] = true ∧ runs single 0x0B01 countersBody [(17, 3), (20, 1), (22, 1), (24, 0x4000)] = true ∧
    runs ready3 0x0B02 logReadBody [(16, 1), (28, 1), (32, 0x4000), (40, 4096)] = true ∧
    runs ready3 0x0B02 logReadBody [(16, 2), (28, 1), (32, 0x4000), (40, 4096)] = true ∧ runs ready3 0x0B03 eventMaskBody [(18, 1), (20, 1), (22, 9)] = true ∧
    runs ready3 0x0B03 eventMaskBody [(18, 2), (20, 1), (22, 9)] = true ∧ runs ready3 0x0B03 eventMaskBody [(18, 3), (20, 1), (22, 9)] = true ∧
    runs ready3 0x0B05 thermalHistoryBody [(24, 0x4000), (32, 3648)] = true ∧ runs single 0x0B05 thermalHistoryBody [(16, 1), (24, 0x4000), (32, 3648)] = true ∧
    runs ready3 0x0101 deviceInfoBody [(24, 0x4000), (32, 256)] = true ∧ runs ready3 0x0102 configSetBody [(16, 1), (32, 5)] = true ∧
    runs ready3 0x0102 configSetBody [(16, 2), (32, 5)] = true ∧ runs ready3 0x0103 configGetBody [(16, 1)] = true ∧
    runs ready3 0x0103 configGetBody [(16, 2)] = true := by decide +kernel

theorem witness_TimeCommandsTakeEffect :
    verbRuns 0x010A 9 (verbOf 0x010A [(16, 20)]) (stateOf (withVerb ready (verbOf 0x010A [(16, 20)]))) = true ∧
    passes (clauseSetCheck freshGrid (verbOf 0x010A [(16, 20)])) = true ∧ passes (clauseSetCheck freshGrid (verbOf 0x010A [(16, 5000), (20, 25), (21, 2)])) = true ∧
    runs ready3 0x010B timeSetBody [(16, 1), (24, 10 ^ 9)] = true ∧ runs ready3 0x010B timeSetBody [(16, 2), (20, 1)] = true ∧
    runs ready3 0x010B timeSetBody [(16, 2), (20, 1), (24, 100)] = true ∧ runs ready3 0x010B timeSetBody [(16, 3), (24, 100)] = true ∧
    runs ready3 0x010B timeSetBody [(16, 4)] = true ∧ runs ready3 0x010B timeSetBody [(16, 5)] = true := by decide +kernel

/-- Every verb but CLAUSE_SET, by its opcode and body. -/
def verbList : List (Nat × (Verb → Dev → Except Fail Dev)) :=
  [(0x0401, sessOpenBody), (0x0402, sessCloseBody), (0x040B, discardBody), (0x040C, sessQueryBody), (0x0403, sessForkBody), (0x0404, appendBody),
   (0x0407, rollbackBody), (0x040D, truncateBody), (0x0406, commitBody), (0x0408, parkRun), (0x0409, reviveBody), (0x040A, moveBody),
   (0x0305, pinTilesBody), (0x0301, modelLoadBody), (0x0302, modelUnloadBody), (0x0303, kernelLoadBody), (0x0304, kernelUnloadBody),
   (0x0501, lexLoadBody), (0x0502, lexUnloadBody), (0x0601, gramLoadBody), (0x0602, gramUnloadBody), (0x0503, tokenizeBody),
   (0x0504, detokOpenBody), (0x0505, stopSetBody), (0x0506, detokFlushBody), (0x0603, gramBindBody), (0x0604, samplerSetBody)] ++
  [(0x0605, sampleBody), (0x0606, maskGetBody), (0x0405, attendBody), (0x0701, idxCreateBody), (0x0702, idxDropBody), (0x0703, idxInsertBody),
   (0x0704, idxDeleteBody), (0x0705, idxSearchBody), (0x0707, bitmapLoadBody), (0x0706, idxMergeBody), (0x0708, idxRepairBody),
   (0x0709, idxStatsBody), (0x0801, flMountBody), (0x0802, flFormatBody), (0x0803, flHealthBody), (0x0804, flDiscardBody),
   (0x0805, flSanitizeBody), (0x0806, flAssignBody), (0x0901, ckptBeginBody), (0x0902, ckptStatusBody), (0x0903, ckptDrainBody sendRelease),
   (0x0904, restoreBody), (0x0905, buddyPairBody), (0x0906, buddyUnpairBody), (0x0201, partCreateBody), (0x0202, partDestroyBody)] ++
  [(0x0203, partResizeBody), (0x0204, partBindBody), (0x0205, ctxCreateBody), (0x0206, ctxDestroyBody), (0x0207, scrubBody),
   (0x010C, identityGetBody), (0x0A01, portSetBody), (0x0A02, qpCreateBody), (0x0A03, qpModifyBody), (0x0A04, qpDestroyBody),
   (0x0A05, windowOpenBody), (0x0A06, windowCloseBody), (0x0A07, shaperSetBody), (0x0A08, policerSetBody), (0x0A09, gateListBody),
   (0x0A0A, queueStatsBody), (0x0B04, probeSetBody), (0x0104, repairLoadBody), (0x0105, repairReportBody), (0x0106, testBody),
   (0x0107, testBody), (0x0108, quiesceBody), (0x0109, resumeBody), (0x0B01, countersBody), (0x0B02, logReadBody), (0x0B03, eventMaskBody),
   (0x0B05, thermalHistoryBody), (0x0101, deviceInfoBody), (0x0102, configSetBody), (0x0103, configGetBody), (0x010B, timeSetBody)]

/-- Every verb fails its checks where the reserved bits of FLAGS are set (04 R64). -/
theorem witness_AFailedCheckDoesNothingElse :
    verbList.length = 84 ∧ verbList.all (fun x => failsV ready x.1 x.2 [(2, 0xFC)]) = true ∧
    passes (clauseSetCheck freshGrid (verbOf 0x010A [(16, 19)])) = false := by decide +kernel

end Sys2Proof.Tests
end

