-- ==== Sys2Proof/Tests/HostSide.lean ====
section
/-!
SUPPORT. Witnesses for the statements about the clock, the registers, the CXL side, the boot, the pins and the repair events.
-/

namespace Sys2Proof.Tests

open Sys2Proof Sys2Proof.Machine

set_option Elab.async false

def refetch0 (k : Nat) : Refetch := { id := 0, kind := k, part := 0, obj := 1, tier := 0, src := 0, sectors := [0] }

def held0 : HeldCore := { cluster := 0, pos := 3, why := 1, verb := none, since := 0 }

/-- A SELFTEST that has one core left. -/
def testing : TestOp :=
  { seq := 9, op := 0x0106, scope := 1, unit := 0, left := [], done := 0, failed := 0, entries := 0, start := 0, wait := false }

def tested : Dev := { ready with rep.tests := [testing], arr.held := [{ held0 with verb := some 9 }] }

def refetching (k : Nat) : Dev := { phrased with arr.refetches := [refetch0 k] }

theorem witness_RepairEventsTakeEffect :
    [0, 1, 2, 3].all (fun k => on (refetching k) ((refetching k).arr.refetches.find? (fun r => r.id == 0) == some (refetch0 k) &&
      (findPhrase (refetching k) 0 1).isSome)) = true ∧
    on tested ((advance tested 1500000).arr.held.any (fun h => h.verb == some 9 && decide (h.since + 2000000 ≤ (advance tested 1500000).tim.elapsed))) = true ∧
    on { ready with rep.lanes := [(0, 0, 1, 255)] } (!List.any [((0, 0, 1, 255) : Nat × Nat × Nat × Nat)] (fun l => l.1 == 0 && l.2.1 == 0 && l.2.2.1 == 2)) = true ∧
    [0, 1, 2].all (fun k => on { ready with arr := { ready.arr with refetches := [refetch0 k] } } ([refetch0 k].any (fun r => r.id == 0 && r.kind == k))) = true ∧
    on { ready with arr := { ready.arr with held := [held0] } } (decide (held0.since + 2000000 ≤ (advance ready 1500000).tim.elapsed) && held0.verb.isNone) = true ∧
    on ready (!ready.rep.lanes.any (fun l => l.1 == 0)) = true := by decide +kernel

/-- The grid of power-up with a CLAUSE_SET that takes effect at clause 11. -/
def waitingGrid : Grid := { freshGrid with waiting := some { seq := 9, lenUs := 5000, bgPct := 25, source := 1, effective := 11 } }

def clocked (f : Clk → Clk) : Dev := { ready with clk := f ready.clk }

/-- A job that holds core 0 in a clause that began at 500 µs. -/
def overrun : Dev :=
  { clocked (fun c => { c with planned := 50000 }) with arr := { ready.arr with
      jobs := [{ noJob with seq := 5, state := 1, kind := 1 }]
      slices := [{ id := 0, job := 0, channel := false, clusters := [0], cores := [], cs := [], sems := [], barriers := 0 }] } }

def aborted (dt : Nat) : Dev := settleJobs (endStopped (abortJob { advance overrun dt with clk.aborted := true } 0))

theorem witness_BoundaryTakesPlace :
    on overrun (jobRunning overrun 0 && decide (overrun.clk.start + overrun.clk.planned + 8000 * 50 ≤ (advance overrun 450000).tim.elapsed) &&
      (aborted 450000).clk.aborted) = true ∧
    on overrun (!overrun.clk.aborted && decide ((advance overrun 449999).tim.elapsed < overrun.clk.start + overrun.clk.planned + 8000 * 50) &&
      !jobRunning overrun 1) = true ∧
    on ready (!ready.boot.powerFail && boundaryDue (advance ready 50000).clk (lenNs freshGrid) (advance ready 50000).tim.elapsed (coresBusy (advance ready 50000))) = true ∧
    on (clocked (fun c => { c with planned := 50000 })) (!boundaryDue (advance (clocked (fun c => { c with planned := 50000 })) 49999).clk (lenNs freshGrid)
      (advance ready 49999).tim.elapsed (coresBusy (advance ready 49999))) = true := by decide +kernel

theorem witness_OnlyClauseSetChangesTheGrid :
    waitingGrid.legal = true ∧ freshGrid.legal = true ∧ (clauseSetDue waitingGrid 10).isSome = true ∧ (clauseSetDue waitingGrid 9).isNone = true ∧
    gridOk 20 2 0 = true ∧ gridOk 5000 25 1 = true ∧ gridOk 19 2 0 = false ∧ gridOk 5001 25 1 = false := by decide +kernel

/-- The debt at the boundary, with the nominal origin at `n`. -/
def debtAt (n : Nat) : Nat := ready.tim.elapsed - (nominalTime { ready.clk with nominal := n } (lenNs freshGrid) ready.tim.elapsed false).1

theorem witness_SlippedClausesRebase :
    (ready.clk.started && !ready.clk.aborted && ready.clk.mode != 1 && !ready.clk.locking) = true ∧ 8 * lenNs freshGrid < debtAt 49999 ∧
    debtAt 50000 ≤ 8 * lenNs freshGrid ∧ ready.clk.start + lenNs freshGrid / 2 = 525000 ∧ [524999, 525000].find? (fun t => decide (525000 ≤ t)) = some 525000 := by
  decide +kernel

theorem witness_ClausesFollowTheGrid :
    (ready.clk.started && ready.clk.mode == 0 && !ready.clk.aborted && !ready.clk.rebase) = true ∧ 950000 - (ready.clk.nominal + 50000) ≤ 8 * 50000 ∧
    8 * 50000 < 950001 - (ready.clk.nominal + 50000) := by decide +kernel

/-- The grid follows ticks, and the last was accepted at 500 µs. -/
def ticking (f : Clk → Clk) : Dev := clocked (fun c => f { c with mode := 1, lastTick := 500000 })

/-- The clause only waits for its tick. -/
def tickless (d : Dev) (dt : Nat) : Bool :=
  !coresBusy (advance d dt) && decide (d.clk.start + d.clk.planned ≤ (advance d dt).tim.elapsed) && d.clk.ticks.isEmpty

theorem witness_TicksSteerTheGrid :
    on (ticking (fun c => { c with owed := 1 })) (goodSpacing 50000 500000 (advance ready 50000).tim.elapsed) = true ∧
    on (clocked (fun c => { c with mode := 2, lastSeen := none })) (ready.clk.lastSeen.isNone) = true ∧
    on (clocked (fun c => { c with mode := 2, lastSeen := some 500000, goodTicks := 4 })) (!goodSpacing 50000 500000 (advance ready 60000).tim.elapsed &&
      goodSpacing 50000 500000 (advance ready 56250).tim.elapsed) = true ∧
    on (ticking id) (tickless (ticking id) 75000) = true ∧ on (ticking (fun c => { c with ticks := [500000] })) (!tickless (ticking (fun c => { c with ticks := [500000] })) 75000) = true ∧
    on (ticking id) (decide (2 * (advance ready 74999).tim.elapsed < 2 * 500000 + 3 * 50000)) = true ∧
    on ready (ready.clk.mode == 0) = true ∧
    on (clocked (fun c => { c with mode := 1, lastTick := 493750 })) (goodSpacing 50000 493750 (advance ready 50000).tim.elapsed) = true ∧
    on (clocked (fun c => { c with mode := 1, lastTick := 493749 })) (!goodSpacing 50000 493749 (advance ready 50000).tim.elapsed) = true ∧
    on (clocked (fun c => { c with mode := 2, lastSeen := some 500000, goodTicks := 5 }))
      (goodSpacing 50000 500000 (advance ready 50000).tim.elapsed && decide (ready.clk.start + 50000 / 2 ≤ (advance ready 50000).tim.elapsed)) = true ∧
    on (clocked (fun c => { c with mode := 1, lastTick := 500000 })) (decide (2 * 500000 + 3 * 50000 ≤ 2 * (advance ready 75000).tim.elapsed)) = true := by
  decide +kernel

def timed (f : Tim → Tim) : Dev := { ready3 with tim := f ready3.tim }

theorem witness_TimeCommandsTakeEffect_time :
    on (timed (fun t => { t with slewPpb := 500000, slewLeft := 1 })) (decide (slewNeed { ready3.tim with slewPpb := 500000, slewLeft := 1 } ≤ 10 ^ 9)) = true ∧
    on (timed (fun t => { t with ptp := true, ptpPort := 0, ptpDomain := 7, ptpState := 2 })) (subUp ready3 0) = true ∧
    on (timed (fun t => { t with ptp := true, ptpPort := 0, ptpDomain := 7, syncT1 := some 100, syncSeq := 3 })) (subUp ready3 0) = true ∧
    on (timed (fun t => { t with ptp := true, ptpState := 2 })) (decide (ready3.tim.lastSync + 4000000000 ≤ (advance ready3 3999500000).tim.elapsed)) = true := by
  decide +kernel

def withRing (f : Ring → Ring) : Dev := { ready3 with tur.rings := [ring0, f ring17] }

def ringOf (d : Dev) (p : Ring → Bool) : Bool := on d (d.boot.stage == 8 && !d.boot.powerFail && (findRing d 17).any (fun r => r.ld == 0 && r.enabled && p r))

theorem witness_DoorbellsAndFetch_faults :
    ringOf (withRing (fun r => { r with sqHead := 60, sqTail := 62 })) (fun r => !r.fault &&
      decide ((61 + 2 ^ r.depthLog2 - r.sqHead) % 2 ^ r.depthLog2 < (r.sqTail + 2 ^ r.depthLog2 - r.sqHead) % 2 ^ r.depthLog2)) = true ∧
    ringOf (withRing (fun r => { r with cqTail := 1 })) (fun r => !r.fault && decide (postedCount r < (2 + 2 ^ r.depthLog2 - r.cqHead) % 2 ^ r.depthLog2)) = true ∧
    ringOf (withRing (fun r => { r with fault := true, cqTail := 1 })) (fun r => r.fault && decide ((1 + 2 ^ r.depthLog2 - r.cqHead) % 2 ^ r.depthLog2 ≤ postedCount r)) = true ∧
    ringOf (withRing (fun r => { r with cqTail := 1 })) (fun r => !r.fault && !r.stopped && bitSet (2 ^ 33 + 2 ^ 16 + 1) 33 &&
      decide (r.sqTail ≤ 1) && decide ((1 + 2 ^ r.depthLog2 - r.cqHead) % 2 ^ r.depthLog2 ≤ postedCount r)) = true ∧
    ringOf ready3 (fun r => !r.halted) = true ∧ on ready3 ((nextVisit ready3).isNone) = true ∧ serving { ready3 with boot.powerFail := true } = false := by
  decide +kernel

theorem witness_DoorbellsAndFetch :
    ringOf (withRing (fun r => { r with sqHead := 60, sqTail := 62 })) (fun r => !r.fault && !r.stopped && decide (3 < 2 ^ r.depthLog2) &&
      decide ((r.sqTail + 2 ^ r.depthLog2 - r.sqHead) % 2 ^ r.depthLog2 ≤ (3 + 2 ^ r.depthLog2 - r.sqHead) % 2 ^ r.depthLog2)) = true ∧
    ringOf (withRing (fun r => { r with cqTail := 1 })) (fun r => !r.fault && decide ((1 + 2 ^ r.depthLog2 - r.cqHead) % 2 ^ r.depthLog2 ≤ postedCount r)) = true ∧
    ringOf (withRing (fun r => { r with halted := true })) (fun r => r.halted) = true ∧
    ringOf ready3 (fun r => !r.fault && decide (2 ^ r.depthLog2 ≤ 64 % 2 ^ 16)) = true ∧
    on ready3 ((findRing ready3 17).any (fun r => r.ld != 1)) = true ∧
    on (withRing (fun r => { r with sqTail := 1 })) (serving ready3 && (nextVisit (withRing (fun r => { r with sqTail := 1 }))).any (fun r => r.num == 17)) = true := by
  decide +kernel

/-- The device with event ring 0 enabled at 0x40000, `n` records deep, `used` of them unread. -/
def evented (used : Nat) : Dev :=
  { ready with tur := { ready.tur with evqs := setNth ready.tur.evqs 0 { freshEvq with base := 0x1000, depthLog2 := 4, enable := true, tail := used, used := used } } }

def disabled (base : Nat) : Dev := { ready with tur := { ready.tur with evqs := setNth ready.tur.evqs 0 { freshEvq with base := base } } }

/-- A SESS_FORK that has run since time 0, with a limit of 500 µs. -/
def lateVerb : Dev := withVerb ready { verbOf 0x0403 [(8, 500)] with running := true, started := some 0 }

/-- How far ahead of its head the index `h` of an event ring lies. -/
def headAhead (q : Evq) (h : Nat) : Nat := (h + 2 ^ q.depthLog2 - q.head) % 2 ^ q.depthLog2

theorem witness_RegistersAndLimits :
    on (disabled 0x1000) (ready.boot.stage == 8 && (disabled 0x1000).tur.evqs[0]?.any (fun q => !q.enable && bitSet (0x106 % 2 ^ 64) 8 &&
      evqFits (disabled 0x1000) 0 { q with vector := 0x106 % 2 ^ 64 / 2 ^ 16 % 2 ^ 16, depthLog2 := 0x106 % 2 ^ 64 % 32 })) = true ∧
    on (evented 2) ((evented 2).tur.evqs[0]?.any (fun q => q.depthLog2 == 4 && Nat.ble (headAhead q 2) q.used)) = true ∧
    on (evented 2) ((evented 2).tur.evqs[0]?.any (fun q => Nat.blt q.used (headAhead q 3))) = true ∧
    on (evented 2) ((evented 2).tur.evqs[0]?.any (·.enable)) = true ∧ on ready (!limitReached (advance (markStarted ready) 0) 9) = true ∧
    on ready (!ready.tur.fwStall) = true ∧
    on (withRing (fun r => { r with sqTail := 1 })) ((advance (withRing (fun r => { r with sqTail := 1 })) (10 ^ 8)).tur.rings.any (unfetched (withRing (fun r => { r with sqTail := 1 }))) &&
      decide (ready3.tur.lastAccept + 100000000 ≤ (advance ready3 100000000).tim.elapsed)) = true ∧
    on lateVerb (limitReached (advance (markStarted lateVerb) 0) 9 && !lateVerb.tur.late.contains 9) = true := by
  decide +kernel

def decoded : Dev :=
  { ready with cxl := { ready.cxl with lds := setNth ready.cxl.lds 0 { freshLd with hdm := [⟨0, 2 ^ 29, true⟩], m1 := 1 } }, poison := [1] }

/-- The request 0, issued at 500 µs for `w`. -/
def busFor (w : BusWhy) : BusReq := { id := 0, ld := 0, read := true, addr := 0, len := 64, issued := 500000, why := w }

/-- The session with a text ring whose head is being read. -/
def heading : Dev := { withSess ready (fun s => { s with tok := { s.tok with ringNamed := true } }) with bus := [busFor (.textHead h0)] }

/-- LD 0 sanitizes, behind its decoder. -/
def hidden : Dev :=
  { ready with cxl := { ready.cxl with lds := setNth ready.cxl.lds 0 { freshLd with hdm := [⟨0, 2 ^ 29, true⟩], m1 := 1, sanitizing := true } } }

theorem witness_HostMemoryAndBusRequests_more :
    on hidden ((hostDpa hidden 0 controlArea).any (fun x => decide (x / 64 * 64 < exSize hidden 0) && sanitizeHides hidden 0 (x / 64 * 64))) = true ∧
    on heading ((heading.bus.find? (fun r => r.id == 0)).any (fun b => b.why == .textHead h0) &&
      (findSess (busFailed { heading with bus := [] } 0) h0).any (fun s => s.tok.ringNamed)) = true := by decide +kernel

theorem witness_HostMemoryAndBusRequests :
    on decoded ((hostDpa decoded 0 0).any (fun x => decide (x / 64 * 64 < exSize decoded 0) && !sanitizeHides decoded 0 (x / 64 * 64) &&
      !exPoisoned decoded (exKey 0 (x / 64 * 64)) 64)) = true ∧
    on decoded ((hostDpa decoded 0 64).any (fun x => exPoisoned decoded (exKey 0 (x / 64 * 64)) 64 && decide (x / 64 * 64 < exSize decoded 0) && !sanitizeHides decoded 0 x)) = true ∧
    on decoded ((hostDpa decoded 0 (2 ^ 28)).any (fun x => decide (exSize decoded 0 ≤ x / 64 * 64))) = true ∧
    on decoded ((hostDpa decoded 0 (2 ^ 28 - 1)).any (fun x => decide (x < exSize decoded 0))) = true ∧
    on { ready with bus := [{ id := 0, ld := 0, read := true, addr := 0, len := 64, issued := 500000, why := .restoreRead 9 }] }
      (decide (500000 + 50000000 ≤ (advance ready 50000000).tim.elapsed) && decide ((advance ready 49999999).tim.elapsed < 500000 + 50000000)) = true := by
  decide +kernel

def linked (n : Nat) : Dev := { ready with cxl := { ready.cxl with width := n } }

theorem witness_LinkAndConfiguration :
    on ready (ready.cxl.width != 0 && decide (4 < ready.cxl.width) && (findLd ready 0).isSome && ready.tur.evqs[0]?.isSome) = true ∧
    on (linked 0) ((linked 0).cxl.width == 0) = true ∧ on (linked 4) (decide ((linked 4).cxl.width ≤ 4)) = true ∧
    on ready ((findLd ready 15).any (fun x => x.hdm.isEmpty)) = true ∧ on decoded ((findLd decoded 0).any (fun x => x.hdm.length == 1)) = true := by decide +kernel

theorem witness_LinkAndConfiguration_bad_commit :
    on ready ((findLd ready 15).any (fun x => [(1, 0, 2 ^ 28), (0, 1, 2 ^ 28), (0, 0, 2 ^ 28 + 1), (0, 0, 0), (2, 0, 2 ^ 28)].all (fun (o : Nat × Nat × Nat) =>
      !(decide (o.1 < 2) && o.1 == x.hdm.length && o.2.1 % 2 ^ 28 == 0 && o.2.2 % 2 ^ 28 == 0 && o.2.2 != 0)))) = true := by decide +kernel

/-- LD 0 has one record of failure, with handle 1. -/
def logged : Dev := { ready with cxl.lds := (addRecord ready 0 2 64).cxl.lds }

theorem witness_MailboxCommandsAnswer :
    on logged ((findLd logged 0).any (fun x => (eventLog x 2).length == 1 && ((eventLog x 2).take 1).map (·.handle) == (eventLog x 2).map (·.handle))) = true ∧
    on ready ((findLd ready 15).isSome && decide (0 < ready.cxl.width)) = true ∧ [(0 : Nat), 1, 0xFD].all (fun b => decide (b < 256) && decide (b % 4 < 2)) = true := by
  decide +kernel

def sanitizing : Dev := { ready with cxl := { ready.cxl with lds := setNth ready.cxl.lds 0 { freshLd with sanitizing := true } } }

theorem witness_SanitizeAndPoisonList :
    on ready ((findLd ready 0).any (fun x => !x.sanitizing)) = true ∧
    on sanitizing ((findLd sanitizing 0).any (·.sanitizing) && sanitizing.tur.verbs.isEmpty && sanitizing.pool.clearings.isEmpty) = true := by decide +kernel

/-- Two LDs take new allocations. -/
def allocating : Dev := ((rangeFrom 1 2).zip [(1, 0), (2, 16)]).foldl (fun e x => updLd e x.1 (fun y => { y with newM := some x.2 })) ready

theorem witness_FmCommandsAnswer :
    on ready ([(1, 0), (2, 16)].all rangesOk && decide (sumNat ((allocating.cxl.lds.map (fun x => x.newM.getD (x.m1, x.m2))).map (·.1)) ≤ 256) &&
      decide (sumNat ((allocating.cxl.lds.map (fun x => x.newM.getD (x.m1, x.m2))).map (·.2)) ≤ 2048) &&
      ((rangeFrom 1 2).zip [(1, 0), (2, 16)]).all (fun x => !resizeBusy ready x.1 x.2) && (holdExch allocating).isSome) = true := by decide +kernel

def ring16 : Ring := { ring0 with num := 16, ld := 16 }

def tunneled : Dev :=
  { ready with tur := { ready.tur with rings := [ring0, ring16], hubHeld := [{ tag := 3, cpl := [], block := [] }], hubWaits := [⟨4, 500000, true⟩] } }

theorem witness_TunnelCommandsAnswer :
    on tunneled ((findRing tunneled 16).isSome && decide (hubLoad tunneled < 63)) = true ∧
    on tunneled (tunneled.tur.hubHeld.findIdx? (fun h => h.tag == 3) == some 0 && tunneled.tur.hubHeld[0]?.isSome) = true ∧
    on ready (ready.tur.hubHeld.findIdx? (fun h => h.tag == 3)).isNone = true ∧
    (let d : Dev := { tunneled with tur.hubHeld := List.replicate 63 { tag := 3, cpl := [], block := [] } }
     on d ((findRing d 16).isSome && decide (63 ≤ hubLoad d))) = true ∧ on ready (decide (4096 < (List.replicate 4097 (0 : Byte)).length)) = true ∧
    on tunneled (tunneled.tur.hubWaits.any (fun w => w.submit == 4 && w.waiting && decide (w.at' + 1000000000 ≤ (advance tunneled 1000000000).tim.elapsed))) = true := by
  decide +kernel

/-- A request of `n` bytes with version, code and two parameters. -/
def spdmReq (n v code p1 p2 : Nat) : List Byte := bytesOf n [(0, 1, v), (1, 1, code), (2, 1, p1), (3, 1, p2)]

def spdmAt (n : Nat) : Dev :=
  { ready with cxl := { ready.cxl with spdm := [⟨17, n, [], [], []⟩] }, boot := { ready.boot with identity := 2, publicKey := [1], chain := [1, 2] } }

theorem witness_AttestationRequestsAnswered :
    doeOpen ready 17 = true ∧ doeOpen ready 15 = true ∧ (spdmOf (spdmAt 1) 17).stage = 1 ∧ (spdmOf (spdmAt 2) 17).stage = 2 ∧
    (fieldAt (putBytes (spdmReq 32 0x12 0xE3 0 0) 8 (natLe 0x40 4 ++ natLe 4 4)) 8 4 &&& 0x40) = 0x40 ∧
    (fieldAt (putBytes (spdmReq 32 0x12 0xE3 0 0) 8 (natLe 0x40 4 ++ natLe 4 4)) 12 4 &&& 4) = 4 ∧
    on (spdmAt 3) (decide (3 ≤ (spdmOf (spdmAt 3) 17).stage) && slotFilled (spdmAt 3) && canSign (spdmAt 3) && decide (0 < (certChain (spdmAt 3)).length)) = true ∧
    fieldAt (spdmReq 36 0x12 0x83 0 1) 3 1 = 1 ∧ fieldAt (spdmReq 37 0x12 0xE0 1 2) 36 1 = 0 ∧ (measBlocks (spdmAt 3) 17).any (fun x => x.1 == 2) = true ∧
    fieldAt (spdmReq 4 0x12 0xE0 0 255) 3 1 = 255 ∧ bitSet (fieldAt (spdmReq 4 0x12 0xE0 0 255) 2 1) 0 = false ∧ (spdmOf (spdmAt 2) 17).stage < 3 := by
  decide +kernel

theorem witness_PowerPinsTakeEffect :
    ready.boot.powerFail = false ∧ ready.clk.started = true ∧ ready.boot.pwrgd = true ∧ freshDev.boot.pwrgdSeen = false ∧
    { ready.boot with pwrgdSeen := false }.pwrgdSeen = false ∧ { ready.boot with stage := 6 }.stage ≤ 6 ∧ { ready.boot with perstLow := true }.perstLow = true ∧
    answering { ready with boot := { ready.boot with stage := 6 } } = true ∧
    (let a : Dev := { ready with boot := { ready.boot with powerFail := true } }
     a.boot.powerFail && !a.boot.inReset && (issuedPrograms a).isEmpty) = true := by decide +kernel

def stage (n : Nat) (f : Boot → Boot) : Dev := { ready with boot := f { ready.boot with stage := n } }

theorem witness_BootStagesFollow :
    on (stage 0 id) (decide (0 < (stage 0 id).cxl.width) && (stage 0 id).boot.claimed == none && (stage 0 id).boot.transfer == none) = true ∧
    on (stage 0 (fun b => { b with slots := [(1, [1])], claimed := some 17 })) (bootSlot (stage 0 (fun b => { b with slots := [(1, [1])], claimed := some 17 })) 1 != []) = true ∧
    on (stage 2 id) ((bootSlot (stage 2 id) 3).length != 4096) = true ∧
    on (stage 2 (fun b => { b with slots := [(3, List.replicate 4096 0)] }))
      ((bootSlot (stage 2 (fun b => { b with slots := [(3, List.replicate 4096 0)] })) 3).length == 4096) = true ∧
    on (stage 3 id) true = true ∧
    on (stage 5 id) ((touchedClusters { stage 5 id with rep.noSlots := [], rep.noUnits := 0 }).isEmpty && (stage 5 id).arr.out.isEmpty) = true ∧
    (let a := { stage 6 id with pool := { ready.pool with hbmGranules := List.replicate 8 8 } }
     let ms := (List.range 12).map (fun c => Dimm.mk c 0 1 16)
     on a (ddrPopulation ms == some (1, 12) && (ddrPopulation (ms.drop 1)).isNone && a.pool.hbmGranules.length == 8 && bootSlot a 2 == [] &&
       !a.rep.mapEntries.any (fun x => x.kind == 5) && (holdExch { a with
         boot.stage := 7, boot.ddrChannels := 12, boot.ddrDpc := 1, boot.ddrMts := 4800, pool.ddrGranules := sumNat (ms.map (·.gib)) / 4 }).isSome &&
       (holdExch { a with boot.stage := 7, boot.ddrChannels := 0, boot.ddrDpc := 0, boot.ddrMts := 0, pool.ddrGranules := 0 }).isSome)) = true ∧
    (let a := { stage 6 (fun b => { b with slots := [(2, [1])] }) with pool := { ready.pool with hbmGranules := List.replicate 8 8 } }
     let f := findNand 8 [] a
     on a (bootSlot a 2 != [] && !f.rep.mapEntries.any (fun x => x.kind == 5) && f.pool.hbmGranules.length == 8 && bootSlot f 2 != [] &&
       (holdExch { f with boot.stage := 7, boot.ddrChannels := 12, boot.ddrDpc := 1, boot.ddrMts := 4800, pool.ddrGranules := 48 }).any
         (fun b => b.pool.ddrGranules != 0))) = true := by decide +kernel

/-- Firmware transfers: the first part of a slot, the parts that follow it, another sender. -/
theorem witness_BootStagesFollow_transfers :
    (let a := stage 0 (fun b => { b with claimed := some 17, transfer := some (1, List.replicate 128 0) })
     on a (a.boot.claimed == some 17 && a.boot.transfer == some (1, List.replicate 128 0) && decide (128 + 1 ≤ slotLimit 1) && a.boot.claimed != some 3)) = true ∧
    on (stage 4 id) ((stage 4 id).boot.stage != 0 && (stage 4 id).boot.stage != 3 && (stage 4 id).boot.stage != 5 && (stage 4 id).boot.stage != 6) = true := by
  decide +kernel

theorem witness_ThrottlingTakesEffect :
    on { ready with therm := { ready.therm with powerAt := some 500000, power := List.replicate 9 1801 } }
      (decide ((advance ready 99999).tim.elapsed < 500000 + 100000) && decide (500000 + 100000 ≤ (advance ready 100000).tim.elapsed) &&
        decide (18000 < sumNat ((1801 :: List.replicate 9 1801).take 10)) && ready.therm.byPower == 0 &&
        [(1699, 1700), (1700, 1700), (1800, 1800)].all (fun x => decide (sumNat ((x.1 :: List.replicate 9 x.2).take 10) ≤ 18000))) = true ∧
    on { ready with therm := { ready.therm with powerAt := none } } (decide (sumNat ((1699 :: List.replicate 9 1700).take 10) < 17000)) = true ∧
    on ready (decide ((advance ready 0).tim.elapsed / 1000000000 ≤ ready.therm.seconds)) = true ∧
    on ready (ready.therm.powerAt.isNone && !ready.therm.trip && decide (tempLimit 13 3 ≤ 840) && decide (tempLimit 5 3 ≤ 920)) = true ∧
    on { ready with therm := { ready.therm with seen := true } } (decide (ready.therm.seconds < (advance ready 999500000).tim.elapsed / 1000000000)) = true := by
  decide +kernel

end Sys2Proof.Tests
end

