-- ==== Sys2Proof/Tests/Net.lean ====
section
/-!
SUPPORT. Witnesses for the statements about the network: frames and packets that arrive, and the timers of QPs and sub-ports.
-/

namespace Sys2Proof.Tests

open Sys2Proof Sys2Proof.Machine

set_option Elab.async false

def withQp0 (f : Qp → Qp) : Dev := { ready3 with net.qps := [f qp0, qpB] }

def withSub0 (f : SubPort → SubPort) : Dev := { ready3 with net.subs := f sub0 :: (List.range 15).map (fun n => freshSub (n + 1)) }

def withPort0 (f : EPort → EPort) : Dev :=
  { ready3 with net.ports := f port0 :: (List.range 3).map (fun n => freshPort (n + 1)), net.subs := { sub0 with up := false } :: (List.range 15).map (fun n => freshSub (n + 1)) }

def ahead : RxHead := { headOf 16384 with psn := 6 }

/-- Sixty-four jobs that window 0 launched. -/
def launched : Dev := { ready3 with arr.jobs := List.replicate 64 { noJob with launch := some { window := 0, qp := 16384, imm := 0, base := 0, size := 0 } } }

def openWindow (f : Window → Window) : Dev := { ready3 with net.windows := [f window0] }

theorem witness_PeerRequestsAreServed_refusals :
    on launched ((arrived (headOf 16384) launched).any (fun x => (rdmaTarget x.2 x.1 7 0x10000 128).any
      (fun y => y.2.any (fun w => launches w (2 ^ 28) && decide (64 ≤ launchedJobs x.2 w.id))))) = true ∧
    on ready3 ((arrived (headOf 16384) ready3).any (fun x => x.1.part.isSome && (rdmaTarget x.2 x.1 7 (0x10000 + 65533) 4).isNone)) = true ∧
    on (openWindow (fun w => { w with readOk := false })) ((arrived (headOf 16384) (openWindow (fun w => { w with readOk := false }))).any
      (fun x => (rdmaTarget x.2 x.1 7 0x10000 4).any (fun y => y.2.any (fun w => !w.readOk)))) = true := by decide +kernel

theorem witness_PeerRequestsAreServed :
    on ready3 ((arrived (headOf 16384) ready3).any (fun x => (rdmaTarget x.2 x.1 7 0x10000 4).any
      (fun y => y.2.any (fun w => w.readOk && decide (launchedJobs x.2 w.id < 64))) && x.1.part.isSome)) = true ∧
    on ready3 ((arrived (headOf 16384) ready3).any (fun x => (rdmaTarget x.2 x.1 7 (0x10000 + 65532) 4).isSome && !x.2.boot.powerFail)) = true ∧
    on ready3 ((arrived (headOf 16385) ready3).any (fun x => x.1.part.isNone &&
      (takeInOrder x.2 x.1.qpn 1 (headOf 16385)).buddy.ports.any (fun p => p.qpn == x.1.qpn))) = true ∧
    on ready3 ((rxPacket ready3 ahead).1.any (fun q => psnPlace q 6 == 1 && !q.nakSent)) = true := by decide +kernel

def readOut0 : ReadOut := { psn := 5, count := 2, len := 2048, got := [], why := .restore 9 0 }

theorem witness_PeerAnswersAreTaken :
    on (withQp0 (fun q => { q with reads := [readOut0] })) ((rxPacket (withQp0 (fun q => { q with reads := [readOut0] })) (headOf 16384)).1.any
      (fun q => q.reads.any (fun r => (r.psn + r.got.length / Nat.max 1 q.pmtu) % 2 ^ 24 == 5))) = true ∧
    (readOut0.got ++ List.replicate 1024 (0 : Byte)).length < readOut0.len ∧ (readOut0.got ++ List.replicate 2048 (0 : Byte)).length = readOut0.len ∧
    on ready3 (rxPacket ready3 (headOf 16384)).1.isSome = true ∧
    on (withQp0 (fun q => { q with rnrLeft := 1 })) ((rxPacket (withQp0 (fun q => { q with rnrLeft := 1 })) (headOf 16384)).1.any (fun q => decide (0 < q.rnrLeft))) = true ∧
    on (withQp0 (fun q => { q with rnrLeft := 0, rnrCfg := 6 })) ((rxPacket (withQp0 (fun q => { q with rnrLeft := 0, rnrCfg := 6 })) (headOf 16384)).1.any
      (fun q => q.rnrLeft == 0 && q.rnrCfg != 7)) = true ∧
    on ready3 (findSub (countSub ready3 0 13 1) 0).isSome = true := by decide +kernel

theorem witness_OtherFramesAreHandled :
    on ready3 ((findSub ready3 0).any (fun x => x.up && x.ipv4 != 0 && x.ipv6 != 0 && x.ipv4 != 9 && x.ipv6 != 9 &&
      [((0 : Nat), (0 : Nat)), (7, 0xFFFF)].all (fun y => decide (y.1 < 8)))) = true := by decide +kernel

def pkt0 (k : PktKind) : Packet :=
  { kind := k, dst := 1, psn := 0, first := true, last := true, ackReq := true, imm := none, va := 0, rkey := 0, dmaLen := 0, msn := 0, payload := []
    dscp := 0, pcp := 0, len := 100, resent := false }

theorem witness_QpTimersAct :
    on (withQp0 (fun q => { q with ackStart := some 0 })) ((findQp (advance (withQp0 (fun q => { q with ackStart := some 0 })) 0) 16384).any
      (fun q => q.state == 1 && decide (4096 * 2 ^ q.timeout ≤ (advance ready3 0).tim.elapsed))) = true ∧
    on (withQp0 (fun q => { q with rnrUntil := some 500000 })) ((findQp (advance (withQp0 (fun q => { q with rnrUntil := some 500000 })) 0) 16384).any
      (fun q => q.rnrUntil == some 500000)) = true ∧
    on (withQp0 (fun q => { q with ackSince := some 498000 })) (decide (498000 + 2000 ≤ (advance ready3 0).tim.elapsed)) = true ∧
    on ready3 ((findQp (advance ready3 0) 16384).any (fun q => (findSub (advance ready3 0) q.sub).isSome && q.state == 1 && decide (q.tIncAt ≤ (advance ready3 0).tim.elapsed) &&
      q.newMax.isNone && !dyLe (dyNat (qpMaxRate (advance ready3 0) q)) q.rate)) = true ∧
    on (withQp0 (fun q => { q with outq := [pkt0 .write] })) ((findQp (advance (withQp0 (fun q => { q with outq := [pkt0 .write] })) 0) 16384).any
      (fun q => q.state == 1 && decide (q.readyAt ≤ (advance ready3 0).tim.elapsed) && q.rnrUntil.isNone && decide (unackedBytes q + 100 ≤ 4 * 2 ^ 20))) = true := by
  decide +kernel

def queue0 : EQueue := { freshQueue 0 3 with frames := [{ pkt := pkt0 .write, at' := 0 }] }

theorem witness_SubPortTimersAndTraining_more :
    on (withSub0 (fun x => { x with queues := [queue0] })) ((findSub (advance (withSub0 (fun x => { x with queues := [queue0] })) 0) 0).any (fun x => x.up &&
      x.ctl.isEmpty && decide (x.busyUntil ≤ 500000) && (pickQueue x (subRate ready3 0) 500000).any (fun q => q.frames == queue0.frames))) = true ∧
    on (withSub0 (fun x => { x with ingress := [(3, 0, 100)], xoff := [(3, 500000)], cls := { x.cls with xonKib := 1 } }))
      ((findSub (withSub0 (fun x => { x with ingress := [(3, 0, 100)], xoff := [(3, 500000)], cls := { x.cls with xonKib := 1 } })) 0).any (fun x =>
        (pairOf x.xoff 3).isSome && decide (classBytes { x with ingress := [] } 3 < x.cls.xonKib * 1024))) = true ∧
    on (withPort0 (fun p => { p with degrade := true, badLanes := [4] })) ((findPort (withPort0 (fun p => { p with degrade := true, badLanes := [4] })) 0).any
      (fun p => p.state != 0 && p.badLanes.any (fun l => l / 4 == if 0 < 4 then 1 else 0) && (portSubs p).find? (fun k => (subLanes p k).contains 0) == some 0)) = true ∧
    on (withQp0 (fun q => { q with rate := dyNat 400000, maxRate := 1000 })) ((findQp (advance (withQp0 (fun q => { q with rate := dyNat 400000, maxRate := 1000 })) 0) 16384).any
      (fun q => dyLe (dyNat (qpMaxRate ready3 q)) q.rate)) = true := by decide +kernel

theorem witness_SubPortTimersAndTraining :
    on (withSub0 (fun x => { x with ctl := [.pfc 0 0] })) (decide (sub0.busyUntil ≤ (advance ready3 0).tim.elapsed) && sub0.up) = true ∧
    on ready3 (decide ((advance ready3 0).net.refillAt ≤ (advance ready3 0).tim.now) && ready3.net.shaperWaits.isEmpty && ready3.net.meterWaits.isEmpty) = true ∧
    on (withSub0 (fun x => { x with gates := [(255, 1000)] })) (decide (sub0.gateStart + 1000 ≤ (advance ready3 0).tim.elapsed)) = true ∧
    on (withSub0 (fun x => { x with pendGate := some { base := 500000, entries := [], ring := 0, tag := 0 } })) (decide (500000 ≤ (advance ready3 0).tim.now)) = true ∧
    on (withSub0 (fun x => { x with probe := some { part := 0, mask := 1, period := 1000, next := 500000 } })) (decide (500000 ≤ (advance ready3 0).tim.now)) = true ∧
    on (withSub0 (fun x => { x with pauseUntil := [(3, 500000)] })) (pairOf [(3, 500000)] 3 == some 500000) = true ∧
    on (withSub0 (fun x => { x with xoff := [(3, 500000)] })) (pairOf [(3, 500000)] 3 == some 500000) = true ∧
    on (withSub0 (fun x => { x with pauseSince := [(3, 500000)] })) (decide (500000 + 100000000 ≤ (advance ready3 100000000).tim.elapsed) && !sub0.pauseHeld.contains 3) = true ∧
    on (withSub0 (fun x => { x with ingress := [(3, 0, 100)] })) (pairOf sub0.xoff 3).isNone = true ∧
    on (withPort0 (fun p => { p with state := 1 })) ((findPort (withPort0 (fun p => { p with state := 1 })) 0).any (fun p => p.state != 0 && p.split == 0) &&
      (findSub (withPort0 (fun p => { p with state := 1 })) 0).any (fun x => !x.up)) = true ∧
    on ready3 ((findPort ready3 0).any (fun p => p.state != 0 && !p.degrade && (portSubs p).any (fun k => (subLanes p k).contains 7))) = true ∧
    on (withPort0 (fun p => { p with degrade := true })) ((findPort (withPort0 (fun p => { p with degrade := true })) 0).any
      (fun p => p.state != 0 && p.degrade && p.split == 0 && p.half.isNone && p.badLanes.isEmpty)) = true := by decide +kernel

end Sys2Proof.Tests
end

