-- ==== Sys2Proof/WellFormed.lean ====
section
/-!
DEFINITION. Well-formed commands: every operand within what its wires or its field can carry. A command's meaning is total: outside these
ranges too it names nothing, or what its rule says.
-/

namespace Sys2Proof

open Sys2Proof.Machine

/-- A received packet's header fields are within their widths (16 R367, R368). -/
def rxOk (h : RxHead) : Bool :=
  decide (h.sub < 16) && decide (h.pcp < 8) && decide (h.dscp < 64) && decide (h.qpn < 2 ^ 24) && decide (h.psn < 2 ^ 24)

/-- Whether a command's operands are within their ranges. -/
def Instr.wf (i : Instr) : Bool :=
  match i with
  | .clauseBoundary _ temps _ _ => decide (temps.length = 14)
  | .jobOverrunAbort _ _ => true
  | .tickInEdge _ _ => true
  | .tickLossTimeout _ => true
  | .slewEnd _ => true
  | .ptpMessageReceive sub domain _ => decide (sub < 16) && decide (domain < 256)
  | .ptpSyncTimeout _ => true
  | .clauseSet _ => true
  | .timeSet _ => true
  | .doorbellSqUpdate ld off width value => decide (ld < 16) && decide (off < 2 ^ 21) && [1, 2, 4, 8].contains width && decide (value < 2 ^ 64)
  | .doorbellCqUpdate ld off width value => decide (ld < 16) && decide (off < 2 ^ 21) && [1, 2, 4, 8].contains width && decide (value < 2 ^ 64)
  | .doorbellRestart ld off width value => decide (ld < 16) && decide (off < 2 ^ 21) && [1, 2, 4, 8].contains width && decide (value < 2 ^ 64)
  | .ringFetch => true
  | .evqEnableWrite ld off width value => decide (ld < 16) && decide (off < 2 ^ 21) && [1, 2, 4, 8].contains width && decide (value < 2 ^ 64)
  | .evqHeadWrite ld off width value => decide (ld < 16) && decide (off < 2 ^ 21) && [1, 2, 4, 8].contains width && decide (value < 2 ^ 64)
  | .stallSeenClear off width value => decide (off < 2 ^ 21) && [1, 2, 4, 8].contains width && decide (value < 2 ^ 64)
  | .registerWrite ld off width value => decide (ld < 16) && decide (off < 2 ^ 21) && [1, 2, 4, 8].contains width && decide (value < 2 ^ 64)
  | .fwStallTimeout _ => true
  | .verbLimitTimeout _ _ => true
  | .sessFork _ => true
  | .append _ => true
  | .rollback _ => true
  | .truncate _ => true
  | .modelLoad _ => true
  | .modelUnload _ => true
  | .attend _ => true
  | .jobSliceEnd _ => true
  | .partialRecordArrival _ => true
  | .kernelLoad _ => true
  | .kernelUnload _ => true
  | .nop core => decide (core < 4160)
  | .tload core _ => decide (core < 4160)
  | .tstore core _ => decide (core < 4160)
  | .gather core _ => decide (core < 4160)
  | .scatter core _ => decide (core < 4160)
  | .fill core => decide (core < 4160)
  | .mm core => decide (core < 4160)
  | .accRead core => decide (core < 4160)
  | .accWrite core => decide (core < 4160)
  | .quant core => decide (core < 4160)
  | .dequant core => decide (core < 4160)
  | .vop core => decide (core < 4160)
  | .vred core => decide (core < 4160)
  | .rotate core => decide (core < 4160)
  | .smxPart core => decide (core < 4160)
  | .smxMerge core => decide (core < 4160)
  | .partEmit core => decide (core < 4160)
  | .appendRows core => decide (core < 4160)
  | .nbIssue core => decide (core < 4160)
  | .nbOperationComplete core _ _ => decide (core < 4160)
  | .movementComplete core _ => decide (core < 4160)
  | .semWait core => decide (core < 4160)
  | .semSignal core => decide (core < 4160)
  | .barCl core => decide (core < 4160)
  | .barDev core => decide (core < 4160)
  | .bcast core => decide (core < 4160)
  | .flag core => decide (core < 4160)
  | .flagWait core => decide (core < 4160)
  | .loopBegin core => decide (core < 4160)
  | .loopEnd core => decide (core < 4160)
  | .skip core => decide (core < 4160)
  | .endDesc core => decide (core < 4160)
  | .zeroFillComplete _ _ => true
  | .pinTiles _ => true
  | .sessOpen _ => true
  | .sessClose _ => true
  | .discard _ => true
  | .sessQuery _ => true
  | .park _ => true
  | .revive _ => true
  | .move _ => true
  | .moverCopyComplete _ _ => true
  | .lexLoad _ => true
  | .lexUnload _ => true
  | .tokenize _ => true
  | .detokOpen _ => true
  | .stopSet _ => true
  | .detokFlush _ => true
  | .textHeadReadDone _ value => decide (value < 2 ^ 64)
  | .gramLoad _ => true
  | .gramUnload _ => true
  | .gramBind _ => true
  | .samplerSet _ => true
  | .sample _ => true
  | .maskGet _ => true
  | .commit _ => true
  | .idxCreate _ => true
  | .idxDrop _ => true
  | .idxInsert _ => true
  | .idxDelete _ => true
  | .idxSearch _ => true
  | .idxMerge _ => true
  | .bitmapLoad _ => true
  | .idxRepair _ => true
  | .idxStats _ => true
  | .mergeComplete _ => true
  | .repairPassEnd _ => true
  | .attachComplete _ => true
  | .flMount _ => true
  | .flFormat _ => true
  | .flHealth _ => true
  | .flDiscard _ => true
  | .flSanitize _ => true
  | .flAssign _ => true
  | .formatComplete _ _ => true
  | .flSanitizeDone _ => true
  | .nandReadComplete _ _ _ _ _ => true
  | .nandProgramComplete _ _ _ => true
  | .nandEraseComplete _ _ => true
  | .nandOpTimeout _ _ => true
  | .mapCheckpoint => true
  | .mountComplete _ _ _ => true
  | .ckptBegin _ => true
  | .ckptStatus _ => true
  | .ckptDrain _ => true
  | .restore _ => true
  | .buddyPair _ => true
  | .buddyUnpair _ => true
  | .ckptStaged ctx _ => decide (ctx < 2048)
  | .hello h m => rxOk h && decide (m.length = 128)
  | .helloAck h m => rxOk h && decide (m.length = 128)
  | .heartbeat h m => rxOk h && decide (m.length = 128)
  | .openMsg h m => rxOk h && decide (m.length = 128)
  | .grant h m => rxOk h && decide (m.length = 128)
  | .sealMsg h m => rxOk h && decide (m.length = 128)
  | .sealed h m => rxOk h && decide (m.length = 128)
  | .release h m => rxOk h && decide (m.length = 128)
  | .released h m => rxOk h && decide (m.length = 128)
  | .find h m => rxOk h && decide (m.length = 128)
  | .found h m => rxOk h && decide (m.length = 128)
  | .shardWriteImmediate h va rkey dmaLen imm _ => rxOk h && decide (va < 2 ^ 64) && decide (rkey < 2 ^ 32) && decide (dmaLen < 2 ^ 32) && decide (imm < 2 ^ 32)
  | .buddyHeartbeatTimer _ => true
  | .buddyRequestResend _ _ => true
  | .buddyLossTimeout _ => true
  | .partCreate _ => true
  | .partDestroy _ => true
  | .partResize _ => true
  | .partBind _ => true
  | .rebindSwitch part => decide (part < 32)
  | .ctxCreate _ => true
  | .ctxDestroy _ => true
  | .scrub _ => true
  | .identityGet _ => true
  | .portSet _ => true
  | .qpCreate _ => true
  | .qpModify _ => true
  | .qpDestroy _ => true
  | .windowOpen _ => true
  | .windowClose _ => true
  | .shaperSet _ => true
  | .policerSet _ => true
  | .gateListSet _ => true
  | .queueStats _ => true
  | .latencyProbeSet _ => true
  | .rdmaWriteReceive h va rkey dmaLen _ => rxOk h && decide (va < 2 ^ 64) && decide (rkey < 2 ^ 32) && decide (dmaLen < 2 ^ 32)
  | .writeWithImmediate h va rkey dmaLen imm _ => rxOk h && decide (va < 2 ^ 64) && decide (rkey < 2 ^ 32) && decide (dmaLen < 2 ^ 32) && decide (imm < 2 ^ 32)
  | .rdmaReadRequest h va rkey len => rxOk h && decide (va < 2 ^ 64) && decide (rkey < 2 ^ 32) && decide (len < 2 ^ 32)
  | .rdmaReadResponse h _ => rxOk h
  | .sendReceive h _ => rxOk h
  | .ackReceive h => rxOk h
  | .nakReceive h _ _ => rxOk h
  | .cnpReceive h => rxOk h
  | .pfcFrameReceive sub _ _ => decide (sub < 16)
  | .arpRequest sub _ mac ip target => decide (sub < 16) && decide (mac < 2 ^ 48) && decide (ip < 2 ^ 128) && decide (target < 2 ^ 128)
  | .neighborSolicitation sub _ mac ip target => decide (sub < 16) && decide (mac < 2 ^ 48) && decide (ip < 2 ^ 128) && decide (target < 2 ^ 128)
  | .otherFrameReceive sub _ _ => decide (sub < 16)
  | .egressFrameStart sub _ => decide (sub < 16)
  | .ackTimeout qpn _ => decide (qpn < 2 ^ 24)
  | .rnrRetryExpiry qpn _ => decide (qpn < 2 ^ 24)
  | .ackCoalesceExpiry qpn _ => decide (qpn < 2 ^ 24)
  | .tIncExpiry qpn _ => decide (qpn < 2 ^ 24)
  | .shaperRefill _ => true
  | .gateEntryExpiry sub _ => decide (sub < 16)
  | .gateListTakeover sub _ => decide (sub < 16)
  | .latencyProbeSample sub _ => decide (sub < 16)
  | .pfcPauseExpiry sub cls _ => decide (sub < 16) && decide (cls < 8)
  | .pfcXoffRefresh sub cls _ => decide (sub < 16) && decide (cls < 8)
  | .pauseHeldTimeout sub cls _ => decide (sub < 16) && decide (cls < 8)
  | .portTrainingComplete port _ _ => decide (port < 4)
  | .ethLaneFailure port lane _ _ => decide (port < 4) && decide (lane < 8)
  | .cxlMemRead ld _ _ => decide (ld < 16)
  | .cxlMemWrite ld _ bytes => decide (ld < 16) && decide (bytes.length ≤ 64)
  | .cxlLinkDown => true
  | .cxlLinkUp width _ bound => [4, 8, 16].contains width && decide (bound < 2 ^ 16)
  | .cxlHotReset _ => true
  | .cxlFlr ld => decide (ld < 16)
  | .cxlLaneFailure => true
  | .busMasterErrorResponse _ => true
  | .busMasterTimeout _ _ => true
  | .identifyMemoryDevice ld => decide (ld < 16)
  | .getHealthInfo ld => decide (ld < 16)
  | .getAlertConfiguration ld => decide (ld < 16)
  | .setAlertConfiguration ld valid enable life _ => decide (ld < 16) && decide (valid < 256) && decide (enable < 256) && decide (life < 256)
  | .getEventRecords ld log => decide (ld < 16) && decide (log < 256)
  | .clearEventRecords ld log _ _ => decide (ld < 16) && decide (log < 256)
  | .getEventInterruptPolicy ld => decide (ld < 16)
  | .setEventInterruptPolicy ld _ => decide (ld < 16)
  | .getSupportedLogs ld => decide (ld < 16)
  | .getLog ld uuid _ _ => decide (ld < 16) && decide (uuid.length = 16)
  | .getPoisonList ld _ _ => decide (ld < 16)
  | .sanitize ld => decide (ld < 16)
  | .mailboxSanitizeDone ld => decide (ld < 16)
  | .getFwInfo who => decide (who < 18)
  | .transferFw who action slot _ _ => decide (who < 18) && decide (action < 256) && decide (slot < 256)
  | .activateFw who slot => decide (who < 18) && decide (slot < 256)
  | .getLdInfo => true
  | .getLdAllocations _ _ => true
  | .setLdAllocations _ _ => true
  | .getQosControl => true
  | .setQosControl _ => true
  | .getQosStatus => true
  | .getQosAllocatedBw _ _ => true
  | .setQosAllocatedBw _ _ => true
  | .getQosBwLimit _ _ => true
  | .setQosBwLimit _ _ => true
  | .tunnelSubmit _ _ => true
  | .tunnelCollect tag => decide (tag < 2 ^ 32)
  | .tunnelEvents _ => true
  | .tunnelSubmitExpiry _ _ => true
  | .doeDiscovery who index => decide (who < 18) && decide (index < 256)
  | .cdatTableAccess who handle => decide (who < 18) && decide (handle < 65536)
  | .getVersion who _ => decide (who < 18)
  | .getCapabilities who _ => decide (who < 18)
  | .negotiateAlgorithms who _ => decide (who < 18)
  | .getDigests who _ => decide (who < 18)
  | .getCertificate who _ => decide (who < 18)
  | .challenge who _ => decide (who < 18)
  | .getMeasurements who _ => decide (who < 18)
  | .repairLoad _ => true
  | .repairReport _ => true
  | .selftest _ => true
  | .calibrate _ => true
  | .quiesce _ => true
  | .resume _ => true
  | .refetchComplete _ _ _ _ => true
  | .selftestTestComplete cluster pos _ _ => decide (cluster < 257) && decide (pos < 64)
  | .ucieLaneFailure _ _ _ => true
  | .pwrgdAssert _ => true
  | .pwrgdDeassert _ => true
  | .perstNAssert _ => true
  | .perstNDeassert => true
  | .pwrfailNAssert _ => true
  | .railUndervoltage _ => true
  | .identityDerived => true
  | .firmwareStarted => true
  | .bootSelftestDone _ _ _ _ => true
  | .trainingDone _ _ _ nand _ => [1, 2, 4, 8, 16].contains nand.luns
  | .throtNAssert _ => true
  | .throtNRelease => true
  | .powerSample _ _ => true
  | .throttleRequestExpiry _ => true
  | .thermalTrip sensor _ => decide (sensor < 14)
  | .thermalHistoryTick _ => true
  | .countersRead _ => true
  | .logRead _ => true
  | .eventMask _ => true
  | .thermalHistory _ => true
  | .deviceInfo _ => true
  | .configSet _ => true
  | .configGet _ => true
  | .unitDescriptorComplete core unit => decide (core < 4160) && decide (unit < 256)
  | .ingressBufferDrain sub => decide (sub < 16)
  | .qpPacerRelease qpn _ => decide (qpn < 2 ^ 24)
  | .msixTableWrite ld vec addr data _ => decide (ld < 16) && decide (vec < 256) && decide (addr < 2 ^ 64) && decide (data < 2 ^ 32)
  | .hdmDecoderCommit ld idx _ _ => decide (ld < 16) && decide (idx < 2)
  | .configSpaceWrite ld _ value => decide (ld < 16) && decide (value < 2 ^ 64)
  | .pwrfailNDeassert => true
  | .busMasterReadComplete _ _ => true

end Sys2Proof
end

