-- ==== Sys2Proof/Tests/Slice0.lean ====
section
/-!
SUPPORT. Tests: the well-formedness checks, and single commands and operations beside the worked examples and tables of the spec, which each
test names.
-/

namespace Sys2Proof.Tests

open Sys2Proof Sys2Proof.Machine

set_option Elab.async false

/-! Well-formedness: each check refuses an ill-formed term. -/

theorem test_wf_boundary : (Instr.clauseBoundary 0 (List.replicate 14 0) [] []).wf = true ∧ (Instr.clauseBoundary 0 [] [] []).wf = false := by decide +kernel

theorem test_wf_writes :
    (Instr.doorbellSqUpdate 0 0x1000 8 0).wf = true ∧ (Instr.doorbellSqUpdate 16 0x1000 8 0).wf = false ∧ (Instr.doorbellCqUpdate 0 (2 ^ 21) 8 0).wf = false ∧
    (Instr.doorbellRestart 0 0x1000 3 0).wf = false ∧ (Instr.evqEnableWrite 0 0 8 (2 ^ 64)).wf = false ∧ (Instr.evqHeadWrite 16 0 8 0).wf = false ∧
    (Instr.stallSeenClear 0x18 16 0).wf = false ∧ (Instr.registerWrite 0 0 0 0).wf = false := by decide +kernel

theorem test_wf_cores :
    (Instr.nop 4159).wf = true ∧
    [Instr.nop 4160, .tload 4160 [], .tstore 4160 [], .gather 4160 [], .scatter 4160 [], .fill 4160, .mm 4160, .accRead 4160, .accWrite 4160, .quant 4160,
     .dequant 4160, .vop 4160, .vred 4160, .rotate 4160, .smxPart 4160, .smxMerge 4160, .partEmit 4160, .appendRows 4160, .nbIssue 4160,
     .nbOperationComplete 4160 0 [], .movementComplete 4160 0, .semWait 4160, .semSignal 4160, .barCl 4160, .barDev 4160, .bcast 4160, .flag 4160,
     .flagWait 4160, .loopBegin 4160, .loopEnd 4160, .skip 4160, .endDesc 4160, .unitDescriptorComplete 4160 0].all (fun i => !i.wf) = true := by decide +kernel

theorem test_wf_packets :
    (Instr.ackReceive (headOf 0)).wf = true ∧ (Instr.ackReceive { headOf 0 with psn := 2 ^ 24 }).wf = false ∧
    (Instr.hello (headOf 0) []).wf = false ∧ (Instr.find { headOf 0 with sub := 16 } (List.replicate 128 0)).wf = false ∧
    (Instr.shardWriteImmediate (headOf 0) 0 0 0 (2 ^ 32) []).wf = false ∧ (Instr.rdmaWriteReceive (headOf 0) (2 ^ 64) 0 0 []).wf = false ∧
    (Instr.writeWithImmediate (headOf 0) 0 (2 ^ 32) 0 0 []).wf = false ∧ (Instr.rdmaReadRequest (headOf 0) 0 0 (2 ^ 32)).wf = false ∧
    (Instr.ptpMessageReceive 16 0 (.sync 0 none)).wf = false := by decide +kernel

theorem test_wf_network :
    (Instr.ackTimeout (2 ^ 24) 0).wf = false ∧ (Instr.qpPacerRelease (2 ^ 24) 0).wf = false ∧ (Instr.arpRequest 0 64 (2 ^ 48) 0 0).wf = false ∧
    (Instr.neighborSolicitation 0 64 0 (2 ^ 128) 0).wf = false ∧ (Instr.pfcPauseExpiry 0 8 0).wf = false ∧ (Instr.egressFrameStart 16 0).wf = false ∧
    (Instr.portTrainingComplete 4 0 0).wf = false ∧ (Instr.ethLaneFailure 0 8 0 0).wf = false ∧ (Instr.rebindSwitch 32).wf = false ∧
    (Instr.ckptStaged 2048 0).wf = false := by decide +kernel

theorem test_wf_host :
    (Instr.cxlMemWrite 0 0 (List.replicate 65 0)).wf = false ∧ (Instr.cxlLinkUp 3 false 0).wf = false ∧ (Instr.cxlFlr 16).wf = false ∧
    (Instr.setAlertConfiguration 0 256 0 0 0).wf = false ∧ (Instr.getLog 0 [] 0 0).wf = false ∧ (Instr.transferFw 18 0 0 0 []).wf = false ∧
    (Instr.tunnelCollect (2 ^ 32)).wf = false ∧ (Instr.doeDiscovery 0 256).wf = false ∧ (Instr.cdatTableAccess 0 65536).wf = false ∧
    (Instr.selftestTestComplete 257 0 true 0).wf = false ∧ (Instr.thermalTrip 14 0).wf = false := by decide +kernel

theorem test_wf_late_rows :
    (Instr.msixTableWrite 0 256 0 0 false).wf = false ∧ (Instr.hdmDecoderCommit 0 2 0 0).wf = false ∧ (Instr.configSpaceWrite 16 .command 0).wf = false ∧
    (Instr.textHeadReadDone 0 (2 ^ 64)).wf = false ∧ (Instr.ingressBufferDrain 16).wf = false := by decide +kernel

/-- No row of the opcode table gives bits, so no word spells a command. -/
theorem test_no_word_spells_a_command : decodeTableWord 8 0 = none ∧ decodeTableWord 512 0x0401 = none := by decide +kernel

/-! Operations beside the spec's worked examples. -/

/-- 00, R5: handle 0x0300_002A at offset 0x10 is the bytes 2A 00 00 03. -/
theorem test_handle_in_memory :
    handleOf { sess0 with gen := 3, idx := 42 } = 0x0300002A ∧ memReadN (memWriteN [] 0x10 (natLe 0x0300002A 4)) 0x10 4 = [0x2A, 0, 0, 3] := by decide +kernel

/-- 02, the recurrent state of layer 51 of that session, of context 5 of partition 2. -/
theorem test_object_reference : objRef 4 (2 * 64 + 5) (51 * 2 ^ 32 + 0x0300002A) = 0x2085003303000 * 2 ^ 12 + 0x02A := by decide +kernel

/-- The clock at the start of clause n of 03 Table 3-1. -/
def clk0 : Clk := { freshClk with started := true, count := 7, start := 0, nominal := 0, planned := 50000 }

def clkAfter (c : Clk) (now : Nat) : Clk := (nextClause c 50000 50000 now now false).1

/-- 03 Table 3-1: debts and planned lengths of clauses n+1 to n+4. -/
theorem test_overrun_regained :
    (let c1 := clkAfter clk0 120000
     let c2 := clkAfter c1 145000
     let c3 := clkAfter c2 170000
     let c4 := clkAfter c3 200000
     [c1, c2, c3, c4].map (fun c => (c.nominal, c.debt, c.planned, c.count))) =
      [(50000, 70000, 25000, 8), (100000, 45000, 25000, 9), (150000, 20000, 30000, 10), (200000, 0, 50000, 11)] := by decide +kernel

/-- 03, after the table: aborted at 450 µs, clause n+1 is not shortened, and the grid re-bases at 500 µs. -/
theorem test_abort_rebases :
    (let c1 := clkAfter { clk0 with aborted := true } 450000
     (c1.debt, c1.planned, c1.rebase, (clkAfter c1 500000).nominal, (clkAfter c1 500000).debt)) = (400000, 50000, true, 500000, 0) := by decide +kernel

/-- 05, one MXFP8 block of 3.9, 3.1 and 0.02: scale 0x78, elements 0x7E, 0x7C and 0x42, one clamped. -/
theorem test_mxfp8_block :
    (quantBlock 1 ([0x4079999A, 0x40466666, 0x3CA3D70A].map f32)) = ([0x7E, 0x7C, 0x42], 0x78, 1) := by decide +kernel

/-- 05, the reference model's stem phrase: 34 KiB. -/
theorem test_stem_phrase_size : phraseBytes { layer0 with sL := 448, sP := 64 } 0 = 34816 := by decide +kernel

/-- Binary32 (05 R90, 07 R145): 1.5 + 2.25, 3 × 0.5 and 1 / 4 are exact. -/
theorem test_binary32 :
    f32Add 0x3FC00000 0x40100000 = 0x40700000 ∧ f32Mul 0x40400000 0x3F000000 = 0x3FC00000 ∧ f32Div f32One 0x40800000 = 0x3E800000 ∧
    f32Lt f32NegInf 0 = true := by decide +kernel

/-- 17, LD 2 with two decoders: 512 MiB at 0x20_0000_0000 and 8 GiB at 0x30_0000_0000. -/
def hdm2 : List Hdm := [⟨0x2000000000, 0x20000000, true⟩, ⟨0x3000000000, 0x200000000, true⟩]

theorem test_decoders :
    hdmDpa hdm2 0x2000004000 0 = some 0x4000 ∧ hdmDpa hdm2 0x3000000000 0 = some 0x20000000 ∧ hdmDpa hdm2 0x3100000000 0 = some 0x120000000 ∧
    hdmDpa hdm2 0x3200000000 0 = none := by decide +kernel

/-- 16 R381: at a CIR of 100,000 Mb/s a shaper gains 12,500 bytes per refill. -/
theorem test_shaper_refill :
    (shaperRefill { cfg := { cir := 100000, cbs := 2 ^ 23, pir := 0, pbs := 0, overhead := 20 }, c := 0, p := 0, new := none }).c = 12500 * 1024 := by decide +kernel

/-- 22, a host finds a power-cycled device: HUB_ID and HUB_STATUS. -/
theorem test_hub_registers :
    bar0Reg freshGrid { ready with boot := { ready.boot with ifMajor := 1, ifMinor := 3 } } 0 0 = 0x4096B00103004E4D ∧
    bar0Reg freshGrid { ready with
      boot := { ready.boot with identity := 2 }, flash := { ready.flash with state := 1 }
      therm := { ready.therm with seen := true, sensors := { freshSensor with current := 600 } :: ready.therm.sensors.drop 1 } } 0 0x10 =
        0x00004B0003180108 := by decide +kernel

/-- The CRC-32C check value of "123456789" (RFC 3720). -/
theorem test_crc32c : crc32c [0x31, 0x32, 0x33, 0x34, 0x35, 0x36, 0x37, 0x38, 0x39] = 0xE3069283 := by decide +kernel

/-! Single commands. -/

/-- The device after a command, and after a verb whose entry has the fields `fs`. -/
def after (c : Instr) (d : Dev) : Dev := match exec c (stateOf d) with | .next t => t.dev | _ => d

def afterVerb (c : Instr) (d : Dev) (op : Nat) (fs : List (Nat × Nat)) : Dev := after c (withVerb d (verbOf op fs))

/-- Status and ERR_BYTE of the first completion of ring 0. -/
def answerOf (d : Dev) : Nat × Nat := (fieldAt (memReadN d.exch 0x2000 32) 4 2, fieldAt (memReadN d.exch 0x2000 32) 7 1)

def cplField (d : Dev) (off n : Nat) : Nat := fieldAt (memReadN d.exch 0x2000 32) off n

/-- 19 R435, R436: with 10 µs of PWRGD, and PERST_N high, the reset of power-up ends; less is not seen. -/
theorem test_pwrgd :
    (let d := { freshDev with boot := { freshBoot with perstLow := false } }
     ((after (.pwrgdAssert 10000) d).boot.inReset, (after (.pwrgdAssert 9999) d).boot.inReset, (after (.pwrgdAssert 10000) freshDev).boot.inReset)) =
      (false, true, true) := by decide +kernel

/-- 04, two verbs across a ring wrap: ring 37 at tail 1,022, a doorbell with SQ_TAIL 0 at 0x1128. -/
theorem test_doorbell_wraps :
    (let d := { ready with tur.rings := [ring0, { ring0 with num := 37, admin := false, depthLog2 := 10, sqHead := 1022, sqTail := 1022 }] }
     (findRing (after (.doorbellSqUpdate 0 0x1128 8 0x0000000100000000) d) 37).map (·.sqTail)) = some 0 := by decide +kernel

/-- 04, step 7: CQ_HEAD 2 passes an entry not yet posted: cause 3. -/
theorem test_head_passes_tail :
    (let d := { ready with tur.rings := [ring0, { ring0 with num := 37, admin := false, depthLog2 := 10, cqHead := 1023, cqTail := 1, phase := false }] }
     (findRing (after (.doorbellCqUpdate 0 0x1128 8 0x0000000200020000) d) 37).map (fun r => (r.fault, r.faultCause))) = some (true, 3) := by decide +kernel

/-- 20, a saturated frame counter: one more event, and then none. -/
theorem test_counter_saturates :
    (let d := bump ready 5 4 1 sat48
     let e := bump d 5 4 1 1
     ((ctrGet d 5 4 1).ovf, (ctrGet e 5 4 1).val, (ctrGet e 5 4 1).ovf, e.tur.history.length, (bump e 5 4 1 1).tur.history.length)) =
      (false, 0xFFFFFFFFFFFF, true, 1, 1) := by decide +kernel

/-- 17, a read past the allocation: all ones with poison, and counted. -/
theorem test_read_past_the_area :
    (let d := { ready with cxl := { ready.cxl with lds := setNth ready.cxl.lds 2 { freshLd with m1 := 2, m2 := 16, hdm := hdm2 } } }
     let e := after (.cxlMemRead 2 0x3100000000 false) d
     (e.outs.memReads.map (fun x => (x.2.1, x.2.2.1 == List.replicate 64 255, x.2.2.2)), (ctrGet e 1 2 3).val)) = ([(0x120000000, true, true)], 1) := by
  decide +kernel

/-- 22, CONFIG_SET with COMPARE: the first process sets 7, and a second one gets ST_STATE and 7. -/
theorem test_config_set :
    (afterVerb (.configSet 9) ready 0x0102 [(16, 1), (17, 1), (32, 7)]).tur.config = 7 ∧
    (let d := afterVerb (.configSet 9) { ready with tur.config := 7 } 0x0102 [(16, 1), (17, 1), (32, 9)]
     (answerOf d, cplField d 8 8, d.tur.config)) = ((0x16, 0xFF), 7, 7) := by decide +kernel

/-- 03 R50: L of 19 µs is out of range, at the byte of LEN_US. -/
theorem test_clause_set_range : answerOf (afterVerb (.clauseSet 9) ready 0x010A [(16, 19)]) = (0x11, 16) := by decide +kernel

/-- 03 R35: at power-up CLAUSE_CFG shows L 50 and b 6. -/
theorem test_clause_cfg : bar0Reg freshGrid freshDev 0 0x10010 = 6 * 2 ^ 32 + 50 := by decide +kernel

/-- 02 R22: a handle of an older generation is stale, at HANDLE. -/
theorem test_stale_handle : answerOf (afterVerb (.sessQuery 9) { ready with kv.cat := [{ sess0 with gen := 2 }] } 0x040C [(16, 0x1000000)]) = (0x14, 16) := by
  decide +kernel

/-- 09 R195: SESS_QUERY reports ACTIVE and LOG_LEN 4. -/
theorem test_sess_query : (let d := afterVerb (.sessQuery 9) ready 0x040C [(16, 0x1000000)]; (answerOf d, cplField d 8 1, cplField d 16 4)) = ((0, 0xFF), 1, 4) := by
  decide +kernel

/-- 05 R107: TRUNCATE beyond LOG_LEN is refused at NEW_LEN. -/
theorem test_truncate_too_long : (answerOf (afterVerb (.truncate 9) ready 0x040D [(16, 0x1000000), (20, 5)])).1 ≠ 0 := by decide +kernel

/-- 04 R64: the completion carries TAG, and PHASE 1 on the first pass. -/
theorem test_completion_tag :
    (let d := afterVerb (.configGet 9) ready 0x0103 [(4, 0xABCD), (16, 1)]
     (cplField d 0 4, cplField d 6 1, (findRing d 0).map (fun r => (r.cqTail, r.inFlight)))) = (0xABCD, 0x80, some (1, 0)) := by decide +kernel

/-- 15 R353: PART_BIND to the LD that holds the partition completes at once. -/
theorem test_part_bind_same : answerOf (afterVerb (.partBind 9) ready 0x0204 []) = (0, 0xFF) := by decide +kernel

/-- 18 R429: RESUME of a device that is not quiesced completes with ST_OK. -/
theorem test_resume : answerOf (afterVerb (.resume 9) ready 0x0109 []) = (0, 0xFF) := by decide +kernel

/-- 17 R409: Get LD Info answers 576 GiB and 16 LDs. -/
theorem test_get_ld_info : (after .getLdInfo ready).outs.replies.map (fun r => (r.code, leNat (r.bytes.take 8), leNat ((r.bytes.drop 8).take 2))) = [(0, 576 * 2 ^ 30, 16)] := by
  decide +kernel

/-- 17 R410: a collect with nothing held reports NONE, STATE 3. -/
theorem test_tunnel_empty : (after (.tunnelCollect 0) ready).outs.replies.map (fun r => fieldAt r.bytes 0 1) = [3] := by decide +kernel

/-- 21 R469: a THROT_N of 1 µs requests a level until its release. -/
theorem test_throttle_pin :
    (after (.throtNAssert 1000) ready).therm.byPin = true ∧ (after (.throtNAssert 999) ready).therm.byPin = false ∧
    (after .throtNRelease { ready with therm := { ready.therm with byPin := true } }).therm.byPin = false := by decide +kernel

/-- 20 R458, 13 Table 13-5: a bin is 5 °C wide, bin 0 is below 0 °C and the last takes 110 °C and above. -/
theorem test_temperature_bins : [tempBin (-1), tempBin 0, tempBin 39, tempBin 40, tempBin 2000] = [0, 1, 1, 2, 23] := by decide +kernel

/-- 17 R403: a masked vector becomes pending and is signalled when the mask clears. -/
theorem test_msix_mask :
    (let x := { freshLd with msixEnable := true, pending := [3] }
     let d := { ready with cxl := { ready.cxl with lds := setNth ready.cxl.lds 0 { x with command := 6 } } }
     (after (.msixTableWrite 0 3 0x1000 5 false) d).outs.msix.length) = 1 := by decide +kernel

end Sys2Proof.Tests
end

section
/-!
The block at power-up: what the model's readers answer where nothing has been written yet, and the reset state by those answers.
-/

namespace Sys2Proof.PowerUp

open Sys2Proof.Machine

/-- A device that keeps no counter answers a counter of value 0 without overflow for every name (20 R451). -/
theorem ctrGet_of_ctrs_nil {d : Dev} (h : d.tur.ctrs = []) (scope unit num : Nat) :
    ctrGet d scope unit num = { scope := scope, unit := unit, num := num, val := 0, ovf := false } := by
  simp [ctrGet, h]

/-- An LD whose MSI-X table has never been written masks every vector (17 R403). -/
theorem msixMasked_of_msix_nil {x : CxlLd} (h : x.msix = []) (v : Nat) : msixMasked x v = true := by
  simp [msixMasked, h]

/-- Each of the 16 event rings at reset is the ring of 04 Table 4-10. -/
theorem reset_evq_eq_fresh {q : Evq} (h : q ∈ State.reset.dev.tur.evqs) : q = freshEvq :=
  List.eq_of_mem_replicate h

/-- Each of the 16 LDs at reset is the LD of power-up (17 R398, R403). -/
theorem reset_ld_eq_fresh {x : CxlLd} (h : x ∈ State.reset.dev.cxl.lds) : x = freshLd :=
  List.eq_of_mem_replicate h

/-- Every port at reset is DISABLED, whatever its number (16 R363). -/
theorem reset_port_disabled {p : EPort} (h : p ∈ State.reset.dev.net.ports) : p.state = 0 := by
  obtain ⟨n, -, rfl⟩ := List.mem_map.mp h
  rfl

/-- Every counter reads 0 at reset, with no overflow. -/
theorem reset_counter_zero (scope unit num : Nat) :
    (ctrGet State.reset.dev scope unit num).val = 0 ∧ (ctrGet State.reset.dev scope unit num).ovf = false := by
  rw [ctrGet_of_ctrs_nil rfl]
  exact ⟨rfl, rfl⟩

/-- No event ring is enabled at reset: none has a vector or has lost a record. -/
theorem reset_evq_disabled {q : Evq} (h : q ∈ State.reset.dev.tur.evqs) : q.enable = false ∧ q.vector = 0xFFFF ∧ q.lost = 0 := by
  rw [reset_evq_eq_fresh h]
  exact ⟨rfl, rfl, rfl⟩

/-- Every LD at reset has MSI-X off, each of its vectors masked, one unit of range 1 and the bandwidth allocation 1/16 of 17 Table 17-5
(16 of 256). -/
theorem reset_ld_settings {x : CxlLd} (h : x ∈ State.reset.dev.cxl.lds) :
    x.msixEnable = false ∧ (∀ n, msixMasked x n = true) ∧ x.m1 = 1 ∧ x.m2 = 0 ∧ x.bwAlloc = 16 := by
  rw [reset_ld_eq_fresh h]
  exact ⟨rfl, msixMasked_of_msix_nil rfl, rfl, rfl, rfl⟩

/-- Settles O2: the readers over every counter, event ring, port, LD and address are the lemmas above; each other clause names
one field of the reset state, which is the value written there. -/
theorem resetIsPowerUp : Obligations.ResetIsPowerUp := by
  unfold Obligations.ResetIsPowerUp
  exact ⟨
    -- the queue and the grid
    rfl, rfl, rfl, rfl, rfl,
    -- the reset and the clause
    rfl, rfl, rfl, rfl,
    -- device time
    rfl, rfl, rfl,
    -- counters, event rings and rings
    reset_counter_zero, rfl, fun _ => reset_evq_disabled, rfl,
    -- objects
    rfl, rfl, rfl, rfl, rfl, rfl, rfl, rfl, rfl,
    -- ports, media and LDs
    fun _ => reset_port_disabled, rfl, fun _ => reset_ld_settings,
    -- memory
    rfl, fun _ => rfl, rfl⟩

end Sys2Proof.PowerUp
end

section
/-!
The longest-free rule (02 R20): `longestFree` gives the first number that no release names, and else the least free release by age and number.
-/

namespace Sys2Proof.LongestFree

open Sys2Proof.Machine

/-! ### The entry with the least key -/

@[simp] theorem minBy_eq_none {α : Type} {key : α → Nat} {l : List α} : minBy key l = none ↔ l = [] := by
  cases l with
  | nil => simp [minBy]
  | cons x l =>
    simp only [minBy, reduceCtorEq, iff_false]
    split
    · simp
    · split <;> simp

theorem minBy_mem_and_least {α : Type} {key : α → Nat} {l : List α} {y : α} (h : minBy key l = some y) :
    y ∈ l ∧ ∀ z ∈ l, key y ≤ key z := by
  induction l generalizing y with
  | nil => simp [minBy] at h
  | cons x l ih =>
    cases hl : minBy key l with
    | none =>
      obtain rfl := minBy_eq_none.1 hl
      obtain rfl : x = y := by simpa [minBy] using h
      simp
    | some w =>
      obtain ⟨hw, least⟩ := ih hl
      by_cases hk : key x ≤ key w
      · obtain rfl : x = y := by simpa [minBy, hl, hk] using h
        exact ⟨by simp, by simpa using fun z hz => hk.trans (least z hz)⟩
      · obtain rfl : w = y := by simpa [minBy, hl, hk] using h
        exact ⟨by simp [hw], by simpa using ⟨by omega, least⟩⟩

/-! ### The first number that was never used -/

theorem firstNeverUsed_eq_none {used stamped : List Nat} {lo count : Nat} :
    firstNeverUsed used stamped lo count = none ↔ ∀ m, lo ≤ m → m < lo + count → m ∈ used ∨ m ∈ stamped := by
  induction count generalizing lo with
  | zero => simp only [firstNeverUsed, true_iff]; omega
  | succ count ih =>
    simp only [firstNeverUsed, Bool.or_eq_true, List.contains_iff_mem]
    split
    next hlo =>
      rw [ih]
      constructor
      · intro h m h1 h2
        rcases h1.eq_or_lt with rfl | h1
        · exact hlo
        · exact h m h1 (by omega)
      · exact fun h m h1 h2 => h m (by omega) (by omega)
    next hlo =>
      simp only [reduceCtorEq, false_iff]
      exact fun h => hlo (h lo le_rfl (by omega))

/-- The number given lies in the range, is neither used nor stamped, and no number of the range before it is so. -/
theorem firstNeverUsed_spec {used stamped : List Nat} {lo count n : Nat} (h : firstNeverUsed used stamped lo count = some n) :
    lo ≤ n ∧ n < lo + count ∧ n ∉ used ∧ n ∉ stamped ∧ ∀ m, lo ≤ m → m ∉ used → m ∉ stamped → n ≤ m := by
  induction count generalizing lo with
  | zero => simp [firstNeverUsed] at h
  | succ count ih =>
    simp only [firstNeverUsed, Bool.or_eq_true, List.contains_iff_mem] at h
    split at h
    next hlo =>
      obtain ⟨h1, h2, h3, h4, first⟩ := ih h
      refine ⟨by omega, by omega, h3, h4, fun m hm hu hs => ?_⟩
      rcases hm.eq_or_lt with rfl | hm
      · exact absurd hlo (not_or.2 ⟨hu, hs⟩)
      · exact first m hm hu hs
    next hlo =>
      obtain rfl := Option.some.inj h
      exact ⟨le_rfl, by omega, fun hu => hlo (.inl hu), fun hs => hlo (.inr hs), fun m hm _ _ => hm⟩

/-! ### The rule -/

/-- The releases of a kind, as (number, stamp). -/
def releases (d : Dev) (kind : Nat) : List (Nat × Nat) := (d.pool.stamps.filter (fun x => x.1 == kind)).map (·.2)

/-- The releases of a kind whose number is free and lies in the range. -/
def freeReleases (d : Dev) (kind : Nat) (used : List Nat) (lo count : Nat) : List (Nat × Nat) :=
  (releases d kind).filter (fun x => !used.contains x.1 && decide (lo ≤ x.1) && decide (x.1 < lo + count))

/-- What a release is compared by: its stamp, then its number. -/
def releaseKey (x : Nat × Nat) : Nat := x.2 * 2 ^ 32 + x.1

theorem longestFree_eq (d : Dev) (kind : Nat) (used : List Nat) (lo count : Nat) :
    longestFree d kind used lo count =
      (firstNeverUsed used ((releases d kind).map (·.1)) lo count).or ((minBy releaseKey (freeReleases d kind used lo count)).map (·.1)) := by
  unfold longestFree freeReleases releases
  dsimp only
  cases firstNeverUsed used (((d.pool.stamps.filter (fun x => x.1 == kind)).map (·.2)).map (·.1)) lo count <;> rfl

@[simp] theorem mem_releases {d : Dev} {kind n t : Nat} : (n, t) ∈ releases d kind ↔ (kind, n, t) ∈ d.pool.stamps := by
  simp [releases]

theorem mem_releases_fst {d : Dev} {kind n : Nat} : n ∈ (releases d kind).map (·.1) ↔ ∃ x ∈ d.pool.stamps, x.1 = kind ∧ x.2.1 = n := by
  simp [releases]

theorem mem_freeReleases {d : Dev} {kind : Nat} {used : List Nat} {lo count n t : Nat} :
    (n, t) ∈ freeReleases d kind used lo count ↔ (kind, n, t) ∈ d.pool.stamps ∧ n ∉ used ∧ lo ≤ n ∧ n < lo + count := by
  simp [freeReleases, and_assoc]

/-- Below 2^32 numbers, the key orders by stamp first and then by number. -/
theorem releaseKey_le {n t m u : Nat} (hn : n < 2 ^ 32) (hm : m < 2 ^ 32) (h : releaseKey (n, t) ≤ releaseKey (m, u)) :
    t < u ∨ (t = u ∧ n ≤ m) := by
  simp only [releaseKey] at h
  omega

/-- A number that the rule gives was never used, and is the first such, or every free number has been released and its release has the
least key. -/
theorem longestFree_some_cases {d : Dev} {kind : Nat} {used : List Nat} {lo count n : Nat} (h : longestFree d kind used lo count = some n) :
    firstNeverUsed used ((releases d kind).map (·.1)) lo count = some n ∨
    (firstNeverUsed used ((releases d kind).map (·.1)) lo count = none ∧
      ∃ t, (n, t) ∈ freeReleases d kind used lo count ∧ ∀ x ∈ freeReleases d kind used lo count, releaseKey (n, t) ≤ releaseKey x) := by
  rw [longestFree_eq, Option.or_eq_some_iff] at h
  refine h.imp id (fun ⟨hnone, hmin⟩ => ⟨hnone, ?_⟩)
  obtain ⟨⟨n, t⟩, hleast, rfl⟩ := Option.map_eq_some_iff.1 hmin
  exact ⟨t, minBy_mem_and_least hleast⟩

theorem longestFree_mem_range {d : Dev} {kind : Nat} {used : List Nat} {lo count n : Nat} (h : longestFree d kind used lo count = some n) :
    lo ≤ n ∧ n < lo + count ∧ n ∉ used := by
  rcases longestFree_some_cases h with h | ⟨-, t, hmem, -⟩
  · obtain ⟨h1, h2, h3, -⟩ := firstNeverUsed_spec h
    exact ⟨h1, h2, h3⟩
  · obtain ⟨-, h3, h1, h2⟩ := mem_freeReleases.1 hmem
    exact ⟨h1, h2, h3⟩

/-- While some free number was never released, the lowest such is given. -/
theorem longestFree_of_never_released {d : Dev} {kind lo count m : Nat} {used : List Nat} (h1 : lo ≤ m) (h2 : m < lo + count) (hu : m ∉ used)
    (hs : ∀ x ∈ d.pool.stamps, x.1 = kind → x.2.1 ≠ m) :
    ∃ n, longestFree d kind used lo count = some n ∧ n ≤ m ∧ ∀ x ∈ d.pool.stamps, x.1 = kind → x.2.1 ≠ n := by
  have hm : m ∉ (releases d kind).map (·.1) := fun h =>
    let ⟨x, hx, hk, hn⟩ := mem_releases_fst.1 h
    hs x hx hk hn
  cases hf : firstNeverUsed used ((releases d kind).map (·.1)) lo count with
  | none => exact absurd (firstNeverUsed_eq_none.1 hf m h1 h2) (not_or.2 ⟨hu, hm⟩)
  | some n =>
    obtain ⟨-, -, -, hn, first⟩ := firstNeverUsed_spec hf
    exact ⟨n, by simp [longestFree_eq, hf], first m h1 hu hm, fun x hx hk he => hn (mem_releases_fst.2 ⟨x, hx, hk, he⟩)⟩

/-- Where every free number has been released, the one released first is given, the lowest of those released at that instant. -/
theorem longestFree_least_release {d : Dev} {kind lo count n : Nat} {used : List Nat} (h : longestFree d kind used lo count = some n)
    (hr : lo + count ≤ 2 ^ 32) (hall : ∀ m, lo ≤ m → m < lo + count → m ∉ used → ∃ x ∈ d.pool.stamps, x.1 = kind ∧ x.2.1 = m) :
    ∃ t, (kind, n, t) ∈ d.pool.stamps ∧
      ∀ m u, (kind, m, u) ∈ d.pool.stamps → lo ≤ m → m < lo + count → m ∉ used → t < u ∨ (t = u ∧ n ≤ m) := by
  rcases longestFree_some_cases h with h | ⟨-, t, hmem, least⟩
  · obtain ⟨h1, h2, hu, hs, -⟩ := firstNeverUsed_spec h
    exact absurd (mem_releases_fst.2 (hall n h1 h2 hu)) hs
  · obtain ⟨ht, -, -, hn⟩ := mem_freeReleases.1 hmem
    exact ⟨t, ht, fun m u hm h1 h2 hu => releaseKey_le (by omega) (by omega) (least _ (mem_freeReleases.2 ⟨hm, hu, h1, h2⟩))⟩

theorem longestFree_eq_none {d : Dev} {kind lo count : Nat} {used : List Nat} :
    longestFree d kind used lo count = none ↔ ∀ m, lo ≤ m → m < lo + count → m ∈ used := by
  constructor
  · intro h m h1 h2
    by_contra hu
    rw [longestFree_eq, Option.or_eq_none_iff, Option.map_eq_none_iff, minBy_eq_none] at h
    obtain ⟨hnone, hempty⟩ := h
    obtain ⟨⟨k, m, t⟩, hx, rfl, rfl⟩ := mem_releases_fst.1 ((firstNeverUsed_eq_none.1 hnone m h1 h2).resolve_left hu)
    exact List.not_mem_nil (hempty ▸ mem_freeReleases.2 ⟨hx, hu, h1, h2⟩)
  · intro h
    rw [Option.eq_none_iff_forall_ne_some]
    intro n hn
    obtain ⟨h1, h2, hu⟩ := longestFree_mem_range hn
    exact hu (h n h1 h2)

/-- Settles O11: the clauses are the lemmas above on what the rule gives. -/
theorem longestFreeIsGiven : Obligations.LongestFreeIsGiven := by
  unfold Obligations.LongestFreeIsGiven
  exact ⟨fun _ _ _ _ _ _ h => longestFree_mem_range h,
    fun _ _ _ _ _ _ h1 h2 hu hs => longestFree_of_never_released h1 h2 hu hs,
    fun _ _ _ _ _ _ h hr hall => longestFree_least_release h hr hall,
    fun _ _ _ _ _ => longestFree_eq_none⟩

end Sys2Proof.LongestFree
end

section
/-!
The verbs of sessions, models, kernels, lexicons and grammars: the device that each leaves where its checks pass, read off the verb's body.
-/

namespace Sys2Proof.ObjectVerbs

open Sys2Proof.Machine

/-! ### Checks that pass -/

theorem failId_ite {α : Type} (st off : Nat) (p : Prop) [Decidable p] (x : Except Fail α) (y : α) :
    (if p then failId st off else x) = .ok y ↔ ¬p ∧ x = .ok y := by
  by_cases h : p <;> simp [h]

theorem failWith_ite {α : Type} (st : Nat) (fs : List (Nat × Nat × Nat)) (p : Prop) [Decidable p] (x : Except Fail α) (y : α) :
    (if p then failWith st fs else x) = .ok y ↔ ¬p ∧ x = .ok y := by
  by_cases h : p <;> simp [h]

theorem eq_true_of_need {st : Nat} {b : Bool} {u : Unit} (h : need st b = .ok u) : b = true := (need_ok st b).1 h

theorem eq_false_of_need_not {st : Nat} {b : Bool} {u : Unit} (h : need st (!b) = .ok u) : b = false := by
  simpa using eq_true_of_need h

/-- Two branches that go on alike succeed where the branch taken does and the rest goes on from its value. -/
theorem ite_bind_ok {α β : Type} {p : Prop} [Decidable p] {x y : Except Fail α} {f : α → Except Fail β} {b : β} :
    (if p then x >>= f else y >>= f) = .ok b ↔ ∃ a, (if p then x else y) = .ok a ∧ f a = .ok b := by
  by_cases h : p <;> simp only [h, if_true, if_false, bind_ok]

/-- The check of a session handle passes only with the session that the handle names. -/
theorem findSess_of_checkSess {d : Dev} {v : Verb} {h off : Nat} {s : Sess} (hc : checkSess d v h off = .ok s) : findSess d h = some s := by
  unfold checkSess at hc
  rw [failId_ite] at hc
  obtain ⟨-, hc⟩ := hc
  split at hc
  · simp at hc
  · rw [failId_ite] at hc
    obtain ⟨-, hc⟩ := hc
    split at hc
    · simp at hc
    · split at hc
      next s' hs =>
        obtain rfl : s' = s := by simpa using hc
        exact hs
      · simp at hc

/-! ### Sessions -/

theorem sessOpenBody_ok {v : Verb} {a d : Dev} (h : sessOpenBody v a = .ok d) : ∃ i slot m a1,
    pickEntry a = some i ∧ pickSlot a (ctxPart (fld v 18 2 % 2048)) = some slot ∧ findModel a (fld v 16 1) = some m ∧
    (let s := newSess i (entryGen a i + 1) 1 (fld v 18 2 % 2048) slot m.id (mostFree a (ctxPart (fld v 18 2 % 2048))) m.layers
     allocSlot a (ctxPart (fld v 18 2 % 2048)) s.home (allocKey 1 (handleOf s)) m.layers = some a1 ∧
     d = finishOk (putEntry a1 s) v [(8, 4, handleOf s), (12, 4, slot)]) := by
  simp only [sessOpenBody, bind_ok] at h
  obtain ⟨-, -, -, -, -, -, h⟩ := h
  split at h
  next i slot m hi hslot hm =>
    split at h
    · simp at h
    next a1 ha1 =>
      exact ⟨i, slot, m, a1, hi, hslot, hm, ha1, (Except.ok.inj h).symm⟩
  · simp at h

theorem sessCloseBody_ok {v : Verb} {a d : Dev} (h : sessCloseBody v a = .ok d) : d = registerOp a v (.close v.seq (fld v 16 4)) := by
  simp only [sessCloseBody, bind_ok] at h
  obtain ⟨-, -, -, -, h⟩ := h
  exact (Except.ok.inj h).symm

theorem discardBody_ok {v : Verb} {a d : Dev} (h : discardBody v a = .ok d) :
    ∃ x, findSess a (fld v 16 4) = some x ∧ x.state ≠ 4 ∧ d = registerOp a v (.discard v.seq (fld v 16 4)) := by
  simp only [discardBody, bind_ok, failId_ite] at h
  obtain ⟨-, -, x, hx, hstate, h⟩ := h
  exact ⟨x, findSess_of_checkSess hx, hstate, (Except.ok.inj h).symm⟩

theorem sessQueryBody_ok {v : Verb} {a d : Dev} (h : sessQueryBody v a = .ok d) :
    ∃ x, findSess a (fld v 16 4) = some x ∧ closedBefore a v x = false ∧
    d = finishOk a v [(8, 1, x.state), (9, 1, sessFlags x), (10, 1, x.model),
      (12, 4, match x.slot with | some n => n + 2 ^ 31 | none => 0), (16, 4, x.log.length),
      (20, 4, match findModel a x.model with | some m => minStored m x | none => 0), (24, 4, countNotHbm a x),
      (28, 4, countFlashOnly a x)] := by
  simp only [sessQueryBody, bind_ok, failId_ite, Bool.not_eq_true] at h
  obtain ⟨-, -, x, hx, hlive, h⟩ := h
  exact ⟨x, findSess_of_checkSess hx, hlive, (Except.ok.inj h).symm⟩

/-- Settles O14: each verb's command runs its body, and a body that passes its checks is as the lemmas above say. -/
theorem sessionVerbsComplete : Obligations.SessionVerbsComplete := by
  unfold Obligations.SessionVerbsComplete
  exact ⟨verbDoes_of (fun _ _ => rfl) fun _ _ _ => sessOpenBody_ok,
    verbDoes_of (fun _ _ => rfl) fun _ _ _ => sessCloseBody_ok,
    verbDoes_of (fun _ _ => rfl) fun _ _ _ => discardBody_ok,
    verbDoes_of (fun _ _ => rfl) fun _ _ _ => sessQueryBody_ok⟩

/-! ### Models and kernels -/

theorem modelLoadBody_ok {v : Verb} {a d : Dev} (h : modelLoadBody v a = .ok d) : ∃ (m : Model) (a1 : Dev) (r : Nat) (bs : List Byte),
    argRead a v (fld v 16 8) (fld v 24 8) = .ok bs ∧ longestFree a 6 (a.kv.models.map (·.id)) 0 256 = some m.id ∧
    m.layers = (layerBytes bs).map layerOf ∧ m.digest = sha512 bs ∧ m.weights = weightMem bs ∧ m.pins = [] ∧ m.poison = [] ∧
    allocWeights a m.part m.id ((List.range (weightSections bs).length).zip ((weightSections bs).map (·.2))) = some a1 ∧
    d = finishOk (measure (setOwner { a1 with kv.models := a1.kv.models ++ [m] } 6 m.id (m.part * 64)) m.part 2 m.id r m.digest) v
      [(8, 1, m.id), (16, 16, leNat (m.digest.take 16))] := by
  simp only [modelLoadBody, bind_ok, failSt_ite] at h
  obtain ⟨-, -, bs, hbs, c, -, -, -, -, -, -, h⟩ := h
  split at h
  next id x hid _ =>
    split at h
    · simp at h
    next a1 ha1 =>
      rw [failSt_ite, ite_bind_ok] at h
      obtain ⟨-, blk, -, h⟩ := h
      split at h
      · simp at h
      next r _ =>
        exact ⟨{ id := id, part := ctxPart c, hidden := fieldAt bs 8 4, layers := (layerBytes bs).map layerOf, digest := sha512 bs
                 weights := weightMem bs, pins := [], poison := [], damaged := [] },
          a1, r, bs, hbs, hid, rfl, rfl, rfl, rfl, rfl, ha1, (Except.ok.inj h).symm⟩
  · simp at h

theorem modelUnloadBody_ok {v : Verb} {a d : Dev} (h : modelUnloadBody v a = .ok d) :
    modelUsed a (fld v 16 1) = false ∧ d = finishOk (dropModel (nextRelease a) (fld v 16 1)) v [] := by
  simp only [modelUnloadBody, bind_ok, failSt_ite, Bool.not_eq_true] at h
  obtain ⟨-, -, -, -, hfree, h⟩ := h
  exact ⟨hfree, (Except.ok.inj h).symm⟩

theorem kernelLoadBody_ok {v : Verb} {a d : Dev} (h : kernelLoadBody v a = .ok d) : ∃ (k : Kernel) (a1 : Dev) (r : Nat) (bs : List Byte),
    argRead a v (fld v 16 8) (fld v 24 8) = .ok bs ∧ longestFree a 7 (a.arr.kernels.map (·.id)) 0 4096 = some k.id ∧ k = kernelOf bs k.id k.part ∧
    allocMost a k.part (fld v 24 8) (kernelKey k.id) 0 = some a1 ∧
    d = finishOk (measure (setOwner { a1 with arr.kernels := a1.arr.kernels ++ [k] } 7 k.id (k.part * 64)) k.part 3 k.id r k.digest) v
      [(8, 2, k.id), (10, 2, 0xFFFF), (16, 16, leNat (k.digest.take 16))] := by
  simp only [kernelLoadBody, bind_ok, failSt_ite] at h
  obtain ⟨-, -, bs, hbs, c, -, -, h⟩ := h
  split at h
  next id _ x hid _ _ =>
    rw [failWith_ite] at h
    obtain ⟨-, h⟩ := h
    split at h
    · simp at h
    · split at h
      · simp at h
      next r _ =>
        split at h
        · simp at h
        next a1 ha1 => exact ⟨kernelOf bs id (ctxPart c), a1, r, bs, hbs, hid, rfl, ha1, (Except.ok.inj h).symm⟩
  · simp at h
  · simp at h

theorem kernelUnloadBody_ok {v : Verb} {a d : Dev} (h : kernelUnloadBody v a = .ok d) : kernelUsed a (fld v 16 2) = false ∧
    d = finishOk (stampFree { freeAllocs (nextRelease a) (kernelKey (fld v 16 2)) with
      arr.kernels := dropWhere (fun (x : Kernel) => x.id == fld v 16 2) (freeAllocs (nextRelease a) (kernelKey (fld v 16 2))).arr.kernels
      arr.kcache := a.arr.kcache.map (fun x => (x.1, x.2.filter (fun n => n != fld v 16 2))) } 7 (fld v 16 2)) v [] := by
  simp only [kernelUnloadBody, bind_ok, failSt_ite, Bool.not_eq_true] at h
  obtain ⟨-, -, -, -, hfree, h⟩ := h
  exact ⟨hfree, (Except.ok.inj h).symm⟩

/-- Settles O17: each verb's command runs its body, and a body that passes its checks is as the lemmas above say. -/
theorem modelAndKernelVerbsComplete : Obligations.ModelAndKernelVerbsComplete := by
  unfold Obligations.ModelAndKernelVerbsComplete
  exact ⟨verbDoes_of (fun _ _ => rfl) fun _ _ _ => modelLoadBody_ok,
    verbDoes_of (fun _ _ => rfl) fun _ _ _ => modelUnloadBody_ok,
    verbDoes_of (fun _ _ => rfl) fun _ _ _ => kernelLoadBody_ok,
    verbDoes_of (fun _ _ => rfl) fun _ _ _ => kernelUnloadBody_ok⟩

/-! ### Lexicons and grammars -/

theorem lexLoadBody_ok {v : Verb} {a d : Dev} (h : lexLoadBody v a = .ok d) :
    ∃ l : Lexicon, longestFree a 8 (a.lexicons.map (·.id)) 0 8 = some l.id ∧
    argRead a v (fld v 16 8) (fld v 24 8) = .ok l.img ∧ lexOk l.img = true ∧ l.units = lexUnits l.img ∧
    l.digest = (sha512 l.img).take 16 ∧ l.damaged = [] ∧
    d = finishOk (setOwner { a with lexicons := a.lexicons ++ [l] } 8 l.id (l.part * 64)) v
      [(8, 1, l.id), (12, 4, l.units * 64), (16, 16, leNat l.digest)] := by
  simp only [lexLoadBody, bind_ok] at h
  obtain ⟨-, -, bs, hbs, c, -, h⟩ := h
  split at h
  · simp at h
  · simp only [bind_ok] at h
    obtain ⟨-, -, _, hlex, -, -, h⟩ := h
    split at h
    · simp at h
    next id hid =>
      exact ⟨{ id := id, part := ctxPart c, digest := (sha512 bs).take 16, units := lexUnits bs, img := bs, damaged := [] },
        hid, hbs, eq_true_of_need hlex, rfl, rfl, rfl, (Except.ok.inj h).symm⟩

theorem lexUnloadBody_ok {v : Verb} {a d : Dev} (h : lexUnloadBody v a = .ok d) : lexUsed a (fld v 16 1) = false ∧
    d = finishOk (stampFree { nextRelease a with lexicons := dropWhere (fun x => x.id == fld v 16 1) a.lexicons } 8 (fld v 16 1)) v [] := by
  simp only [lexUnloadBody, bind_ok] at h
  obtain ⟨-, -, -, -, _, hfree, h⟩ := h
  exact ⟨eq_false_of_need_not hfree, (Except.ok.inj h).symm⟩

theorem gramLoadBody_ok {v : Verb} {a d : Dev} (h : gramLoadBody v a = .ok d) :
    ∃ (g : Grammar) (a1 : Dev), longestFree a 9 (a.grammars.map (·.id)) 0 64 = some g.id ∧
    argRead a v (fld v 16 8) (fld v 24 8) = .ok g.img ∧ gramOk g.img = true ∧ g.digest = (sha512 g.img).take 16 ∧
    allocDdr a g.part (fld v 24 8) (allocKey 9 g.id) 0 = some a1 ∧
    d = finishOk (setOwner { a1 with grammars := a1.grammars ++ [g] } 9 g.id (g.part * 64)) v
      [(8, 1, g.id), (12, 4, ceilDiv (fld v 24 8) 1024), (16, 16, leNat g.digest)] := by
  simp only [gramLoadBody, bind_ok] at h
  obtain ⟨-, -, bs, hbs, c, -, h⟩ := h
  split at h
  · simp at h
  · rw [bind_ok] at h
    obtain ⟨-, -, h⟩ := h
    split at h
    · simp at h
    next id hid =>
      split at h
      · simp at h
      next a1 ha1 =>
        rw [bind_ok] at h
        obtain ⟨_, hgram, h⟩ := h
        exact ⟨{ id := id, part := ctxPart c, digest := (sha512 bs).take 16, img := bs, damaged := [] },
          a1, hid, hbs, eq_true_of_need hgram, rfl, ha1, (Except.ok.inj h).symm⟩

theorem gramUnloadBody_ok {v : Verb} {a d : Dev} (h : gramUnloadBody v a = .ok d) :
    a.kv.cat.any (fun s => s.state != 0 && s.state != 4 && !s.retired && s.syn.grammar == some (fld v 16 1)) = false ∧
    d = finishOk (freeAllocs (stampFree { nextRelease a with
      grammars := dropWhere (fun x => x.id == fld v 16 1) a.grammars
      gcache := a.gcache.filter (fun x => x.1 != fld v 16 1) } 9 (fld v 16 1)) (allocKey 9 (fld v 16 1))) v [] := by
  simp only [gramUnloadBody, bind_ok] at h
  obtain ⟨-, -, -, -, _, hfree, h⟩ := h
  exact ⟨eq_false_of_need_not hfree, (Except.ok.inj h).symm⟩

/-- Settles O18: each verb's command runs its body, and a body that passes its checks is as the lemmas above say. -/
theorem lexiconAndGrammarVerbsComplete : Obligations.LexiconAndGrammarVerbsComplete := by
  unfold Obligations.LexiconAndGrammarVerbsComplete
  exact ⟨verbDoes_of (fun _ _ => rfl) fun _ _ _ => lexLoadBody_ok,
    verbDoes_of (fun _ _ => rfl) fun _ _ _ => lexUnloadBody_ok,
    verbDoes_of (fun _ _ => rfl) fun _ _ _ => gramLoadBody_ok,
    verbDoes_of (fun _ _ => rfl) fun _ _ _ => gramUnloadBody_ok⟩

end Sys2Proof.ObjectVerbs
end

section
/-!
The settings of the clause grid (03 R35): which commands can change them, and what each of these makes of them.
-/

namespace Sys2Proof.GridSettings

open Sys2Proof.Machine

/-! ### The checks of CLAUSE_SET (03 R50) -/

/-- Where check 4 passes, each of the verb's own fields is good. -/
theorem fields_good_of_check4 {v : Verb} {ctx73 : Bool} {rs : List (Nat × Nat)} {fs : List (Nat × Bool)} {u : Unit}
    (h : check4 v ctx73 rs fs = .ok u) : ∀ x ∈ fs, x.2 = true := by
  unfold check4 at h
  dsimp only at h
  split at h
  · simp at h
  next hnone =>
    rw [lowestBad, Option.map_eq_none_iff, LongestFree.minBy_eq_none, List.filter_eq_nil_iff] at hnone
    intro x hx
    simpa using hnone x (List.mem_append_right _ hx)

/-- A CLAUSE_SET that passes its checks waits for the second boundary after its acceptance; a field of 0 keeps the setting in force. -/
theorem clauseSetCheck_ok {g : Grid} {v : Verb} {w : ClauseSetWait} (h : clauseSetCheck g v = .ok w) :
    ((fld v 16 4 = 0 ∨ (20 ≤ fld v 16 4 ∧ fld v 16 4 ≤ 5000)) ∧ (fld v 20 1 = 0 ∨ (2 ≤ fld v 20 1 ∧ fld v 20 1 ≤ 25)) ∧ fld v 21 1 < 3) ∧
    w = { seq := v.seq, lenUs := if fld v 16 4 = 0 then g.lenUs else fld v 16 4, bgPct := if fld v 20 1 = 0 then g.bgPct else fld v 20 1,
          source := if fld v 21 1 = 0 then g.source else fld v 21 1 - 1, effective := v.accClause + 2 } := by
  simp only [clauseSetCheck, bind_ok] at h
  obtain ⟨_, hfields, _, -, h⟩ := h
  exact ⟨by simpa using fields_good_of_check4 hfields, (Except.ok.inj h).symm⟩

/-! ### Legal settings -/

theorem gridOk_iff {l b s : Nat} : gridOk l b s = true ↔ 20 ≤ l ∧ l ≤ 5000 ∧ 2 ≤ b ∧ b ≤ 25 ∧ s < 2 := by
  simp [gridOk, and_assoc]

theorem legal_iff {g : Grid} :
    g.legal = true ↔ gridOk g.lenUs g.bgPct g.source = true ∧ ∀ w, g.waiting = some w → gridOk w.lenUs w.bgPct w.source = true := by
  unfold Grid.legal
  cases g.waiting <;> simp

/-- From legal settings, the settings that a CLAUSE_SET leaves waiting are legal. -/
theorem gridOk_of_clauseSetCheck {g : Grid} {v : Verb} {w : ClauseSetWait} (hg : gridOk g.lenUs g.bgPct g.source = true)
    (h : clauseSetCheck g v = .ok w) : gridOk w.lenUs w.bgPct w.source = true := by
  obtain ⟨⟨hl, hb, hs⟩, rfl⟩ := clauseSetCheck_ok h
  rw [gridOk_iff] at hg ⊢
  refine ⟨?_, ?_, ?_, ?_, ?_⟩ <;> dsimp only <;> split <;> omega

/-! ### The settings at a boundary -/

/-- What a boundary makes of the settings: they stay, or a CLAUSE_SET whose verb has gone no longer waits, or the one that waits is put into
force. -/
inductive Turned (g : Grid) : Grid → Prop
  | kept : Turned g g
  | dropped : Turned g { g with waiting := none }
  | inForce {w : ClauseSetWait} : g.waiting = some w → Turned g (gridAfter w)

theorem waiting_of_clauseSetDue {g : Grid} {n : Nat} {w : ClauseSetWait} (h : clauseSetDue g n = some w) : g.waiting = some w := by
  unfold clauseSetDue at h
  split at h
  next w' hw =>
    split at h
    · rw [hw, h]
    · simp at h
  · simp at h

/-- The CLAUSE_SET that takes effect at the boundary, if any. -/
def dueSet (g : Grid) (d : Dev) : Option ClauseSetWait := if d.clk.started then clauseSetDue g d.clk.count else none

theorem turnClause_grid (g : Grid) (d : Dev) : (turnClause g d).1 = match dueSet g d with | some w => gridAfter w | none => g := by
  unfold turnClause
  dsimp only
  rw [← dueSet]
  cases dueSet g d <;> rfl

theorem turnClause_turned (g : Grid) (d : Dev) : Turned g (turnClause g d).1 := by
  rw [turnClause_grid]
  split
  next w hw =>
    unfold dueSet at hw
    split at hw
    · exact .inForce (waiting_of_clauseSetDue hw)
    · simp at hw
  · exact .kept

theorem dropWaiting_cases (g : Grid) (d : Dev) : dropWaiting g d = g ∨ dropWaiting g d = { g with waiting := none } := by
  unfold dropWaiting
  split
  · split
    · exact .inl rfl
    · exact .inr rfl
  · exact .inl rfl

theorem turned_of_dropWaiting {g h : Grid} {d : Dev} (ht : Turned (dropWaiting g d) h) : Turned g h := by
  rcases dropWaiting_cases g d with hd | hd <;> rw [hd] at ht
  · exact ht
  · cases ht with
    | kept => exact .dropped
    | dropped => exact .dropped
    | inForce hw => simp at hw

theorem boundary_turned (dt : Nat) (temps : List Int) (bad : List BadSector) (tests : List (Nat × List Defect)) (g : Grid) (d : Dev) :
    Turned g (boundary dt temps bad tests g d).1 := by
  unfold boundary
  dsimp only
  split
  · exact .kept
  · dsimp only
    exact turned_of_dropWaiting (turnClause_turned _ _)

theorem boundaryAtOnce_turned (g : Grid) (d : Dev) : Turned g (boundaryAtOnce g d).1 := boundary_turned 0 [] [] [] g d

theorem Turned.legal {g h : Grid} (ht : Turned g h) (hg : g.legal = true) : h.legal = true := by
  obtain ⟨hnow, hwait⟩ := legal_iff.1 hg
  cases ht with
  | kept => exact hg
  | dropped => exact legal_iff.2 ⟨hnow, by simp⟩
  | inForce hw => exact legal_iff.2 ⟨hwait _ hw, by simp [gridAfter]⟩

/-! ### The settings at a step -/

/-- The commands that can bring a boundary about. -/
def BringsBoundary (c : Instr) : Prop :=
  (∃ dt temps bad tests, c = .clauseBoundary dt temps bad tests) ∨ (∃ job dt, c = .jobOverrunAbort job dt) ∨ ∃ dt, c = .tickLossTimeout dt

/-- Every command acts on the device alone, or brings a boundary about, or is CLAUSE_SET, or is a power event. -/
theorem exec_grid_shape (c : Instr) :
    (∀ s, ∃ d, exec c s = .next { s with dev := d }) ∨ BringsBoundary c ∨ (∃ seq, c = .clauseSet seq) ∨ ∃ f, ∀ s, exec c s = onPower f s := by
  cases c with
  | clauseBoundary dt temps bad tests => exact .inr (.inl (.inl ⟨dt, temps, bad, tests, rfl⟩))
  | jobOverrunAbort job dt => exact .inr (.inl (.inr (.inl ⟨job, dt, rfl⟩)))
  | tickLossTimeout dt => exact .inr (.inl (.inr (.inr ⟨dt, rfl⟩)))
  | clauseSet seq => exact .inr (.inr (.inl ⟨seq, rfl⟩))
  | pwrgdAssert ns => exact .inr (.inr (.inr ⟨_, fun _ => rfl⟩))
  | pwrgdDeassert ns => exact .inr (.inr (.inr ⟨_, fun _ => rfl⟩))
  | perstNAssert ns => exact .inr (.inr (.inr ⟨_, fun _ => rfl⟩))
  | perstNDeassert => exact .inr (.inr (.inr ⟨_, fun _ => rfl⟩))
  | pwrfailNAssert ns => exact .inr (.inr (.inr ⟨_, fun _ => rfl⟩))
  | pwrfailNDeassert => exact .inr (.inr (.inr ⟨_, fun _ => rfl⟩))
  | railUndervoltage ns => exact .inr (.inr (.inr ⟨_, fun _ => rfl⟩))
  | thermalTrip sensor temp => exact .inr (.inr (.inr ⟨_, fun _ => rfl⟩))
  | nandProgramComplete id ok damaged => exact .inr (.inr (.inr ⟨fun d => noteHealth (nandProgram id ok damaged d), fun _ => rfl⟩))
  | nandOpTimeout id dt => exact .inr (.inr (.inr ⟨fun d => noteHealth (nandTimeout id (advance d dt)), fun _ => rfl⟩))
  | _ => exact .inl fun _ => ⟨_, rfl⟩

theorem onGrid_cases {f : Grid → Dev → Grid × Dev} {s t : State} (h : onGrid f s = .next t) :
    t.grid = s.grid ∨ t.grid = (f s.grid s.dev).1 := by
  unfold onGrid at h
  split at h <;> obtain rfl := Host.Outcome.next.inj h
  · exact .inr rfl
  · exact .inl rfl

theorem onGrid_turned {f : Grid → Dev → Grid × Dev} (hf : ∀ g d, Turned g (f g d).1) {s t : State} (h : onGrid f s = .next t) :
    Turned s.grid t.grid := by
  rcases onGrid_cases h with ht | ht <;> rw [ht]
  · exact .kept
  · exact hf _ _

theorem exec_clauseBoundary (dt : Nat) (temps : List Int) (bad : List BadSector) (tests : List (Nat × List Defect)) (s : State) :
    exec (.clauseBoundary dt temps bad tests) s =
      onGrid (fun g d => ((boundary dt temps bad tests g d).1, noteHealth (boundary dt temps bad tests g d).2)) s := rfl

theorem exec_jobOverrunAbort (job dt : Nat) (s : State) :
    exec (.jobOverrunAbort job dt) s = onGrid (fun g d =>
      if (settleJobs (overrunAbort job g.lenUs (advance d dt))).clk.aborted then boundaryAtOnce g (settleJobs (overrunAbort job g.lenUs (advance d dt)))
      else (g, settleJobs (overrunAbort job g.lenUs (advance d dt)))) s := rfl

theorem exec_tickLossTimeout (dt : Nat) (s : State) :
    exec (.tickLossTimeout dt) s = onGrid (fun g d =>
      if d.clk.mode = 1 && (tickLoss dt g.lenUs d).clk.mode = 2 then boundaryAtOnce g (tickLoss dt g.lenUs d) else (g, tickLoss dt g.lenUs d)) s := rfl

/-- A command that brings a boundary about leaves the settings as some boundary makes them. -/
theorem exec_turned {c : Instr} (hc : BringsBoundary c) {s t : State} (h : exec c s = .next t) : Turned s.grid t.grid := by
  obtain ⟨dt, temps, bad, tests, rfl⟩ | ⟨job, dt, rfl⟩ | ⟨dt, rfl⟩ := hc
  · rw [exec_clauseBoundary] at h
    refine onGrid_turned (fun g d => ?_) h
    exact boundary_turned dt temps bad tests g d
  · rw [exec_jobOverrunAbort] at h
    refine onGrid_turned (fun g d => ?_) h
    split
    · exact boundaryAtOnce_turned _ _
    · exact .kept
  · rw [exec_tickLossTimeout] at h
    refine onGrid_turned (fun g d => ?_) h
    split
    · exact boundaryAtOnce_turned _ _
    · exact .kept

/-- CLAUSE_SET leaves the settings, or leaves those that its checks accept waiting. -/
theorem clauseSet_grid (seq : Nat) (g : Grid) (d : Dev) :
    (clauseSet seq g d).1 = g ∨ ∃ v w, clauseSetCheck g v = .ok w ∧ (clauseSet seq g d).1 = { g with waiting := some w } := by
  unfold clauseSet
  split
  · exact .inl rfl
  next v hv =>
    split
    · split
      next w hw => exact .inr ⟨v, w, hw, rfl⟩
      next => exact .inl rfl
    · exact .inl rfl

/-- A power event leaves the settings, or returns them to those of power-up where no clause has begun. -/
theorem onPower_grid {f : Dev → Dev} {s t : State} (h : onPower f s = .next t) :
    t.grid = s.grid ∨ (t.grid = State.reset.grid ∧ t.dev.clk.started = false) := by
  obtain rfl := Host.Outcome.next.inj h
  dsimp only
  split
  · exact .inl rfl
  next hs => exact .inr ⟨rfl, by simpa using hs⟩

/-- What a step can do to the settings. -/
theorem step_grid_cases {s t : State} (h : step s = .next t) :
    t.grid = s.grid ∨
    (∃ c rest, s.pending = c :: rest ∧ BringsBoundary c ∧ Turned s.grid t.grid) ∨
    (∃ seq rest v w, s.pending = .clauseSet seq :: rest ∧ clauseSetCheck s.grid v = .ok w ∧ t.grid = { s.grid with waiting := some w }) ∨
    (t.grid = State.reset.grid ∧ t.dev.clk.started = false) := by
  unfold step at h
  split at h
  next hp =>
    obtain rfl := Host.Outcome.next.inj h
    exact .inl rfl
  next c rest hp =>
    obtain hc | hc | ⟨seq, rfl⟩ | ⟨f, hf⟩ := exec_grid_shape c
    · obtain ⟨d, hd⟩ := hc { s with pending := rest }
      obtain rfl := Host.Outcome.next.inj (hd.symm.trans h)
      exact .inl rfl
    · exact .inr (.inl ⟨c, rest, hp, hc, exec_turned (s := { s with pending := rest }) hc h⟩)
    · rcases onGrid_cases h with ht | ht
      · exact .inl ht
      · obtain hg | ⟨v, w, hw, hg⟩ := clauseSet_grid seq s.grid s.dev
        · exact .inl (ht.trans hg)
        · exact .inr (.inr (.inl ⟨seq, rest, v, w, hp, hw, ht.trans hg⟩))
    · exact (onPower_grid ((hf _).symm.trans h)).imp id fun hr => .inr (.inr hr)

/-! ### The obligation's clauses -/

theorem step_legal {s t : State} (hs : s.grid.legal = true) (h : step s = .next t) : t.grid.legal = true := by
  obtain hk | ⟨-, -, -, -, ht⟩ | ⟨-, -, v, w, -, hw, hk⟩ | ⟨hr, -⟩ := step_grid_cases h
  · rw [hk, hs]
  · exact ht.legal hs
  · rw [hk]
    exact legal_iff.2 ⟨(legal_iff.1 hs).1, by simpa using gridOk_of_clauseSetCheck (legal_iff.1 hs).1 hw⟩
  · rw [hr]
    rfl

theorem step_settings {s t : State} (h : step s = .next t) :
    (t.grid.lenUs = s.grid.lenUs ∧ t.grid.bgPct = s.grid.bgPct ∧ t.grid.source = s.grid.source) ∨
    (∃ c rest w, s.pending = c :: rest ∧ BringsBoundary c ∧
      s.grid.waiting = some w ∧ t.grid.lenUs = w.lenUs ∧ t.grid.bgPct = w.bgPct ∧ t.grid.source = w.source ∧ t.grid.waiting = none) ∨
    (t.grid = State.reset.grid ∧ t.dev.clk.started = false) := by
  obtain hk | ⟨c, rest, hp, hc, ht⟩ | ⟨-, -, -, w, -, -, hk⟩ | hr := step_grid_cases h
  · simp [hk]
  · generalize t.grid = g at ht ⊢
    cases ht with
    | kept => exact .inl ⟨rfl, rfl, rfl⟩
    | dropped => exact .inl ⟨rfl, rfl, rfl⟩
    | inForce hw => exact .inr (.inl ⟨c, rest, _, hp, hc, hw, rfl, rfl, rfl, rfl⟩)
  · simp [hk]
  · exact .inr (.inr hr)

theorem step_waiting {s t : State} (h : step s = .next t) {w : ClauseSetWait} (hw : t.grid.waiting = some w) :
    s.grid.waiting = some w ∨ ∃ seq rest, s.pending = .clauseSet seq :: rest := by
  obtain hk | ⟨-, -, -, -, ht⟩ | ⟨seq, rest, -, -, hp, -, -⟩ | ⟨hr, -⟩ := step_grid_cases h
  · exact .inl (hk ▸ hw)
  · generalize t.grid = g at ht hw
    cases ht with
    | kept => exact .inl hw
    | dropped => simp at hw
    | inForce hw' => simp [gridAfter] at hw
  · exact .inr ⟨seq, rest, hp⟩
  · simp [hr, State.reset, freshGrid] at hw

/-- Settles O4: the settings at power-up are those written there, and each clause on steps is read off what a step can do to the settings. -/
theorem onlyClauseSetChangesTheGrid : Obligations.OnlyClauseSetChangesTheGrid := by
  unfold Obligations.OnlyClauseSetChangesTheGrid
  exact ⟨⟨rfl, rfl, rfl, rfl⟩, fun _ _ => step_legal, fun _ _ => step_settings, fun _ _ h _ => step_waiting h⟩

end Sys2Proof.GridSettings
end

section
/-!
Device time (03 R46, R47): the fraction that each reading leaves is carried to the next, so that no interval is lost.
-/

namespace Sys2Proof.DeviceTime

open Sys2Proof.Machine

@[simp] theorem ratePpb_tickTim (t : Tim) (n : Nat) : ratePpb (tickTim t n) = ratePpb t := rfl

@[simp] theorem ratePpb_endSlew (t : Tim) : ratePpb (endSlew t) = t.basePpb := by simp [ratePpb, endSlew]

theorem elapsed_le_tickTim (t : Tim) (n : Nat) : t.elapsed ≤ (tickTim t n).elapsed := Nat.le_add_right _ _

/-- Above -100 %, device time that passes in two parts gives what the whole gives at once. -/
theorem tickTim_tickTim (t : Tim) (a b : Nat) (h : -1000000000 ≤ ratePpb t) : tickTim (tickTim t a) b = tickTim t (a + b) := by
  have hr : 0 ≤ 1000000000 + ratePpb t := by omega
  have ha : 0 ≤ (a : Int) * (1000000000 + ratePpb t) := mul_nonneg (by omega) hr
  have hb : 0 ≤ (b : Int) * (1000000000 + ratePpb t) := mul_nonneg (by omega) hr
  have hsum : ((a + b : Nat) : Int) * (1000000000 + ratePpb t) = a * (1000000000 + ratePpb t) + b * (1000000000 + ratePpb t) := by
    rw [Nat.cast_add, add_mul]
  have hslew : ((a + b : Nat) : Int) * t.slewPpb = a * t.slewPpb + b * t.slewPpb := by rw [Nat.cast_add, add_mul]
  simp only [tickTim, ratePpb] at *
  rw [hsum, hslew]
  generalize (a : Int) * (1000000000 + (t.basePpb + t.slewPpb)) = x at *
  generalize (b : Int) * (1000000000 + (t.basePpb + t.slewPpb)) = y at *
  generalize (a : Int) * t.slewPpb = u at *
  generalize (b : Int) * t.slewPpb = v at *
  rw [Tim.mk.injEq]
  refine ⟨?_, ?_, ?_, rfl, rfl, ?_, ?_, rfl, rfl, rfl, rfl, rfl, rfl, rfl, rfl, rfl, rfl, rfl, rfl⟩ <;> omega

/-- What an interval makes of device time: it passes at one rate, or a slew ends inside it. -/
theorem advanceTim_cases (t : Tim) (n : Nat) :
    advanceTim t n = tickTim t n ∨ advanceTim t n = tickTim (endSlew (tickTim t (slewNeed t))) (n - slewNeed t) := by
  unfold advanceTim
  split
  · exact .inl rfl
  · exact .inr rfl

theorem elapsed_le_advanceTim (t : Tim) (n : Nat) : t.elapsed ≤ (advanceTim t n).elapsed := by
  rcases advanceTim_cases t n with h | h <;> rw [h]
  · exact elapsed_le_tickTim t n
  · exact (elapsed_le_tickTim t _).trans (elapsed_le_tickTim (endSlew (tickTim t (slewNeed t))) _)

@[simp] theorem basePpb_advanceTim (t : Tim) (n : Nat) : (advanceTim t n).basePpb = t.basePpb := by
  rcases advanceTim_cases t n with h | h <;> rw [h] <;> rfl

theorem advanceTim_of_no_slew {t : Tim} (h : t.slewPpb = 0) (n : Nat) : advanceTim t n = tickTim t n := by
  simp [advanceTim, h]

theorem advanceTim_of_slew_end {t : Tim} {n : Nat} (h : t.slewPpb ≠ 0) (hn : slewNeed t ≤ n) :
    advanceTim t n = tickTim (endSlew (tickTim t (slewNeed t))) (n - slewNeed t) := by
  simp [advanceTim, h, hn]

/-- At rate 0 with no fraction pending, device time follows the reference clock. -/
theorem tickTim_rate_zero {t : Tim} (hr : ratePpb t = 0) (hf : t.frac = 0) (n : Nat) :
    (tickTim t n).elapsed = t.elapsed + n ∧ (tickTim t n).now = (t.now + n) % 2 ^ 64 := by
  simp [tickTim, hr, hf]

/-- Settles O12: two parts are the lemma on the carry; the rest is what an interval makes of device time, with and without the end of a slew. -/
theorem timeLosesNothing : Obligations.TimeLosesNothing := by
  unfold Obligations.TimeLosesNothing
  refine ⟨tickTim_tickTim, fun t n => ⟨elapsed_le_advanceTim t n, basePpb_advanceTim t n⟩, fun t n hb hs hf => ?_, fun t n hs hn => ?_⟩
  · rw [advanceTim_of_no_slew hs]
    exact tickTim_rate_zero (by simp [ratePpb, hb, hs]) hf n
  · rw [advanceTim_of_slew_end hs hn]
    simp [tickTim, endSlew, ratePpb]

end Sys2Proof.DeviceTime
end

section
/-!
The commands that steer the grid and device time (03 R47, R48, R50, R51): what each leaves where its checks pass.
-/

namespace Sys2Proof.TimeCommands

open Sys2Proof.Machine

/-! ### CLAUSE_SET (03 R50) -/

theorem exec_clauseSet_ok {s : State} {seq : Nat} {v : Verb} {w : ClauseSetWait} (h : verbRuns 0x010A seq v s = true)
    (hw : clauseSetCheck s.grid v = .ok w) :
    exec (.clauseSet seq) s = .next { s with grid := { s.grid with waiting := some w }, dev := keepRunning (startVerb s.dev v) v } := by
  obtain ⟨hfind, hop, hrun, ha, hserve, hstart⟩ := (verbRuns_iff _ _ _ _).1 h
  have hset : clauseSet seq s.grid s.dev = ({ s.grid with waiting := some w }, keepRunning (startVerb s.dev v) v) := by
    simp [clauseSet, hfind, hop, hrun, hserve, hstart, hw]
  show onGrid (clauseSet seq) s = _
  simp [onGrid, ha, hset]

/-! ### TIME_SET (03 R51) -/

theorem timeSetBody_ok {v : Verb} {a d : Dev} (h : timeSetBody v a = .ok d) : ∃ b, d = finishOk b v [(8, 8, b.tim.now)] ∧
    1 ≤ fld v 16 1 ∧ fld v 16 1 ≤ 5 ∧
    (fld v 16 1 = 1 → b = stepTime { a with tim := endSteering a.tim } (fld v 24 8)) ∧
    (fld v 16 1 = 2 → signedOf 64 (fld v 24 8) = 0 → b = { a with tim := endSteering a.tim }) ∧
    (fld v 16 1 = 2 → signedOf 64 (fld v 24 8) ≠ 0 → b = { a with tim := { endSteering a.tim with
      slewPpb := if signedOf 64 (fld v 24 8) < 0 then -min (fld v 20 4 : Int) (headroom (endSteering a.tim).basePpb (signedOf 64 (fld v 24 8)))
        else min (fld v 20 4 : Int) (headroom (endSteering a.tim).basePpb (signedOf 64 (fld v 24 8)))
      slewLeft := signedOf 64 (fld v 24 8), slewFrac := 0 } }) ∧
    (fld v 16 1 = 3 → b = { a with tim := { endSteering a.tim with basePpb := signedOf 64 (fld v 24 8) } }) ∧
    (fld v 16 1 = 4 → subUp a (fld v 17 1) = true ∧ b = { a with tim := { endSteering a.tim with
      ptp := true, ptpPort := fld v 17 1, ptpDomain := fld v 18 1, ptpState := 2, acquired := false, lastSync := a.tim.elapsed, syncT1 := none
      pathDelay := 0 } }) ∧
    (fld v 16 1 = 5 → b = { a with tim := { endSteering a.tim with basePpb := 0 } }) := by
  simp only [timeSetBody, bind_ok] at h
  obtain ⟨_, hfields, h⟩ := h
  have hmode := GridSettings.fields_good_of_check4 hfields _ List.mem_cons_self
  simp only [Bool.and_eq_true, decide_eq_true_eq] at hmode
  obtain ⟨hmin, hmax⟩ := hmode
  generalize fld v 16 1 = mode at *
  clear hfields
  split at h
  next => exact ⟨_, (Except.ok.inj h).symm, by simp⟩
  next =>
    refine ⟨_, (Except.ok.inj h).symm, by simp, by simp, by simp, fun _ hz => ?_, fun _ hz => ?_, by simp⟩ <;> simp [hz]
  next => exact ⟨_, (Except.ok.inj h).symm, by simp⟩
  next =>
    rw [bind_ok] at h
    obtain ⟨_, hup, h⟩ := h
    exact ⟨_, (Except.ok.inj h).symm, by simpa using ObjectVerbs.eq_true_of_need hup⟩
  next n1 n2 n3 n4 =>
    exact ⟨_, (Except.ok.inj h).symm, hmin, hmax, fun e => absurd e n1, fun e _ => absurd e n2, fun e _ => absurd e n2,
      fun e => absurd e n3, fun e => absurd e n4, fun _ => rfl⟩

/-! ### SLEW_END (03 R47) -/

theorem slewEnd_absorbed {dt : Nat} {a : Dev} (hs : a.tim.slewPpb ≠ 0) (hn : slewNeed a.tim ≤ dt) : slewEnd dt a = advance a dt := by
  simp [slewEnd, hs, hn]

/-! ### PTP (03 R48) -/

/-- Device time follows PTP on sub-port `p` in domain `dom`, and the sub-port is up. -/
def FollowsOn (p dom : Nat) (a : Dev) : Prop := a.tim.ptp = true ∧ p = a.tim.ptpPort ∧ dom = a.tim.ptpDomain ∧ subUp a p = true

theorem ptpReceive_sync {p dom n : Nat} {a : Dev} (h : FollowsOn p dom a) : ptpReceive p dom (.sync n none) a = updSub { a with
      tim.lastSync := a.tim.elapsed, tim.syncSeq := n, tim.syncT2 := a.tim.now, tim.syncT1 := none, tim.delayT3 := a.tim.now
      tim.ptpState := if a.tim.ptpState = 4 then 2 else a.tim.ptpState } p (fun x => { x with ctl := x.ctl ++ [Frame.ptp dom 1 n] }) := by
  obtain ⟨hptp, rfl, rfl, hup⟩ := h
  simp [ptpReceive, hptp, hup]

theorem ptpReceive_followUp {p dom t1 : Nat} {a : Dev} (h : FollowsOn p dom a) (hn : a.tim.syncT1 = none) :
    ptpReceive p dom (.followUp a.tim.syncSeq t1) a = ptpMeasured a t1 := by
  obtain ⟨hptp, rfl, rfl, hup⟩ := h
  simp [ptpReceive, hptp, hup, hn]

theorem ptpReceive_delayResp {p dom t1 t4 : Nat} {a : Dev} (h : FollowsOn p dom a) (ht : a.tim.syncT1 = some t1) :
    ptpReceive p dom (.delayResp a.tim.syncSeq t4) a =
      { a with tim.pathDelay := (((a.tim.syncT2 : Int) - t1) + ((t4 : Int) - a.tim.delayT3)) / 2 } := by
  obtain ⟨hptp, rfl, rfl, hup⟩ := h
  simp [ptpReceive, hptp, hup, ht]

theorem ptpMeasured_eq (a : Dev) (t1 : Nat) : ptpMeasured a t1 =
    (let off : Int := (a.tim.syncT2 : Int) - t1 - a.tim.pathDelay
     let x := drawNat { a with
       tim.offsetNs := if off < -(2 ^ 31 - 1) then -(2 ^ 31 - 1) else if 2 ^ 31 - 1 < off then 2 ^ 31 - 1 else off, tim.syncT1 := some t1 }
     let y := drawBool x.2
     let b := { y.2 with tim.basePpb := ((x.1 % 1000001 : Nat) : Int) - 500000, tim.ptpState := if y.1 = true then 3 else 2 }
     if b.tim.acquired = true ∨ off.natAbs ≤ 1000000 then b
       else if off < 0 then stepTime { b with tim.acquired := true } (b.tim.now + off.natAbs) else { b with tim.acquired := true }) := by
  simp only [ptpMeasured, Bool.or_eq_true, decide_eq_true_eq]

/-- Time that passes leaves what follows PTP. -/
theorem advanceTim_ptp (t : Tim) (n : Nat) : (advanceTim t n).ptp = t.ptp ∧ (advanceTim t n).ptpPort = t.ptpPort ∧
    (advanceTim t n).ptpState = t.ptpState ∧ (advanceTim t n).lastSync = t.lastSync ∧ (advanceTim t n).offsetNs = t.offsetNs := by
  rcases DeviceTime.advanceTim_cases t n with h | h <;> rw [h] <;> exact ⟨rfl, rfl, rfl, rfl, rfl⟩

theorem ptpTimeout_due {dt : Nat} {a : Dev} (hptp : a.tim.ptp = true) (hstate : a.tim.ptpState ≠ 4)
    (hlate : a.tim.lastSync + 4000000000 ≤ (advance a dt).tim.elapsed) :
    ptpTimeout dt a = raiseDev { advance a dt with tim.ptpState := 4 } 0x0115 [(1, a.tim.ptpPort), (4, ofSigned 32 a.tim.offsetNs)] := by
  obtain ⟨h1, h2, h3, h4, h5⟩ := advanceTim_ptp a.tim dt
  have hnow : ¬(advanceTim a.tim dt).elapsed < a.tim.lastSync + 4000000000 := Nat.not_lt.2 hlate
  simp [ptpTimeout, advance, h1, h2, h3, h4, h5, hptp, hstate, hnow]

/-- Settles O43: each command's function is as the lemmas above say. -/
theorem timeCommandsTakeEffect : Obligations.TimeCommandsTakeEffect := by
  unfold Obligations.TimeCommandsTakeEffect
  refine ⟨fun s seq v w hrun hw => ⟨exec_clauseSet_ok hrun hw, ?_⟩, verbDoes_of (fun _ _ => rfl) fun _ _ _ => timeSetBody_ok,
    fun dt => does_of (Sys2Proof.Machine.slewEnd dt) (fun _ => rfl) fun a _ ⟨hs, hn⟩ => slewEnd_absorbed hs hn,
    fun p dom n => does_of (ptpReceive p dom (.sync n none)) (fun _ => rfl) fun a _ h => ptpReceive_sync h,
    fun p dom n t1 => does_of (ptpReceive p dom (.followUp n t1)) (fun _ => rfl) fun a _ h => ?_,
    fun p dom n t1 t4 => does_of (ptpReceive p dom (.delayResp n t4)) (fun _ => rfl) fun a _ h => ?_,
    fun dt => does_of (ptpTimeout dt) (fun _ => rfl) fun a _ ⟨hptp, hstate, hlate⟩ => ptpTimeout_due hptp hstate hlate⟩
  · obtain ⟨-, rfl⟩ := GridSettings.clauseSetCheck_ok hw
    exact ⟨rfl, rfl, rfl, rfl⟩
  · obtain ⟨hptp, hp, hdom, hup, rfl, hnone⟩ := h
    exact (ptpReceive_followUp ⟨hptp, hp, hdom, hup⟩ hnone).trans (ptpMeasured_eq a t1)
  · obtain ⟨hptp, hp, hdom, hup, ht, rfl⟩ := h
    exact ptpReceive_delayResp ⟨hptp, hp, hdom, hup⟩ ht

end Sys2Proof.TimeCommands
end

section
/-!
The history of events (20 R455): what enters it, and what leaves it as it is.
-/

namespace Sys2Proof.EventHistory

open Sys2Proof.Machine

theorem signalMsix_tur (d : Dev) (n v : Nat) : (signalMsix d n v).tur = d.tur := by
  unfold signalMsix
  split
  · split
    · rfl
    · split
      · rfl
      · split
        · unfold updLd
          split <;> rfl
        · rfl
  · rfl

@[simp] theorem evqPut_history (d : Dev) (n : Nat) (q : Evq) (e : EventRec) (lost : Nat) : (evqPut d n q e lost).tur.history = d.tur.history := by
  unfold evqPut
  dsimp only
  rw [signalMsix_tur]
  rfl

@[simp] theorem evqPost_history (d : Dev) (n : Nat) (e : EventRec) : (evqPost d n e).tur.history = d.tur.history := by
  unfold evqPost
  dsimp only
  split
  · rfl
  · split
    · rfl
    · split
      · rfl
      · split
        · exact evqPut_history _ _ _ _ _
        · split
          · exact evqPut_history _ _ _ _ _
          · rfl

@[simp] theorem fmPost_history (d : Dev) (e : EventRec) : (fmPost d e).tur.history = d.tur.history := by
  unfold fmPost
  split
  · rfl
  · dsimp only
    split
    · rfl
    · split <;> rfl

/-- What every step of a fold keeps, the fold keeps. -/
theorem foldl_keeps {α β : Type} {p : Dev → β} {f : Dev → α → Dev} (h : ∀ d x, p (f d x) = p d) (l : List α) (d : Dev) :
    p (l.foldl f d) = p d := by
  induction l generalizing d with
  | nil => rfl
  | cons x l ih => exact (ih (f d x)).trans (h d x)

/-- An event enters the history, which keeps the last 4,096. -/
theorem raiseRec_history (d : Dev) (e : EventRec) : (raiseRec d e).tur.history =
    (d.tur.history ++ [(d.tur.histNext, e)]).drop ((d.tur.history ++ [(d.tur.histNext, e)]).length - 4096) := by
  unfold raiseRec
  dsimp only
  split
  · rw [fmPost_history, foldl_keeps (p := fun a => a.tur.history) fun a n => evqPost_history a n e]
  · split <;> simp
  · simp

/-- The last event of the history is the one raised last. -/
theorem raiseRec_last (d : Dev) (e : EventRec) : (raiseRec d e).tur.history.getLast? = some (d.tur.histNext, e) := by
  rw [raiseRec_history, List.getLast?_drop, List.getLast?_append]
  simp

theorem raiseDev_last (d : Dev) (code : Nat) (vals : List (Nat × Nat)) :
    ∃ e, (raiseDev d code vals).tur.history.getLast? = some e ∧ e.2.code = code := ⟨_, raiseRec_last d _, rfl⟩

/-! ### Completions leave the history -/

@[simp] theorem postCpl_history (d : Dev) (r : Ring) (h : HeldCpl) : (postCpl d r h).tur.history = d.tur.history := by
  unfold postCpl
  dsimp only
  split
  · rw [signalMsix_tur]
    rfl
  · rfl

theorem drainHeld_history (k : Nat) (d : Dev) (n : Nat) : (drainHeld k d n).tur.history = d.tur.history := by
  induction k generalizing d with
  | zero => rfl
  | succ k ih =>
    unfold drainHeld
    split
    · rfl
    · split
      · rfl
      · split
        · rfl
        · rw [ih, postCpl_history]
          rfl

theorem finishHub_history (d : Dev) (v : Verb) (bytes : List Byte) : (finishHub d v bytes).tur.history = d.tur.history := by
  unfold finishHub
  dsimp only
  split
  · split <;> rfl
  · rfl

theorem finish_history (d : Dev) (v : Verb) (status err : Nat) (fields : List (Nat × Nat × Nat)) :
    (finish d v status err fields).tur.history = d.tur.history := by
  unfold finish
  dsimp only
  split
  · exact finishHub_history _ _ _
  · exact drainHeld_history _ _ _

/-! ### A count and a completion touch the interface only -/

theorem bump_sameBut (d : Dev) (scope unit num n : Nat) : sameBut d (bump d scope unit num n) := by
  rcases bump_counts_only d scope unit num n with ⟨c, h⟩ | ⟨c, vals, h⟩ <;> rw [h]
  · exact ctrPut_sameBut d c
  · exact sameBut_trans (ctrPut_sameBut d c) (raise_sameBut _ _ _ _ _)

theorem finish_sameBut (d : Dev) (v : Verb) (status err : Nat) (fields : List (Nat × Nat × Nat)) : sameBut d (finish d v status err fields) := by
  unfold finish
  dsimp only
  refine sameBut_ite (sameBut_trans ?_ (finishHub_sameBut _ _ _)) (sameBut_trans (sameBut_trans ?_ (drainHeld_sameBut _ _ _)) (settleRing_sameBut _ _))
  · rfl
  · rfl

end Sys2Proof.EventHistory
end

section
/-!
The turn of the clock at a boundary (03 R38, R40, R42): the clause that begins, its slip, and the re-base at its end.
-/

namespace Sys2Proof.ClauseTurns

open Sys2Proof.Machine GridSettings EventHistory

/-! ### The clause that begins -/

/-- Whether the clause that begins at a boundary slips (03 R40). -/
theorem nextClause_slip (c : Clk) (old l now start : Nat) (fresh : Bool) : (nextClause c old l now start fresh).2 =
    (c.started && (c.aborted || (!fresh && decide (8 * old < now - (nominalTime c old now fresh).1)))) := rfl

@[simp] theorem nextClause_rebase (c : Clk) (old l now start : Nat) (fresh : Bool) :
    (nextClause c old l now start fresh).1.rebase = (nextClause c old l now start fresh).2 := rfl

/-- A clause that slips is planned whole and not shortened. -/
theorem nextClause_whole {c : Clk} {old l now start : Nat} {fresh : Bool} (h : (nextClause c old l now start fresh).2 = true) :
    (nextClause c old l now start fresh).1.planned = l ∧ (nextClause c old l now start fresh).1.shortened = false := by
  rw [nextClause_slip] at h
  simp [nextClause, h]

/-- A clause that does not slip gives up its debt, but keeps at least half its length (03 R38). -/
theorem nextClause_planned {c : Clk} {old l now start : Nat} {fresh : Bool} (h : (nextClause c old l now start fresh).2 = false) :
    (nextClause c old l now start fresh).1.planned = Nat.max (l / 2) (l - (nextClause c old l now start fresh).1.debt) := by
  rw [nextClause_slip] at h
  simp [nextClause, h]

/-! ### The nominal boundary -/

/-- Where a CLAUSE_SET takes effect, the boundary is its own nominal time: there is no debt. -/
theorem nominalTime_fresh (c : Clk) (l now : Nat) : nominalTime c l now true = (now, [], 0) := by simp [nominalTime]

/-- On the internal timer a boundary that is not re-based is nominal one length after the last. -/
theorem nominalTime_timer {c : Clk} (l now : Nat) (hs : c.started = true) (hm : c.mode ≠ 1) (hr : c.rebase = false) :
    nominalTime c l now false = (c.nominal + l, [], 0) := by
  simp [nominalTime, hs, hm, hr]

/-- On the internal timer the boundary that re-bases the grid is the new nominal origin. -/
theorem nominalTime_rebase {c : Clk} (l now : Nat) (fresh : Bool) (hs : c.started = true) (hm : c.mode ≠ 1) (hr : c.rebase = true) :
    nominalTime c l now fresh = (now, [], 0) := by
  cases fresh <;> simp [nominalTime, hs, hm, hr]

/-- In TICK_IN mode the grid is re-based at the first accepted tick at least half a clause after the clause began. -/
theorem nominalTime_rebase_tick {c : Clk} {l now i t : Nat} (hs : c.started = true) (hm : c.mode = 1) (hr : c.rebase = true)
    (hlock : c.locking = false) (ht : c.ticks[i]? = some t) (hhalf : c.start + l / 2 ≤ t)
    (first : ∀ j u, j < i → c.ticks[j]? = some u → u < c.start + l / 2) : (nominalTime c l now false).1 = t := by
  have hfind : c.ticks.find? (fun t => decide (c.start + l / 2 ≤ t)) = some t := by
    obtain ⟨hi, ht⟩ := List.getElem?_eq_some_iff.1 ht
    refine List.find?_eq_some_iff_getElem.2 ⟨by simpa using hhalf, i, hi, ht, fun j hj => ?_⟩
    simpa using first j _ hj (List.getElem?_eq_getElem (hj.trans hi))
  simp [nominalTime, hs, hm, hr, hlock, hfind]

/-- In TICK_IN mode, the boundary of a clause that re-bases is due once such a tick has been accepted. -/
theorem boundaryDue_rebase_tick {c : Clk} {l now : Nat} {busy : Bool} (hs : c.started = true) (hr : c.rebase = true) (hm : c.mode = 1)
    (hlock : c.locking = false) (ha : c.aborted = false) :
    boundaryDue c l now busy = true ↔ busy = false ∧ ∃ t ∈ c.ticks, c.start + l / 2 ≤ t := by
  simp [boundaryDue, hs, hr, hm, hlock, ha]

/-! ### The turn of the clock -/

/-- The clause that begins at the boundary, and whether it slips. -/
def begun (g : Grid) (d : Dev) : Clk × Bool :=
  nextClause d.clk (lenNs g) (lenNs (turnClause g d).1) d.tim.elapsed d.tim.now (dueSet g d).isSome

/-- The device once the clock has turned: the new clause, and EV_CLAUSE_SLIP where it slips. -/
def afterTurn (g : Grid) (d : Dev) : Dev :=
  let c := setSource (begun g d).1 g.source (turnClause g d).1.source
  let d1 := { d with clk := c, outs.pins := d.outs.pins ++ [(0, d.tim.elapsed, true), (0, d.tim.elapsed + 100, false)] }
  if (begun g d).2 then raiseDev (bump d1 0 0 1 1) 0x0110
    [(4, (d.tim.elapsed - (nominalTime d.clk (lenNs g) d.tim.elapsed (dueSet g d).isSome).1) / 1000), (8, c.count + 1)]
  else d1

/-- A turn of the clock is the new clause, with the completion of the CLAUSE_SET that takes effect. -/
theorem turnClause_cases (g : Grid) (d : Dev) :
    (turnClause g d).2 = afterTurn g d ∨ ∃ v fields, (turnClause g d).2 = finishOk (afterTurn g d) v fields := by
  unfold afterTurn begun
  rw [turnClause_grid]
  unfold turnClause
  dsimp only
  rw [← dueSet]
  cases dueSet g d with
  | none => exact .inl rfl
  | some w =>
    dsimp only
    split
    · exact .inr ⟨_, _, rfl⟩
    · exact .inl rfl

theorem afterTurn_clk (g : Grid) (d : Dev) : (afterTurn g d).clk = setSource (begun g d).1 g.source (turnClause g d).1.source := by
  unfold afterTurn
  dsimp only
  split
  · exact (sameBut_trans (bump_sameBut _ _ _ _ _) (raiseDev_sameBut _ _ _)).clk
  · rfl

theorem turnClause_clk (g : Grid) (d : Dev) : (turnClause g d).2.clk = setSource (begun g d).1 g.source (turnClause g d).1.source := by
  rw [← afterTurn_clk]
  rcases turnClause_cases g d with h | ⟨v, fields, h⟩ <;> rw [h]
  exact (finish_sameBut _ _ _ _ _).clk

theorem turnClause_history (g : Grid) (d : Dev) : (turnClause g d).2.tur.history = (afterTurn g d).tur.history := by
  rcases turnClause_cases g d with h | ⟨v, fields, h⟩ <;> rw [h]
  exact finish_history _ _ _ _ _

/-- A change of source leaves the clause as it is. -/
theorem setSource_clause (c : Clk) (old new : Nat) : (setSource c old new).count = c.count ∧ (setSource c old new).planned = c.planned ∧
    (setSource c old new).shortened = c.shortened ∧ (setSource c old new).rebase = c.rebase := by
  unfold setSource
  split
  · exact ⟨rfl, rfl, rfl, rfl⟩
  · split <;> exact ⟨rfl, rfl, rfl, rfl⟩

theorem turnClause_count (g : Grid) (d : Dev) : (turnClause g d).2.clk.count = if d.clk.started then (d.clk.count + 1) % 2 ^ 64 else 0 := by
  rw [turnClause_clk, (setSource_clause _ _ _).1]
  rfl

/-- The clause that begins is planned, shortened and re-based as `begun` says. -/
theorem turnClause_begun (g : Grid) (d : Dev) : (turnClause g d).2.clk.planned = (begun g d).1.planned ∧
    (turnClause g d).2.clk.shortened = (begun g d).1.shortened ∧ (turnClause g d).2.clk.rebase = (begun g d).2 := by
  rw [turnClause_clk]
  exact (setSource_clause _ _ _).2

/-! ### Slips (03 R40) -/

theorem dueSet_of_started {g : Grid} {d : Dev} (h : d.clk.started = true) : dueSet g d = clauseSetDue g d.clk.count := by
  simp [dueSet, h]

/-- Once a clause has begun, the next slips after an abort, and where the debt at its boundary exceeds 8 L. -/
theorem begun_slips_iff {g : Grid} {d : Dev} (hs : d.clk.started = true) : (begun g d).2 = true ↔
    d.clk.aborted = true ∨
      8 * lenNs g < d.tim.elapsed - (nominalTime d.clk (lenNs g) d.tim.elapsed (clauseSetDue g d.clk.count).isSome).1 := by
  rw [begun, nextClause_slip, hs, dueSet_of_started hs]
  cases (clauseSetDue g d.clk.count).isSome <;> simp [nominalTime_fresh]

theorem turnClause_of_slip {g : Grid} {d : Dev} (h : (begun g d).2 = true) :
    (∃ e, (turnClause g d).2.tur.history.getLast? = some e ∧ e.2.code = 0x0110) ∧ (turnClause g d).2.clk.planned = lenNs (turnClause g d).1 ∧
      (turnClause g d).2.clk.shortened = false ∧ (turnClause g d).2.clk.rebase = true := by
  obtain ⟨hplanned, hshort, hrebase⟩ := turnClause_begun g d
  obtain ⟨hwhole, hnot⟩ := nextClause_whole h
  refine ⟨?_, hplanned.trans hwhole, hshort.trans hnot, hrebase.trans h⟩
  rw [turnClause_history]
  simp only [afterTurn, h, if_true]
  exact raiseDev_last _ _ _

theorem turnClause_of_no_slip {g : Grid} {d : Dev} (h : (begun g d).2 = false) :
    (turnClause g d).2.tur.history = d.tur.history ∧ (turnClause g d).2.clk.rebase = false := by
  refine ⟨?_, (turnClause_begun g d).2.2.trans h⟩
  rw [turnClause_history]
  simp [afterTurn, h]

/-- Settles O5: a boundary slips exactly where R40 says, and the end of such a clause takes its nominal time from the timer or the tick. -/
theorem slippedClausesRebase : Obligations.SlippedClausesRebase := by
  unfold Obligations.SlippedClausesRebase
  refine ⟨fun g d debt hs hdebt => ?_, fun c old l now start fresh hs hr hm => ?_, fun c l now busy hs hr hm hlock ha => ?_,
    fun c old l now start i t hs hr hm hlock ht hhalf first => ?_⟩
  · have hslip := begun_slips_iff (g := g) hs
    rw [← hdebt] at hslip
    exact ⟨fun h => turnClause_of_slip (hslip.2 h),
      fun ha hle => turnClause_of_no_slip (Bool.eq_false_iff.2 fun h => (hslip.1 h).elim (by simp [ha]) (Nat.not_lt.2 hle))⟩
  · simp [nextClause, nominalTime_rebase old now fresh hs hm hr]
  · exact boundaryDue_rebase_tick hs hr hm hlock ha
  · simp [nextClause, nominalTime_rebase_tick hs hm hr hlock ht hhalf first]

/-- Without a CLAUSE_SET and on the internal timer: the clause, its debt and its planned length (03 R38, R40, R42). -/
theorem nextClause_timer {c : Clk} (l now start : Nat) (hs : c.started = true) (hm : c.mode = 0) (ha : c.aborted = false) (hr : c.rebase = false) :
    (nextClause c l l now start false).1.count = (c.count + 1) % 2 ^ 64 ∧
    (nextClause c l l now start false).1.start = now ∧
    (nextClause c l l now start false).1.nominal = c.nominal + l ∧
    (nextClause c l l now start false).1.debt = now - (c.nominal + l) ∧
    (nextClause c l l now start false).2 = decide (8 * l < now - (c.nominal + l)) := by
  have hn := nominalTime_timer (c := c) l now hs (by simp [hm]) hr
  simp [nextClause, hn, hs, ha]

/-- Settles O41: the count and the timer's clauses are the lemmas above; the planned length follows from whether the clause slips. -/
theorem clausesFollowTheGrid : Obligations.ClausesFollowTheGrid := by
  unfold Obligations.ClausesFollowTheGrid
  refine ⟨fun _ => rfl, fun _ _ _ _ _ _ => ⟨rfl, rfl⟩, turnClause_count, fun c l now start hs hm ha hr => ?_⟩
  obtain ⟨hcount, hstart, hnominal, hdebt, hslip⟩ := nextClause_timer l now start hs hm ha hr
  refine ⟨hcount, hstart, hnominal, hdebt, fun hle => ?_, fun hlt => ?_⟩
  · have hno : (nextClause c l l now start false).2 = false := by simpa [hslip] using hle
    exact ⟨hno, hdebt ▸ nextClause_planned hno⟩
  · have hyes : (nextClause c l l now start false).2 = true := by simpa [hslip] using hlt
    exact ⟨hyes, (nextClause_whole hyes).1, hyes⟩

end Sys2Proof.ClauseTurns
end

section
/-!
What follows a change to the jobs leaves the clock as it is (03 R41): completions, returns and the windows that they free.
-/

namespace Sys2Proof.JobsKeepClock

open Sys2Proof.Machine EventHistory

theorem finish_clk (d : Dev) (v : Verb) (status err : Nat) (fields : List (Nat × Nat × Nat)) : (finish d v status err fields).clk = d.clk :=
  (finish_sameBut d v status err fields).clk

theorem finishJob_clk (d : Dev) (j : Job) (status : Nat) (fields : List (Nat × Nat × Nat)) : (finishJob d j status fields).clk = d.clk := by
  unfold finishJob
  split
  · rfl
  · dsimp only
    split
    · rfl
    · rw [finish_clk]
      split <;> rfl

theorem endStopped_clk (d : Dev) : (endStopped d).clk = d.clk :=
  foldl_keeps (p := Dev.clk) (fun a j => finishJob_clk a j _ _) _ _

theorem sendMsg_clk {d e : Dev} {qpn : Nat} {k : PktKind} {imm : Option Nat} {va rkey : Nat} {bs : List Byte}
    (h : sendMsg d qpn k imm va rkey bs = some e) : e.clk = d.clk := by
  unfold sendMsg at h
  split at h
  · simp at h
  · split at h
    · simp at h
    · obtain rfl := Option.some.inj h
      rfl

theorem sendAll_clk {qpn : Nat} {msgs : List (Option Nat × Nat × Nat × List Byte)} {d e : Dev} (h : sendAll d qpn msgs = some e) :
    e.clk = d.clk := by
  induction msgs generalizing d with
  | nil =>
    obtain rfl := Option.some.inj h
    rfl
  | cons m msgs ih =>
    simp only [sendAll] at h
    split at h
    · simp at h
    next hd => exact (ih h).trans (sendMsg_clk hd)

theorem sendReturn_clk (d : Dev) (w : Window) (outcome imm : Nat) (outs : List (Nat × List Byte)) :
    (sendReturn d w outcome imm outs).clk = d.clk := by
  unfold sendReturn
  split
  · rfl
  · dsimp only
    split
    next hd => exact sendAll_clk hd
    · split
      · exact (bump_sameBut _ _ _ _ _).clk
      · rfl

theorem postLaunch_clk (d : Dev) (w : Window) (imm status : Nat) (fields : List (Nat × Nat × Nat)) :
    (postLaunch d w imm status fields).clk = d.clk := by
  unfold postLaunch
  split
  · rfl
  · split
    · rfl
    · exact (drainHeld_sameBut _ _ _).clk

theorem returnJob_clk (d : Dev) (j : Job) : (returnJob d j).clk = d.clk := by
  unfold returnJob
  split
  · rfl
  · split
    · rfl
    · split
      · rfl
      · split
        · rfl
        · exact sendReturn_clk _ _ _ _ _

theorem settleWindow_clk (d : Dev) (id : Nat) : (settleWindow d id).clk = d.clk := by
  unfold settleWindow
  split
  · rfl
  · split
    · rfl
    · dsimp only
      split
      · exact finish_clk _ _ _ _ _
      · rfl

theorem finishLaunch_clk (d : Dev) (j : Job) : (finishLaunch d j).clk = d.clk := by
  unfold finishLaunch
  split
  · rfl
  · split
    · rfl
    · dsimp only
      rw [settleWindow_clk]
      refine (postLaunch_clk _ _ _ _ _).trans ?_
      rw [updWindow_clk]
      split
      · rfl
      · exact sendReturn_clk _ _ _ _ _

theorem settleLaunches_clk (d : Dev) : (settleLaunches d).clk = d.clk := by
  unfold settleLaunches returnJobs
  dsimp only
  rw [foldl_keeps (p := Dev.clk) finishLaunch_clk, foldl_keeps (p := Dev.clk) returnJob_clk, endStopped_clk]

theorem settleJobs_clk (d : Dev) : (settleJobs d).clk = d.clk := by
  unfold settleJobs
  rw [settleLaunches_clk]
  split <;> rfl

end Sys2Proof.JobsKeepClock
end

section
/-!
The boundary (03 R38-R42; 09 R187; 18 R424) and the commands that bring one about: when it takes place, and what it is made of.
-/

namespace Sys2Proof.Boundaries

open Sys2Proof.Machine GridSettings

theorem onGrid_answers {f : Grid → Dev → Grid × Dev} {s : State} (h : answering s.dev = true) :
    onGrid f s = .next { s with grid := (f s.grid s.dev).1, dev := (f s.grid s.dev).2 } := by
  simp [onGrid, h]

@[simp] theorem answering_advance (d : Dev) (dt : Nat) : answering (advance d dt) = answering d := rfl

/-- While no boundary is due, time passes. -/
theorem boundary_not_due {dt : Nat} {g : Grid} {d : Dev} (temps : List Int) (bad : List BadSector) (tests : List (Nat × List Defect))
    (h : boundaryDue (advance d dt).clk (lenNs g) (advance d dt).tim.elapsed (coresBusy (advance d dt)) = false) :
    boundary dt temps bad tests g d = (g, advance d dt) := by
  unfold boundary
  dsimp only
  rw [if_pos (by rw [h]; simp)]

/-- Where a boundary is due, what was late completes, the clock turns, and the phases of 09 R187 follow. -/
theorem boundary_due {dt : Nat} {g : Grid} {d : Dev} (temps : List Int) (bad : List BadSector) (tests : List (Nat × List Defect))
    (ha : answering d = true) (hp : d.boot.powerFail = false)
    (h : boundaryDue (advance d dt).clk (lenNs g) (advance d dt).tim.elapsed (coresBusy (advance d dt)) = true) :
    boundary dt temps bad tests g d =
      (let a := settleLate (nextRelease (advance d dt))
       let t := turnClause (dropWaiting g a) a
       let b := applyAlloc (becomeReady (backgroundWork temps bad tests (settleBoundary t.2)))
       (t.1, dispatchMovers (settleLaunches (dispatchClause t.1.lenUs (markStarted b))))) := by
  unfold boundary
  dsimp only
  rw [if_neg (by rw [h, answering_advance, ha, advance_boot, hp]; simp)]

/-- JOB_OVERRUN_ABORT of a job that does not run, or is not past the limit, aborts nothing (03 R41). -/
theorem overrunAbort_early {job l : Nat} {d : Dev} (h : jobRunning d job = false ∨ d.tim.elapsed < d.clk.start + d.clk.planned + 8000 * l) :
    overrunAbort job l d = d := by
  unfold overrunAbort
  rw [if_neg]
  rcases h with h | h
  · simp [h]
  · simp [Nat.not_le.2 h]

theorem overrunAbort_late {job l : Nat} {d : Dev} (hr : jobRunning d job = true) (h : d.clk.start + d.clk.planned + 8000 * l ≤ d.tim.elapsed) :
    overrunAbort job l d = endStopped (abortJob { d with clk.aborted := true } job) := by
  unfold overrunAbort
  rw [if_pos (by simp [hr, h])]

/-- Settles O40: a boundary that is due is made of its phases; one that is not due lets time pass; an abort brings one about at once. -/
theorem boundaryTakesPlace : Obligations.BoundaryTakesPlace := by
  unfold Obligations.BoundaryTakesPlace
  refine ⟨fun dt temps bad tests s ha hp hdue => ?_, fun dt temps bad tests s ha hnot => ?_, fun job dt s ha hab h => ?_,
    fun job dt s ha hr hlate => ?_⟩
  · rw [exec_clauseBoundary, onGrid_answers ha, boundary_due temps bad tests ha hp hdue]
  · rw [exec_clauseBoundary, onGrid_answers ha, boundary_not_due temps bad tests hnot]
  · have hkept : (settleJobs (advance s.dev dt)).clk.aborted = false := by rw [JobsKeepClock.settleJobs_clk, advance_clk, hab]
    rw [exec_jobOverrunAbort, onGrid_answers ha, overrunAbort_early h, hkept]
    rfl
  · intro b hb
    rw [exec_jobOverrunAbort, onGrid_answers ha, overrunAbort_late (d := advance s.dev dt) hr hlate, if_pos hb]

/-! ### TICK_IN (03 R43, R44) -/

theorem exec_tickInEdge {dt high : Nat} {s : State} {e : Dev} (ha : answering s.dev = true) (h : tickEdge dt high s.grid.lenUs s.dev = e) :
    exec (.tickInEdge dt high) s = .next { s with dev := e } := by
  show onDev (tickEdge dt high s.grid.lenUs) s = _
  rw [onDev_answers _ _ ha, h]

/-- A pulse of under 20 ns is not seen, nor is any where the grid runs from the internal timer. -/
theorem tickEdge_unseen {dt high l : Nat} {d e : Dev} (he : advance d dt = e) (h : high < 20 ∨ e.clk.mode = 0) : tickEdge dt high l d = e := by
  simp only [tickEdge, he, Bool.or_eq_true, decide_eq_true_eq, h, if_true]

/-- What a tick that is seen does while the grid is locked, for a clause length of `l` ns: accepted, or rejected. -/
def lockedTick (l : Nat) (d : Dev) : Dev :=
  if goodSpacing l d.clk.lastTick d.tim.elapsed then
    let taken := if 0 < d.clk.owed then { d.clk with owed := d.clk.owed - 1 } else { d.clk with ticks := d.clk.ticks ++ [d.tim.elapsed] }
    { d with clk := { taken with lastTick := d.tim.elapsed, lastTickNow := d.tim.now } }
  else bump d 0 0 2 1

/-- What a tick that is seen does while the grid is locking: the count begins again, goes on, or is full. -/
def lockingTick (l : Nat) (d : Dev) : Dev :=
  let good := match d.clk.lastSeen with | some t => goodSpacing l t d.tim.elapsed | none => false
  let c : Clk := { d.clk with lastSeen := some d.tim.elapsed }
  if !good then { d with clk := { c with goodTicks := 1 } }
  else if c.goodTicks < 5 then { d with clk := { c with goodTicks := c.goodTicks + 1 } }
  else if d.tim.elapsed < c.start + l / 2 then { d with clk := c }
  else
    let lock : Clk := { c with
      mode := 1, locking := true, lastTick := d.tim.elapsed, lastTickNow := d.tim.now, ticks := [d.tim.elapsed], owed := 0, goodTicks := 0 }
    raiseDev { d with clk := lock } 0x0112 [(8, d.tim.now)]

/-- An edge of at least 30 ns is seen, on the device as time has left it. -/
theorem tickEdge_seen {dt high : Nat} (l : Nat) {d : Dev} (hs : 30 ≤ high) (hm : d.clk.mode ≠ 0) : tickEdge dt high l d =
    if d.clk.mode = 1 then lockedTick (l * 1000) (advance d dt) else lockingTick (l * 1000) (advance d dt) := by
  have hseen : ¬(decide (high < 20) || decide ((advance d dt).clk.mode = 0)) = true := by
    simp only [advance_clk, Bool.or_eq_true, decide_eq_true_eq, hm, or_false]
    omega
  unfold tickEdge
  dsimp only
  rw [if_neg hseen, if_pos hs]
  rfl

theorem tickEdge_locked {dt high : Nat} (l : Nat) {d : Dev} (hs : 30 ≤ high) (hm : d.clk.mode = 1) :
    tickEdge dt high l d = lockedTick (l * 1000) (advance d dt) := by
  rw [tickEdge_seen l hs (by simp [hm]), if_pos hm]

theorem tickEdge_locking {dt high : Nat} (l : Nat) {d : Dev} (hs : 30 ≤ high) (hm : d.clk.mode = 2) :
    tickEdge dt high l d = lockingTick (l * 1000) (advance d dt) := by
  rw [tickEdge_seen l hs (by simp [hm]), if_neg (by simp [hm])]

/-- A tick at the right spacing waits for its boundary. -/
theorem lockedTick_waits {l : Nat} {d : Dev} (hg : goodSpacing l d.clk.lastTick d.tim.elapsed = true) (ho : d.clk.owed = 0) :
    lockedTick l d = { d with
      clk.ticks := d.clk.ticks ++ [d.tim.elapsed], clk.lastTick := d.tim.elapsed, clk.lastTickNow := d.tim.now } := by
  simp [lockedTick, hg, ho]

/-- A tick that is owed to a boundary already taken waits for none. -/
theorem lockedTick_owed {l : Nat} {d : Dev} (hg : goodSpacing l d.clk.lastTick d.tim.elapsed = true) (ho : 0 < d.clk.owed) :
    lockedTick l d = { d with clk.owed := d.clk.owed - 1, clk.lastTick := d.tim.elapsed, clk.lastTickNow := d.tim.now } := by
  simp [lockedTick, hg, ho]

theorem lockedTick_rejected {l : Nat} {d : Dev} (hg : goodSpacing l d.clk.lastTick d.tim.elapsed = false) :
    lockedTick l d = bump d 0 0 2 1 := by
  simp [lockedTick, hg]

/-- A tick that follows none at the right spacing is the first of the count. -/
theorem lockingTick_first {l : Nat} {d : Dev} (hg : ∀ t, d.clk.lastSeen = some t → goodSpacing l t d.tim.elapsed = false) :
    lockingTick l d = { d with clk.lastSeen := some d.tim.elapsed, clk.goodTicks := 1 } := by
  cases hl : d.clk.lastSeen with
  | none => simp [lockingTick, hl]
  | some t => simp [lockingTick, hl, hg t hl]

theorem lockingTick_counted {l t : Nat} {d : Dev} (hl : d.clk.lastSeen = some t) (hg : goodSpacing l t d.tim.elapsed = true)
    (h5 : d.clk.goodTicks < 5) : lockingTick l d = { d with clk.lastSeen := some d.tim.elapsed, clk.goodTicks := d.clk.goodTicks + 1 } := by
  simp [lockingTick, hl, hg, h5]

/-- The tick that makes six at the right spacing, at least half a clause after its start, locks the grid. -/
theorem lockingTick_locks {l t : Nat} {d : Dev} (hl : d.clk.lastSeen = some t) (hg : goodSpacing l t d.tim.elapsed = true)
    (h5 : d.clk.goodTicks = 5) (hhalf : d.clk.start + l / 2 ≤ d.tim.elapsed) :
    lockingTick l d = raiseDev { d with clk := { d.clk with
      mode := 1, locking := true, lastSeen := some d.tim.elapsed, lastTick := d.tim.elapsed, lastTickNow := d.tim.now
      ticks := [d.tim.elapsed], owed := 0, goodTicks := 0 } } 0x0112 [(8, d.tim.now)] := by
  simp [lockingTick, hl, hg, h5, Nat.not_lt.2 hhalf]

/-! ### The loss of the tick (03 R44) -/

/-- The clause was only waiting for a tick: its planned end is past, no job runs and no tick waits. -/
def WaitsForTick (d : Dev) : Prop := coresBusy d = false ∧ d.clk.start + d.clk.planned ≤ d.tim.elapsed ∧ d.clk.ticks = []

/-- The clock once the internal timer has taken over: `c` as it was, with the re-base or the nominal origin that follows. -/
def Lost (d : Dev) (c : Clk) : Prop :=
  (WaitsForTick d → c = { d.clk with mode := 2, goodTicks := 0, lastSeen := none, locking := false, ticks := [], owed := 0, rebase := true }) ∧
  (¬WaitsForTick d → c = { d.clk with
    mode := 2, goodTicks := 0, lastSeen := none, locking := false, ticks := [], owed := 0, nominal := d.clk.lastTick })

theorem tickLoss_early {dt l : Nat} {d e : Dev} (he : advance d dt = e)
    (h : e.clk.mode ≠ 1 ∨ 2 * e.tim.elapsed < 2 * e.clk.lastTick + 3 * (l * 1000)) : tickLoss dt l d = e := by
  simp only [tickLoss, he, Bool.or_eq_true, decide_eq_true_eq, h, if_true]

/-- 1.5 L after the last accepted tick the internal timer takes over. -/
theorem tickLoss_late {dt l : Nat} {d e : Dev} (he : advance d dt = e) (hm : e.clk.mode = 1)
    (h : 2 * e.clk.lastTick + 3 * (l * 1000) ≤ 2 * e.tim.elapsed) : ∃ c, Lost e c ∧
      tickLoss dt l d = raiseDev (bump { e with clk := c } 0 0 3 1) 0x0111 [(8, e.clk.lastTickNow)] := by
  have hlate : ¬(e.clk.mode ≠ 1 ∨ 2 * e.tim.elapsed < 2 * e.clk.lastTick + 3 * (l * 1000)) := by omega
  simp only [tickLoss, he, Bool.or_eq_true, decide_eq_true_eq, hlate, if_false]
  refine ⟨_, ⟨fun hw => ?_, fun hw => ?_⟩, rfl⟩
  · rw [if_pos (by simpa [WaitsForTick, and_assoc] using hw)]
  · rw [if_neg (by simpa [WaitsForTick, and_assoc] using hw)]

/-- The loss of the tick leaves the grid on the internal timer. -/
theorem tickLoss_mode {e : Dev} {c : Clk} (hc : Lost e c) (vals : List (Nat × Nat)) :
    (raiseDev (bump { e with clk := c } 0 0 3 1) 0x0111 vals).clk.mode = 2 := by
  have hclk := (sameBut_trans (EventHistory.bump_sameBut { e with clk := c } 0 0 3 1) (raiseDev_sameBut _ 0x0111 vals)).clk
  obtain ⟨hw, hn⟩ := hc
  rw [hclk]
  by_cases h : WaitsForTick e
  · rw [hw h]
  · rw [hn h]

/-- Settles O42: an edge is unseen, or a tick of the locked or the locking grid; a loss gives the grid back to the internal timer. -/
theorem ticksSteerTheGrid : Obligations.TicksSteerTheGrid := by
  unfold Obligations.TicksSteerTheGrid
  refine ⟨fun dt high s ha h => ?_, fun dt high s ha hs hm ho hg => ?_, fun dt high s ha hs hm hg => ?_,
    fun dt high t s ha hs hm hl h5 hg hhalf => ?_, fun dt high s ha hs hm ho hg => ?_, fun dt high s ha hs hm hg => ?_,
    fun dt high t s ha hs hm hl h5 hg => ?_, fun dt s ha hm hlate => ?_, fun dt s ha h => ?_⟩
  · exact exec_tickInEdge ha (tickEdge_unseen (e := advance s.dev dt) rfl h)
  · exact exec_tickInEdge ha ((tickEdge_locked _ hs hm).trans (lockedTick_waits hg ho))
  · exact exec_tickInEdge ha ((tickEdge_locked _ hs hm).trans (lockedTick_rejected hg))
  · exact exec_tickInEdge ha ((tickEdge_locking _ hs hm).trans (lockingTick_locks hl hg h5 hhalf))
  · exact exec_tickInEdge ha ((tickEdge_locked _ hs hm).trans (lockedTick_owed hg ho))
  · exact exec_tickInEdge ha ((tickEdge_locking _ hs hm).trans (lockingTick_first hg))
  · exact exec_tickInEdge ha ((tickEdge_locking _ hs hm).trans (lockingTick_counted hl hg h5))
  · obtain ⟨c, hc, hloss⟩ := tickLoss_late (l := s.grid.lenUs) (e := advance s.dev dt) rfl hm hlate
    refine ⟨c, _, hc.1, hc.2, rfl, ?_⟩
    rw [exec_tickLossTimeout, onGrid_answers ha, hloss, tickLoss_mode hc, hm]
    rfl
  · rw [exec_tickLossTimeout, onGrid_answers ha, tickLoss_early (e := advance s.dev dt) rfl h, advance_clk, if_neg (by simp only [Bool.and_eq_true, decide_eq_true_eq]; omega)]

end Sys2Proof.Boundaries
end

section
/-!
The block that runs on and stops: no command ends a run or touches the queue, and HALTED is left by PERST_N alone (19 R446).
-/

namespace Sys2Proof.HaltedRuns

open Sys2Proof.Machine

/-! ### Runs (log entry 2) -/

theorem exec_pending (c : Instr) (s : State) : ∃ t, exec c s = .next t ∧ t.pending = s.pending := by
  obtain ⟨g, d, h⟩ := exec_frame c s
  exact ⟨_, h, rfl⟩

/-- A step takes the front of the queue, whatever it holds. -/
theorem step_pending (s : State) : ∃ t, step s = .next t ∧ t.pending = s.pending.tail := by
  unfold step
  split
  next hq => exact ⟨_, rfl, by rw [hq]; exact hq⟩
  next c rest hq =>
    rw [hq]
    exact exec_pending c { s with pending := rest }

theorem run_pending (n : Nat) (s : State) : ∃ t, Sys2Proof.core.run n s = .next t ∧ t.pending = s.pending.drop n := by
  induction n generalizing s with
  | zero => exact ⟨s, rfl, rfl⟩
  | succ n ih =>
    obtain ⟨t, ht, hq⟩ := step_pending s
    obtain ⟨u, hu, hqu⟩ := ih t
    refine ⟨u, ?_, by rw [hqu, hq, List.drop_tail]⟩
    have hstep : Sys2Proof.core.step s = .next t := ht
    simp only [Host.Core.run, hstep]
    exact hu

/-- Settles O3: a run is made of steps, a step of one command, and no command stops the block. -/
theorem everyRunDrainsTheQueue : Obligations.EveryRunDrainsTheQueue := by
  unfold Obligations.EveryRunDrainsTheQueue
  exact ⟨exec_pending, step_pending, run_pending⟩

/-! ### The parts that HALTED holds still (19 R446) -/

/-- `e` is halted, and stands where `d` stood in its clause, its interface, its sessions, jobs, ports and pool, and its answers. -/
def StandsStill (d e : Dev) : Prop :=
  halted e = true ∧ e.clk = d.clk ∧ e.tur = d.tur ∧ e.exch = d.exch ∧ e.kv = d.kv ∧ e.arr = d.arr ∧ e.net = d.net ∧ e.pool = d.pool ∧
    e.outs.replies = d.outs.replies ∧ e.outs.frames = d.outs.frames

theorem halted_iff {d : Dev} : halted d = true ↔
    d.boot.stage = 9 ∧ d.boot.inReset = false ∧ d.boot.pwrgdSeen = true ∧ d.flash.ops = [] := by
  simp [halted, and_assoc]

theorem stage_of_halted {d : Dev} (h : halted d = true) : d.boot.stage = 9 := (halted_iff.1 h).1

theorem not_inReset_of_halted {d : Dev} (h : halted d = true) : d.boot.inReset = false := (halted_iff.1 h).2.1

theorem ops_of_halted {d : Dev} (h : halted d = true) : d.flash.ops = [] := (halted_iff.1 h).2.2.2

theorem not_answering_of_halted {d : Dev} (h : halted d = true) : answering d = false := by
  simp [answering, stage_of_halted h]

theorem StandsStill.refl {d : Dev} (h : halted d = true) : StandsStill d d := ⟨h, rfl, rfl, rfl, rfl, rfl, rfl, rfl, rfl, rfl⟩

theorem StandsStill.trans {d e f : Dev} (h : StandsStill d e) (h' : StandsStill e f) : StandsStill d f := by
  obtain ⟨-, h1, h2, h3, h4, h5, h6, h7, h8, h9⟩ := h
  obtain ⟨h0, g1, g2, g3, g4, g5, g6, g7, g8, g9⟩ := h'
  exact ⟨h0, g1.trans h1, g2.trans h2, g3.trans h3, g4.trans h4, g5.trans h5, g6.trans h6, g7.trans h7, g8.trans h8, g9.trans h9⟩

theorem StandsStill.ite {d e f : Dev} {p : Prop} [Decidable p] (he : StandsStill d e) (hf : StandsStill d f) :
    StandsStill d (if p then e else f) := by
  split <;> assumption

/-- Boot latches that leave stage, reset and PWRGD as they are move nothing. -/
theorem StandsStill.of_boot {d : Dev} (b : Boot) (h : halted d = true) (hs : b.stage = 9) (hr : b.inReset = false) (hp : b.pwrgdSeen = true) :
    StandsStill d { d with boot := b } :=
  ⟨halted_iff.2 ⟨hs, hr, hp, (ops_of_halted h : d.flash.ops = [])⟩, rfl, rfl, rfl, rfl, rfl, rfl, rfl, rfl, rfl⟩

/-! ### Time, the health of the media, and the end of a power failure -/

theorem advance_standsStill {d : Dev} (h : halted d = true) (dt : Nat) : StandsStill d (advance d dt) :=
  ⟨h, rfl, rfl, rfl, rfl, rfl, rfl, rfl, rfl, rfl⟩

theorem updLd_standsStill {d : Dev} (h : halted d = true) (n : Nat) (f : CxlLd → CxlLd) : StandsStill d (updLd d n f) := by
  unfold updLd
  split
  · exact ⟨h, rfl, rfl, rfl, rfl, rfl, rfl, rfl, rfl, rfl⟩
  · exact .refl h

theorem signalMsix_standsStill {d : Dev} (h : halted d = true) (n v : Nat) : StandsStill d (signalMsix d n v) := by
  unfold signalMsix
  split
  · split
    · exact .refl h
    · split
      · exact ⟨h, rfl, rfl, rfl, rfl, rfl, rfl, rfl, rfl, rfl⟩
      · split
        · exact updLd_standsStill h _ _
        · exact .refl h
  · exact .refl h

theorem addRecord_standsStill {d : Dev} (h : halted d = true) (n kind dpa : Nat) : StandsStill d (addRecord d n kind dpa) := by
  unfold addRecord
  split
  · exact .refl h
  · dsimp only
    split
    · exact .ite ((updLd_standsStill h n _).trans (signalMsix_standsStill (updLd_standsStill h n _).1 _ _)) (updLd_standsStill h n _)
    · exact updLd_standsStill h n _

theorem foldl_standsStill {α : Type} {f : Dev → α → Dev} (hf : ∀ a x, halted a = true → StandsStill a (f a x)) (l : List α) {d : Dev}
    (h : halted d = true) : StandsStill d (l.foldl f d) := by
  induction l generalizing d with
  | nil => exact .refl h
  | cons x l ih => exact (hf d x h).trans (ih (hf d x h).1)

/-- The health of the media reaches the CXL logs only (17 Table 17-4). -/
theorem noteHealth_standsStill {d : Dev} (h : halted d = true) : StandsStill d (noteHealth d) := by
  refine foldl_standsStill (fun a n ha => ?_) _ h
  split
  · split
    · exact .refl ha
    · exact (addRecord_standsStill ha _ _ _).trans (updLd_standsStill (addRecord_standsStill ha _ _ _).1 _ _)
  · exact .refl ha

/-- With no NAND operation left, the end of a power failure finds HALTED reached. -/
theorem settleHalt_standsStill {d : Dev} (h : halted d = true) : StandsStill d (settleHalt d) := by
  obtain ⟨hs, hr, hp, hops⟩ := halted_iff.1 h
  unfold settleHalt
  split
  · exact .refl h
  · have hnone : issuedPrograms d = [] := by simp [issuedPrograms, hops]
    dsimp only
    rw [hnone, if_neg (by simp), if_neg (by simp [hr])]
    exact ⟨halted_iff.2 ⟨rfl, hr, hp, rfl⟩, rfl, rfl, rfl, rfl, rfl, rfl, rfl, rfl, rfl⟩

/-! ### Power events on a halted device -/

theorem powerFail_of_halted {d : Dev} (h : halted d = true) (source : Nat) : powerFail source d = d := by
  simp [powerFail, not_answering_of_halted h]

theorem pwrgdAssert_standsStill {d : Dev} (h : halted d = true) (ns : Nat) : StandsStill d (pwrgdAssert ns d) := by
  obtain ⟨hs, hr, hp, -⟩ := halted_iff.1 h
  unfold pwrgdAssert
  rw [if_pos hp]
  split
  · exact .refl h
  · exact .of_boot _ h hs hr hp

theorem pwrgdDeassert_standsStill {d : Dev} (h : halted d = true) (ns : Nat) : StandsStill d (pwrgdDeassert ns d) := by
  obtain ⟨hs, hr, hp, -⟩ := halted_iff.1 h
  have hlow : StandsStill d { d with boot.pwrgd := false } := .of_boot _ h hs hr hp
  unfold pwrgdDeassert
  split
  · exact .refl h
  · rw [powerFail_of_halted hlow.1]
    exact hlow

theorem perstDeassert_standsStill {d : Dev} (h : halted d = true) : StandsStill d (perstDeassert d) := by
  obtain ⟨hs, hr, hp, -⟩ := halted_iff.1 h
  unfold perstDeassert
  split
  · exact .refl h
  · split
    · exact .of_boot _ h hs hr hp
    · exact .of_boot _ h hs (by simp [hp]) hp

theorem pwrfailAssert_standsStill {d : Dev} (h : halted d = true) (ns : Nat) : StandsStill d (pwrfailAssert ns d) := by
  obtain ⟨hs, hr, hp, -⟩ := halted_iff.1 h
  have hlow : StandsStill d { d with boot.pwrfailLow := true } := .of_boot _ h hs hr hp
  unfold pwrfailAssert
  split
  · exact .refl h
  · rw [powerFail_of_halted hlow.1]
    exact hlow

theorem pwrfailDeassert_standsStill {d : Dev} (h : halted d = true) : StandsStill d (pwrfailDeassert d) := by
  obtain ⟨hs, hr, hp, -⟩ := halted_iff.1 h
  exact .of_boot _ h hs hr hp

theorem railUnder_of_halted {d : Dev} (h : halted d = true) (ns : Nat) : railUnder ns d = d := by
  unfold railUnder
  split
  · rfl
  · exact powerFail_of_halted h 2

theorem thermalTrip_of_halted {d : Dev} (h : halted d = true) (sensor : Nat) (t : Int) : thermalTrip sensor t d = d := by
  simp [thermalTrip, not_answering_of_halted h]

theorem nandProgram_of_halted {d : Dev} (h : halted d = true) (id : Nat) (ok : Bool) (damaged : List Nat) : nandProgram id ok damaged d = d := by
  simp [nandProgram, ops_of_halted h]

theorem nandTimeout_of_halted {d : Dev} (h : halted d = true) (id : Nat) : nandTimeout id d = d := by
  simp [nandTimeout, ops_of_halted h]

/-! ### Commands on a halted device -/

/-- What a power event other than PERST_N makes of the device before `settleHalt`. -/
inductive PowerEvent : (Dev → Dev) → Prop where
  | pwrgdAssert (ns : Nat) : PowerEvent (pwrgdAssert ns)
  | pwrgdDeassert (ns : Nat) : PowerEvent (pwrgdDeassert ns)
  | perstDeassert : PowerEvent perstDeassert
  | pwrfailAssert (ns : Nat) : PowerEvent (pwrfailAssert ns)
  | pwrfailDeassert : PowerEvent pwrfailDeassert
  | railUnder (ns : Nat) : PowerEvent (railUnder ns)
  | thermalTrip (sensor : Nat) (t : Int) : PowerEvent (thermalTrip sensor t)
  | nandProgram (id : Nat) (ok : Bool) (damaged : List Nat) : PowerEvent fun d => noteHealth (nandProgram id ok damaged d)
  | nandTimeout (id dt : Nat) : PowerEvent fun d => noteHealth (nandTimeout id (advance d dt))

theorem PowerEvent.standsStill {f : Dev → Dev} (hf : PowerEvent f) {d : Dev} (h : halted d = true) : StandsStill d (f d) := by
  cases hf with
  | pwrgdAssert ns => exact pwrgdAssert_standsStill h ns
  | pwrgdDeassert ns => exact pwrgdDeassert_standsStill h ns
  | perstDeassert => exact perstDeassert_standsStill h
  | pwrfailAssert ns => exact pwrfailAssert_standsStill h ns
  | pwrfailDeassert => exact pwrfailDeassert_standsStill h
  | railUnder ns => exact (railUnder_of_halted h ns).symm ▸ .refl h
  | thermalTrip sensor t => exact (thermalTrip_of_halted h sensor t).symm ▸ .refl h
  | nandProgram id ok damaged =>
    dsimp only
    rw [nandProgram_of_halted h]
    exact noteHealth_standsStill h
  | nandTimeout id dt =>
    have ha := advance_standsStill h dt
    dsimp only
    rw [nandTimeout_of_halted ha.1]
    exact ha.trans (noteHealth_standsStill ha.1)

/-- Every command but an assertion of PERST_N does nothing to a device that does not answer, or is one of the other power events. -/
theorem exec_silent_or_power (c : Instr) (hc : ∀ ns, c ≠ .perstNAssert ns) :
    (∀ s, ∃ d, exec c s = .next { s with dev := if answering s.dev then d else s.dev }) ∨ (∃ f, ∀ s, exec c s = onGrid f s) ∨
      ∃ f, PowerEvent f ∧ ∀ s, exec c s = onPower f s := by
  cases c with
  | perstNAssert ns => exact absurd rfl (hc ns)
  | pwrgdAssert ns => exact .inr (.inr ⟨_, .pwrgdAssert ns, fun _ => rfl⟩)
  | pwrgdDeassert ns => exact .inr (.inr ⟨_, .pwrgdDeassert ns, fun _ => rfl⟩)
  | perstNDeassert => exact .inr (.inr ⟨_, .perstDeassert, fun _ => rfl⟩)
  | pwrfailNAssert ns => exact .inr (.inr ⟨_, .pwrfailAssert ns, fun _ => rfl⟩)
  | pwrfailNDeassert => exact .inr (.inr ⟨_, .pwrfailDeassert, fun _ => rfl⟩)
  | railUndervoltage ns => exact .inr (.inr ⟨_, .railUnder ns, fun _ => rfl⟩)
  | thermalTrip sensor temp => exact .inr (.inr ⟨_, .thermalTrip sensor temp, fun _ => rfl⟩)
  | nandProgramComplete id ok damaged => exact .inr (.inr ⟨_, .nandProgram id ok damaged, fun _ => rfl⟩)
  | nandOpTimeout id dt => exact .inr (.inr ⟨_, .nandTimeout id dt, fun _ => rfl⟩)
  | clauseBoundary dt temps bad tests => exact .inr (.inl ⟨_, GridSettings.exec_clauseBoundary dt temps bad tests⟩)
  | jobOverrunAbort job dt => exact .inr (.inl ⟨_, GridSettings.exec_jobOverrunAbort job dt⟩)
  | tickLossTimeout dt => exact .inr (.inl ⟨_, GridSettings.exec_tickLossTimeout dt⟩)
  | clauseSet seq => exact .inr (.inl ⟨clauseSet seq, fun _ => rfl⟩)
  | _ => exact .inl fun _ => ⟨_, rfl⟩

theorem exec_standsStill {c : Instr} {s t : State} (h : halted s.dev = true) (hc : ∀ ns, c ≠ .perstNAssert ns) (ht : exec c s = .next t) :
    StandsStill s.dev t.dev := by
  have hsilent := not_answering_of_halted h
  rcases exec_silent_or_power c hc with hx | ⟨f, hx⟩ | ⟨f, hf, hx⟩
  · obtain ⟨d, hx⟩ := hx s
    obtain rfl := Host.Outcome.next.inj (hx.symm.trans ht)
    simpa [hsilent] using StandsStill.refl h
  · rw [hx, onGrid, hsilent] at ht
    obtain rfl := Host.Outcome.next.inj ht
    exact .refl h
  · obtain rfl := Host.Outcome.next.inj ((hx s).symm.trans ht)
    exact (hf.standsStill h).trans (settleHalt_standsStill (hf.standsStill h).1)

theorem idle_halted {s : State} (h : halted s.dev = true) : halted (idle s).dev = true := by
  simpa [idle, not_inReset_of_halted h] using (advance_standsStill h 1).1

/-- Of BAR0 only HUB_STATUS, HUB_FAULT, the clause and time registers and the completion-status window read other than 0 (04 R68). -/
theorem bar0Reg_of_halted {d : Dev} (g : Grid) (n off : Nat) (h : halted d = true) (hr : bar0Reg g d n off ≠ 0) :
    off = 0x10 ∨ off = 0x18 ∨ (0x10000 ≤ off ∧ off ≤ 0x10028) ∨ (0x100000 ≤ off ∧ off < 0x110000) := by
  by_contra hoff
  refine hr ?_
  have hwindow : ¬((0x100000 ≤ off && off < 0x110000) = true) := by simp; omega
  unfold bar0Reg
  simp only [stage_of_halted h]
  rw [if_neg (c := off = 0x10) (by omega), if_neg (c := off = 0x18) (by omega), if_neg (c := off = 0x10000) (by omega),
    if_neg (c := off = 0x10008) (by omega), if_neg (c := off = 0x10010) (by omega), if_neg (c := off = 0x10018) (by omega),
    if_neg (c := off = 0x10020) (by omega), if_neg (c := off = 0x10028) (by omega), if_neg hwindow]
  simp

/-- Settles O6: a command is silent on a halted device or is a power event that finds nothing to stop; time and the registers are as above. -/
theorem haltedIsFinal : Obligations.HaltedIsFinal := by
  unfold Obligations.HaltedIsFinal
  refine ⟨fun c s t h hc ht => exec_standsStill h hc ht, fun s t h hq ht => ?_, fun g d n off h hr => bar0Reg_of_halted g n off h hr⟩
  simp only [step, hq] at ht
  obtain rfl := Host.Outcome.next.inj ht
  exact idle_halted h

end Sys2Proof.HaltedRuns
end

section
/-!
Byte memories as the exchange areas use them (04 R69, 17 R398): strings read back, copies read as their source, and the canonical form is unique.
-/

namespace Sys2Proof.MemoryReads

open Sys2Proof.Machine

/-! ### Strings -/

/-- A byte string reads back where it was written. -/
theorem memReadN_memWriteN {m : Mem} (a : Nat) (bs : List Byte) (hm : memWf m = true) : memReadN (memWriteN m a bs) a bs.length = bs := by
  refine List.ext_getElem (by simp [memReadN, rangeFrom]) fun i _ hi => ?_
  have hin : a ≤ i + a ∧ i + a < a + bs.length := by omega
  simp [memReadN, rangeFrom, memRead_memWriteN _ _ _ hm, hin, hi]

/-- Bytes outside a string that is written stay. -/
theorem memRead_memWriteN_outside {m : Mem} {a b : Nat} {bs : List Byte} (hm : memWf m = true) (hb : b < a ∨ a + bs.length ≤ b) :
    memRead (memWriteN m a bs) b = memRead m b := by
  rw [memRead_memWriteN _ _ _ hm, if_neg (by omega)]

/-! ### Copies -/

theorem memRead_cons (k a : Nat) (v : Byte) (m : Mem) : memRead ((k, v) :: m) a = if k = a then v else memRead m a := rfl

theorem memWfFrom_cons {lo k : Nat} {v : Byte} {m : Mem} : memWfFrom lo ((k, v) :: m) = true ↔ lo ≤ k ∧ v ≠ 0 ∧ memWfFrom (k + 1) m = true := by
  simp [memWfFrom, and_assoc]

/-- Some of the bytes of a canonical memory are a canonical memory. -/
theorem memWfFrom_filter {lo : Nat} {m : Mem} (p : Nat × Byte → Bool) (hm : memWfFrom lo m = true) : memWfFrom lo (m.filter p) = true := by
  induction m generalizing lo with
  | nil => rfl
  | cons e m ih =>
    obtain ⟨hk, hv, hrest⟩ := memWfFrom_cons.1 hm
    rw [List.filter_cons]
    split
    · exact memWfFrom_cons.2 ⟨hk, hv, ih hrest⟩
    · exact memWfFrom_mono (Nat.le_succ_of_le hk) (ih hrest)

/-- A canonical memory is canonical from any address that its bytes do not lie below. -/
theorem memWfFrom_of_le {lo lo' : Nat} {m : Mem} (hm : memWfFrom lo m = true) (h : ∀ e ∈ m, lo' ≤ e.1) : memWfFrom lo' m = true := by
  cases m with
  | nil => rfl
  | cons e m =>
    obtain ⟨-, hv, hrest⟩ := memWfFrom_cons.1 hm
    exact memWfFrom_cons.2 ⟨h e List.mem_cons_self, hv, hrest⟩

/-- A memory whose bytes are chosen by address reads as before at the chosen addresses, and 0 at the others. -/
theorem memRead_filter (p : Nat → Bool) (m : Mem) (a : Nat) : memRead (m.filter fun e => p e.1) a = if p a then memRead m a else 0 := by
  induction m with
  | nil => simp [memRead]
  | cons e m ih =>
    obtain ⟨k, v⟩ := e
    by_cases hk : k = a
    · subst hk
      cases hp : p k <;> simp [hp, memRead_cons, ih]
    · cases hp : p k <;> simp [hp, memRead_cons, ih, hk]

/-- Placing the bytes of a canonical memory from `src` on at `dst` changes exactly the addresses that they reach. -/
theorem memRead_place {src lo dst : Nat} {moved acc : Mem} (b : Nat) (hsrc : src ≤ lo) (hm : memWfFrom lo moved = true) (hacc : memWf acc = true) :
    memRead (moved.foldl (fun acc e => memWrite acc (e.1 - src + dst) e.2) acc) b =
      if dst ≤ b ∧ memRead moved (src + (b - dst)) ≠ 0 then memRead moved (src + (b - dst)) else memRead acc b := by
  induction moved generalizing lo acc with
  | nil => simp [memRead]
  | cons e moved ih =>
    obtain ⟨k, v⟩ := e
    obtain ⟨hk, hv, hrest⟩ := memWfFrom_cons.1 hm
    rw [List.foldl_cons, ih (Nat.le_succ_of_le (hsrc.trans hk)) hrest (memWrite_wf _ _ hacc), memRead_memWrite _ _ _ hacc, memRead_cons]
    by_cases hb : dst ≤ b ∧ k = src + (b - dst)
    · obtain ⟨hdst, rfl⟩ := hb
      have hbelow : memRead moved (src + (b - dst)) = 0 := memRead_below hrest (Nat.lt_succ_self _)
      have hthere : b = src + (b - dst) - src + dst := by omega
      rw [if_pos rfl, if_neg fun h => h.2 hbelow, if_pos hthere, if_pos ⟨hdst, hv⟩]
    · have hnot : ¬b = k - src + dst := by omega
      by_cases hdst : dst ≤ b
      · have hne : ¬k = src + (b - dst) := fun h => hb ⟨hdst, h⟩
        simp [hdst, hne, hnot]
      · simp [hdst, hnot]

/-- A range that is copied reads as its source did, and the rest stays. -/
theorem memRead_memCopy {m m' : Mem} (src dst len b : Nat) (hm : memWf m = true) (hm' : memWf m' = true) :
    memRead (memCopy m src m' dst len) b = if dst ≤ b ∧ b < dst + len then memRead m (src + (b - dst)) else memRead m' b := by
  have hmoved : memWfFrom src (m.filter fun e => decide (src ≤ e.1) && decide (e.1 < src + len)) = true := by
    refine memWfFrom_of_le (memWfFrom_filter _ hm) fun e he => ?_
    have hrange := (List.mem_filter.1 he).2
    simp only [Bool.and_eq_true, decide_eq_true_eq] at hrange
    exact hrange.1
  rw [memCopy, memRead_place b le_rfl hmoved (memClear_wf dst len hm'), memRead_memClear _ _ _ hm',
    memRead_filter (fun a => decide (src ≤ a) && decide (a < src + len))]
  by_cases hin : dst ≤ b ∧ b < dst + len
  · have hsrc : b - dst < len := by omega
    simpa [hin, hsrc] using Eq.symm
  · rw [if_neg hin, if_neg hin]
    by_cases hdst : dst ≤ b
    · have hsrc : ¬b - dst < len := by omega
      simp [hsrc]
    · simp [hdst]

/-! ### The canonical form -/

theorem eq_of_memRead_eq {lo : Nat} {m m' : Mem} (hm : memWfFrom lo m = true) (hm' : memWfFrom lo m' = true)
    (h : ∀ a, memRead m a = memRead m' a) : m = m' := by
  induction m generalizing lo m' with
  | nil =>
    cases m' with
    | nil => rfl
    | cons e m' =>
      obtain ⟨-, hv, -⟩ := memWfFrom_cons.1 hm'
      exact absurd (by simpa [memRead] using (h e.1).symm) hv
  | cons e m ih =>
    obtain ⟨k, v⟩ := e
    obtain ⟨hk, hv, hrest⟩ := memWfFrom_cons.1 hm
    have hstart : memWfFrom k ((k, v) :: m) = true := memWfFrom_cons.2 ⟨le_rfl, hv, hrest⟩
    cases m' with
    | nil => exact absurd (by simpa [memRead] using h k) hv
    | cons e' m' =>
      obtain ⟨k', v'⟩ := e'
      obtain ⟨hk', hv', hrest'⟩ := memWfFrom_cons.1 hm'
      have hstart' : memWfFrom k' ((k', v') :: m') = true := memWfFrom_cons.2 ⟨le_rfl, hv', hrest'⟩
      rcases lt_trichotomy k k' with hlt | rfl | hlt
      · have hat := h k
        rw [memRead_below hstart' hlt, memRead_cons, if_pos rfl] at hat
        exact absurd hat hv
      · have hat := h k
        simp only [memRead_cons, if_true] at hat
        rw [hat, ih hrest hrest' fun a => ?_]
        by_cases ha : a < k + 1
        · rw [memRead_below hrest ha, memRead_below hrest' ha]
        · simpa [memRead_cons, show ¬k = a by omega] using h a
      · have hat := h k'
        rw [memRead_below hstart hlt, memRead_cons, if_pos rfl] at hat
        exact absurd hat.symm hv'

/-- Settles O7: each operation keeps the canonical form and reads back as the lemmas above say. -/
theorem memoryReadsBack : Obligations.MemoryReadsBack := by
  unfold Obligations.MemoryReadsBack
  exact ⟨fun m a b v hm => ⟨memWrite_wf a v hm, memRead_memWrite a b v hm⟩,
    fun m a b bs hm => ⟨memWriteN_wf a bs hm, memReadN_memWriteN a bs hm, memRead_memWriteN_outside hm⟩,
    fun m a len b hm => ⟨memClear_wf a len hm, memRead_memClear a len b hm⟩,
    fun m m' src dst len b hm hm' => ⟨memCopy_wf m src dst len hm', memRead_memCopy src dst len b hm hm'⟩,
    fun m m' hm hm' h => eq_of_memRead_eq hm hm' h⟩

end Sys2Proof.MemoryReads
end

section
/-!
What a verb does where a check fails (04 R75): it completes as the check says.
-/

namespace Sys2Proof.FailedChecks

open Sys2Proof.Machine

/-- A CLAUSE_SET whose check fails leaves the grid and completes as the check says. -/
theorem exec_clauseSet_error {s : State} {seq : Nat} {v : Verb} {f : Fail} (h : verbRuns 0x010A seq v s = true)
    (hf : clauseSetCheck s.grid v = .error f) : exec (.clauseSet seq) s = .next { s with dev := finishFail (startVerb s.dev v) v f } := by
  obtain ⟨hfind, hop, hrun, ha, hserve, hstart⟩ := (verbRuns_iff _ _ _ _).1 h
  have hset : clauseSet seq s.grid s.dev = (s.grid, finishFail (startVerb s.dev v) v f) := by
    simp [clauseSet, hfind, hop, hrun, hserve, hstart, hf]
  show onGrid (clauseSet seq) s = _
  simp [onGrid, ha, hset]

/-- Settles O13: each of the 84 commands that run a verb's body completes the verb where the body fails; CLAUSE_SET does so by its own check. -/
theorem aFailedCheckDoesNothingElse : Obligations.AFailedCheckDoesNothingElse := by
  unfold Obligations.AFailedCheckDoesNothingElse
  iterate 84 refine ⟨verbFails_of fun _ _ => rfl, ?_⟩
  exact ⟨fun s seq v f h hf => exec_clauseSet_error h hf, fun d v f => EventHistory.finish_sameBut d v _ _ _⟩

end Sys2Proof.FailedChecks
end

section
/-!
Events on their way to the rings (04 R77-R79; 20 R454, R455): what an event makes of an event ring, of the history and of exchange memory.
-/

namespace Sys2Proof.EventRings

open Sys2Proof.Machine

/-! ### One event ring -/

/-- An event ring that an event without a mask has reached: the tail advances where there is room, and what is not posted as it is counts as lost. -/
def afterEvent (q : Evq) : Evq :=
  if q.enable = true ∧ q.used < 2 ^ q.depthLog2 then { q with
    tail := (q.tail + 1) % 2 ^ q.depthLog2, phase := if q.tail + 1 = 2 ^ q.depthLog2 then !q.phase else q.phase, used := q.used + 1
    lost := if q.used + 1 = 2 ^ q.depthLog2 then satAdd q.lost 1 else q.lost }
  else { q with lost := satAdd q.lost 1 }

/-- The event rings of the LDs once LD `n`'s has been told of an event. -/
def evqsAfter (d : Dev) (n code : Nat) : List Evq := if suppressed d n code then d.tur.evqs else d.tur.evqs.modify n afterEvent

theorem evqsAfter_getElem? (d : Dev) (k n code : Nat) : (evqsAfter d k code)[n]? =
    if k = n ∧ suppressed d n code = false then d.tur.evqs[n]?.map afterEvent else d.tur.evqs[n]? := by
  unfold evqsAfter
  by_cases hk : k = n
  · subst hk
    cases hs : suppressed d k code <;> simp
  · split <;> simp [hk]

theorem signalMsix_exch (d : Dev) (n v : Nat) : (signalMsix d n v).exch = d.exch := by
  unfold signalMsix
  split
  · split
    · rfl
    · split
      · rfl
      · split
        · unfold updLd
          split <;> rfl
        · rfl
  · rfl

theorem evqPut_tur (d : Dev) (n : Nat) (q : Evq) (e : EventRec) (lost : Nat) : (evqPut d n q e lost).tur = { d.tur with
    evqs := d.tur.evqs.set n { q with
      tail := (q.tail + 1) % 2 ^ q.depthLog2, phase := if q.tail + 1 = 2 ^ q.depthLog2 then !q.phase else q.phase, used := q.used + 1
      lost := lost } } := by
  unfold evqPut
  dsimp only
  rw [EventHistory.signalMsix_tur]
  rfl

theorem evqPut_exch (d : Dev) (n : Nat) (q : Evq) (e : EventRec) (lost : Nat) :
    (evqPut d n q e lost).exch = memWriteN d.exch (exKey n (q.base * 64 + q.tail * 64)) (eventBytes e (if q.phase then 1 else 0) 0) := by
  unfold evqPut
  dsimp only
  rw [signalMsix_exch, exWrite]

theorem modify_of_getElem? {α : Type} {l : List α} {n : Nat} {x : α} (f : α → α) (h : l[n]? = some x) : l.modify n f = l.set n (f x) := by
  rw [List.modify_eq_set_getElem?, h]
  rfl

/-- What an event leaves of the interface where one LD is told of it. -/
theorem evqPost_tur (d : Dev) (n : Nat) (e : EventRec) : (evqPost d n e).tur = { d.tur with evqs := evqsAfter d n e.code } := by
  unfold evqPost evqsAfter
  cases hs : suppressed d n e.code with
  | true => rfl
  | false =>
    cases hq : d.tur.evqs[n]? with
    | none => simp [List.modify_eq_set_getElem?, hq]
    | some q =>
      rw [modify_of_getElem? _ hq]
      by_cases hon : q.enable = true
      · by_cases h2 : q.used + 2 ≤ 2 ^ q.depthLog2
        · simp [hon, h2, evqPut_tur, afterEvent, show q.used < 2 ^ q.depthLog2 by omega, show ¬q.used + 1 = 2 ^ q.depthLog2 by omega]
        · by_cases h1 : q.used + 1 = 2 ^ q.depthLog2
          · simp [hon, ← h1, evqPut_tur, afterEvent]
          · simp [hon, h2, h1, afterEvent, setNth, show ¬q.used < 2 ^ q.depthLog2 by omega]
      · simp [hon, afterEvent, setNth]

theorem fmPost_tur (d : Dev) (e : EventRec) : ∃ queue lost, (fmPost d e).tur = { d.tur with fmQueue := queue, fmLost := lost } := by
  unfold fmPost
  dsimp only
  split
  · exact ⟨_, _, rfl⟩
  · split
    · exact ⟨_, _, rfl⟩
    · split <;> exact ⟨_, _, rfl⟩

/-! ### Every event ring -/

theorem suppressed_evqPost (d : Dev) (k n code : Nat) (e : EventRec) : suppressed (evqPost d k e) n code = suppressed d n code := by
  simp [suppressed, evqPost_tur]

/-- Telling the LDs of a list, each once, leaves the rest of the interface, and brings each of their rings the event. -/
theorem foldl_evqPost_tur (l : List Nat) (d : Dev) (e : EventRec) : ∃ qs, (l.foldl (fun a n => evqPost a n e) d).tur = { d.tur with evqs := qs } ∧
    (l.Nodup → ∀ n, qs[n]? = if n ∈ l ∧ suppressed d n e.code = false then d.tur.evqs[n]?.map afterEvent else d.tur.evqs[n]?) := by
  induction l generalizing d with
  | nil => exact ⟨d.tur.evqs, rfl, by simp⟩
  | cons k l ih =>
    obtain ⟨qs, hqs, hat⟩ := ih (evqPost d k e)
    refine ⟨qs, by rw [List.foldl_cons, hqs, evqPost_tur], fun hnd n => ?_⟩
    obtain ⟨hk, hl⟩ := List.nodup_cons.1 hnd
    rw [hat hl n, suppressed_evqPost, evqPost_tur, evqsAfter_getElem?]
    by_cases hkn : k = n
    · subst hkn
      simp [hk]
    · simp [hkn, Ne.symm hkn]

/-! ### An event as it is raised -/

@[simp] theorem evqPost_histNext (d : Dev) (n : Nat) (e : EventRec) : (evqPost d n e).tur.histNext = d.tur.histNext := by rw [evqPost_tur]

@[simp] theorem fmPost_histNext (d : Dev) (e : EventRec) : (fmPost d e).tur.histNext = d.tur.histNext := by
  obtain ⟨queue, lost, h⟩ := fmPost_tur d e
  rw [h]

theorem fmPost_evqs (d : Dev) (e : EventRec) : (fmPost d e).tur.evqs = d.tur.evqs := by
  obtain ⟨queue, lost, h⟩ := fmPost_tur d e
  rw [h]

theorem raiseRec_histNext (d : Dev) (e : EventRec) : (raiseRec d e).tur.histNext = d.tur.histNext + 1 := by
  unfold raiseRec
  dsimp only
  split
  · rw [fmPost_histNext, EventHistory.foldl_keeps (p := fun a => a.tur.histNext) fun a n => evqPost_histNext a n e]
  · split <;> simp
  · simp

/-- The device with another history of events. -/
def withHistory (d : Dev) (h : List (Nat × EventRec)) (next : Nat) : Dev := { d with tur.history := h, tur.histNext := next }

theorem withHistory_evqs (d : Dev) (h : List (Nat × EventRec)) (next : Nat) : (withHistory d h next).tur.evqs = d.tur.evqs := rfl

theorem suppressed_withHistory (d : Dev) (h : List (Nat × EventRec)) (next n code : Nat) :
    suppressed (withHistory d h next) n code = suppressed d n code := rfl

/-- An event of the whole device, once in the history, is told to every LD and to the FM-owned one (04 R79). -/
theorem raiseRec_of_device {e : EventRec} (hscope : e.scope = .device) (d : Dev) :
    ∃ h next, raiseRec d e = fmPost ((List.range 16).foldl (fun a n => evqPost a n e) (withHistory d h next)) e := by
  refine ⟨(d.tur.history ++ [(d.tur.histNext, e)]).drop ((d.tur.history ++ [(d.tur.histNext, e)]).length - 4096), d.tur.histNext + 1, ?_⟩
  simp only [raiseRec, hscope, withHistory]

/-- An event of the whole device reaches the ring of each LD once. -/
theorem raiseRec_evqs {d : Dev} {e : EventRec} (hscope : e.scope = .device) {n : Nat} (hn : n < 16) : (raiseRec d e).tur.evqs[n]? =
    if suppressed d n e.code = false then d.tur.evqs[n]?.map afterEvent else d.tur.evqs[n]? := by
  obtain ⟨h, next, hraise⟩ := raiseRec_of_device hscope d
  obtain ⟨qs, hqs, hat⟩ := foldl_evqPost_tur (List.range 16) (withHistory d h next) e
  rw [hraise, fmPost_evqs, hqs, hat List.nodup_range n, withHistory_evqs, suppressed_withHistory]
  simp only [List.mem_range, hn, true_and]

theorem afterEvent_of_room {q : Evq} (hon : q.enable = true) (hroom : q.used < 2 ^ q.depthLog2) : afterEvent q = { q with
    tail := (q.tail + 1) % 2 ^ q.depthLog2, phase := if q.tail + 1 = 2 ^ q.depthLog2 then !q.phase else q.phase, used := q.used + 1
    lost := if q.used + 1 = 2 ^ q.depthLog2 then satAdd q.lost 1 else q.lost } := if_pos ⟨hon, hroom⟩

theorem afterEvent_of_lost {q : Evq} (h : q.enable = false ∨ 2 ^ q.depthLog2 ≤ q.used) : afterEvent q = { q with lost := satAdd q.lost 1 } := by
  refine if_neg fun ⟨hon, hroom⟩ => ?_
  rcases h with h | h
  · simp [h] at hon
  · omega

/-! ### The record in exchange memory -/

/-- The last free place takes EV_EVENTS_LOST, an earlier one the event as it is. -/
theorem evqPost_exch {d : Dev} {n : Nat} {q : Evq} {e : EventRec} (hq : d.tur.evqs[n]? = some q) (hs : suppressed d n e.code = false)
    (hon : q.enable = true) (hroom : q.used < 2 ^ q.depthLog2) :
    (evqPost d n e).exch = memWriteN d.exch (exKey n (q.base * 64 + q.tail * 64))
      (eventBytes (if q.used + 1 = 2 ^ q.depthLog2 then lostRecord e (satAdd q.lost 1) else e) (if q.phase then 1 else 0) 0) := by
  by_cases h2 : q.used + 2 ≤ 2 ^ q.depthLog2
  · simp [evqPost, hs, hq, hon, h2, evqPut_exch, show ¬q.used + 1 = 2 ^ q.depthLog2 by omega]
  · have h1 : q.used + 1 = 2 ^ q.depthLog2 := by omega
    simp [evqPost, hs, hq, hon, ← h1, evqPut_exch]

theorem suppressed_of_unmaskable {code : Nat} (h : unmaskable code = true) (d : Dev) (ld : Nat) : suppressed d ld code = false := by
  simp [suppressed, h]

/-- Settles O9: an event enters the history, each ring is told of it once, and its record is written as it is or as EV_EVENTS_LOST. -/
theorem eventsReachTheirRings : Obligations.EventsReachTheirRings := by
  unfold Obligations.EventsReachTheirRings
  refine ⟨fun d e => ⟨?_, raiseRec_histNext d e, raiseRec_sameBut d e⟩, fun d e n q hscope hn hq => ⟨fun hs => ?_, fun hs hon hroom => ?_, fun hs h => ?_⟩,
    fun d n q e hq hs hon hroom => ?_, fun d n q e hq hs hon hroom => ?_, fun d ld code hcode => suppressed_of_unmaskable ?_ d ld⟩
  · simpa using EventHistory.raiseRec_history d e
  · simp [raiseRec_evqs hscope hn, hs, hq]
  · simp [raiseRec_evqs hscope hn, hs, hq, afterEvent_of_room hon hroom]
  · simp [raiseRec_evqs hscope hn, hs, hq, afterEvent_of_lost h]
  · rw [evqPost_exch hq hs hon (by omega), if_neg (by omega)]
  · rw [evqPost_exch hq hs hon (by omega), if_pos hroom]
  · rcases hcode with rfl | rfl | rfl | rfl <;> rfl

end Sys2Proof.EventRings
end

section
/-!
Completions on their way to their ring (04 R57, R64-R66): what finding a ring, posting and holding make of the rings.
-/

namespace Sys2Proof.Completions

open Sys2Proof.Machine

/-! ### Rings by number -/

theorem num_of_findRing {d : Dev} {n : Nat} {r : Ring} (h : findRing d n = some r) : r.num = n := by
  simpa using List.find?_some h

/-- A ring by its number after an update that keeps numbers. -/
theorem findRing_updRing {f : Ring → Ring} (hf : ∀ x, (f x).num = x.num) (d : Dev) (n k : Nat) :
    findRing (updRing d n f) k = if k = n then (findRing d n).map f else findRing d k := by
  have hnum : ((fun x : Ring => x.num == k) ∘ fun x => if x.num == n then f x else x) = fun x => x.num == k := by
    funext x
    simp only [Function.comp]
    split <;> simp [hf]
  have hfind : findRing (updRing d n f) k = (findRing d k).map fun x => if x.num == n then f x else x := by
    simp only [findRing, updRing_rings, updWhere, List.find?_map, hnum]
  rw [hfind]
  by_cases hk : k = n
  · subst hk
    rw [if_pos rfl]
    exact Option.map_congr fun r hr => by simp [num_of_findRing hr]
  · rw [if_neg hk]
    cases hr : findRing d k with
    | none => rfl
    | some r => simp [num_of_findRing hr, hk]

theorem findRing_updRing_same {f : Ring → Ring} {d : Dev} {n : Nat} {r : Ring} (hf : ∀ x, (f x).num = x.num) (h : findRing d n = some r) :
    findRing (updRing d n f) n = some (f r) := by
  rw [findRing_updRing hf, if_pos rfl, h]
  rfl

theorem findRing_updRing_other {f : Ring → Ring} {n k : Nat} (hf : ∀ x, (f x).num = x.num) (d : Dev) (h : k ≠ n) :
    findRing (updRing d n f) k = findRing d k := by
  rw [findRing_updRing hf, if_neg h]

/-! ### Posting one completion -/

/-- A ring once one completion has been posted to it (04 R65, R66). -/
def posted (x : Ring) : Ring := { x with
  cqTail := (x.cqTail + 1) % 2 ^ x.depthLog2
  phase := if x.cqTail + 1 = 2 ^ x.depthLog2 then !x.phase else x.phase
  done := (x.done + 1) % 2 ^ 64
  inFlight := x.inFlight - 1 }

theorem postCpl_tur (d : Dev) (r : Ring) (h : HeldCpl) : (postCpl d r h).tur = (updRing d r.num posted).tur := by
  unfold postCpl
  dsimp only
  split
  · rw [EventHistory.signalMsix_tur]
    rfl
  · rfl

theorem postCpl_exch (d : Dev) (r : Ring) (h : HeldCpl) :
    (postCpl d r h).exch = memWriteN d.exch (exKey r.ld (r.cqOff + 32 * r.cqTail)) (withPhase h.bytes r.phase) := by
  unfold postCpl
  dsimp only
  split
  · rw [EventRings.signalMsix_exch, updRing_exch, exWrite]
  · rw [updRing_exch, exWrite]

/-! ### Held completions -/

theorem drainHeld_of_empty {d : Dev} {n : Nat} {r : Ring} (hr : findRing d n = some r) (h : r.held = []) (k : Nat) : drainHeld k d n = d := by
  cases k with
  | zero => rfl
  | succ k => simp [drainHeld, hr, h]

/-- A ring that holds, or is full, posts nothing. -/
theorem drainHeld_of_stop {d : Dev} {n : Nat} {r : Ring} (hr : findRing d n = some r) (h : r.holding = true ∨ cqFull r = true) (k : Nat) :
    drainHeld k d n = d := by
  have hstop : (r.holding || cqFull r) = true := by simpa using h
  cases k with
  | zero => rfl
  | succ k =>
    unfold drainHeld
    rw [hr]
    dsimp only
    split
    · rfl
    · rw [if_pos hstop]

theorem drainHeld_cons {d : Dev} {n k : Nat} {r : Ring} {h : HeldCpl} {hs : List HeldCpl} (hr : findRing d n = some r) (hheld : r.held = h :: hs)
    (hgo : r.holding = false) (hroom : cqFull r = false) (hk : k ≠ 0) :
    drainHeld k d n = drainHeld (k - 1) (postCpl (updRing d n (fun x => { x with held := x.held.drop 1 })) r h) n := by
  obtain ⟨k, rfl⟩ := Nat.exists_eq_succ_of_ne_zero hk
  simp [drainHeld, hr, hheld, hgo, hroom]

/-! ### Finishing a verb of a host ring -/

/-- The device without the verb of number `seq` (04 R57). -/
def withoutVerb (d : Dev) (seq : Nat) : Dev := { d with tur.verbs := dropWhere (fun x => x.seq == seq) d.tur.verbs }

/-- A ring that holds one more completion. -/
def holdCpl (h : HeldCpl) (r : Ring) : Ring := { r with held := r.held ++ [h] }

/-- The completion of a verb, as a ring holds it. -/
def heldOf (v : Verb) (st err : Nat) (fs : List (Nat × Nat × Nat)) : HeldCpl := ⟨cplBytes v st err fs, bitSet (fld v 2 1) 1, v.seq⟩

/-- The first completion that a ring holds leaves it. -/
def dropHeld (r : Ring) : Ring := { r with held := r.held.drop 1 }

/-- The device once the completion `h` of the verb `v` is held behind those that its ring holds. -/
def heldDev (d : Dev) (v : Verb) (h : HeldCpl) : Dev := updRing (withoutVerb d v.seq) v.ring (holdCpl h)

/-- The device once the completion `h` of the verb `v` has been posted to its ring `r`. -/
def postedDev (d : Dev) (v : Verb) (r : Ring) (h : HeldCpl) : Dev := postCpl (updRing (heldDev d v h) v.ring dropHeld) (holdCpl h r) h

theorem findRing_heldDev {d : Dev} {v : Verb} {r : Ring} (hr : findRing d v.ring = some r) (h : HeldCpl) :
    findRing (heldDev d v h) v.ring = some (holdCpl h r) := findRing_updRing_same (fun _ => rfl) hr

theorem findRing_congr {a b : Dev} (h : a.tur = b.tur) (n : Nat) : findRing a n = findRing b n := by simp only [findRing, h]

theorem findVerb_congr {a b : Dev} (h : a.tur = b.tur) (seq : Nat) : findVerb a seq = findVerb b seq := by simp only [findVerb, h]

theorem findVerb_withoutVerb (d : Dev) (seq : Nat) : findVerb (withoutVerb d seq) seq = none := by
  simp [findVerb, withoutVerb, dropWhere]

theorem postedDev_tur {d : Dev} {v : Verb} {r : Ring} (hr : findRing d v.ring = some r) (h : HeldCpl) :
    (postedDev d v r h).tur = (updRing (updRing (heldDev d v h) v.ring dropHeld) v.ring posted).tur := by
  have hnum : (holdCpl h r).num = v.ring := num_of_findRing (findRing_heldDev hr h)
  rw [postedDev, postCpl_tur, hnum]

theorem findRing_postedDev {d : Dev} {v : Verb} {r : Ring} (hr : findRing d v.ring = some r) (h : HeldCpl) :
    findRing (postedDev d v r h) v.ring = some (posted (dropHeld (holdCpl h r))) := by
  rw [findRing_congr (postedDev_tur hr h)]
  exact findRing_updRing_same (fun _ => rfl) (findRing_updRing_same (fun _ => rfl) (findRing_heldDev hr h))

theorem findRing_postedDev_other {d : Dev} {v : Verb} {r : Ring} {n : Nat} (hr : findRing d v.ring = some r) (h : HeldCpl) (hn : n ≠ v.ring) :
    findRing (postedDev d v r h) n = findRing d n := by
  calc findRing (postedDev d v r h) n
      = findRing (updRing (updRing (heldDev d v h) v.ring dropHeld) v.ring posted) n := findRing_congr (postedDev_tur hr h) n
    _ = findRing (updRing (heldDev d v h) v.ring dropHeld) n := findRing_updRing_other (f := posted) (fun _ => rfl) _ hn
    _ = findRing (heldDev d v h) n := findRing_updRing_other (f := dropHeld) (fun _ => rfl) _ hn
    _ = findRing (withoutVerb d v.seq) n := findRing_updRing_other (f := holdCpl h) (fun _ => rfl) _ hn

theorem finish_of_host_ring {d : Dev} {v : Verb} (hv : findVerb d v.seq = some v) (h16 : v.ring ≠ 16) (st err : Nat)
    (fs : List (Nat × Nat × Nat)) : finish d v st err fs = settleRing (drainHeld 65536 (heldDev d v (heldOf v st err fs)) v.ring) v.ring := by
  simp only [finish, hv, Option.getD_some, if_neg h16]
  rfl

/-- A verb whose ring has nothing held, no hold and room posts its completion at once. -/
theorem finish_of_room {d : Dev} {v : Verb} {r : Ring} (hv : findVerb d v.seq = some v) (h16 : v.ring ≠ 16) (hr : findRing d v.ring = some r)
    (hnone : r.held = []) (hgo : r.holding = false) (hroom : cqFull r = false) (st err : Nat) (fs : List (Nat × Nat × Nat)) :
    finish d v st err fs = settleRing (postedDev d v r (heldOf v st err fs)) v.ring := by
  have hone : (holdCpl (heldOf v st err fs) r).held = [heldOf v st err fs] := by simp [holdCpl, hnone]
  have hempty : (posted (dropHeld (holdCpl (heldOf v st err fs) r))).held = [] := by simp [posted, dropHeld, hone]
  rw [finish_of_host_ring hv h16, drainHeld_cons (findRing_heldDev hr _) hone hgo hroom (by decide)]
  exact congrArg (settleRing · v.ring) (drainHeld_of_empty (findRing_postedDev hr _) hempty _)

/-- A verb whose ring is full or holds leaves its completion held. -/
theorem finish_of_stop {d : Dev} {v : Verb} {r : Ring} (hv : findVerb d v.seq = some v) (h16 : v.ring ≠ 16) (hr : findRing d v.ring = some r)
    (h : r.holding = true ∨ cqFull r = true) (st err : Nat) (fs : List (Nat × Nat × Nat)) :
    finish d v st err fs = settleRing (heldDev d v (heldOf v st err fs)) v.ring := by
  rw [finish_of_host_ring hv h16, drainHeld_of_stop (findRing_heldDev hr _) h]

/-! ### What settling leaves (04 R62) -/

/-- A faulted ring whose last verb has posted is halted; of the rest of the ring nothing changes. -/
theorem findRing_settleRing {d : Dev} {n : Nat} {r : Ring} (h : findRing d n = some r) :
    findRing (settleRing d n) n = some { r with halted := r.halted || (r.fault && r.inFlight == 0) } := by
  refine (findRing_updRing_same (fun x => ?_) h).trans ?_
  · split <;> rfl
  · cases hp : r.fault && r.inFlight == 0 <;> simp

theorem findRing_settleRing_other {n k : Nat} (d : Dev) (h : k ≠ n) : findRing (settleRing d n) k = findRing d k := by
  refine findRing_updRing_other (fun x => ?_) d h
  split <;> rfl

/-- Settles O8: the two ways in which a verb of a host ring finishes, and what each makes of memory, the verbs and the rings. -/
theorem completionsArePostedOrHeld : Obligations.CompletionsArePostedOrHeld := by
  unfold Obligations.CompletionsArePostedOrHeld
  refine ⟨fun d v r st err fs hv h16 hr hnone hgo hroom => ?_, fun d v r st err fs hv h16 hr h => ?_,
    fun d v st err fs => EventHistory.finish_sameBut d v st err fs⟩
  · rw [finish_of_room hv h16 hr hnone hgo hroom]
    refine ⟨postCpl_exch _ _ _, ?_, fun n hn => (findRing_settleRing_other _ hn).trans (findRing_postedDev_other hr _ hn),
      _, findRing_settleRing (findRing_postedDev hr _), ?_, rfl, rfl, rfl, rfl, rfl, rfl⟩
    · exact (findVerb_congr (postedDev_tur hr _) v.seq).trans (findVerb_withoutVerb d v.seq)
    · simp [posted, dropHeld, holdCpl, hnone]
  · rw [finish_of_stop hv h16 hr h]
    exact ⟨rfl, findVerb_withoutVerb d v.seq, _, findRing_settleRing (findRing_heldDev hr _), rfl, rfl, rfl, rfl, rfl⟩

end Sys2Proof.Completions
end

section
/-!
Doorbells and fetching (04 R57, R60-R62, R70): a doorbell's bits, and what a write does to the ring that it names.
-/

namespace Sys2Proof.Doorbells

open Sys2Proof.Machine

/-! ### The bits of a doorbell value -/

theorem bitSet_eq_testBit (n i : Nat) : bitSet n i = n.testBit i := by
  rw [Nat.testBit_eq_decide_div_mod_eq]
  rfl

/-- The bits of a value of `w` bits in which bit `k` has been set. -/
theorem bitSet_mod_or (x w k i : Nat) : bitSet (x % 2 ^ w ||| 2 ^ k) i = ((decide (i < w) && bitSet x i) || decide (k = i)) := by
  simp [bitSet_eq_testBit, Nat.testBit_mod_two_pow, Nat.testBit_two_pow]

/-- The 16-bit fields below the bit that is set stay. -/
theorem field_mod_or {x w k i : Nat} (hk : i + 16 ≤ k) (hw : i + 16 ≤ w) : (x % 2 ^ w ||| 2 ^ k) / 2 ^ i % 2 ^ 16 = x / 2 ^ i % 2 ^ 16 := by
  refine Nat.eq_of_testBit_eq fun j => ?_
  simp only [Nat.testBit_mod_two_pow, Nat.testBit_div_two_pow, Nat.testBit_or, Nat.testBit_two_pow]
  by_cases hj : j < 16
  · simp [show j + i < w by omega, show ¬k = j + i by omega]
  · simp [hj]

theorem field0_mod_or {x w k : Nat} (hk : 16 ≤ k) (hw : 16 ≤ w) : (x % 2 ^ w ||| 2 ^ k) % 2 ^ 16 = x % 2 ^ 16 := by
  simpa using field_mod_or (x := x) (i := 0) (by omega : 0 + 16 ≤ k) (by omega)

/-! ### A write that reaches a ring -/

/-- What a doorbell value `w` does to the enabled ring `r` of the LD that writes (04 R60-R62). -/
def rung (d : Dev) (r : Ring) (w : Nat) : Dev :=
  if bitSet w 63 then restartRing d r
  else if r.fault then (if bitSet w 33 && doorbellCause r false true 0 (w / 2 ^ 16 % 2 ^ 16) = 0 then takeCqHead d r (w / 2 ^ 16 % 2 ^ 16) else d)
  else
    let cause := doorbellCause r (bitSet w 32) (bitSet w 33) (w % 2 ^ 16) (w / 2 ^ 16 % 2 ^ 16)
    if cause ≠ 0 then faultRing d r cause w
    else
      let d1 := if bitSet w 32 && !r.stopped then updRing d r.num (fun x => { x with sqTail := w % 2 ^ 16 }) else d
      if bitSet w 33 then takeCqHead d1 r (w / 2 ^ 16 % 2 ^ 16) else d1

/-- The ring `r` of number `num` takes doorbells of LD `ld`. -/
def Rings (d : Dev) (ld num : Nat) (r : Ring) : Prop :=
  d.boot.stage = 8 ∧ d.boot.powerFail = false ∧ num ≠ 16 ∧ findRing d num = some r ∧ r.ld = ld ∧ r.enabled = true

theorem Rings.num {d : Dev} {ld num : Nat} {r : Ring} (h : Rings d ld num r) : r.num = num := by
  obtain ⟨-, -, -, hr, -, -⟩ := h
  exact Completions.num_of_findRing hr

theorem doorbellWrite_eq_rung {d : Dev} {ld num : Nat} {r : Ring} (h : Rings d ld num r) (w : Nat) :
    doorbellWrite ld (0x1000 + 8 * num) 8 w d = rung d r w := by
  obtain ⟨hstage, hpf, h16, hr, hld, hon⟩ := h
  obtain rfl := Completions.num_of_findRing hr
  have hwidth : ¬((8 ≠ 8 || (0x1000 + 8 * r.num) % 8 ≠ 0) = true) := by simp
  have hnum : (0x1000 + 8 * r.num - 0x1000) / 8 = r.num := by omega
  have hring : (if d.boot.stage = 8 && !d.boot.powerFail && r.num ≠ 16 then findRing d r.num else none) = some r := by
    simp [hstage, hpf, h16, hr]
  unfold doorbellWrite
  rw [if_neg hwidth]
  dsimp only
  rw [hnum, hring]
  dsimp only
  rw [if_neg (by simp [hld, hon])]
  rfl

/-- A write of another size than 8 aligned bytes is counted. -/
theorem doorbellWrite_misshapen {off width : Nat} (h : width ≠ 8 ∨ off % 8 ≠ 0) (ld w : Nat) (d : Dev) :
    doorbellWrite ld off width w d = bump d 1 ld 1 1 := by
  unfold doorbellWrite
  rw [if_pos (by simpa using h)]

/-- A write that reaches no ring of its LD is counted. -/
theorem doorbellWrite_foreign {d : Dev} {ld num : Nat} (h : ∀ r, findRing d num = some r → r.ld ≠ ld ∨ r.enabled = false) (w : Nat) :
    doorbellWrite ld (0x1000 + 8 * num) 8 w d = bump d 1 ld 2 1 := by
  have hwidth : ¬((8 ≠ 8 || (0x1000 + 8 * num) % 8 ≠ 0) = true) := by simp
  have hnum : (0x1000 + 8 * num - 0x1000) / 8 = num := by omega
  unfold doorbellWrite
  rw [if_neg hwidth]
  dsimp only
  rw [hnum]
  split
  next => rfl
  next r hr =>
    have hfind : findRing d num = some r := by
      split at hr
      · exact hr
      · cases hr
    rw [if_pos (by simpa using h r hfind)]

/-! ### The causes of a fault (04 R62) -/

/-- A new tail that goes no way back, seen from the head. -/
def TailGoesOn (r : Ring) (tail : Nat) : Prop :=
  (r.sqTail + 2 ^ r.depthLog2 - r.sqHead) % 2 ^ r.depthLog2 ≤ (tail + 2 ^ r.depthLog2 - r.sqHead) % 2 ^ r.depthLog2

/-- A new completion head that consumes posted entries only. -/
def HeadIsPosted (r : Ring) (head : Nat) : Prop := (head + 2 ^ r.depthLog2 - r.cqHead) % 2 ^ r.depthLog2 ≤ postedCount r

theorem doorbellCause_eq_zero {r : Ring} {sq cq : Bool} {tail head : Nat} (hsq : sq = true → tail < 2 ^ r.depthLog2 ∧ TailGoesOn r tail)
    (hcq : cq = true → head < 2 ^ r.depthLog2 ∧ HeadIsPosted r head) : doorbellCause r sq cq tail head = 0 := by
  unfold doorbellCause
  dsimp only
  rw [if_neg, if_neg, if_neg]
  · simpa [HeadIsPosted] using fun h => (hcq h).2
  · simpa [TailGoesOn] using fun h => (hsq h).2
  · simp only [Bool.or_eq_true, Bool.and_eq_true, decide_eq_true_eq, not_or, not_and, not_le]
    exact ⟨fun h => (hsq h).1, fun h => (hcq h).1⟩

/-- Without SQ_UPDATE the tail field counts for nothing. -/
theorem doorbellCause_no_tail (r : Ring) (cq : Bool) (tail head : Nat) : doorbellCause r false cq tail head = doorbellCause r false cq 0 head := by
  simp [doorbellCause]

theorem doorbellCause_past {r : Ring} {tail : Nat} (cq : Bool) (head : Nat) (h : 2 ^ r.depthLog2 ≤ tail) : doorbellCause r true cq tail head = 1 := by
  simp [doorbellCause, h]

theorem doorbellCause_back {r : Ring} {tail : Nat} (head : Nat) (h : tail < 2 ^ r.depthLog2) (hb : ¬TailGoesOn r tail) :
    doorbellCause r true false tail head = 2 := by
  simp [doorbellCause, Nat.not_le.2 h, Nat.not_le.1 hb]

theorem doorbellCause_unposted {r : Ring} {head : Nat} (h : head < 2 ^ r.depthLog2) (hp : ¬HeadIsPosted r head) :
    doorbellCause r false true 0 head = 3 := by
  simp [doorbellCause, Nat.not_le.2 h, Nat.not_le.1 hp]

/-! ### The three doorbells -/

theorem doorbellSq_eq {d : Dev} {ld num value : Nat} {r : Ring} (h : Rings d ld num r) (hf : r.fault = false) :
    doorbellSq ld (0x1000 + 8 * num) 8 value d =
      if doorbellCause r true (bitSet value 33) (value % 2 ^ 16) (value / 2 ^ 16 % 2 ^ 16) ≠ 0 then
        faultRing d r (doorbellCause r true (bitSet value 33) (value % 2 ^ 16) (value / 2 ^ 16 % 2 ^ 16)) (value % 2 ^ 63 ||| 2 ^ 32)
      else
        let d1 := if r.stopped then d else updRing d num (fun x => { x with sqTail := value % 2 ^ 16 })
        if bitSet value 33 then takeCqHead d1 r (value / 2 ^ 16 % 2 ^ 16) else d1 := by
  have h63 : bitSet (value % 2 ^ 63 ||| 2 ^ 32) 63 = false := (bitSet_mod_or _ _ _ _).trans (by simp)
  have h32 : bitSet (value % 2 ^ 63 ||| 2 ^ 32) 32 = true := (bitSet_mod_or _ _ _ _).trans (by simp)
  have h33 : bitSet (value % 2 ^ 63 ||| 2 ^ 32) 33 = bitSet value 33 := (bitSet_mod_or _ _ _ _).trans (by simp)
  have hnum : r.num = num := h.num
  rw [doorbellSq, doorbellWrite_eq_rung h, rung, h63, hf, h32, h33, field0_mod_or (by omega) (by omega), field_mod_or (by omega) (by omega), hnum]
  cases r.stopped <;> rfl

theorem doorbellCq_eq {d : Dev} {ld num value : Nat} {r : Ring} (h : Rings d ld num r) (hsq : r.fault = false → bitSet value 32 = false) :
    doorbellCq ld (0x1000 + 8 * num) 8 value d =
      if doorbellCause r false true 0 (value / 2 ^ 16 % 2 ^ 16) = 0 then takeCqHead d r (value / 2 ^ 16 % 2 ^ 16)
      else if r.fault then d
      else faultRing d r (doorbellCause r false true 0 (value / 2 ^ 16 % 2 ^ 16)) (value % 2 ^ 63 ||| 2 ^ 33) := by
  have h63 : bitSet (value % 2 ^ 63 ||| 2 ^ 33) 63 = false := (bitSet_mod_or _ _ _ _).trans (by simp)
  have h32 : bitSet (value % 2 ^ 63 ||| 2 ^ 33) 32 = bitSet value 32 := (bitSet_mod_or _ _ _ _).trans (by simp)
  have h33 : bitSet (value % 2 ^ 63 ||| 2 ^ 33) 33 = true := (bitSet_mod_or _ _ _ _).trans (by simp)
  rw [doorbellCq, doorbellWrite_eq_rung h, rung, h63, h32, h33, field0_mod_or (by omega) (by omega), field_mod_or (by omega) (by omega)]
  cases hf : r.fault with
  | true => simp
  | false =>
    rw [hsq hf, doorbellCause_no_tail r true (value % 2 ^ 16)]
    simp

theorem doorbellRestart_eq {d : Dev} {ld num : Nat} {r : Ring} (h : Rings d ld num r) (value : Nat) :
    doorbellRestart ld (0x1000 + 8 * num) 8 value d = restartRing d r := by
  have h63 : bitSet (value % 2 ^ 64 ||| 2 ^ 63) 63 = true := (bitSet_mod_or _ _ _ _).trans (by simp)
  rw [doorbellRestart, doorbellWrite_eq_rung h, rung, if_pos h63]

/-! ### Fetching (04 R70) -/

theorem ringFetch_visits {d : Dev} {r : Ring} (hs : serving d = true) (hr : nextVisit d = some r) :
    ringFetch d = markStarted (visitRing 8 { d with tur.robin := r.num } r.num) := by
  simp [ringFetch, hs, hr]

theorem ringFetch_rests {d : Dev} (h : serving d = false ∨ nextVisit d = none) : ringFetch d = d := by
  rcases h with h | h
  · simp [ringFetch, h]
  · simp [ringFetch, h]

/-- Settles O44: each doorbell is its equation above, with the cause that its fields have. -/
theorem doorbellsAndFetch : Obligations.DoorbellsAndFetch := by
  unfold Obligations.DoorbellsAndFetch
  refine ⟨fun ld num value r => does_of _ (fun _ => rfl) fun a _ h => ?_, fun ld num value r => does_of _ (fun _ => rfl) fun a _ h => ?_,
    fun ld num value r => does_of _ (fun _ => rfl) fun a _ h => ?_, fun ld num value r => does_of _ (fun _ => rfl) fun a _ h => ?_,
    fun ld num value r => does_of _ (fun _ => rfl) fun a _ h => ?_, fun ld num value r => does_of _ (fun _ => rfl) fun a _ h => ?_,
    fun ld num value r => does_of _ (fun _ => rfl) fun a _ h => ?_, fun ld num value r => does_of _ (fun _ => rfl) fun a _ h => ?_,
    fun ld num value r => does_of _ (fun _ => rfl) fun a _ h => ?_, fun ld off width value hbad => does_of _ (fun _ => rfl) fun a _ _ => ?_,
    fun ld num value => does_of _ (fun _ => rfl) fun a _ h => doorbellWrite_foreign h _,
    fun r => does_of _ (fun _ => rfl) fun a _ ⟨hs, hr⟩ => ringFetch_visits hs hr, does_of _ (fun _ => rfl) fun a _ h => ringFetch_rests h⟩
  · obtain ⟨hcq, hstage, hpf, h16, hr, hld, hon, hf, hgo, htail, hgoes⟩ := h
    rw [doorbellSq_eq ⟨hstage, hpf, h16, hr, hld, hon⟩ hf, hcq, doorbellCause_eq_zero (fun _ => ⟨htail, hgoes⟩) (by simp), hgo]
    rfl
  · obtain ⟨hsq, hstage, hpf, h16, hr, hld, hon, hf, hhead, hposted⟩ := h
    rw [doorbellCq_eq ⟨hstage, hpf, h16, hr, hld, hon⟩ fun _ => hsq, if_pos (doorbellCause_eq_zero (by simp) fun _ => ⟨hhead, hposted⟩)]
  · obtain ⟨hstage, hpf, h16, hr, hld, hon, hhalt⟩ := h
    rw [doorbellRestart_eq ⟨hstage, hpf, h16, hr, hld, hon⟩, restartRing, hhalt]
    rfl
  · obtain ⟨hstage, hpf, h16, hr, hld, hon, hf, htail⟩ := h
    rw [doorbellSq_eq ⟨hstage, hpf, h16, hr, hld, hon⟩ hf, doorbellCause_past _ _ htail]
    rfl
  · obtain ⟨hcq, hstage, hpf, h16, hr, hld, hon, hf, htail, hback⟩ := h
    rw [doorbellSq_eq ⟨hstage, hpf, h16, hr, hld, hon⟩ hf, hcq, doorbellCause_back _ htail (Nat.not_le.2 hback)]
    rfl
  · obtain ⟨hsq, hstage, hpf, h16, hr, hld, hon, hf, hhead, hpast⟩ := h
    rw [doorbellCq_eq ⟨hstage, hpf, h16, hr, hld, hon⟩ fun _ => hsq, doorbellCause_unposted hhead (Nat.not_le.2 hpast), hf]
    rfl
  · obtain ⟨hstage, hpf, h16, hr, hld, hon, hf, hhead, hposted⟩ := h
    rw [doorbellCq_eq ⟨hstage, hpf, h16, hr, hld, hon⟩ (by simp [hf]), if_pos (doorbellCause_eq_zero (by simp) fun _ => ⟨hhead, hposted⟩)]
  · obtain ⟨hcq, hstage, hpf, h16, hr, hld, hon, hf, hgo, htail, hhead, hgoes, hposted⟩ := h
    rw [doorbellSq_eq ⟨hstage, hpf, h16, hr, hld, hon⟩ hf, doorbellCause_eq_zero (fun _ => ⟨htail, hgoes⟩) (fun _ => ⟨hhead, hposted⟩), hcq, hgo]
    rfl
  · obtain ⟨hstage, hpf, h16, hr, hld, hon, hhalt⟩ := h
    rw [doorbellRestart_eq ⟨hstage, hpf, h16, hr, hld, hon⟩, restartRing, hhalt]
    rfl
  · exact doorbellWrite_misshapen hbad ld _ a

end Sys2Proof.Doorbells
end

section
/-!
Event-ring registers, HUB_FAULT and the limits of verbs (04 R68, R74, R77; 22 R481, R485).
-/

namespace Sys2Proof.Registers

open Sys2Proof.Machine

/-! ### Register writes -/

theorem withEvq_of_ready {d : Dev} {n : Nat} {q : Evq} (hs : d.boot.stage = 8) (hq : d.tur.evqs[n]? = some q) (f : Evq → Dev) :
    withEvq d n f = f q := by
  simp [withEvq, hs, hq]

/-- A write of 8 aligned bytes replaces the register. -/
theorem mergeReg_whole {off : Nat} (h : off % 8 = 0) (old value : Nat) : mergeReg old off 8 value = some (value % 2 ^ 64) := by
  simp [mergeReg, h]

/-- Enabling an event ring that fits empties it and clears its records. -/
theorem evqControlWrite_enables {d : Dev} {n value : Nat} {q : Evq} (hs : d.boot.stage = 8) (hq : d.tur.evqs[n]? = some q) (hoff : q.enable = false)
    (hon : bitSet (value % 2 ^ 64) 8 = true)
    (hfit : evqFits d n { q with vector := value % 2 ^ 64 / 2 ^ 16 % 2 ^ 16, depthLog2 := value % 2 ^ 64 % 32 } = true) :
    evqControlWrite n 0x20008 8 value d = exZero (putEvq d n { q with
      vector := value % 2 ^ 64 / 2 ^ 16 % 2 ^ 16, depthLog2 := value % 2 ^ 64 % 32, enable := true, head := 0, tail := 0, phase := true, used := 0 })
      (exKey n (q.base * 64)) (64 * 2 ^ (value % 2 ^ 64 % 32)) := by
  rw [evqControlWrite, withEvq_of_ready hs hq, mergeReg_whole (by decide)]
  simp only [hoff, Bool.false_eq_true, if_false]
  rw [if_pos (by rw [hon]; simpa [hoff] using hfit)]

/-- While an event ring is enabled only its vector and its enable change. -/
theorem evqControlWrite_enabled {d : Dev} {n : Nat} {q : Evq} (hs : d.boot.stage = 8) (hq : d.tur.evqs[n]? = some q) (hon : q.enable = true)
    (value : Nat) : evqControlWrite n 0x20008 8 value d =
      putEvq d n { q with vector := value % 2 ^ 64 / 2 ^ 16 % 2 ^ 16, enable := bitSet (value % 2 ^ 64) 8 } := by
  rw [evqControlWrite, withEvq_of_ready hs hq, mergeReg_whole (by decide)]
  simp only [hon, if_true]

/-- The records that a new head of an event ring consumes. -/
def consumed (q : Evq) (head : Nat) : Nat := (head + 2 ^ q.depthLog2 - q.head) % 2 ^ q.depthLog2

theorem evqHeadWrite_eq {d : Dev} {n : Nat} {q : Evq} (hs : d.boot.stage = 8) (hq : d.tur.evqs[n]? = some q) (value : Nat) :
    evqHeadWrite n 0x20010 8 value d =
      if value % 2 ^ 64 % 2 ^ 16 < 2 ^ q.depthLog2 ∧ consumed q (value % 2 ^ 64 % 2 ^ 16) ≤ q.used then
        putEvq d n { q with head := value % 2 ^ 64 % 2 ^ 16, used := q.used - consumed q (value % 2 ^ 64 % 2 ^ 16) }
      else d := by
  rw [evqHeadWrite, withEvq_of_ready hs hq, mergeReg_whole (by decide)]
  simp only [Bool.and_eq_true, decide_eq_true_eq]
  rfl

/-- An offset between the doorbells and the event-ring registers takes no write. -/
theorem registerWrite_ignored {off : Nat} (h1 : 0x9000 ≤ off) (h2 : off < 0x20000) (n width value : Nat) (d : Dev) :
    registerWrite n off width value d = d := by
  unfold registerWrite
  rw [if_neg (by simp; omega), if_neg (by omega), if_neg (by omega), if_neg (by omega), if_neg (by omega)]

theorem registerWrite_base {d : Dev} {n : Nat} {q : Evq} (hs : d.boot.stage = 8) (hq : d.tur.evqs[n]? = some q) (hoff : q.enable = false)
    (value : Nat) : registerWrite n 0x20000 8 value d = putEvq d n { q with base := value % 2 ^ 64 / 64 % 2 ^ 30 } := by
  unfold registerWrite
  rw [if_neg (by decide), if_neg (by decide), if_neg (by decide), if_neg (by decide), if_pos (by decide), withEvq_of_ready hs hq,
    mergeReg_whole (by decide)]
  simp [hoff]

theorem stallClear_clears {d : Dev} (h : d.tur.fwStall = false) : stallClear 0x18 8 (2 ^ 11) d = { d with tur.stallSeen := false } := by
  rw [stallClear, mergeReg_whole (by decide)]
  simp only [h]
  rfl

/-! ### Limits (04 R68, R74) -/

theorem stallTimeout_late {d : Dev} {dt : Nat} (hw : (advance d dt).tur.rings.any (unfetched (advance d dt)) = true)
    (hlate : d.tur.lastAccept + 100000000 ≤ (advance d dt).tim.elapsed) (hf : d.tur.fwStall = false) :
    stallTimeout dt d = { advance d dt with tur.fwStall := true, tur.stallSeen := true } := by
  unfold stallTimeout
  dsimp only
  rw [if_pos]
  simp only [Bool.and_eq_true, decide_eq_true_eq, Bool.not_eq_true']
  exact ⟨⟨hw, hlate⟩, hf⟩

theorem verbTimeout_late {d : Dev} {seq dt : Nat} (h : limitReached (advance (markStarted d) dt) seq = true) (hn : d.tur.late.contains seq = false) :
    verbTimeout seq dt d = { advance (markStarted d) dt with tur.late := d.tur.late ++ [seq] } := by
  have hlate : (advance (markStarted d) dt).tur.late = d.tur.late := rfl
  unfold verbTimeout
  dsimp only
  rw [h, hlate, hn]
  rfl

theorem verbTimeout_early {d : Dev} {seq dt : Nat} (h : limitReached (advance (markStarted d) dt) seq = false) :
    verbTimeout seq dt d = advance (markStarted d) dt := by
  unfold verbTimeout
  dsimp only
  rw [h]
  rfl

/-- Settles O45: each register write and each limit is its equation above. -/
theorem registersAndLimits : Obligations.RegistersAndLimits := by
  unfold Obligations.RegistersAndLimits
  refine ⟨fun ld value q => does_of _ (fun _ => rfl) fun a _ ⟨hs, hq, hoff, hon, hfit⟩ => evqControlWrite_enables hs hq hoff hon hfit,
    fun ld value q => does_of _ (fun _ => rfl) fun a _ ⟨hs, hq, hon⟩ => evqControlWrite_enabled hs hq hon value,
    fun ld value q => does_of _ (fun _ => rfl) fun a _ ⟨hs, hq, hdepth, hposted⟩ => (evqHeadWrite_eq hs hq value).trans (if_pos ⟨hdepth, hposted⟩),
    fun ld value q => does_of _ (fun _ => rfl) fun a _ ⟨hs, hq, hpast⟩ => (evqHeadWrite_eq hs hq value).trans (if_neg fun h => Nat.not_le.2 hpast h.2),
    does_of _ (fun _ => rfl) fun a _ h => stallClear_clears h,
    fun ld off width value h1 h2 => does_of _ (fun _ => rfl) fun a _ _ => registerWrite_ignored h1 h2 ld width value a,
    fun ld value q => does_of _ (fun _ => rfl) fun a _ ⟨hs, hq, hoff⟩ => registerWrite_base hs hq hoff value,
    fun dt => does_of _ (fun _ => rfl) fun a _ ⟨hw, hlate, hf⟩ => stallTimeout_late hw hlate hf,
    fun seq dt => does_of _ (fun _ => rfl) fun a _ ⟨h, hn⟩ => verbTimeout_late h hn,
    fun seq dt => does_of _ (fun _ => rfl) fun a _ h => verbTimeout_early h⟩

end Sys2Proof.Registers
end

section
/-!
Host accesses to exchange memory, and the ends of requests that the device issued (17 R400-R402, R404-R406; 18 R415; 04 R69).
-/

namespace Sys2Proof.HostAccesses

open Sys2Proof.Machine

/-! ### CXL.mem reads -/

/-- A read that reaches the device may cut a command group of the stack that holds the sector (08 R171). -/
theorem cxlReadRow_of_mapped {d : Dev} {ld hpa x : Nat} (hx : hostDpa d ld hpa = some x) (bad : Bool) :
    cxlReadRow ld hpa bad d = cutGroups (cxlMemRead ld hpa bad d) (exchStack d ld x).toList := by
  simp [cxlReadRow, hx]

theorem cxlMemRead_good {d : Dev} {ld hpa x : Nat} (hx : hostDpa d ld hpa = some x) (hin : x / 64 * 64 < exSize d ld)
    (hshow : sanitizeHides d ld (x / 64 * 64) = false) (hok : exPoisoned d (exKey ld (x / 64 * 64)) 64 = false) :
    cxlMemRead ld hpa false d = memAnswer d ld (x / 64 * 64) (memReadN d.exch (exKey ld (x / 64 * 64)) 64) false := by
  simp only [cxlMemRead, hx, Nat.not_le.2 hin, hshow, hok, if_false, Bool.false_eq_true, Bool.or_false]

/-- A sector in error answers with the poison indication and stays poisoned (17 R402, 18 R415). -/
theorem cxlMemRead_poisoned {d : Dev} {ld hpa x : Nat} {bad : Bool} (hx : hostDpa d ld hpa = some x) (hin : x / 64 * 64 < exSize d ld)
    (hshow : sanitizeHides d ld (x / 64 * 64) = false) (herr : exPoisoned d (exKey ld (x / 64 * 64)) 64 = true ∨ bad = true) :
    cxlMemRead ld hpa bad d =
      let b := if exPoisoned d (exKey ld (x / 64 * 64)) 64 = true then d
        else bump { d with poison := d.poison ++ [exKey ld (x / 64 * 64) / 64] } 0 0 6 1
      raise (bump (addRecord (memAnswer b ld (x / 64 * 64) (memReadN d.exch (exKey ld (x / 64 * 64)) 64) true) ld 2 (x / 64 * 64)) 1 ld 4 1) 0x0143
        objDevice (.ld ld) [(1, ld), (8, x / 64 * 64)] := by
  have hbad : (exPoisoned d (exKey ld (x / 64 * 64)) 64 || bad) = true := by simpa using herr
  simp only [cxlMemRead, hx, Nat.not_le.2 hin, hshow, hbad, if_false, if_true, Bool.false_eq_true]

theorem cxlMemRead_hidden {d : Dev} {ld hpa x : Nat} (hx : hostDpa d ld hpa = some x) (hin : x / 64 * 64 < exSize d ld)
    (hhide : sanitizeHides d ld (x / 64 * 64) = true) (bad : Bool) :
    cxlMemRead ld hpa bad d = memAnswer d ld (x / 64 * 64) (List.replicate 64 0) false := by
  simp only [cxlMemRead, hx, Nat.not_le.2 hin, hhide, if_false, if_true]

theorem cxlMemRead_beyond {d : Dev} {ld hpa x : Nat} (hx : hostDpa d ld hpa = some x) (hout : exSize d ld ≤ x / 64 * 64) (bad : Bool) :
    cxlMemRead ld hpa bad d = bump (memAnswer d ld (x / 64 * 64) (List.replicate 64 255) true) 1 ld 3 1 := by
  simp only [cxlMemRead, hx, hout, if_true]

/-! ### CXL.mem writes -/

theorem cxlMemWrite_inside {d : Dev} {ld hpa x : Nat} (hx : hostDpa d ld hpa = some x) (hin : x < exSize d ld)
    (hshow : sanitizeHides d ld x = false) (bs : List Byte) : cxlMemWrite ld hpa bs d = exWrite d (exKey ld x) (bs.take (64 - x % 64)) := by
  simp only [cxlMemWrite, hx, Nat.not_le.2 hin, hshow, if_false, Bool.false_eq_true]

theorem cxlMemWrite_beyond {d : Dev} {ld hpa x : Nat} (hx : hostDpa d ld hpa = some x) (hout : exSize d ld ≤ x) (bs : List Byte) :
    cxlMemWrite ld hpa bs d = bump d 1 ld 3 1 := by
  simp only [cxlMemWrite, hx, hout, if_true]

/-! ### Requests that end (17 R405, R406) -/

theorem busReadDone_of_restore {d : Dev} {i seq : Nat} {b : BusReq} (hb : d.bus.find? (fun r => r.id == i) = some b)
    (hw : b.why = .restoreRead seq) (bs : List Byte) :
    busReadDone i bs d = restoreData seq (padTo bs b.len) { d with bus := dropWhere (fun (x : BusReq) => x.id == i) d.bus } := by
  simp only [busReadDone, hb, hw]

theorem busEnded_of_restore {b : BusReq} {seq : Nat} (hw : b.why = .restoreRead seq) (d : Dev) :
    busEnded d b = busFailed { d with bus := dropWhere (fun (x : BusReq) => x.id == b.id) d.bus } b.ld := by
  simp only [busEnded, hw]

/-- A text head that ends without its data detaches the text ring of its session. -/
theorem busEnded_of_textHead {d : Dev} {b : BusReq} {h : Nat} {s : Sess} (hw : b.why = .textHead h)
    (hs : findSess (busFailed { d with bus := dropWhere (fun (x : BusReq) => x.id == b.id) d.bus } b.ld) h = some s)
    (hn : s.tok.ringNamed = true) :
    busEnded d b = textDetach (busFailed { d with bus := dropWhere (fun (x : BusReq) => x.id == b.id) d.bus } b.ld) s 2 := by
  simp only [busEnded, hw, hs, hn, if_true]

theorem busError_of_find {d : Dev} {i : Nat} {b : BusReq} (hb : d.bus.find? (fun r => r.id == i) = some b) : busError i d = busEnded d b := by
  simp only [busError, hb]

/-- A request times out once 50 ms have passed since it was issued (17 R405). -/
theorem busTimeout_of_find {d : Dev} {i : Nat} {b : BusReq} (hb : d.bus.find? (fun r => r.id == i) = some b) (dt : Nat) :
    busTimeout i dt d = if b.issued + 50000000 ≤ (advance d dt).tim.elapsed then busEnded (advance d dt) b else advance d dt := by
  simp only [busTimeout, advance_bus, hb]

/-- Settles O46: each access and each end of a request is its equation above. -/
theorem hostMemoryAndBusRequests : Obligations.HostMemoryAndBusRequests := by
  unfold Obligations.HostMemoryAndBusRequests
  refine ⟨fun ld hpa x => does_of (cxlReadRow ld hpa false) (fun _ => rfl) fun a _ ⟨hx, hin, hshow, hok⟩ => ?_,
    fun ld hpa bad x => does_of (cxlReadRow ld hpa bad) (fun _ => rfl) fun a _ ⟨hx, hin, hshow, herr⟩ => ?_,
    fun ld hpa bad x => does_of (cxlReadRow ld hpa bad) (fun _ => rfl) fun a _ ⟨hx, hin, hhide⟩ => ?_,
    fun ld hpa bad x => does_of (cxlReadRow ld hpa bad) (fun _ => rfl) fun a _ ⟨hx, hout⟩ => ?_,
    fun ld hpa bs x => does_of _ (fun _ => rfl) fun a _ ⟨hx, hin, hshow⟩ => cxlMemWrite_inside hx hin hshow bs,
    fun ld hpa bs x => does_of _ (fun _ => rfl) fun a _ ⟨hx, hout⟩ => cxlMemWrite_beyond hx hout bs,
    fun i bs b seq => does_of _ (fun _ => rfl) fun a _ ⟨hb, hw⟩ => busReadDone_of_restore hb hw bs,
    fun i b seq => does_of _ (fun _ => rfl) fun a _ ⟨hb, hw⟩ => (busError_of_find hb).trans (busEnded_of_restore hw a),
    fun i b h s => does_of _ (fun _ => rfl) fun a _ ⟨hb, hw, hs, hn⟩ => (busError_of_find hb).trans (busEnded_of_textHead hw hs hn),
    fun i dt b seq => does_of _ (fun _ => rfl) fun a _ ⟨hb, hw, hlate⟩ => ?_,
    fun i dt b => does_of _ (fun _ => rfl) fun a _ ⟨hb, hearly⟩ => (busTimeout_of_find hb dt).trans (if_neg (Nat.not_le.2 hearly))⟩
  · rw [cxlReadRow_of_mapped hx, cxlMemRead_good hx hin hshow hok]
  · rw [cxlReadRow_of_mapped hx, cxlMemRead_poisoned hx hin hshow herr]
  · rw [cxlReadRow_of_mapped hx, cxlMemRead_hidden hx hin hhide]
  · rw [cxlReadRow_of_mapped hx, cxlMemRead_beyond hx hout]
  · exact (busTimeout_of_find hb dt).trans ((if_pos hlate).trans (busEnded_of_restore hw _))

end Sys2Proof.HostAccesses
end

section
/-!
The verbs that change the length of a session's record: each registers its work for the next boundary (05 R95), but an APPEND of hidden rows, which
lists a job first (05 R100).
-/

namespace Sys2Proof.LengthVerbs

open Sys2Proof.Machine Sys2Proof.ObjectVerbs Sys2Proof.GridSettings

theorem sessForkBody_ok {v : Verb} {a d : Dev} (h : sessForkBody v a = .ok d) :
    d = registerOp a v (.fork v.seq (fld v 16 4) (fld v 20 4)) := by
  simp only [sessForkBody, bind_ok] at h
  obtain ⟨-, -, -, -, -, -, h⟩ := h
  exact (Except.ok.inj h).symm

/-- The two ends of an APPEND that passes its checks: plain rows (SOURCE 0) are registered, and hidden rows are listed as a job of a session
that is no tree (05 R100). -/
theorem appendBody_ok {v : Verb} {a d : Dev} (h : appendBody v a = .ok d) :
    (bitSet (fld v 20 1) 1 = false → d = registerOp a v (.append v.seq)) ∧
    (bitSet (fld v 20 1) 1 = true → ∃ x m, findSess a (fld v 16 4) = some x ∧ findModel a x.model = some m ∧ x.tree = none ∧
      d = startAppendJob a v x m (appendLayers m (fld v 22 2) (fld v 24 2))) := by
  simp only [appendBody, bind_ok, failId_ite] at h
  obtain ⟨-, -, x, hx, -, -, htree, h⟩ := h
  split at h
  · simp at h
  next m hm =>
    simp only [failRange_ite, failWith_ite, bind_ok] at h
    obtain ⟨-, -, -, bs, -, h⟩ := h
    cases hhid : bitSet (fld v 20 1) 1 with
    | false =>
      simp only [hhid, Bool.not_false, if_true] at h
      exact ⟨fun _ => (Except.ok.inj h).symm, by simp⟩
    | true =>
      simp only [hhid, Bool.not_true, Bool.false_eq_true, if_false] at h
      split at h
      · simp at h
      · exact ⟨by simp, fun _ => ⟨x, m, findSess_of_checkSess hx, hm, by simpa using htree, (Except.ok.inj h).symm⟩⟩

theorem rollbackBody_ok {v : Verb} {a d : Dev} (h : rollbackBody v a = .ok d) :
    d = registerOp a v (.rollback v.seq (fld v 16 4) (fld v 20 1)) ∧ (fld v 20 1 = 1 ∨ fld v 20 1 = 2) := by
  simp only [rollbackBody, bind_ok] at h
  obtain ⟨_, hfields, -, -, -, -, h⟩ := h
  exact ⟨(Except.ok.inj h).symm, by simpa using fields_good_of_check4 hfields⟩

theorem truncateBody_ok {v : Verb} {a d : Dev} (h : truncateBody v a = .ok d) :
    ∃ x, findSess a (fld v 16 4) = some x ∧ fld v 20 4 ≤ x.log.length ∧ d = registerOp a v (.truncate v.seq (fld v 16 4) (fld v 20 4)) := by
  simp only [truncateBody, bind_ok] at h
  obtain ⟨-, -, x, hx, -, -, _, hlen, h⟩ := h
  exact ⟨x, findSess_of_checkSess hx, by simpa using eq_true_of_need hlen, (Except.ok.inj h).symm⟩

theorem commitBody_ok {v : Verb} {a d : Dev} (h : commitBody v a = .ok d) :
    d = registerOp a v (.commit v.seq) ∧ fld v 22 1 ≤ 16 ∧ fld v 23 1 ≤ 16 := by
  simp only [commitBody, bind_ok] at h
  obtain ⟨_, hfields, -, -, -, -, -, -, -, -, h⟩ := h
  have hpath := fields_good_of_check4 hfields _ (.head _)
  have hnew := fields_good_of_check4 hfields _ (.tail _ (.head _))
  exact ⟨(Except.ok.inj h).symm, of_decide_eq_true hpath, of_decide_eq_true hnew⟩

/-- Settles O15: each verb's command runs its body, and a body that passes its checks is as the lemmas above say. -/
theorem lengthVerbsWaitForTheBoundary : Obligations.LengthVerbsWaitForTheBoundary := by
  unfold Obligations.LengthVerbsWaitForTheBoundary
  exact ⟨verbDoes_of (fun _ _ => rfl) fun _ _ _ => sessForkBody_ok,
    verbDoes_of (fun _ _ => rfl) fun _ _ _ => appendBody_ok,
    verbDoes_of (fun _ _ => rfl) fun _ _ _ => rollbackBody_ok,
    verbDoes_of (fun _ _ => rfl) fun _ _ _ => truncateBody_ok,
    verbDoes_of (fun _ _ => rfl) fun _ _ _ => commitBody_ok⟩

end Sys2Proof.LengthVerbs
end

section
/-!
The verbs of grammar, sampling and attention: a binding, a parameter block or a mask takes effect at once (11 R235-R237), and SAMPLE and ATTEND list
a job that waits for its dispatch boundary (06 R116, 11 R238).
-/

namespace Sys2Proof.SamplingVerbs

open Sys2Proof.Machine Sys2Proof.ObjectVerbs

/-! ### Bindings, parameters and masks -/

/-- The binding that GRAM_BIND leaves: none in mode 0, the start state in mode 1, and in mode 2 the state after the log's tokens from the position
named, where the mask bars none of them (11 R235). -/
theorem gramBindBody_ok {v : Verb} {a d : Dev} (h : gramBindBody v a = .ok d) :
    (fld v 21 1 = 0 → d = finishOk (updSyn a (fld v 16 4) (fun y => { y with
      mode := 0, grammar := none, gramDigest := [], state := 0, stack := [], finished := false, bindPos := 0 })) v [(12, 4, 0xFFFFFFFF)]) ∧
    (fld v 21 1 = 1 → ∃ x g, findSess a (fld v 16 4) = some x ∧ findGram a (fld v 20 1) = some g ∧
      d = finishOk (updSyn a (fld v 16 4) (fun y => { y with
        mode := 1, grammar := some (fld v 20 1), gramDigest := g.digest, state := fieldAt g.img 6 2, stack := [], finished := false
        bindPos := x.log.length })) v [(8, 2, fieldAt g.img 6 2), (10, 2, 0), (12, 4, 0xFFFFFFFF), (16, 4, x.log.length)]) ∧
    (fld v 21 1 = 2 → ∃ x g y seen, findSess a (fld v 16 4) = some x ∧ findGram a (fld v 20 1) = some g ∧ fld v 24 4 ≤ x.log.length ∧
      replaySyn g.img (endTokens x.syn.params) (x.log.drop (fld v 24 4)) (fld v 24 4) { mode := 1, state := fieldAt g.img 6 2, stack := [] } [] =
        .ok (y, seen) ∧
      d = finishOk (updSyn (touchMasks a { x.syn with grammar := some (fld v 20 1) } seen) (fld v 16 4) (fun z => { z with
        mode := y.mode, grammar := some (fld v 20 1), gramDigest := g.digest, state := y.state, stack := y.stack, finished := false
        bindPos := fld v 24 4 })) v [(8, 2, y.state), (10, 2, y.stack.length), (12, 4, 0xFFFFFFFF), (16, 4, fld v 24 4)]) := by
  simp only [gramBindBody, bind_ok] at h
  obtain ⟨-, -, x, hx, -, -, h⟩ := h
  replace hx := findSess_of_checkSess hx
  split at h
  next h0 => exact ⟨fun _ => (Except.ok.inj h).symm, by simp [h0], by simp [h0]⟩
  next h0 =>
    rw [bind_ok] at h
    obtain ⟨-, -, h⟩ := h
    split at h
    · simp at h
    next g hg =>
      split at h
      next h1 => exact ⟨by simp [h1], fun _ => ⟨x, g, hx, hg, (Except.ok.inj h).symm⟩, by simp [h1]⟩
      next h1 =>
        rw [failWith_ite] at h
        obtain ⟨hpos, h⟩ := h
        split at h
        · simp at h
        next y seen hy =>
          exact ⟨fun e => absurd e h0, fun e => absurd e h1,
            fun _ => ⟨x, g, y, seen, hx, hg, Nat.not_lt.1 hpos, hy, (Except.ok.inj h).symm⟩⟩

theorem ok_of_structOk {d : Dev} {v : Verb} {off len : Nat} {ok : List Byte → Bool} {bs : List Byte}
    (hs : structOk d v off len ok = true) (hin : argIn d v off len = true) (hr : argRead d v off len = .ok bs) : ok bs = true := by
  simpa [structOk, argPeek, hin, hr] using hs

theorem samplerSetBody_ok {v : Verb} {a d : Dev} (h : samplerSetBody v a = .ok d) : ∃ ps x, argRead a v (fld v 24 8) 128 = .ok ps ∧
    paramsOk ps = true ∧ findSess a (fld v 16 4) = some x ∧
    d = finishOk (updSess (updSyn a (fld v 16 4) (fun y => { y with
        params := ps, finished := false, setPos := x.log.length, sinceSet := if bitSet (fieldAt ps 31 1) 0 then y.sinceSet else 0 }))
      (fld v 16 4) (fun y => { y with marks := y.marks.filter (fun m => !(m.kind == 3 && (m.first == 0x3040 || m.first == 0x3080))) })) v [] := by
  simp only [samplerSetBody, bind_ok] at h
  obtain ⟨_, hfields, ps, hps, x, hx, -, -, h⟩ := h
  have hgood := GridSettings.fields_good_of_check4 hfields
  have hin := hgood _ (.head _)
  have hstruct := hgood _ (.tail _ (.head _))
  rw [Bool.and_eq_true] at hin
  exact ⟨ps, x, hps, ok_of_structOk hstruct hin.2 hps, findSess_of_checkSess hx, (Except.ok.inj h).symm⟩

theorem maskGetBody_ok {v : Verb} {a d : Dev} (h : maskGetBody v a = .ok d) : ∃ x g, findSess a (fld v 16 4) = some x ∧ x.syn.mode = 1 ∧
    sessGram a x.syn = some g ∧
    d = finishOk (outWrite (touchMasks a x.syn [x.syn.state]) v (fld v 24 8) (packBits (maskRow g x.syn))) v
      [(8, 2, x.syn.state), (10, 2, x.syn.stack.length), (12, 4, ((maskRow g x.syn).filter id).length),
        (16, 1, if endAllowed g x.syn then 1 else 0)] := by
  simp only [maskGetBody, bind_ok, failId_ite] at h
  obtain ⟨-, -, x, hx, -, _, hbound, h⟩ := h
  split at h
  · simp at h
  next g hg =>
    simp only [bind_ok] at h
    obtain ⟨-, -, -, -, h⟩ := h
    exact ⟨x, g, findSess_of_checkSess hx, by simpa using eq_true_of_need hbound, hg, (Except.ok.inj h).symm⟩

/-! ### Jobs that wait for their dispatch boundary -/

/-- The tunnel block of a ring 16 verb reaches exchange memory only: the jobs listed stay. -/
@[simp] theorem placeBlock_arr (d : Dev) (v : Verb) : (placeBlock d v).arr = d.arr :=
  (sameBut_ite (exWrite_sameBut _ _ _) (sameBut_refl d)).arr

theorem registerSample_lists (d : Dev) (seq prio p : Nat) (launch : Option Launch) (b tb : List Byte) (rows : List JobRow) : ∃ j : Job,
    j.kind = 1 ∧ j.seq = seq ∧ j.state = 0 ∧ j.num = d.arr.nextJob ∧ j.launch = launch ∧ j.prio = prio ∧ j.ctx = fieldAt b 8 2 % 2048 ∧ j.part = p ∧
    j.desc = b ++ tb ∧ j.rows.length = rows.length ∧
    registerSample d seq prio p launch b tb rows =
      { d with arr.jobs := d.arr.jobs ++ [j], arr.nextJob := (d.arr.nextJob + 1) % 2 ^ 32 } :=
  ⟨_, rfl, rfl, rfl, rfl, rfl, rfl, rfl, rfl, rfl, List.length_map _, rfl⟩

theorem registerJob_lists (d : Dev) (seq prio p : Nat) (launch : Option Launch) (b : List Byte) (rows : List JobRow) (m : Model) : ∃ j : Job,
    j.kind = 0 ∧ j.seq = seq ∧ j.state = 0 ∧ j.num = d.arr.nextJob ∧ j.launch = launch ∧ j.prio = prio ∧ j.ctx = fieldAt b 12 2 % 2048 ∧ j.part = p ∧
    j.model = m.id ∧ j.layer = fieldAt b 2 2 ∧ j.desc = b ∧ j.rows.length = rows.length ∧
    registerJob d seq prio p launch b rows m =
      { d with arr.jobs := d.arr.jobs ++ [j], arr.nextJob := (d.arr.nextJob + 1) % 2 ^ 32 } :=
  ⟨_, rfl, rfl, rfl, rfl, rfl, rfl, rfl, rfl, rfl, rfl, rfl, List.length_map _, rfl⟩

theorem sampleBody_ok {v : Verb} {a d : Dev} (h : sampleBody v a = .ok d) : ∃ (b tb : List Byte) (rows : List JobRow) (j : Job),
    areaRead (placeBlock a v) (verbArea (placeBlock a v) v) (fld v 16 8) 64 = .ok b ∧
    sampleHead (placeBlock a v) (verbArea (placeBlock a v) v) b 16 = .ok (rows, tb) ∧
    j.kind = 1 ∧ j.seq = v.seq ∧ j.state = 0 ∧ j.num = a.arr.nextJob ∧ j.launch = none ∧ j.prio = verbPrio (placeBlock a v) v ∧
    j.ctx = fieldAt b 8 2 % 2048 ∧ j.part = ctxPart (fieldAt b 8 2 % 2048) ∧ j.desc = b ++ tb ∧ j.rows.length = rows.length ∧
    d = keepRunning { placeBlock a v with arr.jobs := a.arr.jobs ++ [j], arr.nextJob := (a.arr.nextJob + 1) % 2 ^ 32 } v := by
  simp only [sampleBody, bind_ok] at h
  obtain ⟨-, -, b, hb, ⟨rows, tb⟩, hrows, -, -, h⟩ := h
  obtain ⟨j, hkind, hseq, hstate, hnum, hlaunch, hprio, hctx, hpart, hdesc, hlen, hlists⟩ :=
    registerSample_lists (placeBlock a v) v.seq (verbPrio (placeBlock a v) v) (ctxPart (fieldAt b 8 2 % 2048)) none b tb rows
  rw [hlists] at h
  rw [placeBlock_arr] at hnum
  exact ⟨b, tb, rows, j, hb, hrows, hkind, hseq, hstate, hnum, hlaunch, hprio, hctx, hpart, hdesc, hlen,
    by simpa only [placeBlock_arr] using (Except.ok.inj h).symm⟩

theorem attendBody_ok {v : Verb} {a d : Dev} (h : attendBody v a = .ok d) : ∃ (b : List Byte) (rows : List JobRow) (m : Model) (j : Job),
    areaRead (placeBlock a v) (verbArea (placeBlock a v) v) (fld v 16 8) 128 = .ok b ∧
    attendHead (placeBlock a v) (verbArea (placeBlock a v) v) b 16 = .ok rows ∧ findModel (placeBlock a v) (fieldAt b 0 1) = some m ∧
    attendRest (placeBlock a v) (verbArea (placeBlock a v) v) b 16 rows m = .ok () ∧
    j.kind = 0 ∧ j.seq = v.seq ∧ j.state = 0 ∧ j.num = a.arr.nextJob ∧ j.launch = none ∧ j.prio = verbPrio (placeBlock a v) v ∧
    j.ctx = fieldAt b 12 2 % 2048 ∧ j.part = ctxPart (fieldAt b 12 2 % 2048) ∧ j.model = m.id ∧ j.layer = fieldAt b 2 2 ∧ j.desc = b ∧
    j.rows.length = rows.length ∧
    d = keepRunning { placeBlock a v with arr.jobs := a.arr.jobs ++ [j], arr.nextJob := (a.arr.nextJob + 1) % 2 ^ 32 } v := by
  simp only [attendBody, bind_ok] at h
  obtain ⟨-, -, b, hb, rows, hrows, -, -, -, -, h⟩ := h
  split at h
  · simp at h
  next m hm =>
    rw [bind_ok] at h
    obtain ⟨_, hrest, h⟩ := h
    obtain ⟨j, hkind, hseq, hstate, hnum, hlaunch, hprio, hctx, hpart, hmodel, hlayer, hdesc, hlen, hlists⟩ :=
      registerJob_lists (placeBlock a v) v.seq (verbPrio (placeBlock a v) v) (ctxPart (fieldAt b 12 2 % 2048)) none b rows m
    rw [hlists] at h
    rw [placeBlock_arr] at hnum
    exact ⟨b, rows, m, j, hb, hrows, hm, hrest, hkind, hseq, hstate, hnum, hlaunch, hprio, hctx, hpart, hmodel, hlayer, hdesc, hlen,
      by simpa only [placeBlock_arr] using (Except.ok.inj h).symm⟩

/-- Settles O20: each verb's command runs its body, and a body that passes its checks is as the lemmas above say. -/
theorem samplingVerbsComplete : Obligations.SamplingVerbsComplete := by
  unfold Obligations.SamplingVerbsComplete
  exact ⟨verbDoes_of (fun _ _ => rfl) fun _ _ _ => gramBindBody_ok,
    verbDoes_of (fun _ _ => rfl) fun _ _ _ => samplerSetBody_ok,
    verbDoes_of (fun _ _ => rfl) fun _ _ _ => sampleBody_ok,
    verbDoes_of (fun _ _ => rfl) fun _ _ _ => maskGetBody_ok,
    verbDoes_of (fun _ _ => rfl) fun _ _ _ => attendBody_ok⟩

end Sys2Proof.SamplingVerbs
end

section
/-!
Ends of slices and arrivals of partial records (06 R117, R127, R128; 07 R142): `endSlice` and `recordArrival`, one equation for each way they go.
-/

namespace Sys2Proof.SlicesEnd

open Sys2Proof.Machine

/-! ### Ends of slices -/

/-- Every core of slice `i` has ended with nothing outstanding (07 R149). -/
def coresEnded (d : Dev) (i : Nat) : Bool :=
  (d.arr.cores.filter (fun (c : Core) => c.slice == i)).all (fun c => c.ended && c.units.isEmpty && c.mvts.isEmpty && c.sig.isNone)

/-- The device once slice `i` of job `num` has left with its cores: the job's semaphores go with its last slice (07 R151). -/
def withoutSlice (d : Dev) (i num : Nat) : Dev :=
  releaseSems { d with
    arr.cores := dropWhere (fun (c : Core) => c.slice == i) d.arr.cores
    arr.slices := dropWhere (fun (y : Slice) => y.id == i) d.arr.slices } num

section
variable {d : Dev} {i : Nat} {sl : Slice}

theorem endSlice_of_atWork (hs : findSlice d i = some sl) (hc : coresEnded d i = false) : endSlice i d = d := by
  rw [coresEnded] at hc
  simp [endSlice, hs, hc]

variable {j : Job} (hs : findSlice d i = some sl) (hc : coresEnded d i = true) (hj : findJob (withoutSlice d i sl.job) sl.job = some j)
include hs hc hj

/-- What the end of a slice leaves to its job. -/
theorem endSlice_of_ended : endSlice i d =
    if !usesKernels j then updJob (withoutSlice d i sl.job) j.num (fun y => { y with state := 3 })
    else advanceJob 4 (settleBarriers (if j.phase = 1 then
        (d.arr.cores.filter (fun (c : Core) => c.slice == i)).foldl (fun e c => updItem e c.job c.row c.item (endItem c)) (withoutSlice d i sl.job)
      else withoutSlice d i sl.job) sl.job) sl.job true := by
  rw [coresEnded] at hc
  rw [withoutSlice] at hj
  simp only [endSlice, hs, hc, hj, Bool.not_true, Bool.false_eq_true, if_false]
  rfl

/-- A SAMPLE or search job waits for the boundary that makes its result visible. -/
theorem endSlice_of_builtin (hk : usesKernels j = false) :
    endSlice i d = updJob (withoutSlice d i sl.job) j.num (fun y => { y with state := 3 }) := by
  simp [endSlice_of_ended hs hc hj, hk]

/-- A slice of the attention phase ends the items that its cores served. -/
theorem endSlice_of_attention (hk : usesKernels j = true) (hp : j.phase = 1) :
    endSlice i d = advanceJob 4 (settleBarriers ((d.arr.cores.filter (fun (c : Core) => c.slice == i)).foldl
      (fun e c => updItem e c.job c.row c.item (endItem c)) (withoutSlice d i sl.job)) sl.job) sl.job true := by
  simp [endSlice_of_ended hs hc hj, hk, hp]

theorem endSlice_of_other_phase (hk : usesKernels j = true) (hp : j.phase ≠ 1) :
    endSlice i d = advanceJob 4 (settleBarriers (withoutSlice d i sl.job) sl.job) sl.job true := by
  simp [endSlice_of_ended hs hc hj, hk, hp]

end

/-! ### Arrivals of partial records -/

theorem recordArrival_of_record {d : Dev} {i : Nat} {p : PartRec} (hp : d.arr.records[i]? = some p) : recordArrival i d =
    let b := advanceCut (settleBarriers (mergeRecord { d with arr.records := d.arr.records.eraseIdx i } p) p.job)
    match findJob b p.job with
    | some j => if j.state = 4 then advanceJob 4 b p.job true else b
    | none => b := by
  unfold recordArrival
  split
  next hnone => simp [hp] at hnone
  next q hq =>
    obtain rfl : p = q := Option.some.inj (hp.symm.trans hq)
    rfl

/-- Settles O60: each command is its engine step and then `settleJobs`, and the step goes as its equation above says. -/
theorem slicesAndRecordsEnd : Obligations.SlicesAndRecordsEnd := by
  unfold Obligations.SlicesAndRecordsEnd
  refine ⟨fun i sl j => does_of (fun d => settleJobs (endSlice i d)) (fun _ => rfl) fun a _ ⟨hs, hc, hj⟩ =>
      ⟨fun hk => ?_, fun hk hp => ?_, fun hk hp => ?_⟩,
    fun i sl => does_of (fun d => settleJobs (endSlice i d)) (fun _ => rfl) fun a _ ⟨hs, hc⟩ => congrArg settleJobs (endSlice_of_atWork hs hc),
    fun i p => does_of (fun d => settleJobs (recordArrival i d)) (fun _ => rfl) fun a _ hp => congrArg settleJobs (recordArrival_of_record hp)⟩
  · exact congrArg settleJobs (endSlice_of_builtin hs hc hj hk)
  · exact congrArg settleJobs (endSlice_of_attention hs hc hj hk hp)
  · exact congrArg settleJobs (endSlice_of_other_phase hs hc hj hk hp)

end Sys2Proof.SlicesEnd
end

section
/-!
What descriptors have in common (07 R143, R146-R148): one is built of steps that may end in a fault, and goes on only where the core's signal, its
units or its movement allow it.
-/

namespace Sys2Proof.CoreDescriptors

open Sys2Proof.Machine

/-! ### Steps that may fault -/

theorem bind_eq_ok_iff {α β : Type} {x : Except Nat α} {f : α → Except Nat β} {b : β} :
    (x >>= f) = .ok b ↔ ∃ a, x = .ok a ∧ f a = .ok b := by
  cases x <;> simp [bind, Except.bind]

/-- A step of two ways, after which both go on alike. -/
theorem ite_bind_eq_ok_iff {α β : Type} {p : Prop} [Decidable p] {x y : Except Nat α} {f : α → Except Nat β} {b : β} :
    (if p then x >>= f else y >>= f) = .ok b ↔ ∃ a, (if p then x else y) = .ok a ∧ f a = .ok b := by
  rw [← apply_ite (· >>= f), bind_eq_ok_iff]

theorem fault_ite_iff {α : Type} {p : Prop} [Decidable p] {cause : Nat} {x : Except Nat α} {b : α} :
    (if p then .error cause else x) = .ok b ↔ ¬p ∧ x = .ok b := by
  by_cases h : p <;> simp [h]

/-- A condition that admits a descriptor: without it the device stays as it is, and with it the rest of the body `x` says what holds. -/
theorem post_of_admitted {m : Bool} {a d : Dev} {x : Except Nat Dev} {post : Prop} (h : (if !m then .ok a else x) = .ok d)
    (hpost : x = .ok d → post) : (m = false → d = a) ∧ (m = true → post) := by
  cases m with
  | false => exact ⟨fun _ => (Except.ok.inj h).symm, by simp⟩
  | true => exact ⟨by simp, fun _ => hpost h⟩

/-- A descriptor behind a signal that waits for earlier movement waits with it (07 R148). -/
theorem behindSignal_iff {c : Core} {a d : Dev} {x : Except Nat Dev} :
    (if c.sig.isSome then .ok a else x) = .ok d ↔ (c.sig ≠ none → d = a) ∧ (c.sig = none → x = .ok d) := by
  cases c.sig <;> simp [eq_comm]

theorem finishUnit_ok_iff {c : Core} {x u : Nat} {grans accs : List Nat} {a d : Dev} :
    finishUnit c x u grans accs a = .ok d ↔ d = issueUnit a c x u grans accs := by
  simp [finishUnit, eq_comm]

/-- A descriptor that takes its tiles from accumulators reads nothing. -/
theorem read_unless {fromAcc : Bool} {a : Dev} {r : Except Nat (List Byte × Dev)} {b : List Byte × Dev}
    (h : (if fromAcc then .ok ([], a) else r) = .ok b) : (fromAcc = true → b = ([], a)) ∧ (fromAcc = false → r = .ok b) := by
  cases fromAcc with
  | true => exact ⟨fun _ => (Except.ok.inj h).symm, by simp⟩
  | false => exact ⟨by simp, fun _ => h⟩

/-! ### The command of a descriptor -/

/-- A false condition moves the core on, whatever the descriptor is (07 R143). -/
theorem runDesc_of_false_condition {op n : Nat} {body : Core → Nat → Dev → Except Nat Dev} {c : Core} {d : Dev} (hc : findCore d n = some c)
    (hend : c.ended = false) (hwait : c.wait = 0) (hop : df (coreDesc c) 0 1 = op) (hcond : condHolds c (coreDesc c) = false) :
    runDesc op n body d = updCore d n (fun y => goTo d y (y.pc + 1)) := by
  simp [runDesc, hc, hend, hwait, hop, hcond, stepPc]

end Sys2Proof.CoreDescriptors
end

section
/-!
The control descriptors (07 R143, R148, R149, R151, R152): each one's body, one lemma for each, with the guard that it waits behind.
-/

namespace Sys2Proof.ControlDescriptors

open Sys2Proof.Machine Sys2Proof.CoreDescriptors

/-- A descriptor that a waiting signal alone holds back (07 R148). -/
theorem behindSignal_ok {c : Core} {a b d : Dev} (h : (if c.sig.isSome then .ok a else .ok b : Except Nat Dev) = .ok d) :
    (c.sig ≠ none → d = a) ∧ (c.sig = none → d = b) := by
  obtain ⟨hwaits, hgoes⟩ := behindSignal_iff.1 h
  exact ⟨hwaits, fun hs => (Except.ok.inj (hgoes hs)).symm⟩

/-! ### Loops (07 R149) -/

theorem loopBeginDesc_ok {c : Core} {x : Nat} {a d : Dev} (h : loopBeginDesc c x a = .ok d) : ∃ n go,
    n = (if df x 9 1 = 0 then df x 12 4 else fieldAt c.prm (df x 12 4) (prmWidth (df x 12 4))) ∧ n ≤ 65536 ∧
    (0 < n → go = c.pc + 1) ∧ (n = 0 → ∀ k, coreKernel a c = some k → go = loopEndFrom (k.descs.drop (c.pc + 1)) 0 (c.pc + 1)) ∧
    (coreKernel a c = none → go = c.pc + 1) ∧
    d = updCore a c.num (fun y => goTo a { setDone y (doneFlag x) with
      loops := { counter := df x 8 1 % 4, index := 0, count := n, body := c.pc + 1 } :: y.loops, idx := setNth y.idx (df x 8 1 % 4) 0 } go) := by
  obtain ⟨hcount, h⟩ := fault_ite_iff.1 h
  refine ⟨_, _, rfl, Nat.not_lt.1 hcount, fun hpos => ?_, fun hzero k hk => ?_, fun hk => ?_, (Except.ok.inj h).symm⟩
  · split
    · exact if_neg (Nat.pos_iff_ne_zero.1 hpos)
    · rfl
  · simp only [hk]
    exact if_pos hzero
  · simp only [hk]

theorem loopEndDesc_ok {c : Core} {x : Nat} {a d : Dev} (h : loopEndDesc c x a = .ok d) :
    (c.loops = [] → d = updCore a c.num (fun y => goTo a (setDone y (doneFlag x)) (y.pc + 1))) ∧
    ∀ l ls, c.loops = l :: ls →
      (l.index + 1 < l.count → d = updCore a c.num (fun y => goTo a { setDone y (doneFlag x) with
        loops := { l with index := l.index + 1 } :: ls, idx := setNth y.idx l.counter (l.index + 1) } l.body)) ∧
      (l.count ≤ l.index + 1 → d = updCore a c.num (fun y => goTo a { setDone y (doneFlag x) with loops := ls } (y.pc + 1))) := by
  unfold loopEndDesc at h
  refine ⟨fun hnil => ?_, fun l ls hcons => ?_⟩
  · rw [hnil] at h
    exact (Except.ok.inj h).symm
  · rw [hcons] at h
    refine ⟨fun hmore => ?_, fun hlast => ?_⟩
    · simp only [hmore, if_true] at h
      exact (Except.ok.inj h).symm
    · simp only [Nat.not_lt.2 hlast, if_false] at h
      exact (Except.ok.inj h).symm

/-! ### Flags -/

theorem flagDesc_ok {c : Core} {x : Nat} {a d : Dev} (h : flagDesc c x a = .ok d) : (c.sig ≠ none → d = a) ∧ (c.sig = none →
    ∃ (f : Nat × Dev) (fl : Nat),
      let st := df x 8 8 % 2 ^ 56
      let cl := df x 16 8 % 2 ^ 56
      (st &&& cl = 0 → f = (0, a)) ∧ (st &&& cl ≠ 0 → f = drawNat a) ∧
      fl = sumNat ((List.range 64).map (fun k =>
        if (if bitSet (st &&& cl) k then bitSet f.1 k else if bitSet st k then true else if bitSet cl k then false else bitSet c.flags k) then 2 ^ k else 0)) ∧
      d = updCore (updCore f.2 c.num (fun y => { y with flags := fl })) c.num
        (fun y => goTo (updCore f.2 c.num (fun y => { y with flags := fl })) (setDone y (doneFlag x)) (y.pc + 1))) := by
  obtain ⟨hwaits, hgoes⟩ := behindSignal_iff.1 h
  exact ⟨hwaits, fun hs => ⟨if df x 8 8 % 2 ^ 56 &&& df x 16 8 % 2 ^ 56 = 0 then (0, a) else drawNat a, _,
    fun hz => if_pos hz, fun hz => if_neg hz, rfl, (Except.ok.inj (hgoes hs)).symm⟩⟩

/-- What FLAG_WAIT waits for: in mode 0 every flag of its mask, in mode 1 any of them. -/
theorem flagWaitDesc_ok {c : Core} {x : Nat} {a d : Dev} (h : flagWaitDesc c x a = .ok d) :
    let met := if df x 16 1 = 0 then c.flags &&& df x 8 8 = df x 8 8 else c.flags &&& df x 8 8 ≠ 0
    (c.sig = none → met → d = updCore a c.num (fun y => goTo a (setDone y (doneFlag x)) (y.pc + 1))) ∧ ((c.sig ≠ none ∨ ¬met) → d = a) := by
  intro met
  have hmet : (if df x 16 1 = 0 then c.flags &&& df x 8 8 == df x 8 8 else c.flags &&& df x 8 8 != 0) = true ↔ met := by
    by_cases hmode : df x 16 1 = 0 <;> simp [met, hmode]
  simp only [flagWaitDesc, Bool.or_eq_true, Bool.not_eq_true', ← Bool.not_eq_true, hmet, Option.isSome_iff_ne_none] at h
  refine ⟨fun hs hm => ?_, fun hw => ?_⟩
  · rw [if_neg (by simp [hs, hm])] at h
    exact (Except.ok.inj h).symm
  · rw [if_pos hw] at h
    exact (Except.ok.inj h).symm

/-! ### Semaphores and broadcasts (07 R148, R151) -/

theorem semWaitDesc_ok {c : Core} {x : Nat} {a d : Dev} (h : semWaitDesc c x a = .ok d) : (c.sig ≠ none → d = a) ∧ (c.sig = none →
    let m := semOf a c (df x 8 1)
    (m.waiters = [] → df x 12 2 ≤ m.count →
      let b := putSem a c { m with count := m.count - df x 12 2 }
      d = updCore b c.num (fun y => goTo b (setDone y (doneFlag x)) (y.pc + 1))) ∧
    ((m.waiters ≠ [] ∨ m.count < df x 12 2) →
      d = updCore (putSem a c { m with waiters := m.waiters ++ [(c.num, df x 12 2)] }) c.num (fun y => { y with wait := 1 }))) := by
  obtain ⟨hwaits, hgoes⟩ := behindSignal_iff.1 h
  refine ⟨hwaits, fun hs => ?_⟩
  replace h := hgoes hs
  simp only [Bool.and_eq_true, List.isEmpty_iff, decide_eq_true_eq] at h
  refine ⟨fun hfree hcount => ?_, fun hheld => ?_⟩
  · rw [if_pos ⟨hfree, hcount⟩] at h
    exact (Except.ok.inj h).symm
  · rw [if_neg (by rw [not_and_or, Nat.not_le]; exact hheld)] at h
    exact (Except.ok.inj h).symm

/-! ### Barriers (07 R152) -/

/-- A barrier holds a main core, and a channel core passes it. -/
theorem barrier_ok {c : Core} {a passed held d : Dev}
    (h : (if c.sig.isSome then .ok a else if isChannelCore c then .ok passed else .ok held : Except Nat Dev) = .ok d) :
    (c.sig ≠ none → d = a) ∧ (c.sig = none → isChannelCore c = true → d = passed) ∧ (c.sig = none → isChannelCore c = false → d = held) := by
  obtain ⟨hwaits, hgoes⟩ := behindSignal_iff.1 h
  refine ⟨hwaits, fun hs hchannel => ?_, fun hs hmain => ?_⟩
  · simpa [hchannel, eq_comm] using hgoes hs
  · simpa [hmain, eq_comm] using hgoes hs

/-- Settles O56: each descriptor's command runs its body, and a body that meets no fault is as the lemmas above say; a NOP whose condition is false
only moves on. -/
theorem controlDescriptorsComplete : Obligations.ControlDescriptorsComplete := by
  unfold Obligations.ControlDescriptorsComplete
  refine ⟨descDoes_of (fun _ _ => rfl) fun _ _ _ _ h => (Except.ok.inj h).symm,
    descDoes_of (fun _ _ => rfl) fun _ _ _ _ h => (Except.ok.inj h).symm,
    descDoes_of (fun _ _ => rfl) fun _ _ _ _ => loopBeginDesc_ok,
    descDoes_of (fun _ _ => rfl) fun _ _ _ _ => loopEndDesc_ok,
    descDoes_of (fun _ _ => rfl) fun _ _ _ _ => flagDesc_ok,
    descDoes_of (fun _ _ => rfl) fun _ _ _ _ => flagWaitDesc_ok,
    descDoes_of (fun _ _ => rfl) fun _ _ _ _ => semWaitDesc_ok,
    descDoes_of (fun _ _ => rfl) fun _ _ _ _ => behindSignal_ok,
    descDoes_of (fun _ _ => rfl) fun _ _ _ _ => behindSignal_ok,
    descDoes_of (fun _ _ => rfl) fun _ _ _ _ => barrier_ok,
    descDoes_of (fun _ _ => rfl) fun _ _ _ _ => barrier_ok,
    descDoes_of (fun _ _ => rfl) fun _ _ _ _ => behindSignal_ok, ?_⟩
  intro s n c hanswers hc hend hwait hop hcond
  rw [show exec (.nop n) s = onDev (fun d => settleJobs (coreRow 0x00 n nopDesc d)) s from rfl, onDev_answers _ _ hanswers, coreRow,
    runDesc_of_false_condition hc hend hwait hop hcond]
  rfl

end Sys2Proof.ControlDescriptors
end

section
/-!
The MAC descriptors, QUANT and DEQUANT (07 R144-R147): what each leaves where its unit and its operands allow it.
-/

namespace Sys2Proof.MatrixDescriptors

open Sys2Proof.Machine Sys2Proof.CoreDescriptors

/-! ### The MAC unit -/

theorem mmDesc_ok {c : Core} {x : Nat} {a d : Dev} (h : mmDesc c x a = .ok d) :
    let n := accNum c (df x 24 1) (df x 30 1)
    let la := df x 28 2 * tileBytes (df x 25 1)
    let lb := df x 28 2 * tileBytes (df x 26 1)
    let may := mayIssue c 0 (granulesOf a c x 8 la false ++ granulesOf a c x 16 lb false) [n]
    (may = false → d = a) ∧ (may = true → ∃ b e f acc sat, readAt a c x 8 la = .ok b ∧ readAt b.2 c x 16 lb = .ok e ∧
      (acc, sat) = mmBlocks (bitSet (df x 27 1) 1) (df x 25 1) (df x 26 1) b.1 e.1 (df x 28 2)
        (if bitSet (df x 27 1) 0 then List.replicate 1024 0 else accCodes c n) ∧
      f = setAcc e.2 c.num n acc ∧ d = issueUnit (if sat then updCore f c.num (fun y => setFlag y 63) else f) c x 0 [] [n]) := by
  refine post_of_admitted h fun h => ?_
  simp only [bind_eq_ok_iff, finishUnit_ok_iff] at h
  obtain ⟨b, hb, e, he, h⟩ := h
  exact ⟨b, e, _, _, _, hb, he, rfl, rfl, h⟩

theorem accReadDesc_ok {c : Core} {x : Nat} {a d : Dev} (h : accReadDesc c x a = .ok d) :
    let g := granulesOf a c x 8 (tileBytes (df x 17 1)) true
    (mayIssue c 0 g [df x 16 1] = false → d = a) ∧ (mayIssue c 0 g [df x 16 1] = true → ∃ b,
      writeAt a c x 8 (codesBytes (df x 17 1) ((accCodes c (df x 16 1)).map (accOut (df x 17 1) (df x 20 4)))) = .ok b ∧
      d = issueUnit (if bitSet (df x 18 1) 0 then setAcc b c.num (df x 16 1) (List.replicate 1024 0) else b) c x 0 g
        (if bitSet (df x 18 1) 0 then [df x 16 1] else [])) := by
  refine post_of_admitted h fun h => ?_
  simpa only [bind_eq_ok_iff, finishUnit_ok_iff] using h

theorem accWriteDesc_ok {c : Core} {x : Nat} {a d : Dev} (h : accWriteDesc c x a = .ok d) :
    let g := granulesOf a c x 8 4096 false
    (mayIssue c 0 g [df x 16 1] = false → d = a) ∧ (mayIssue c 0 g [df x 16 1] = true → ∃ b, readAt a c x 8 4096 = .ok b ∧
      d = issueUnit (setAcc b.2 c.num (df x 16 1) (elemCodes 7 b.1)) c x 0 [] [df x 16 1]) := by
  refine post_of_admitted h fun h => ?_
  simpa only [bind_eq_ok_iff, finishUnit_ok_iff] using h

/-! ### Conversions on the vector unit -/

theorem quantDesc_ok {c : Core} {x : Nat} {a d : Dev} (h : quantDesc c x a = .ok d) :
    let acc := bitSet (df x 26 1) 0
    let gs := if acc then [] else granulesOf a c x 8 (df x 40 2 * tileBytes (df x 24 1)) false
    let gd := granulesOf a c x 16 (df x 40 2 * tileBytes (df x 25 1)) true
    let gw := if orefName x 32 = noName then [] else granulesOf a c x 32 4 true
    let may := mayIssue c 1 (gs ++ gd ++ gw) (if acc then (List.range (df x 40 2)).map (fun i => (df x 8 1 % 16 + i) % 16) else [])
    (may = false → d = a) ∧ (may = true → ∃ (b : List Byte × Dev) (e f : Dev), (acc = true → b = ([], a)) ∧
      (acc = false → readAt a c x 8 (df x 40 2 * tileBytes (df x 24 1)) = .ok b) ∧
      writeAt b.2 c x 16 (convertTiles (df x 25 1) (df x 28 4)
        ((List.range (df x 40 2)).map (fun i => srcTile c acc (df x 8 1 % 16) (df x 24 1) i b.1))).1 = .ok e ∧
      (orefName x 32 = noName → f = e) ∧
      (orefName x 32 ≠ noName → ∃ n, readAt e c x 32 4 = .ok n ∧ writeAt n.2 c x 32 (natLe ((leNat n.1 + (convertTiles (df x 25 1) (df x 28 4)
        ((List.range (df x 40 2)).map (fun i => srcTile c acc (df x 8 1 % 16) (df x 24 1) i b.1))).2) % 2 ^ 32) 4) = .ok f) ∧
      d = issueUnit f c x 1 (gd ++ gw) []) := by
  refine post_of_admitted h fun h => ?_
  obtain ⟨b, hb, h⟩ := ite_bind_eq_ok_iff.1 h
  obtain ⟨e, he, h⟩ := bind_eq_ok_iff.1 h
  obtain ⟨hacc, hread⟩ := read_unless hb
  rcases eq_or_ne (orefName x 32) noName with hnone | hsome
  · refine ⟨b, e, e, hacc, hread, he, fun _ => rfl, fun hsome => absurd hnone hsome, ?_⟩
    simpa only [hnone, if_true, bind_eq_ok_iff, finishUnit_ok_iff, Except.ok.injEq, exists_eq_left'] using h
  · simp only [hsome, if_false, bind_eq_ok_iff, finishUnit_ok_iff] at h
    obtain ⟨n, hn, f, hf, h⟩ := h
    refine ⟨b, e, f, hacc, hread, he, fun hnone => absurd hnone hsome, fun _ => ⟨n, hn, hf⟩, ?_⟩
    simpa only [hsome, if_false] using h

theorem dequantDesc_ok {c : Core} {x : Nat} {a d : Dev} (h : dequantDesc c x a = .ok d) :
    let gd := granulesOf a c x 16 (df x 40 2 * tileBytes (df x 25 1)) true
    let may := mayIssue c 1 (granulesOf a c x 8 (df x 40 2 * tileBytes (df x 24 1)) false ++ gd) []
    (may = false → d = a) ∧ (may = true → ∃ b e, readAt a c x 8 (df x 40 2 * tileBytes (df x 24 1)) = .ok b ∧
      writeAt b.2 c x 16 (convertTiles (df x 25 1) (df x 28 4) ((List.range (df x 40 2)).map (fun i => srcTile c false 0 (df x 24 1) i b.1))).1 = .ok e ∧
      d = issueUnit e c x 1 gd []) := by
  refine post_of_admitted h fun h => ?_
  simp only [bind_eq_ok_iff, finishUnit_ok_iff] at h
  obtain ⟨b, hb, e, he, h⟩ := h
  exact ⟨b, e, hb, he, h⟩

/-- Settles O57: each descriptor's command runs its body, and a body that meets no fault is as the lemmas above say; UNIT_DESCRIPTOR_COMPLETE is
`unitComplete` and then `settleJobs`. -/
theorem matrixDescriptorsComplete : Obligations.MatrixDescriptorsComplete := by
  unfold Obligations.MatrixDescriptorsComplete
  exact ⟨descDoes_of (fun _ _ => rfl) fun _ _ _ _ => mmDesc_ok,
    descDoes_of (fun _ _ => rfl) fun _ _ _ _ => accReadDesc_ok,
    descDoes_of (fun _ _ => rfl) fun _ _ _ _ => accWriteDesc_ok,
    descDoes_of (fun _ _ => rfl) fun _ _ _ _ => quantDesc_ok,
    descDoes_of (fun _ _ => rfl) fun _ _ _ _ => dequantDesc_ok,
    fun n u => does_of (fun d => settleJobs (unitComplete n u d)) (fun _ => rfl) fun _ _ _ => rfl⟩

end Sys2Proof.MatrixDescriptors
end

section
/-!
The vector descriptors (07 R145-R147; 06 R121, R127, R128): what each leaves where the vector unit and its operands allow it.
-/

namespace Sys2Proof.VectorDescriptors

open Sys2Proof.Machine Sys2Proof.CoreDescriptors

theorem vopDesc_ok {c : Core} {x : Nat} {a d : Dev} (h : vopDesc c x a = .ok d) :
    let fmt := df x 41 1
    let op := df x 40 1
    let t := df x 44 2
    let accA := bitSet (df x 46 1) 0
    let accD := bitSet (df x 46 1) 1
    let ga := if accA then [] else granulesOf a c x 16 (t * tileBytes fmt) false
    let gb := if vopUsesB op && df x 42 1 ≠ 4 then granulesOf a c x 24 (bcastCount (df x 42 1) t * (tileBits fmt / 8)) false else []
    let gc := if vopUsesC op && df x 43 1 ≠ 4 then granulesOf a c x 32 (bcastCount (df x 43 1) t * (tileBits fmt / 8)) false else []
    let gd := if accD then [] else granulesOf a c x 8 (t * tileBytes fmt) true
    let na := if accA then (List.range t).map (fun i => (df x 16 1 % 16 + i) % 16) else []
    let nd := if accD then (List.range t).map (fun i => (df x 8 1 % 16 + i) % 16) else []
    (mayIssue c 1 (ga ++ gb ++ gc ++ gd) (na ++ nd) = false → d = a) ∧
    (mayIssue c 1 (ga ++ gb ++ gc ++ gd) (na ++ nd) = true → ∃ (p q r : List Nat × Dev) (out : List Nat),
      (accA = true → p = ((List.range t).flatMap (fun i => (accCodes c (df x 16 1 % 16 + i)).map (accIn fmt)), a)) ∧
      (accA = false → ∃ b, readAt a c x 16 (t * tileBytes fmt) = .ok b ∧ p = (elemCodes fmt b.1, b.2)) ∧
      readBcast (vopUsesB op) (df x 42 1) t fmt 24 c x p.2 = .ok q ∧ readBcast (vopUsesC op) (df x 43 1) t fmt 32 c x q.2 = .ok r ∧
      out = ((List.range (1024 * t)).zip p.1).map (fun e => vopCode fmt op e.2 (bcastAt (df x 42 1) (immCode fmt (df x 48 4)) q.1 e.1)
        (bcastAt (df x 43 1) (immCode fmt (df x 48 4)) r.1 e.1)) ∧
      (accD = true → d = issueUnit ((List.range t).foldl (fun b i =>
        setAcc b c.num (df x 8 1 % 16 + i) (((out.drop (1024 * i)).take 1024).map (accBack fmt))) r.2) c x 1 [] nd) ∧
      (accD = false → ∃ e, writeAt r.2 c x 8 (codesBytes fmt out) = .ok e ∧ d = issueUnit e c x 1 gd [])) := by
  refine post_of_admitted h fun h => ?_
  obtain ⟨p, hp, h⟩ := ite_bind_eq_ok_iff.1 h
  obtain ⟨q, hq, h⟩ := bind_eq_ok_iff.1 h
  obtain ⟨r, hr, h⟩ := bind_eq_ok_iff.1 h
  refine ⟨p, q, r, _, fun hacc => ?_, fun hread => ?_, hq, hr, rfl, fun haccD => ?_, fun hwrite => ?_⟩
  · simpa only [hacc, if_true, Except.ok.injEq, eq_comm] using hp
  · simp only [hread, Bool.false_eq_true, if_false] at hp
    split at hp
    next bs b hb => exact ⟨(bs, b), hb, (Except.ok.inj hp).symm⟩
    next => cases hp
  · simpa only [haccD, if_true, finishUnit_ok_iff] using h
  · simpa only [hwrite, Bool.false_eq_true, if_false, bind_eq_ok_iff, finishUnit_ok_iff] using h

theorem vredDesc_ok {c : Core} {x : Nat} {a d : Dev} (h : vredDesc c x a = .ok d) :
    let acc := bitSet (df x 29 1) 0
    let gs := if acc then [] else granulesOf a c x 16 (df x 26 2 * tileBytes (df x 28 1)) false
    let gd := granulesOf a c x 8 128 true
    let may := mayIssue c 1 (gs ++ gd) (if acc then (List.range (df x 26 2)).map (fun i => (df x 16 1 % 16 + i) % 16) else [])
    (may = false → d = a) ∧ (may = true → ∃ (b : List Byte × Dev) (e : Dev), (acc = true → b = ([], a)) ∧
      (acc = false → readAt a c x 16 (df x 26 2 * tileBytes (df x 28 1)) = .ok b) ∧
      writeAt b.2 c x 8 ((List.range 32).flatMap (fun i => natLe (vredOne (df x 24 1)
        (((List.range (df x 26 2)).map (fun t => (srcTile c acc (df x 16 1 % 16) (df x 28 1) t b.1).map enc32)).flatMap (fun v =>
          (List.range 32).map (fun k => if df x 25 1 = 0 then at2 v i k 0 else at2 v k i 0)))) 4)) = .ok e ∧
      d = issueUnit e c x 1 gd []) := by
  refine post_of_admitted h fun h => ?_
  obtain ⟨b, hb, h⟩ := ite_bind_eq_ok_iff.1 h
  obtain ⟨hacc, hread⟩ := read_unless hb
  simp only [bind_eq_ok_iff, finishUnit_ok_iff] at h
  obtain ⟨e, he, h⟩ := h
  exact ⟨b, e, hacc, hread, he, h⟩

theorem rotateDesc_ok {c : Core} {x : Nat} {a d : Dev} (h : rotateDesc c x a = .ok d) :
    let t := ceilDiv (df x 42 2) 32
    let gs := granulesOf a c x 16 (4096 * t) false ++ granulesOf a c x 24 (2 * df x 42 2) false ++ granulesOf a c x 32 128 false
    let gd := granulesOf a c x 8 (4096 * t) true
    (mayIssue c 1 (gs ++ gd) [] = false → d = a) ∧
    (mayIssue c 1 (gs ++ gd) [] = true → ∃ b e f k, readAt a c x 16 (4096 * t) = .ok b ∧ readAt b.2 c x 24 (2 * df x 42 2) = .ok e ∧ readAt e.2 c x 32 128 = .ok f ∧
      writeAt f.2 c x 8 (codesBytes 7 ((List.range (1024 * t)).map (fun i =>
        rotated (df x 40 1) (df x 42 2) (elemCodes 7 b.1) (elemCodes 7 e.1) (elemCodes 7 f.1) (i / 32 % 32) (32 * (i / 1024) + i % 32)))) = .ok k ∧
      d = issueUnit k c x 1 gd []) := by
  refine post_of_admitted h fun h => ?_
  simp only [bind_eq_ok_iff, finishUnit_ok_iff] at h
  obtain ⟨b, hb, e, he, f, hf, k, hk, h⟩ := h
  exact ⟨b, e, f, k, hb, he, hf, hk, h⟩

theorem smxPartDesc_ok {c : Core} {x : Nat} {a d : Dev} (h : smxPartDesc c x a = .ok d) :
    let accs := (List.range (df x 34 1)).map (fun i => (df x 33 1 + i) % 16)
    let g := granulesOf a c x 8 (tileBytes (df x 36 1)) true ++ (granulesOf a c x 16 128 true ++ granulesOf a c x 24 128 true)
    let may := mayIssue c 1 g (df x 32 1 % 16 :: accs)
    (may = false → d = a) ∧ (may = true → ∃ mb sb rows e f k, readAt a c x 16 128 = .ok mb ∧ readAt mb.2 c x 24 128 = .ok sb ∧
      rows = (List.range 32).map (fun i => smxRow x (coreTree a c) i (fieldAt mb.1 (4 * i) 4) (fieldAt sb.1 (4 * i) 4)
        (((accCodes c (df x 32 1 % 16)).drop (32 * i)).take 32)) ∧
      writeAt sb.2 c x 16 (rows.flatMap (fun r => natLe r.1 4)) = .ok e ∧ writeAt e c x 24 (rows.flatMap (fun r => natLe r.2.1 4)) = .ok f ∧
      writeAt f c x 8 (tileEncode (df x 36 1) (rows.flatMap (fun r => r.2.2.2.map (fun y => fvScale (f32 y) (df x 37 1))))).1 = .ok k ∧
      d = issueUnit (accs.foldl (fun z n => setAcc z c.num n (((List.range 1024).zip (accCodes c n)).map (fun y =>
        f32Mul y.2 (nth (rows.map (·.2.2.1)) (y.1 / 32) f32One)))) k) c x 1 g accs) := by
  refine post_of_admitted h fun h => ?_
  simp only [bind_eq_ok_iff, finishUnit_ok_iff] at h
  obtain ⟨mb, hmb, sb, hsb, e, he, f, hf, k, hk, h⟩ := h
  exact ⟨mb, sb, _, e, f, k, hmb, hsb, rfl, he, hf, hk, h⟩

theorem smxMergeDesc_ok {c : Core} {x : Nat} {a d : Dev} (h : smxMergeDesc c x a = .ok d) :
    let len := df x 24 2 * (8 + 4 * df x 26 2)
    let gd := granulesOf a c x 8 len true
    let may := mayIssue c 1 (gd ++ granulesOf a c x 16 len false) []
    (may = false → d = a) ∧ (may = true → ∃ b e k, readAt a c x 8 len = .ok b ∧ readAt b.2 c x 16 len = .ok e ∧
      writeAt e.2 c x 8 ((List.range (df x 24 2)).flatMap (fun i => tripleBytes (mergeTriple (tripleAt b.1 (df x 26 2) i) (tripleAt e.1 (df x 26 2) i)))) = .ok k ∧
      d = issueUnit k c x 1 gd []) := by
  refine post_of_admitted h fun h => ?_
  simp only [bind_eq_ok_iff, finishUnit_ok_iff] at h
  obtain ⟨b, hb, e, he, k, hk, h⟩ := h
  exact ⟨b, e, k, hb, he, hk, h⟩

/-- Settles O58: each descriptor's command runs its body, and a body that meets no fault is as the lemmas above say. -/
theorem vectorDescriptorsComplete : Obligations.VectorDescriptorsComplete := by
  unfold Obligations.VectorDescriptorsComplete
  exact ⟨descDoes_of (fun _ _ => rfl) fun _ _ _ _ => vopDesc_ok,
    descDoes_of (fun _ _ => rfl) fun _ _ _ _ => vredDesc_ok,
    descDoes_of (fun _ _ => rfl) fun _ _ _ _ => rotateDesc_ok,
    descDoes_of (fun _ _ => rfl) fun _ _ _ _ => smxPartDesc_ok,
    descDoes_of (fun _ _ => rfl) fun _ _ _ _ => smxMergeDesc_ok⟩

end Sys2Proof.VectorDescriptors
end

section
/-!
The movement descriptors (07 R136, R145, R147, R148; 05 R90; 08 R164-R173): what each issues where the movement unit has room, and what the
completion of an outstanding one carries out.
-/

namespace Sys2Proof.MovementDescriptors

open Sys2Proof.Machine Sys2Proof.CoreDescriptors

/-! ### Tiles -/

theorem tloadDesc_ok {bad : List Nat} {c : Core} {x : Nat} {a d : Dev} (h : tloadDesc bad c x a = .ok d) :
    (mvtRoom c = false → d = a) ∧ (mvtRoom c = true →
    let fmt := df x 34 1
    let t := df x 32 2
    (bitSet (df x 35 1) 1 = true → ∃ r w, resolve a c x 8 256 false = .ok r ∧ resolve a c x 40 4 true = .ok w ∧
      d = issueMvt (readErrors a c r.1 r.2.1 r.2.2 256 bad).1 c x [⟨r.1, r.2.2, noName, 0, 256⟩, ⟨noName, 0, w.1, w.2.2, 4⟩] none []
        (readErrors a c r.1 r.2.1 r.2.2 256 bad).2) ∧
    (bitSet (df x 35 1) 1 = false → bitSet (df x 35 1) 0 = true → ∃ r w k, resolve a c x 8 (t * tileElemBytes fmt) false = .ok r ∧
      resolve a c x 16 (t * tileBytes fmt) true = .ok w ∧ resolve a c x 24 (32 * (df x 36 2 + t)) false = .ok k ∧
      d = issueMvt (readErrors a c r.1 r.2.1 r.2.2 (t * tileElemBytes fmt) bad).1 c x
        (splitPieces fmt t w.1 w.2.2 r.1 r.2.2 k.1 k.2.2 (df x 36 2) true) none [] (readErrors a c r.1 r.2.1 r.2.2 (t * tileElemBytes fmt) bad).2) ∧
    (bitSet (df x 35 1) 1 = false → bitSet (df x 35 1) 0 = false → ∃ r w, resolve a c x 8 (t * tileBytes fmt) false = .ok r ∧
      resolve a c x 16 (t * tileBytes fmt) true = .ok w ∧
      d = issueMvt (readErrors a c r.1 r.2.1 r.2.2 (t * tileBytes fmt) bad).1 c x [⟨r.1, r.2.2, w.1, w.2.2, t * tileBytes fmt⟩] none []
        (readErrors a c r.1 r.2.1 r.2.2 (t * tileBytes fmt) bad).2)) := by
  refine post_of_admitted h fun h => ⟨fun hheader => ?_, fun hrows hsplit => ?_, fun hrows hpacked => ?_⟩
  · simp only [hheader, if_true, bind_eq_ok_iff] at h
    obtain ⟨r, hr, w, hw, h⟩ := h
    exact ⟨r, w, hr, hw, (Except.ok.inj h).symm⟩
  · simp only [hrows, hsplit, Bool.false_eq_true, if_true, if_false, bind_eq_ok_iff] at h
    obtain ⟨r, hr, w, hw, k, hk, h⟩ := h
    exact ⟨r, w, k, hr, hw, hk, (Except.ok.inj h).symm⟩
  · simp only [hrows, hpacked, Bool.false_eq_true, if_false, bind_eq_ok_iff] at h
    obtain ⟨r, hr, w, hw, h⟩ := h
    exact ⟨r, w, hr, hw, (Except.ok.inj h).symm⟩

theorem tstoreDesc_ok {bad : List Nat} {c : Core} {x : Nat} {a d : Dev} (h : tstoreDesc bad c x a = .ok d) :
    (mvtRoom c = false → d = a) ∧ (mvtRoom c = true →
    let fmt := df x 34 1
    let t := df x 32 2
    ∃ r e, resolve a c x 8 (t * tileBytes fmt) false = .ok r ∧ e = readErrors a c r.1 r.2.1 r.2.2 (t * tileBytes fmt) bad ∧
      (bitSet (df x 35 1) 0 = true → ∃ w k, resolve a c x 16 (t * tileElemBytes fmt) true = .ok w ∧ resolve a c x 24 (32 * t) true = .ok k ∧
        d = issueMvt e.1 c x (splitPieces fmt t r.1 r.2.2 w.1 w.2.2 k.1 k.2.2 0 false) none [] e.2) ∧
      (bitSet (df x 35 1) 0 = false → ∃ w, resolve a c x 16 (t * tileBytes fmt) true = .ok w ∧
        d = issueMvt e.1 c x [⟨r.1, r.2.2, w.1, w.2.2, t * tileBytes fmt⟩] none [] e.2)) := by
  refine post_of_admitted h fun h => ?_
  obtain ⟨r, hr, h⟩ := bind_eq_ok_iff.1 h
  refine ⟨r, _, hr, rfl, fun hsplit => ?_, fun hpacked => ?_⟩
  · simp only [hsplit, if_true, bind_eq_ok_iff] at h
    obtain ⟨w, hw, k, hk, h⟩ := h
    exact ⟨w, k, hw, hk, (Except.ok.inj h).symm⟩
  · simp only [hpacked, Bool.false_eq_true, if_false, bind_eq_ok_iff] at h
    obtain ⟨w, hw, h⟩ := h
    exact ⟨w, hw, (Except.ok.inj h).symm⟩

/-! ### Rows by index -/

/-- The index check of GATHER and SCATTER: every row named lies in its region (07 R145, cause 4). -/
theorem rows_in_room {room w : Nat} {idx : List Nat} (h : ¬ (idx.any (fun i => decide (room < (i + 1) * w))) = true) :
    ∀ i ∈ idx, (i + 1) * w ≤ room := by
  simpa using h

theorem gatherDesc_ok {bad : List Nat} {c : Core} {x : Nat} {a d : Dev} (h : gatherDesc false bad c x a = .ok d) :
    (mvtRoom c = false → d = a) ∧ (mvtRoom c = true →
    let w := df x 34 2 * 64
    ∃ b r t room, readAt a c x 24 (4 * df x 32 2) = .ok b ∧ resolve b.2 c x 8 0 false = .ok r ∧ resolve b.2 c x 16 (df x 32 2 * w) true = .ok t ∧
      room = nameSize b.2 c r.2.1 - r.2.2 ∧ (∀ i ∈ indexList b.1, (i + 1) * w ≤ room) ∧
      d = issueMvt (readErrors b.2 c r.1 r.2.1 r.2.2 room bad).1 c x (((List.range (df x 32 2)).zip (indexList b.1)).map (fun e =>
        ⟨r.1, r.2.2 + e.2 * w, t.1, t.2.2 + e.1 * w, w⟩)) none [] (readErrors b.2 c r.1 r.2.1 r.2.2 room bad).2) := by
  refine post_of_admitted h fun h => ?_
  simp only [Bool.false_eq_true, if_false, bind_eq_ok_iff, fault_ite_iff] at h
  obtain ⟨b, hb, r, hr, t, ht, hidx, h⟩ := h
  exact ⟨b, r, t, _, hb, hr, ht, rfl, rows_in_room hidx, (Except.ok.inj h).symm⟩

theorem scatterDesc_ok {bad : List Nat} {c : Core} {x : Nat} {a d : Dev} (h : gatherDesc true bad c x a = .ok d) :
    (mvtRoom c = false → d = a) ∧ (mvtRoom c = true →
    let w := df x 34 2 * 64
    ∃ b r t, readAt a c x 24 (4 * df x 32 2) = .ok b ∧ resolve b.2 c x 8 (df x 32 2 * w) false = .ok r ∧ resolve b.2 c x 16 0 true = .ok t ∧
      (∀ i ∈ indexList b.1, (i + 1) * w ≤ nameSize b.2 c t.2.1 - t.2.2) ∧
      d = issueMvt (readErrors b.2 c r.1 r.2.1 r.2.2 (df x 32 2 * w) bad).1 c x (((List.range (df x 32 2)).zip (indexList b.1)).map (fun e =>
        ⟨r.1, r.2.2 + e.1 * w, t.1, t.2.2 + e.2 * w, w⟩)) none [] (readErrors b.2 c r.1 r.2.1 r.2.2 (df x 32 2 * w) bad).2) := by
  refine post_of_admitted h fun h => ?_
  simp only [if_true, bind_eq_ok_iff, fault_ite_iff] at h
  obtain ⟨b, hb, r, hr, t, ht, hidx, h⟩ := h
  exact ⟨b, r, t, hb, hr, ht, rows_in_room hidx, (Except.ok.inj h).symm⟩

theorem fillDesc_ok {c : Core} {x : Nat} {a d : Dev} (h : fillDesc c x a = .ok d) : (mvtRoom c = false → d = a) ∧ (mvtRoom c = true →
    ∃ r, resolve a c x 8 (df x 20 2 * 64) true = .ok r ∧ d = issueMvt a c x [⟨srcFill, 0, r.1, r.2.2, df x 20 2 * 64⟩] none [] false) := by
  refine post_of_admitted h fun h => ?_
  obtain ⟨r, hr, h⟩ := bind_eq_ok_iff.1 h
  exact ⟨r, hr, (Except.ok.inj h).symm⟩

/-! ### Partial records, rows for the append unit, near-bank operations -/

/-- The piece of a record that brings its outputs: none where they come from accumulators. -/
theorem outputPiece_of {own : Bool} {r : Except Nat (Nat × KName × Nat)} {piece : Nat × KName × Nat → Piece} {o : List Piece}
    (h : (if own then .ok [] else r.map (fun y => [piece y])) = Except.ok o) :
    (own = true → o = []) ∧ (own = false → ∃ y, r = .ok y ∧ o = [piece y]) := by
  cases own with
  | true => exact ⟨fun _ => (Except.ok.inj h).symm, by simp⟩
  | false =>
    refine ⟨by simp, fun _ => ?_⟩
    cases r with
    | error e => cases h
    | ok y => exact ⟨y, rfl, (Except.ok.inj h).symm⟩

theorem partEmitDesc_ok {c : Core} {x : Nat} {a d : Dev} (h : partEmitDesc c x a = .ok d) : (mvtRoom c = false → d = a) ∧ (mvtRoom c = true →
    let n := 4 * df x 48 2 * df x 50 2
    let ents := df x 48 2 * (recordHeads c x).2
    let own := orefName x 32 == noName
    ∃ (t m s k : Nat × KName × Nat) (o : List Piece) (rec : PartRec),
      resolve a c x 8 (32 + ents * (8 + 4 * df x 52 2)) false = .ok t ∧ resolve a c x 16 n false = .ok m ∧ resolve a c x 24 n false = .ok s ∧
      resolve a c x 40 4 false = .ok k ∧ (own = true → o = []) ∧
      (own = false → ∃ r, resolve a c x 32 (n * df x 52 2) false = .ok r ∧ o = [⟨r.1, r.2.2, noName, 0, n * df x 52 2⟩]) ∧
      rec = { job := c.job, row := c.row, item := c.item, run := c.run, check := 0, queries := df x 48 2, heads := (recordHeads c x).2, vdim := df x 52 2
              kind := df x 54 1, firstQuery := fieldAt c.prm 14 2, firstHead := (recordHeads c x).1, phrases := fieldAt c.prm 36 2
              poisoned := match (findJob a c.job).bind (fun j => (jobRow j c.row).bind (fun r => rowItem r c.item)) with
                | some w => w.refetch
                | none => false
              entries := (List.range ents).map (fun i =>
                ⟨0, 0, if own then (List.range (df x 52 2)).map (accElem c (df x 55 1) (entryRow c x i)) else []⟩) } ∧
      d = issueMvt a c x ([⟨m.1, m.2.2, noName, 0, n⟩, ⟨s.1, s.2.2, noName, 0, n⟩, ⟨k.1, k.2.2, noName, 0, 4⟩] ++ o) (some rec) [] false) := by
  refine post_of_admitted h fun h => ?_
  obtain ⟨t, ht, h⟩ := bind_eq_ok_iff.1 h
  obtain ⟨m, hm, h⟩ := bind_eq_ok_iff.1 h
  obtain ⟨s, hs, h⟩ := bind_eq_ok_iff.1 h
  obtain ⟨o, ho, h⟩ := ite_bind_eq_ok_iff.1 h
  obtain ⟨k, hk, h⟩ := bind_eq_ok_iff.1 h
  obtain ⟨hacc, hread⟩ := outputPiece_of ho
  exact ⟨t, m, s, k, o, _, ht, hm, hs, hk, hacc, hread, rfl, (Except.ok.inj h).symm⟩

theorem appendRowsDesc_ok {c : Core} {x : Nat} {a d : Dev} (h : appendRowsDesc c x a = .ok d) :
    (mvtRoom c = false → d = a) ∧ (mvtRoom c = true → isChannelCore c = false ∧
    (∀ j l r, findJob a c.job = some j → coreLayer a c = some l → jobRow j c.row = some r → df x 20 4 + df x 18 2 ≤ r.qcount ∧
      ∃ t, resolve a c x 8 (df x 18 2 * appendWidth l x * appendElem x) false = .ok t ∧
        d = issueMvt a c x [⟨t.1, t.2.2, noName, 0, df x 18 2 * appendWidth l x * appendElem x⟩] none [] false)) := by
  refine post_of_admitted h fun h => ?_
  obtain ⟨hmain, h⟩ := fault_ite_iff.1 h
  refine ⟨Bool.not_eq_true _ ▸ hmain, fun j l r hj hl hr => ?_⟩
  simp only [hj, hl, hr, fault_ite_iff] at h
  obtain ⟨hrange, h⟩ := h
  obtain ⟨t, ht, h⟩ := bind_eq_ok_iff.1 h
  simp only [Bool.or_eq_true, decide_eq_true_eq, not_or, Nat.not_lt] at hrange
  exact ⟨hrange.1, t, ht, (Except.ok.inj h).symm⟩

theorem nbIssueDesc_ok {c : Core} {x : Nat} {a d : Dev} (h : nbIssueDesc c x a = .ok d) :
    (mvtRoom c = false → d = a) ∧ (mvtRoom c = true → isChannelCore c = false ∧
    ∃ (k : Nat × KName × Nat) (nb : List Byte × Dev) (y : Nat) (s t p q v e : Nat × Nat),
      resolve a c x 8 64 false = .ok k ∧ readAt a c x 8 64 = .ok nb ∧ y = leNat nb.1 ∧ nbOk y = true ∧
      nbArg nb.2 c y 16 (nbBytes y) false = .ok s ∧ nbArg nb.2 c y 24 (nbBytes y) true = .ok t ∧ nbArg nb.2 c y 32 (nbScalars y) false = .ok p ∧
      nbArg nb.2 c y 40 (nbScalars y) false = .ok q ∧ nbArg nb.2 c y 48 (nbVectors y) false = .ok v ∧ nbArg nb.2 c y 56 4 true = .ok e ∧
      d = issueMvt nb.2 c (x + y * 2 ^ 512) [⟨s.1, s.2, t.1, t.2, nbBytes y⟩, ⟨p.1, p.2, noName, 0, nbScalars y⟩, ⟨q.1, q.2, noName, 0, nbScalars y⟩,
        ⟨v.1, v.2, noName, 0, nbVectors y⟩, ⟨k.1, k.2.2, noName, 0, 64⟩, ⟨noName, 0, e.1, e.2, 4⟩] none [s, t, p, q, v, e] false) := by
  refine post_of_admitted h fun h => ?_
  obtain ⟨hmain, h⟩ := fault_ite_iff.1 h
  simp only [bind_eq_ok_iff, fault_ite_iff] at h
  obtain ⟨k, hk, nb, hnb, hok, s, hs, t, ht, p, hp, q, hq, v, hv, e, he, h⟩ := h
  exact ⟨Bool.not_eq_true _ ▸ hmain, k, nb, _, s, t, p, q, v, e, hk, hnb, rfl, by simpa using hok, hs, ht, hp, hq, hv, he,
    (Except.ok.inj h).symm⟩

/-! ### MOVEMENT_COMPLETE (07 R148): four ways in which the last byte arrives -/

section
variable {c : Core} {m : Mvt} {a : Dev}

theorem carryOut_of_append (hop : df m.desc 0 1 = 0x58) : carryOut c m a = appendArrive c m a := if_pos hop

variable (hop : df m.desc 0 1 ≠ 0x58)
include hop

theorem carryOut_of_record {r : PartRec} (hr : m.record = some r) : carryOut c m a =
    { (finishRecord c m r a).2 with arr.records := (finishRecord c m r a).2.arr.records ++ [(finishRecord c m r a).1] } := by
  simp [carryOut, hop, hr]

variable (hr : m.record = none)
include hr

theorem carryOut_of_header {p q : Piece} (hpieces : m.pieces = [p, q]) (hp : p.dstName = noName) (hq : q.srcName = noName) :
    carryOut c m a = doHeader c m p q a := by
  simp [carryOut, hop, hr, hpieces, hp, hq]

theorem carryOut_of_pieces (hpieces : ∀ p q, m.pieces = [p, q] → p.dstName ≠ noName ∨ q.srcName ≠ noName) :
    carryOut c m a = m.pieces.foldl (doPiece c m) a := by
  simp only [carryOut, hop, hr, if_false]
  split
  next p q hpq =>
    have hbrings := hpieces p q hpq
    rw [if_neg (by simpa [imp_iff_not_or] using hbrings)]
  next => rfl

end

theorem movementComplete_of_found {n i : Nat} {c : Core} {m : Mvt} {a : Dev} (hc : findCore a n = some c)
    (hm : c.mvts.find? (fun m => m.id == i && df m.desc 0 1 != 0x5C) = some m) : movementComplete n i a = dropMvt (carryOut c m a) n m := by
  simp only [movementComplete, hc, hm]

/-- The end of a near-bank operation: its result, its poison, its error count, and the damage to its row (08 R167, R173). -/
theorem nbComplete_of_found {n i : Nat} {bad : List Nat} {c : Core} {m : Mvt} {a : Dev} (hc : findCore a n = some c)
    (hm : c.mvts.find? (fun m => m.id == i && df m.desc 0 1 == 0x5C) = some m) : nbComplete n i bad a =
    let h := nbHits a c m bad
    let w := nbPoison (nbPut c m (nbOperand m 1) (nbResult c m a).1 (nbResult c m a).2) c (nbOperand m 1) h
    dropMvt (nbDamage (nbCount c m a (nbError c m h.length w)) c m (nbAddr a c (nbOperand m 1)).1 h.length) n m := by
  simp only [nbComplete, hc, hm]

/-- Settles O59: each descriptor's command runs its body, and a body that meets no fault is as the lemmas above say; a completion carries out the
movement that it finds, drops it from its core, and then settles the signal that waited for it. -/
theorem movementDescriptorsComplete : Obligations.MovementDescriptorsComplete := by
  unfold Obligations.MovementDescriptorsComplete
  refine ⟨fun bad => descDoes_of (fun _ _ => rfl) fun _ _ _ _ => tloadDesc_ok,
    fun bad => descDoes_of (fun _ _ => rfl) fun _ _ _ _ => tstoreDesc_ok,
    fun bad => descDoes_of (fun _ _ => rfl) fun _ _ _ _ => gatherDesc_ok,
    fun bad => descDoes_of (fun _ _ => rfl) fun _ _ _ _ => scatterDesc_ok,
    descDoes_of (fun _ _ => rfl) fun _ _ _ _ => fillDesc_ok,
    descDoes_of (fun _ _ => rfl) fun _ _ _ _ => partEmitDesc_ok,
    descDoes_of (fun _ _ => rfl) fun _ _ _ _ => appendRowsDesc_ok,
    descDoes_of (fun _ _ => rfl) fun _ _ _ _ => nbIssueDesc_ok,
    fun n i c m => does_of (fun d => settleJobs (settleSignal n (movementComplete n i d))) (fun _ => rfl) fun a _ ⟨hc, hm⟩ =>
      ⟨carryOut c m a, fun hop => carryOut_of_append hop, fun _ hop hr => carryOut_of_record hop hr,
        fun _ _ hop hr => carryOut_of_header hop hr, fun hop hr => carryOut_of_pieces hop hr,
        congrArg (fun d => settleJobs (settleSignal n d)) (movementComplete_of_found hc hm)⟩,
    fun n i bad c m => does_of (fun d => settleJobs (settleSignal n (nbComplete n i bad d))) (fun _ => rfl) fun a _ ⟨hc, hm⟩ =>
      congrArg (fun d => settleJobs (settleSignal n d)) (nbComplete_of_found hc hm)⟩

end Sys2Proof.MovementDescriptors
end

section
/-!
The end of a mover's copy (09 R178, 13 R291): MOVER_COPY_COMPLETE for a copy that is no checkpoint shard is `moverComplete`, which marks the copy, but
first counts and tells every codeword of the copy's source that flash could not read. A mark alone is therefore not all that the command does.
-/

namespace Sys2Proof.MoverCopies

open Sys2Proof.Machine

/-! ### What a mover's read of flash keeps, and what it counts -/

theorem tellUnread_uncorrectable (x : FPage) (d : Dev) (cw : Nat) :
    (tellUnread x d cw).flash.health.uncorrectable = satAdd d.flash.health.uncorrectable 1 :=
  congrArg (·.health.uncorrectable) (raiseDev_sameBut _ 0x0814 _).flash

theorem tellUnread_kv (x : FPage) (d : Dev) (cw : Nat) : (tellUnread x d cw).kv = d.kv := (raiseDev_sameBut _ 0x0814 _).kv

theorem tellPage_kv (p : Nat) (d : Dev) (lpn : Nat) : (tellPage p d lpn).kv = d.kv := by
  unfold tellPage
  split
  · exact EventHistory.foldl_keeps (tellUnread_kv _) _ d
  · rfl

theorem tellRun_kv (d : Dev) (p lpn n : Nat) : (tellRun d p lpn n).kv = d.kv := EventHistory.foldl_keeps (tellPage_kv p) _ d

theorem tellMover_kv (d : Dev) (w : Mover) : (tellMover d w).kv = d.kv := by
  unfold tellMover
  split
  case h_1 =>
    split
    · split
      · rfl
      · split
        · exact tellRun_kv ..
        · rfl
    · rfl
  case h_2 =>
    refine EventHistory.foldl_keeps (fun a o => ?_) _ d
    split
    · split
      · split
        · exact tellRun_kv ..
        · rfl
      · rfl
    · rfl
  case h_3 => rfl

/-! ### The end of a copy -/

/-- No copy of that number is a checkpoint shard. -/
def NoShard (d : Dev) (id : Nat) : Prop := ∀ w ∈ d.kv.movers, w.id = id → ∀ k n, w.what ≠ .shard k n

/-- The movers after the end of a copy are those before it, some of them marked. -/
theorem noShard_moverComplete {d : Dev} {id : Nat} (h : NoShard d id) (ok : Bool) : NoShard (moverComplete id ok d) id := by
  intro w hw hid
  unfold moverComplete updWhere at hw
  simp only [EventHistory.foldl_keeps (p := Dev.kv) tellMover_kv, List.mem_map] at hw
  obtain ⟨y, hy, rfl⟩ := hw
  split
  next hthis =>
    rw [if_pos hthis] at hid
    exact h y hy hid
  next hother =>
    rw [if_neg hother] at hid
    exact h y hy hid

theorem moverRow_of_noShard {d : Dev} {id : Nat} (h : NoShard d id) (ok : Bool) : moverRow id ok d = moverComplete id ok d := by
  unfold moverRow
  dsimp only
  split
  next w hw =>
    split
    next k n hwhat =>
      exact absurd hwhat (noShard_moverComplete h ok w (List.mem_of_find?_eq_some hw) (by simpa using List.find?_some hw) k n)
    · rfl
  · rfl

/-! ### A copy whose source cannot be read -/

/-- A page of flash whose codeword 0 has failed every read. -/
def unreadPage : FPage :=
  { seq := 0, gpage := 0, ver := 1, kind := 1, fresh := false, reloc := false, hot := false, set := 0, bg := 0, stripe := 0, lane := 0, st := 1
    want := false, durable := true, lost := false, bad := [0], gone := 0, data := [], obj := 0 }

/-- A sealed phrase whose one copy of record is that page. -/
def flashPhrase : Phrase :=
  { part := 0, ctx := 0, id := 1, fmt := 1, kind := 0, layer := 0, firstPos := 0, count := 64, model := 0, version := 1, dimA := 32, dimB := 0
    saturated := 0, clamped := false, replaced := false, sealed := true, draft := false, creator := 2 ^ 24, rows := [], refs := 1, holds := 0
    hbm := none, ddr := false, flash := some 0, imageHolds := 0, poisonHbm := [], poisonDdr := [], hardHbm := [], hardDdr := [] }

/-- The copy of the phrase to HBM, in progress since clause 9. -/
def hbmCopy : Mover :=
  { id := 3, seq := 9, order := 2, prio := 0, promo := false, run := none, clause := some 9, what := .phrase 0 1 0, state := 0 }

/-- A READY device that copies the phrase. -/
def unreadDev : Dev :=
  { freshDev with
    boot := { freshBoot with stage := 8, inReset := false, pwrgdSeen := true, pwrgd := true, perstLow := false, bootDone := true }
    kv := { freshKv with phrases := [flashPhrase], movers := [hbmCopy] }
    flash := { freshFlash with state := 1, formatted := true, granules := 64, assigned := [(0, 0, 0)], pages := [unreadPage] } }

theorem noShard_unreadDev : NoShard unreadDev 3 := by
  intro w hw _ k n
  obtain rfl := List.mem_singleton.1 hw
  exact MoveWhat.noConfusion

theorem tellMover_unreadDev : tellMover unreadDev hbmCopy = tellUnread unreadPage unreadDev 0 := rfl

/-- The end of the copy counts the codeword that could not be read (13 R291). -/
theorem moverRow_counts_unread (ok : Bool) : (moverRow 3 ok unreadDev).flash.health.uncorrectable = 1 :=
  calc (moverRow 3 ok unreadDev).flash.health.uncorrectable
    _ = (moverComplete 3 ok unreadDev).flash.health.uncorrectable := by rw [moverRow_of_noShard noShard_unreadDev]
    _ = (tellMover unreadDev hbmCopy).flash.health.uncorrectable := rfl
    _ = satAdd unreadDev.flash.health.uncorrectable 1 := by rw [tellMover_unreadDev, tellUnread_uncorrectable]
    _ = 1 := by decide

/-- Refutes O16: of a copy that is no shard it says that MOVER_COPY_COMPLETE only marks it, but where the copy's source is a flash page that could
not be read, the command counts the codeword in UNCORRECTABLE and tells it too (13 R291), as in `unreadDev`. -/
theorem not_tierVerbsComplete : ¬ Obligations.TierVerbsComplete := by
  unfold Obligations.TierVerbsComplete
  rintro ⟨-, -, -, -, hmarks, -⟩
  obtain ⟨d, hexec, hd⟩ := hmarks 3 false { State.reset with dev := unreadDev } rfl noShard_unreadDev
  have hrow : exec (.moverCopyComplete 3 false) { State.reset with dev := unreadDev } =
      .next { State.reset with dev := moverRow 3 false unreadDev } := onDev_answers (moverRow 3 false) _ rfl
  rw [hrow] at hexec
  injection hexec with hstate
  have hdev : moverRow 3 false unreadDev = d := congrArg State.dev hstate
  have hcount : d.flash.health.uncorrectable = 1 := hdev ▸ moverRow_counts_unread false
  rw [hd] at hcount
  exact absurd hcount (by decide)

end Sys2Proof.MoverCopies
end

section
/-!
The verbs of the text engine: TOKENIZE with and without a session's stream (10 R212), the detokenizer's verbs (10 R219-R221), and the head word of a
text ring that has been read (10 R217).
-/

namespace Sys2Proof.TextVerbs

open Sys2Proof.Machine Sys2Proof.ObjectVerbs

/-! ### TOKENIZE -/

/-- A stream that has taken nothing. -/
def emptyStream : EncState := { utf := [], hold := [], cls := 0, toks := [], replaced := 0 }

/-- TOKENIZE on the device `b` ends: the tokens of `e` are written, and the completion counts them, the bytes taken and the bytes held. -/
def tokenizeEnd (v : Verb) (b : Dev) (st : Nat) (e : EncState) (used off : Nat) : Dev :=
  finish (outWrite b v (fld v 40 8) (e.toks.flatMap (fun t => natLe t 4))) v st 0xFF
    [(8, 4, e.toks.length), (12, 4, used), (16, 8, off), (24, 2, e.utf.length + e.hold.length), (28, 4, e.replaced)]

theorem tokenizeBody_ok_of_no_session {v : Verb} {a d : Dev} (hnone : fld v 16 4 = 0) (h : tokenizeBody v a = .ok d) :
    ∃ (l : Lexicon) (bs : List Byte) (st : Nat) (e : EncState) (used : Nat), findLex a (fld v 20 1) = some l ∧
      argRead a v (fld v 24 8) (fld v 32 4) = .ok bs ∧
      tokenizeChunk l.img (fld v 21 1 / 4 % 4) true emptyStream bs (fld v 36 4) = .ok (st, e, used) ∧ d = tokenizeEnd v a st e used used := by
  simp only [tokenizeBody, bind_ok, hnone, if_true] at h
  obtain ⟨-, -, -, -, h⟩ := h
  split at h
  · simp at h
  next l hl =>
    simp only [bind_ok] at h
    obtain ⟨-, -, -, -, bs, hbs, h⟩ := h
    split at h
    · simp at h
    next st e used hchunk =>
      rw [bind_ok] at h
      obtain ⟨-, -, h⟩ := h
      exact ⟨l, bs, st, e, used, hl, hbs, hchunk, (Except.ok.inj h).symm⟩

/-- With a session the chunk goes through the session's stream, from START through an empty one; ABORT takes no chunk. -/
theorem tokenizeBody_ok_of_session {v : Verb} {a d : Dev} (hsess : fld v 16 4 ≠ 0) (h : tokenizeBody v a = .ok d) :
    ∃ x l, findSess a (fld v 16 4) = some x ∧ x.tok.lex.bind (findLex a) = some l ∧ bitSet (fld v 21 1) 0 = !x.tok.tkOpen ∧
      (bitSet (fld v 21 1) 4 = true → d = tokenizeEnd v (updTok a (fld v 16 4) (fun y => encPut y emptyStream 0 false)) stOk emptyStream 0
        (if bitSet (fld v 21 1) 0 then 0 else x.tok.tkOffset)) ∧
      (bitSet (fld v 21 1) 4 = false → ∃ (p base : Nat) (bs : List Byte) (st : Nat) (e : EncState) (used : Nat) (goesOn : Bool),
        p = (if bitSet (fld v 21 1) 0 then fld v 21 1 / 4 % 4 else x.tok.tkPolicy) ∧ base = (if bitSet (fld v 21 1) 0 then 0 else x.tok.tkOffset) ∧
        argRead a v (fld v 24 8) (fld v 32 4) = .ok bs ∧
        tokenizeChunk l.img p (bitSet (fld v 21 1) 1) (if bitSet (fld v 21 1) 0 then emptyStream else encOf x.tok) bs (fld v 36 4) =
          .ok (st, e, used) ∧
        goesOn = (!(bitSet (fld v 21 1) 1 && st == stOk)) ∧
        d = tokenizeEnd v (updTok a (fld v 16 4) (fun y => { encPut y e (base + used) goesOn with tkPolicy := p, tkLex := l.id })) st
          (if goesOn then e else { e with utf := [], hold := [] }) used (base + used)) := by
  simp only [tokenizeBody, bind_ok, hsess, if_false] at h
  obtain ⟨-, -, x, hx, -, -, h⟩ := h
  split at h
  · simp at h
  next l hl =>
    rw [bind_ok] at h
    obtain ⟨_, hstart, h⟩ := h
    refine ⟨x, l, findSess_of_checkSess hx, hl, Bool.eq_not.2 (bne_iff_ne.1 (eq_true_of_need hstart)), ?_⟩
    cases habort : bitSet (fld v 21 1) 4 with
    | true =>
      rw [if_pos habort] at h
      exact ⟨fun _ => (Except.ok.inj h).symm, Bool.noConfusion⟩
    | false =>
      simp only [habort, Bool.false_eq_true, if_false, bind_ok] at h
      obtain ⟨-, -, -, -, bs, hbs, h⟩ := h
      split at h
      · simp at h
      next st e used hchunk =>
        rw [bind_ok] at h
        obtain ⟨-, -, h⟩ := h
        exact ⟨Bool.noConfusion, fun _ => ⟨_, _, bs, st, e, used, _, rfl, rfl, hbs, hchunk, rfl, (Except.ok.inj h).symm⟩⟩

/-! ### The detokenizer's verbs -/

/-- The session's text with the ring that DETOK_OPEN names, nothing of it written or read yet (10 R219). -/
def withRing (v : Verb) (t : TokSt) : TokSt :=
  { t with ringNamed := fld v 24 8 != 0, ringAddr := fld v 24 8, ringLog2 := fld v 32 1, ringPhase := true, vector := fld v 22 2
           headAddr := fld v 40 8, written := 0, headRead := 0 }

/-- An empty stream on the lexicon that DETOK_OPEN names, with its ring. -/
def openedText (v : Verb) (digest : List Byte) (t : TokSt) : TokSt :=
  { withRing v t with
    detok := 1, lex := some (fld v 20 1), lexDigest := digest, showSpecial := bitSet (fld v 21 1) 1, rawBytes := bitSet (fld v 21 1) 2
    includeStop := false, stopCount := 0, stopMax := 0, stops := [], offset := 0, seq := 0, lastPos := none, dropped := 0
    pendingRecs := [], utfHold := [], utfPos := 0, stopHold := [], blockedRaised := false, closing := false }

/-- DETOK_OPEN leaves the one or the other: with KEEP the stream goes on in the new ring, and without it the stream begins anew. -/
theorem detokOpenBody_ok {v : Verb} {a d : Dev} (h : detokOpenBody v a = .ok d) : ∃ x, findSess a (fld v 16 4) = some x ∧
    (bitSet (fld v 21 1) 0 = true → d = finishOk (textPump (updTok (forgetHead a (fld v 16 4)) (fld v 16 4) (withRing v)) (fld v 16 4)) v
      [(8, 4, 0), (12, 4, x.tok.utfHold.length + x.tok.stopHold.length)]) ∧
    (bitSet (fld v 21 1) 0 = false → ∃ digest,
      d = finishOk (updTok (forgetHead a (fld v 16 4)) (fld v 16 4) (openedText v digest)) v [(8, 4, pendingSize x.tok), (12, 4, 0)]) := by
  rw [detokOpenBody, bind_ok] at h
  obtain ⟨-, -, h⟩ := h
  rw [bind_ok] at h
  obtain ⟨x, hx, h⟩ := h
  refine ⟨x, findSess_of_checkSess hx, ?_⟩
  cases hkeep : bitSet (fld v 21 1) 0 with
  | true =>
    simp only [hkeep, Bool.not_true, Bool.false_eq_true, if_false, if_true, bind_ok] at h
    obtain ⟨-, -, -, -, h⟩ := h
    exact ⟨fun _ => (Except.ok.inj h).symm, Bool.noConfusion⟩
  | false =>
    simp only [hkeep, Bool.not_false, Bool.false_eq_true, if_false, if_true, bind_ok] at h
    obtain ⟨-, -, -, -, -, -, -, -, h⟩ := h
    exact ⟨Bool.noConfusion, fun _ => ⟨_, (Except.ok.inj h).symm⟩⟩

theorem stopSetBody_ok {v : Verb} {a d : Dev} (h : stopSetBody v a = .ok d) : ∃ x bs, findSess a (fld v 16 4) = some x ∧ x.tok.detok ≠ 0 ∧
    argRead a v (fld v 24 8) (if fld v 21 1 = 0 then 0 else 64 + 64 * fld v 21 1) = .ok bs ∧
    (let r := stopSetAcc (fld v 16 4) x.tok (stopStrings bs (fld v 21 1)) (bitSet (fld v 20 1) 0)
     d = finishOk (postRecs (updTok a (fld v 16 4) (fun y => { r.t with pendingRecs := y.pendingRecs })) (fld v 16 4) r.recs) v
      [(8, 1, ((stopStrings bs (fld v 21 1)).map List.length).foldl Nat.max 0)]) := by
  simp only [stopSetBody, bind_ok] at h
  obtain ⟨-, -, bs, hbs, -, -, x, hx, -, -, _, hopen, h⟩ := h
  split at h
  · exact ⟨x, bs, findSess_of_checkSess hx, bne_iff_ne.1 (eq_true_of_need hopen), hbs, (Except.ok.inj h).symm⟩
  · simp at h

theorem detokFlushBody_ok {v : Verb} {a d : Dev} (h : detokFlushBody v a = .ok d) : ∃ x, findSess a (fld v 16 4) = some x ∧ x.tok.detok ≠ 0 ∧
    (let r := flushAcc (fld v 16 4) x.tok
     let b := updTok a (fld v 16 4) (fun y => { r.t with pendingRecs := y.pendingRecs })
     (fld v 20 1 = 0 → d = finishOk (postRecs b (fld v 16 4) r.recs) v [(8, 4, r.emitted), (12, 4, 0)]) ∧
     (fld v 20 1 = 1 → d = finishOk (updTok a (fld v 16 4) (fun t => { t with utfHold := [], utfPos := 0, stopHold := [], detok := 1 })) v
       [(8, 4, 0), (12, 4, x.tok.utfHold.length + x.tok.stopHold.length)]) ∧
     (fld v 20 1 = 2 → d = textPump (postRecs (keepRunning { b with kv.ops := b.kv.ops ++ [.closeText v.seq (fld v 16 4) r.emitted 0] } v)
       (fld v 16 4) r.recs) (fld v 16 4))) := by
  simp only [detokFlushBody, bind_ok] at h
  obtain ⟨-, -, x, hx, -, -, _, hopen, -, -, h⟩ := h
  refine ⟨x, findSess_of_checkSess hx, bne_iff_ne.1 (eq_true_of_need hopen), ?_⟩
  split at h
  next hdrop => exact ⟨by simp [hdrop], fun _ => (Except.ok.inj h).symm, by simp [hdrop]⟩
  next hdrop =>
    rw [failSt_ite] at h
    obtain ⟨-, h⟩ := h
    split at h
    next hflush => exact ⟨fun _ => (Except.ok.inj h).symm, fun e => absurd e hdrop, by simp [hflush]⟩
    next hflush => exact ⟨fun e => absurd e hflush, fun e => absurd e hdrop, fun _ => (Except.ok.inj h).symm⟩

/-! ### The head word of a text ring -/

/-- A head that lies no further than what has been written is the ring's new head (10 R217, R218). -/
theorem headReadDone_of_written {d : Dev} {i value h : Nat} {b : BusReq} {x : Sess} (hb : d.bus.find? (fun r => r.id == i) = some b)
    (hw : b.why = .textHead h) (hx : findSess { d with bus := dropWhere (fun (r : BusReq) => r.id == i) d.bus } h = some x)
    (hring : x.tok.ringNamed = true) (hle : value % 2 ^ 64 ≤ x.tok.written) :
    headReadDone i value d = textPump (updTok { d with bus := dropWhere (fun (r : BusReq) => r.id == i) d.bus } h
      (fun t => { t with headRead := value % 2 ^ 64 })) h := by
  simp only [headReadDone, hb, hw, hx, hring, Nat.not_lt.2 hle, Bool.not_true, Bool.false_eq_true, if_false]

/-- Settles O19: each verb's command runs its body, and a body that passes its checks is as the lemmas above say; the head word goes as its equation. -/
theorem textVerbsComplete : Obligations.TextVerbsComplete := by
  unfold Obligations.TextVerbsComplete
  refine ⟨verbDoes_of (fun _ _ => rfl) fun _ _ _ h => ⟨fun hnone => tokenizeBody_ok_of_no_session hnone h,
      fun hsess => tokenizeBody_ok_of_session hsess h⟩,
    verbDoes_of (fun _ _ => rfl) fun v a d h => ?_,
    verbDoes_of (fun _ _ => rfl) fun _ _ _ => stopSetBody_ok,
    verbDoes_of (fun _ _ => rfl) fun _ _ _ => detokFlushBody_ok,
    fun i value h b x => does_of (headReadDone i value) (fun _ => rfl) fun a _ ⟨hb, hw, hx, hring, hle⟩ =>
      headReadDone_of_written hb hw hx hring hle⟩
  obtain ⟨x, hx, hkeep, hopen⟩ := detokOpenBody_ok h
  refine ⟨x, hx, ?_⟩
  cases hbit : bitSet (fld v 21 1) 0 with
  | true => exact ⟨withRing v, by simp [withRing], fun _ => ⟨by simp [withRing], hkeep hbit⟩, Bool.noConfusion⟩
  | false =>
    obtain ⟨digest, hd⟩ := hopen hbit
    exact ⟨openedText v digest, by simp [openedText, withRing], Bool.noConfusion, fun _ => ⟨by simp [openedText], hd⟩⟩

end Sys2Proof.TextVerbs
end

section
/-!
The verbs of a memory index (12 R270-R273, R276-R278): the device that each leaves where its checks pass, read off the verb's body.
-/

namespace Sys2Proof.IndexVerbs

open Sys2Proof.Machine Sys2Proof.ObjectVerbs

/-! ### Checks that pass -/

/-- The check of byte 16 passes only with the index that the byte names. -/
theorem findIndex_of_checkIndex {d : Dev} {v : Verb} {x : Index} (hc : checkIndex d v = .ok x) : findIndex d (fld v 16 1 % 64) = some x := by
  simp only [checkIndex, bind_ok] at hc
  obtain ⟨-, -, hc⟩ := hc
  split at hc
  next y hy =>
    obtain rfl := Except.ok.inj hc
    exact hy
  · simp at hc

theorem ready_of_needReady {x : Index} {u : Unit} (h : needReady x = .ok u) : x.state = 0 := by
  simpa using eq_true_of_need h

/-- What follows a check that is made in one case only is reached in both. -/
theorem ok_after_optional_check {α β : Type} {p : Prop} [Decidable p] {x : Except Fail α} {y : Except Fail β} {b : β}
    (h : (if p then x >>= fun _ => y else y) = .ok b) : y = .ok b := by
  by_cases hp : p
  · rw [if_pos hp, bind_ok] at h
    obtain ⟨-, -, h⟩ := h
    exact h
  · rwa [if_neg hp] at h

/-! ### IDX_CREATE -/

/-- What makeIndex lists: an index with the number, place and state given, no node, and neither job nor writer. -/
theorem makeIndex_eq_some {d a : Dev} {id ctx lpn tag state epoch : Nat} {ps cb : List Byte} {entry : Option Nat} {x : Index}
    (h : makeIndex d id ctx lpn tag state ps cb entry epoch = some (x, a)) :
    x.id = id ∧ x.lpn = lpn ∧ x.pages = ixPages x.params ∧ x.nodes = [] ∧ x.writer = none ∧ x.job = none ∧ x.state = state := by
  obtain ⟨b, -, hb⟩ := Option.map_eq_some_iff.1 h
  obtain ⟨rfl, -⟩ := Prod.mk.inj hb
  exact ⟨rfl, rfl, rfl, rfl, rfl, rfl, rfl⟩

/-- The job of kind `k` that a verb starts on the first `cut` entries of the side list. -/
def startedJob (v : Verb) (k cut : Nat) : IdxJob :=
  { kind := k, ring := v.ring, tag := fld v 4 4, op := v.op, cut := cut, done := 0, total := cut, merged := 0, pass := false, old := 0, sweep := 0
    stop := false, linking := none }

/-- The job that rebuilds the structures of an attached region; its total is the index's capacity. -/
def attachJob (v : Verb) (ps : List Byte) : IdxJob := { startedJob v 3 0 with total := ixCap ps }

theorem createAttach_ok {v : Verb} {a d : Dev} {c id : Nat} (h : createAttach v a c id = .ok d) :
    ∃ (x : Index) (a1 : Dev) (tag epoch : Nat) (ps cb : List Byte) (entry : Option Nat),
      readDescriptor a (ctxPart c) (fld v 24 8) = some (ps, tag, entry, epoch) ∧
      makeIndex a id c (fld v 24 8) tag 1 ps cb entry epoch = some (x, a1) ∧
      d = finish (updIndex a1 id (fun y => { y with job := some (attachJob v ps) })) v stDeferred 0xFF (createFields x) := by
  unfold createAttach at h
  dsimp only at h
  split at h
  · simp at h
  next ps tag entry epoch hdesc =>
    rw [bind_ok] at h
    obtain ⟨-, -, h⟩ := h
    split at h
    · simp at h
    next x a1 hmake => exact ⟨x, a1, tag, epoch, ps, _, entry, hdesc, hmake, (Except.ok.inj h).symm⟩

/-- The writer of a new index: it waits for the descriptor page and the codebook. -/
def createWriter (v : Verb) (x : Index) (ps : List Byte) : IdxWriter :=
  { seq := v.seq, kind := 3, lpns := rangeFrom (fld v 24 8) (1 + ixCbLpns ps), changes := [], results := [], offset := 0, status := stOk
    fields := createFields x, entry := none }

theorem createNew_ok {v : Verb} {a d : Dev} {c id : Nat} {ps cb : List Byte} (h : createNew v a c id ps cb = .ok d) :
    ∃ (x : Index) (a1 : Dev) (tag : Nat), tag ≠ 0 ∧
      makeIndex { a with draws := a.draws + 1 } id c (fld v 24 8) tag 4 ps cb none 0 = some (x, a1) ∧
      d = keepRunning (parityStep (updIndex (flashWrite (writeDescriptor a1 x) x.part (fld v 24 8 + 1) 0 (objIn 0x0A x.part id) true
        ((List.range (ixCbLpns ps)).map (fun i => padTo ((cb.drop (16384 * i)).take 16384) 16384))) id
        (fun y => { y with writer := some (createWriter v x ps) }))) v := by
  unfold createNew at h
  dsimp only at h
  split at h
  · simp at h
  next x a1 hmake => exact ⟨x, a1, _, Nat.succ_ne_zero _, hmake, (Except.ok.inj h).symm⟩

/-- The two forms of IDX_CREATE, ATTACH and NEW, under the number that has been free the longest. -/
theorem idxCreateBody_ok {v : Verb} {a d : Dev} (h : idxCreateBody v a = .ok d) : ∃ c id, longestFree a 10 (a.indexes.map (·.id)) 0 64 = some id ∧
    ((fld v 16 1 = 1 ∧ createAttach v a c id = .ok d) ∨
      (fld v 16 1 = 0 ∧ ∃ ps cb, argRead a v (fld v 32 8) 64 = .ok ps ∧ argRead a v (fld v 40 8) (1024 * ixDims ps) = .ok cb ∧
        createNew v a c id ps cb = .ok d)) := by
  simp only [idxCreateBody, bind_ok] at h
  obtain ⟨_, hfields, c, -, -, -, h⟩ := h
  split at h
  · simp at h
  next id hid =>
    refine ⟨c, id, hid, ?_⟩
    split at h
    next hform =>
      rw [bind_ok] at h
      obtain ⟨-, -, h⟩ := h
      exact .inl ⟨hform, h⟩
    next hform =>
      simp only [bind_ok] at h
      obtain ⟨ps, hps, cb, hcb, -, -, -, -, -, -, h⟩ := h
      have hlt : fld v 16 1 < 2 := of_decide_eq_true (GridSettings.fields_good_of_check4 hfields _ (.head _))
      exact .inr ⟨by omega, ps, cb, hps, hcb, h⟩

/-! ### IDX_DROP -/

theorem idxDropBody_ok {v : Verb} {a d : Dev} (h : idxDropBody v a = .ok d) : ∃ x, findIndex a (fld v 16 1 % 64) = some x ∧
    d = finishOk (dropIndex (nextRelease a) x (fld v 17 1 == 1)) v [] := by
  simp only [idxDropBody, idxDropCheck, bind_ok] at h
  obtain ⟨x, ⟨-, -, hx⟩, h⟩ := h
  exact ⟨x, findIndex_of_checkIndex hx, (Except.ok.inj h).symm⟩

/-! ### IDX_INSERT and IDX_DELETE -/

/-- The writer of an IDX_INSERT on the device `a`: a result for each item, and the entry node where the batch gives the index its first. -/
def insertWriter (a : Dev) (x : Index) (v : Verb) (bs : List Byte) : IdxWriter :=
  let is := batchItems x v bs
  let bad := is.filter (fun i => i.status != 0)
  let r := insertRun a x v bs
  { seq := v.seq, kind := 1, lpns := (r.nodes.flatMap (recordLpns x)).eraseDups, changes := r.changes, results := insertResults is
    offset := fld v 40 8, status := if bad.isEmpty then stOk else stPartial
    fields := [(8, 4, (is.filter (fun i => i.status == 0)).length), (12, 4, bad.length), (16, 4, (bad.head?.map (·.pos)).getD 0xFFFFFFFF),
      (20, 4, r.writes), (24, 4, x.epoch)]
    entry := if r.ix.entry = x.entry then none else r.ix.entry }

theorem idxInsertBody_ok {v : Verb} {a d : Dev} (h : idxInsertBody v a = .ok d) : ∃ x bs, findIndex a (fld v 16 1 % 64) = some x ∧ x.state = 0 ∧
    argRead a v (fld v 24 8) (fld v 32 8) = .ok bs ∧
    (let w := insertWriter a x v bs
     let r := insertRun a x v bs
     d = keepRunning (parityStep (updIndex (if w.entry.isSome then writeDescriptor r.dev { x with entry := w.entry } else r.dev) x.id
       (fun y => { y with writer := some w }))) v) := by
  simp only [idxInsertBody, bind_ok] at h
  obtain ⟨-, -, x, hx, _, hready, -, -, -, -, -, -, bs, hbs, -, -, h⟩ := h
  exact ⟨x, bs, findIndex_of_checkIndex hx, ready_of_needReady hready, hbs, (Except.ok.inj h).symm⟩

/-- The writer of an IDX_DELETE on the device `a`: a status for each item. -/
def deleteWriter (a : Dev) (x : Index) (v : Verb) (bs : List Byte) : IdxWriter :=
  let r := deleteRun a x v bs
  { seq := v.seq, kind := 2, lpns := (r.changes.flatMap (fun c => recordLpns x c.node)).eraseDups, changes := r.changes
    results := r.statuses.map byte, offset := fld v 32 8, status := if r.statuses.all (· == 0) then stOk else stPartial
    fields := [(8, 4, r.changes.length), (12, 4, (r.statuses.filter (· == 1)).length)], entry := none }

theorem idxDeleteBody_ok {v : Verb} {a d : Dev} (h : idxDeleteBody v a = .ok d) : ∃ x bs, findIndex a (fld v 16 1 % 64) = some x ∧ x.state = 0 ∧
    argRead a v (fld v 24 8) (8 * fld v 20 4) = .ok bs ∧
    d = keepRunning (parityStep (updIndex (deleteRun a x v bs).dev x.id (fun y => { y with writer := some (deleteWriter a x v bs) }))) v := by
  simp only [idxDeleteBody, bind_ok] at h
  obtain ⟨-, -, x, hx, _, hready, -, -, bs, hbs, -, -, h⟩ := h
  exact ⟨x, bs, findIndex_of_checkIndex hx, ready_of_needReady hready, hbs, (Except.ok.inj h).symm⟩

/-! ### IDX_SEARCH and BITMAP_LOAD -/

/-- The job and the search that an IDX_SEARCH lists, with the defaults of the fields that are 0 (12 R260, Table 12-5). -/
theorem idxSearchBody_ok {v : Verb} {a d : Dev} (h : idxSearchBody v a = .ok d) : ∃ (x : Index) (b qt : List Byte) (j : Job) (q : Search),
    areaRead (placeBlock a v) (verbArea (placeBlock a v) v) (fld v 16 8) 64 = .ok b ∧
    findIndex (placeBlock a v) (fieldAt b 0 1) = some x ∧ x.state = 0 ∧
    areaRead (placeBlock a v) (verbArea (placeBlock a v) v) (fieldAt b 24 8) (64 * fieldAt b 2 2) = .ok qt ∧
    j.kind = 2 ∧ j.seq = v.seq ∧ j.num = (placeBlock a v).arr.nextJob ∧ j.part = x.part ∧ j.desc = b ++ qt ∧ j.state = 0 ∧
    q.job = j.num ∧ q.index = fieldAt b 0 1 ∧ q.begun = false ∧ q.k = fieldAt b 4 4 ∧
    q.l = (if fieldAt b 8 4 = 0 then Nat.max q.k 64 else fieldAt b 8 4) ∧ q.w = (if fieldAt b 12 2 = 0 then 4 else fieldAt b 12 2) ∧
    q.budget = (if fieldAt b 16 4 = 0 then Nat.min (8 * q.l) 65536 else fieldAt b 16 4) ∧ q.queries.length = fieldAt b 2 2 ∧
    d = keepRunning { placeBlock a v with
      arr.jobs := (placeBlock a v).arr.jobs ++ [j], arr.nextJob := (j.num + 1) % 2 ^ 32, searches := (placeBlock a v).searches ++ [q] } v := by
  simp only [idxSearchBody, bind_ok] at h
  obtain ⟨-, -, b, hb, -, -, h⟩ := h
  split at h
  · simp at h
  next x hx =>
    simp only [bind_ok] at h
    obtain ⟨-, -, _, hready, -, -, qt, hqt, h⟩ := h
    exact ⟨x, b, qt, _, _, hb, hx, ready_of_needReady hready, hqt, rfl, rfl, rfl, rfl, rfl, rfl, rfl, rfl, rfl, rfl, rfl, rfl, rfl,
      by simp only [List.length_map, List.length_range], (Except.ok.inj h).symm⟩

theorem bitmapLoadBody_ok {v : Verb} {a d : Dev} (h : bitmapLoadBody v a = .ok d) :
    (∃ x, findIndex a (fld v 16 1 % 64) = some x ∧ x.state = 0) ∧ d = registerOp a v (.bitmap v.seq) := by
  simp only [bitmapLoadBody, bind_ok] at h
  obtain ⟨-, -, x, hx, h⟩ := h
  obtain ⟨_, hready, h⟩ := bind_ok.1 (ok_after_optional_check h)
  obtain ⟨-, -, h⟩ := bind_ok.1 (ok_after_optional_check h)
  refine ⟨⟨x, findIndex_of_checkIndex hx, ready_of_needReady hready⟩, ?_⟩
  split at h
  next hnew =>
    simp only [bind_ok] at h
    obtain ⟨-, -, -, -, h⟩ := h
    exact (Except.ok.inj h).symm
  next hnamed => exact (Except.ok.inj h).symm

/-- Settles O21: each verb's command runs its body, and a body that passes its checks is as the lemmas above say. -/
theorem indexVerbsComplete : Obligations.IndexVerbsComplete := by
  unfold Obligations.IndexVerbsComplete
  refine ⟨verbDoes_of (fun _ _ => rfl) fun v a d h => ?_,
    verbDoes_of (fun _ _ => rfl) fun _ _ _ => idxDropBody_ok,
    verbDoes_of (fun _ _ => rfl) fun v a d h => ?_,
    verbDoes_of (fun _ _ => rfl) fun v a d h => ?_,
    verbDoes_of (fun _ _ => rfl) fun _ _ _ => idxSearchBody_ok,
    verbDoes_of (fun _ _ => rfl) fun _ _ _ => bitmapLoadBody_ok⟩
  · obtain ⟨c, id, hid, ⟨hform, h⟩ | ⟨hform, ps, cb, hps, hcb, h⟩⟩ := idxCreateBody_ok h
    · obtain ⟨x, a1, tag, epoch, ps, cb, entry, hdesc, hmake, hd⟩ := createAttach_ok h
      obtain ⟨rfl, hlpn, hpages, hnodes, hwriter, hjob, hstate⟩ := makeIndex_eq_some hmake
      exact ⟨x, a1, c, tag, ps, cb, hid, hlpn, hpages, hnodes, hwriter, hjob,
        .inl ⟨hform, hstate, attachJob v ps, epoch, entry, hdesc, hmake, rfl, rfl, rfl, rfl, hd⟩⟩
    · obtain ⟨x, a1, tag, htag, hmake, hd⟩ := createNew_ok h
      obtain ⟨rfl, hlpn, hpages, hnodes, hwriter, hjob, hstate⟩ := makeIndex_eq_some hmake
      exact ⟨x, a1, c, tag, ps, cb, hid, hlpn, hpages, hnodes, hwriter, hjob,
        .inr ⟨hform, hstate, createWriter v x ps, hps, hcb, htag, hmake, rfl, rfl, rfl, hd⟩⟩
  · obtain ⟨x, bs, hx, hready, hbs, hd⟩ := idxInsertBody_ok h
    exact ⟨x, bs, insertWriter a x v bs, hx, hready, hbs, rfl, rfl, rfl, rfl, rfl, rfl, rfl, rfl, hd⟩
  · obtain ⟨x, bs, hx, hready, hbs, hd⟩ := idxDeleteBody_ok h
    exact ⟨x, bs, deleteWriter a x v bs, hx, hready, hbs, rfl, rfl, rfl, rfl, rfl, rfl, rfl, rfl, hd⟩

end Sys2Proof.IndexVerbs
end

section
/-!
Merges, repair passes and attaches of a memory index (12 R274, R275, R277, R279): the verbs that start, stop and report them, and their ends.
-/

namespace Sys2Proof.IndexJobs

open Sys2Proof.Machine Sys2Proof.ObjectVerbs Sys2Proof.IndexVerbs

/-! ### IDX_MERGE, IDX_REPAIR and IDX_STATS -/

/-- What a job of kind `k` takes of the side list: a merge (1) all that stands in it, and a repair (2) nothing. -/
def jobCut (k : Nat) (x : Index) : Nat := if k = 1 then x.side.length else 0

/-- The index and its job as a verb starts it: a repair (2) begins its pass over the LIVE nodes. -/
def jobStart (v : Verb) (k : Nat) (x : Index) : Index × IdxJob :=
  if k = 2 then passStart x { startedJob v k (jobCut k x) with total := liveCount x } else (x, startedJob v k (jobCut k x))

/-- Mode 1 marks the index's job to stop, and mode 0 starts a job where the index has none. -/
theorem idxJobBody_ok {k : Nat} {v : Verb} {a d : Dev} (h : idxJobBody k v a = .ok d) : ∃ x,
    findIndex a (fld v 16 1 % 64) = some x ∧ x.state = 0 ∧
    (fld v 17 1 = 1 → ∃ j, x.job = some j ∧ d = finishOk (putIdxJob a x.id { j with stop := true }) v []) ∧
    (fld v 17 1 = 0 → x.job = none ∧
      d = finish (updIndex a x.id (fun _ => { (jobStart v k x).1 with job := some (jobStart v k x).2 })) v stDeferred 0xFF
        (if k = 1 then [(8, 4, jobCut k x)] else [])) := by
  simp only [idxJobBody, bind_ok] at h
  obtain ⟨-, -, x, hx, _, hready, -, -, h⟩ := h
  refine ⟨x, findIndex_of_checkIndex hx, ready_of_needReady hready, ?_⟩
  split at h
  next hstop =>
    split at h
    · simp at h
    next j hj => exact ⟨fun _ => ⟨j, hj, (Except.ok.inj h).symm⟩, by simp [hstop]⟩
  next hstart =>
    simp only [bind_ok] at h
    obtain ⟨_, hfree, -, -, h⟩ := h
    exact ⟨fun e => absurd e hstart, fun _ => ⟨by simpa using eq_true_of_need hfree, (Except.ok.inj h).symm⟩⟩

theorem idxStatsBody_ok {v : Verb} {a d : Dev} (h : idxStatsBody v a = .ok d) : ∃ x, findIndex a (fld v 16 1 % 64) = some x ∧
    d = finishOk (outWrite a v (fld v 24 8)
      (natLe (liveCount x) 8 ++ natLe (deadCount x) 8 ++ natLe (ixCap x.params - x.nodes.length) 8 ++ natLe x.side.length 4 ++ natLe x.epoch 4 ++
        [byte (if x.dropSeq.isSome then 2 else x.state), byte (match x.job with | some j => j.kind | none => 0), byte x.parity,
          if x.entry.isSome then 1 else 0] ++ List.replicate 4 0 ++ natLe ((x.job.map (·.done)).getD 0) 8 ++ natLe ((x.job.map (·.total)).getD 0) 8 ++
        natLe (x.entry.getD 0) 8)) v [] := by
  simp only [idxStatsBody, bind_ok] at h
  obtain ⟨-, -, x, hx, h⟩ := h
  refine ⟨x, findIndex_of_checkIndex hx, ?_⟩
  cases hjob : x.job with
  | none | some j =>
    rw [hjob] at h
    exact (Except.ok.inj h).symm

/-! ### The ends of jobs -/

/-- The index that an attach leaves, rebuilt from the records `rs`: READY, its tombstones DEAD, and what the side list held in it again. -/
def attached (x : Index) (rs : List NodeRec) : Index :=
  { x with
    state := 0, job := none, parity := 0
    nodes := rs.map (fun r => (r.node, if r.state = 2 then 2 else 1))
    items := (rs.filter (fun r => r.state != 2)).map (fun r => (r.item, r.node))
    pq := rs.map (fun r => (r.node, r.pq))
    side := if ixMode x.params = 0 then (rs.filter (fun r => r.state == 3)).map (fun r => insertEntry r.item r.node r.vscale r.attrs r.vec)
      else [] }

section
variable {i : Nat} {a : Dev} {x : Index} {j : IdxJob} (hx : findIndex a i = some x) (hj : x.job = some j)
include hx hj

theorem mergeComplete_of_noPass (hk : j.kind = 1) (hl : j.linking = none) (hp : j.pass = false) (hm : nextMerge x j.cut = none)
    (hd : deadCount x = 0) : mergeComplete i a =
      idxDone (updIndex a i (fun y => { y with job := none, side := y.side.drop j.cut })) x j stOk (natLe j.merged 4 ++ natLe 0 8) := by
  simp [mergeComplete, hx, hj, hk, hl, hp, hm, hd]

theorem mergeComplete_of_swept (hk : j.kind = 1) (hl : j.linking = none) (hp : j.pass = true) (hm : nextMerge x j.cut = none)
    (hs : nextLive x j.sweep = none) : mergeComplete i a =
      idxDone (updIndex (passEnd a x j).2 i (fun y => { y with job := none, side := y.side.drop j.cut })) x j stOk
        (natLe j.merged 4 ++ natLe (passEnd a x j).1 8) := by
  simp [mergeComplete, hx, hj, hk, hl, hp, hm, hs]

theorem repairPassEnd_of_swept (hk : j.kind = 2) (hp : j.pass = true) (hs : nextLive x j.sweep = none) : repairPassEnd i a =
    idxDone (updIndex (passEnd a x j).2 i (fun y => { y with job := none })) x j stOk [] := by
  simp [repairPassEnd, hx, hj, hk, hp, hs]

theorem attachComplete_of_attach (hk : j.kind = 3) : attachComplete i a =
    idxDone (updIndex ((regionNodes a x).foldl (tellRead x) a) i (fun z => { attached x (regionRecords a x) with lostSeen := z.lostSeen }))
      (attached x (regionRecords a x)) j stOk [] := by
  simp [attachComplete, attached, hx, hj, hk]

end

/-- Settles O22: each verb's command runs its body, and a body that passes its checks is as the lemmas above say; each end of a job is its equation
above. -/
theorem indexJobsComplete : Obligations.IndexJobsComplete := by
  unfold Obligations.IndexJobsComplete
  refine ⟨verbDoes_of (fun _ _ => rfl) fun v a d h => ?_,
    verbDoes_of (fun _ _ => rfl) fun v a d h => ?_,
    verbDoes_of (fun _ _ => rfl) fun _ _ _ => idxStatsBody_ok,
    fun i x j => does_of (mergeComplete i) (fun _ => rfl) fun a _ ⟨hx, hj, hk, hl, hp, hm, hd⟩ => mergeComplete_of_noPass hx hj hk hl hp hm hd,
    fun i x j => does_of (mergeComplete i) (fun _ => rfl) fun a _ ⟨hx, hj, hk, hl, hp, hm, hs⟩ => mergeComplete_of_swept hx hj hk hl hp hm hs,
    fun i x j => does_of (repairPassEnd i) (fun _ => rfl) fun a _ ⟨hx, hj, hk, hp, hs⟩ => repairPassEnd_of_swept hx hj hk hp hs,
    fun i x j => does_of (attachComplete i) (fun _ => rfl) fun a _ ⟨hx, hj, hk⟩ =>
      ⟨attached x (regionRecords a x), rfl, rfl, rfl, rfl, rfl, rfl, attachComplete_of_attach hx hj hk⟩⟩
  · obtain ⟨x, hx, hready, hstop, hstart⟩ := idxJobBody_ok h
    refine ⟨x, hx, hready, hstop, fun h0 => ?_⟩
    obtain ⟨hfree, hd⟩ := hstart h0
    exact ⟨hfree, startedJob v 1 x.side.length, rfl, rfl, rfl, rfl, rfl, rfl, rfl, rfl, rfl, rfl, hd⟩
  · obtain ⟨x, hx, hready, hstop, hstart⟩ := idxJobBody_ok h
    refine ⟨x, hx, hready, hstop, fun h0 => ?_⟩
    obtain ⟨hfree, hd⟩ := hstart h0
    exact ⟨hfree, (jobStart v 2 x).1, (jobStart v 2 x).2, rfl, hd⟩

end Sys2Proof.IndexJobs
end

section
/-!
The flash verbs (13 R300-R303, R308, R309): the device that each leaves where its checks pass, read off the verb's body.
-/

namespace Sys2Proof.FlashVerbs

open Sys2Proof.Machine Sys2Proof.ObjectVerbs

/-! ### Checks on the media and the assignments -/

theorem no_jobs_of_need {d : Dev} {st : Nat} {u : Unit} (h : need st d.flash.jobs.isEmpty = .ok u) : d.flash.jobs = [] :=
  List.isEmpty_iff.1 (eq_true_of_need h)

/-- A granule that no slot holds. -/
theorem not_assigned_of_need {d : Dev} {st g : Nat} {u : Unit} (h : need st (!d.flash.assigned.any (fun a => a.2.2 == g)) = .ok u) :
    ∀ x ∈ d.flash.assigned, x.2.2 ≠ g := by
  simpa using eq_false_of_need_not h

/-- A granule put into a slot is one more that its partition holds. -/
theorem granulesHeld_assign (d : Dev) (p slot g : Nat) :
    granulesHeld { d with flash.assigned := d.flash.assigned ++ [(p, slot, g)] } p = (d.flash.assigned.filter (fun x => x.1 == p)).length + 1 := by
  simp [granulesHeld]

/-- The job that a deferred verb lists where no other stands. -/
theorem deferFlash_of_no_jobs {d : Dev} (h : d.flash.jobs = []) (v : Verb) (kind granule part pct state : Nat) (fields : List (Nat × Nat × Nat)) :
    deferFlash d v kind granule part pct state fields =
      finish { d with
        flash.jobs := [{ ring := v.ring, tag := fld v 4 4, op := v.op, kind := kind, granule := granule, part := part, sparePct := pct }]
        flash.state := state } v stDeferred 0xFF fields := by
  simp only [deferFlash, h, List.nil_append]

/-! ### FL_MOUNT, FL_FORMAT and FL_HEALTH -/

theorem flMountBody_ok {v : Verb} {a d : Dev} (h : flMountBody v a = .ok d) :
    (fld v 16 1 = 1 → (a.flash.state = 3 ∨ a.flash.state = 4) ∧ d = keepRunning { a with flash.mounting := some (some v.seq) } v) ∧
    (fld v 16 1 = 0 → (a.flash.state = 1 ∨ a.flash.state = 2) ∧ d = settleFlash (keepRunning { a with
      flash.unmounting := some v.seq
      flash.pages := updWhere (fun (x : FPage) => !x.durable && x.st != 2) (fun x => { x with want := true }) a.flash.pages } v)) := by
  simp only [flMountBody, bind_ok] at h
  obtain ⟨-, -, h⟩ := h
  split at h
  next hmount =>
    obtain ⟨_, hstate, h⟩ := bind_ok.1 h
    have hstate := eq_true_of_need hstate
    simp only [Bool.and_eq_true, Bool.or_eq_true, beq_iff_eq] at hstate
    exact ⟨fun _ => ⟨hstate.1, (Except.ok.inj h).symm⟩, by simp [hmount]⟩
  next hunmount =>
    obtain ⟨_, hstate, h⟩ := bind_ok.1 h
    have hstate := eq_true_of_need hstate
    simp only [Bool.and_eq_true, Bool.or_eq_true, beq_iff_eq] at hstate
    exact ⟨fun e => absurd e hunmount, fun _ => ⟨hstate.1, (Except.ok.inj h).symm⟩⟩

theorem flFormatBody_ok {v : Verb} {a d : Dev} (h : flFormatBody v a = .ok d) :
    a.flash.jobs = [] ∧ a.flash.assigned = [] ∧ d = deferFlash a v 1 0 0 (fld v 16 1) 5 [] := by
  simp only [flFormatBody, bind_ok] at h
  obtain ⟨-, -, _, hjobs, _, hmedia, h⟩ := h
  have hmedia := eq_true_of_need hmedia
  simp only [Bool.and_eq_true, List.isEmpty_iff] at hmedia
  obtain ⟨⟨⟨hassigned, -⟩, -⟩, -⟩ := hmedia
  exact ⟨no_jobs_of_need hjobs, hassigned, (Except.ok.inj h).symm⟩

theorem flHealthBody_ok {v : Verb} {a d : Dev} (h : flHealthBody v a = .ok d) : ∃ b, b = { a with flash := withWear a.flash } ∧
    d = finishOk (if fld v 24 8 = 0 then b else outWrite b v (fld v 24 8) (healthBytes b.flash)) v
      [(8, 1, a.flash.state), (9, 1, spareLeft a.flash), (10, 2, b.flash.health.wearMax), (12, 4, a.flash.health.blocksRetired)] := by
  simp only [flHealthBody, bind_ok] at h
  obtain ⟨-, -, h⟩ := h
  exact ⟨_, rfl, (Except.ok.inj h).symm⟩

/-! ### FL_DISCARD and FL_SANITIZE -/

theorem flDiscardBody_ok {v : Verb} {a d : Dev} (h : flDiscardBody v a = .ok d) : d = registerOp a v (.discardLpns v.seq) := by
  simp only [flDiscardBody, bind_ok] at h
  obtain ⟨-, -, h⟩ := h
  have h := IndexVerbs.ok_after_optional_check h
  simp only [bind_ok] at h
  obtain ⟨-, -, -, -, h⟩ := h
  exact (Except.ok.inj h).symm

theorem flSanitizeBody_ok {v : Verb} {a d : Dev} (h : flSanitizeBody v a = .ok d) : a.flash.jobs = [] ∧
    (fld v 16 1 = 0 → a.flash.assigned = [] ∧ d = deferFlash a v 2 0 0 0 6 []) ∧
    (fld v 16 1 = 1 → (∀ x ∈ a.flash.assigned, x.2.2 ≠ fld v 20 4) ∧ ∃ b,
      b = purgeGranule { a with flash.erasing := upsert (· == fld v 20 4) (fld v 20 4) a.flash.erasing } (fld v 20 4) ∧
      d = deferFlash b v 3 (fld v 20 4) 0 0 b.flash.state []) := by
  simp only [flSanitizeBody, bind_ok] at h
  obtain ⟨-, -, _, hjobs, h⟩ := h
  refine ⟨no_jobs_of_need hjobs, ?_⟩
  split at h
  next hall =>
    obtain ⟨_, hmedia, h⟩ := bind_ok.1 h
    have hmedia := eq_true_of_need hmedia
    simp only [Bool.and_eq_true, List.isEmpty_iff] at hmedia
    obtain ⟨⟨⟨⟨hassigned, -⟩, -⟩, -⟩, -⟩ := hmedia
    exact ⟨fun _ => ⟨hassigned, (Except.ok.inj h).symm⟩, by simp [hall]⟩
  next hone =>
    simp only [bind_ok] at h
    obtain ⟨-, -, _, hfree, h⟩ := h
    exact ⟨fun e => absurd e hone, fun _ => ⟨not_assigned_of_need hfree, _, rfl, (Except.ok.inj h).symm⟩⟩

/-! ### FL_ASSIGN -/

theorem flAssignBody_ok {v : Verb} {a d : Dev} (h : flAssignBody v a = .ok d) :
    (fld v 16 1 = 1 → (∀ x ∈ a.flash.assigned, x.2.2 ≠ fld v 20 4 ∧ ¬(x.1 = fld v 17 1 ∧ x.2.1 = fld v 18 2)) ∧
      d = finishOk { a with flash.assigned := a.flash.assigned ++ [(fld v 17 1, fld v 18 2, fld v 20 4)] } v
        [(8, 4, (a.flash.assigned.filter (fun x => x.1 == fld v 17 1)).length + 1)]) ∧
    (fld v 16 1 ≠ 1 → ∃ x b, a.flash.assigned.find? (fun y => y.1 == fld v 17 1 && y.2.1 == fld v 18 2) = some x ∧
      b = { a with flash.assigned := dropWhere (fun (y : Nat × Nat × Nat) => y.1 == fld v 17 1 && y.2.1 == fld v 18 2) a.flash.assigned } ∧
      (fld v 16 1 = 2 → d = finishOk b v [(8, 4, granulesHeld b (fld v 17 1))]) ∧
      (fld v 16 1 = 3 → ∃ c, c = purgeGranule { b with flash.erasing := upsert (· == x.2.2) x.2.2 b.flash.erasing } x.2.2 ∧
        d = deferFlash c v 4 x.2.2 (fld v 17 1) 0 c.flash.state [(8, 4, granulesHeld b (fld v 17 1))])) := by
  simp only [flAssignBody, bind_ok] at h
  obtain ⟨-, -, -, -, -, -, -, -, h⟩ := h
  split at h
  next hput =>
    obtain ⟨_, hfree, h⟩ := bind_ok.1 h
    have hfree := eq_true_of_need hfree
    rw [granulesHeld_assign] at h
    simp only [Bool.and_eq_true, Bool.not_eq_true', List.any_eq_false, Bool.or_eq_true, beq_iff_eq, not_or] at hfree
    exact ⟨fun _ => ⟨hfree.1, (Except.ok.inj h).symm⟩, fun e => absurd hput e⟩
  next htake =>
    refine ⟨fun e => absurd e htake, fun _ => ?_⟩
    split at h
    · simp at h
    next x hx =>
      obtain ⟨-, -, h⟩ := bind_ok.1 h
      refine ⟨x, _, hx, rfl, ?_⟩
      split at h
      next hrelease => exact ⟨fun _ => (Except.ok.inj h).symm, by simp [hrelease]⟩
      next herase => exact ⟨fun e => absurd e herase, fun _ => ⟨_, rfl, (Except.ok.inj h).symm⟩⟩

/-- Settles O23: each verb's command runs its body, and a body that passes its checks is as the lemmas above say. -/
theorem flashVerbsComplete : Obligations.FlashVerbsComplete := by
  unfold Obligations.FlashVerbsComplete
  refine ⟨verbDoes_of (fun _ _ => rfl) fun _ _ _ => flMountBody_ok,
    verbDoes_of (fun _ _ => rfl) fun v a d h => ?_,
    verbDoes_of (fun _ _ => rfl) fun _ _ _ => flHealthBody_ok,
    verbDoes_of (fun _ _ => rfl) fun _ _ _ => flDiscardBody_ok,
    verbDoes_of (fun _ _ => rfl) fun v a d h => ?_,
    verbDoes_of (fun _ _ => rfl) fun _ _ _ => flAssignBody_ok⟩
  · obtain ⟨hjobs, hassigned, hd⟩ := flFormatBody_ok h
    exact ⟨hjobs, hassigned, hd.trans (deferFlash_of_no_jobs hjobs ..)⟩
  · obtain ⟨hjobs, hall, hone⟩ := flSanitizeBody_ok h
    refine ⟨hjobs, fun h0 => ?_, hone⟩
    obtain ⟨hassigned, hd⟩ := hall h0
    exact ⟨hassigned, hd.trans (deferFlash_of_no_jobs hjobs ..)⟩

end Sys2Proof.FlashVerbs
end

section
/-!
The ends of flash jobs, of a mount and of NAND operations (13 R291, R294, R297-R300, R304, R307, R309).
-/

namespace Sys2Proof.FlashOperations

open Sys2Proof.Machine

/-! ### The health of the media in the CXL logs (17 Table 17-4) -/

theorem addRecord_sameBut (d : Dev) (n kind dpa : Nat) : sameBut d (addRecord d n kind dpa) := by
  unfold addRecord
  split
  · exact sameBut_refl d
  · dsimp only
    split
    · exact sameBut_ite (sameBut_trans (updLd_sameBut _ _ _) (signalMsix_sameBut _ _ _)) (updLd_sameBut _ _ _)
    · exact updLd_sameBut _ _ _

theorem noteHealth_sameBut (d : Dev) : sameBut d (noteHealth d) := by
  refine sameBut_foldl _ (fun a n => ?_) _ d
  split
  · exact sameBut_ite (sameBut_refl a) (sameBut_trans (addRecord_sameBut _ _ _ _) (updLd_sameBut _ _ _))
  · exact sameBut_refl a

/-- While no power failure is acted on, the end of a NAND operation changes nothing more. -/
theorem settleHalt_noteHealth {d : Dev} (h : d.boot.powerFail = false) : settleHalt (noteHealth d) = noteHealth d := by
  simp [settleHalt, (noteHealth_sameBut d).boot, h]

/-- The commands of this family note the health of the media after what they do. -/
theorem does_noting {c : Instr} {pre : Dev → Prop} {post : Dev → Dev → Prop} (f : Dev → Dev) (hx : ∀ s, exec c s = onDev (fun d => noteHealth (f d)) s)
    (hp : ∀ a, pre a → post a (noteHealth (f a))) : Does c pre post :=
  does_of _ hx fun a _ => hp a

/-! ### Formats and sanitizes (13 R309) -/

/-- The flash after the format of the job `j`: nothing assigned, stored or waiting, and one more erase for every block. -/
def afterFormat (ok : Bool) (bad : List (Nat × Nat × Nat)) (j : FlashJob) (f : Flash) : Flash :=
  let f1 : Flash := { f with
    jobs := dropWhere (fun (x : FlashJob) => x.kind == 1) f.jobs
    deadBlocks := (f.deadBlocks ++ bad).eraseDups
    assigned := [], pages := [], parities := [], groups := [], ops := [], discards := [], relocate := [], erasing := []
    eraseBase := f.eraseBase + 1, formatted := ok, sparePct := j.sparePct, sinceCkptPages := 0, sinceCkptClauses := 0
    draft := none, dirty := [], discRecs := [], spareUsed := 0, spareLowRaised := false, ckpt := formatComplete.emptyCkpt f }
  let f2 := { f1 with granules := if ok then formatGranules f1 j.sparePct else 0 }
  { f2 with spareTotal := reserveBlocks f2, state := if ok then 1 else 0, saved := f.health }

theorem formatComplete_of_job {a : Dev} {j : FlashJob} (h : a.flash.jobs.find? (fun x => x.kind == 1) = some j) (ok : Bool)
    (bad : List (Nat × Nat × Nat)) : formatComplete ok bad a =
      deferredDone { a with flash := afterFormat ok bad j a.flash, stored.images := [], stored.phrases := [] } j.ring j.tag j.op
        (if ok then stOk else stMedia) objDevice .device (natLe (afterFormat ok bad j a.flash).granules 4) := by
  unfold formatComplete
  rw [h]
  rfl

/-- A failed format leaves no granules. -/
theorem afterFormat_granules_of_failed {ok : Bool} (h : ok = false) (bad : List (Nat × Nat × Nat)) (j : FlashJob) (f : Flash) :
    (afterFormat ok bad j f).granules = 0 := by
  rw [h]
  rfl

/-- The end of a job that a flash verb listed is sanitizeDone's; kind 5 is the erase of a granule that left its partition (15 R346). -/
theorem sanitizeRow_of_listed {a : Dev} {ok : Bool} {j : FlashJob} (h : a.flash.jobs.find? (jobEnds ok a) = some j) (hk : j.kind ≠ 5) :
    sanitizeRow ok a = sanitizeDone ok a := by
  simp only [sanitizeRow, h, if_pos hk]

theorem sanitizeRow_of_whole {a : Dev} {ok : Bool} {j : FlashJob} (h : a.flash.jobs.find? (jobEnds ok a) = some j) (hk : j.kind = 2) :
    ∃ f : Flash, f.state = 1 ∧ f.pages = [] ∧ f.groups = [] ∧ f.parities = [] ∧ f.ops = [] ∧ f.assigned = a.flash.assigned ∧
      f.jobs = dropWhere (fun x => x == j) a.flash.jobs ∧
      sanitizeRow ok a = deferredDone { a with flash := f, stored.images := [], stored.phrases := [] } j.ring j.tag j.op
        (if ok then stOk else stMedia) objDevice .device [] := by
  rw [sanitizeRow_of_listed h (by omega)]
  simp only [sanitizeDone, h, if_pos hk]
  refine ⟨_, ?_, ?_, ?_, ?_, ?_, ?_, ?_, rfl⟩ <;> rfl

/-- The granule of the job `j` is no longer being erased, and the job is done. -/
def granuleFreed (a : Dev) (j : FlashJob) : Dev :=
  { a with flash.jobs := dropWhere (fun (x : FlashJob) => x == j) a.flash.jobs, flash.erasing := a.flash.erasing.filter (· != j.granule) }

theorem sanitizeRow_of_granule {a : Dev} {ok : Bool} {j : FlashJob} (h : a.flash.jobs.find? (jobEnds ok a) = some j)
    (hk : j.kind = 3 ∨ j.kind = 4) : sanitizeRow ok a =
      if j.kind = 4 then deferredDone (granuleFreed a j) j.ring j.tag j.op (if ok then stOk else stMedia) (objPart j.part) (.part j.part) []
      else deferredDone (granuleFreed a j) j.ring j.tag j.op (if ok then stOk else stMedia) objDevice .device [] := by
  have hone : j.kind ≠ 2 := by omega
  rw [sanitizeRow_of_listed h (by omega)]
  simp only [sanitizeDone, h, if_neg hone]
  rfl

/-! ### Reads, programs, erases and timeouts (13 R291, R294, R304, R307) -/

section
variable {i : Nat} {a : Dev} {o : NandOp} (ho : a.flash.ops.find? (fun x => x.id == i) = some o)
include ho

/-- One of the first reads decodes, and its metadata names the page that was asked for. -/
theorem nandRead_of_decoded {g cw n why : Nat} (hw : o.what = .read g cw n why) (hn : n < 3) (bits : Nat) : nandRead i true bits g [] a =
    deliverRead { dropNand a i with
      flash.health := countBits { a.flash.health with softDecodes := satAdd a.flash.health.softDecodes 0 } bits } i false false := by
  have hhard : (true && n != 6) = true := by simpa using (by omega : n ≠ 6)
  have hlast : n ≠ 7 := by omega
  simp only [nandRead, ho, hw, if_pos hhard, if_pos hn, if_neg hlast]
  rfl

/-- The operation that a read becomes at the next level of the ladder. -/
def readAgain (a : Dev) (o : NandOp) (g cw n why : Nat) : NandOp :=
  { o with what := .read g cw (n + 1) why, level := readLevel a.flash o.channel o.lun o.block (n + 1), issued := a.tim.elapsed, retried := false }

theorem nandRead_of_undecoded {g cw n why : Nat} (hw : o.what = .read g cw n why) (hn : n < 7) (bits found : Nat) (bad : List Nat) :
    nandRead i false bits found bad a = { dropNand a i with
      flash.health := { a.flash.health with readRetries := satAdd a.flash.health.readRetries (if n = 1 then 1 else 0) }
      flash.ops := (dropNand a i).flash.ops ++ [readAgain a o g cw n why] } := by
  simp only [nandRead, ho, hw, Bool.false_and, Bool.false_eq_true, if_false, if_pos hn]
  rfl

/-- The flash after the program of the page `seq` succeeded as operation `i`; `data` is 1 for a page from the write buffer. -/
def afterProgram (f : Flash) (i seq data : Nat) : Flash :=
  { f with
    ops := dropWhere (fun (y : NandOp) => y.id == i) f.ops
    pages := updWhere (fun (y : FPage) => y.seq == seq) (fun y => { y with st := 1 }) f.pages
    health := { f.health with nandPages := (f.health.nandPages + 1) % 2 ^ 64, dataPages := (f.health.dataPages + data) % 2 ^ 64 }
    sinceCkptPages := f.sinceCkptPages + data }

theorem nandProgram_of_page {seq : Nat} {x : FPage} (hw : o.what = .data seq) (hx : a.flash.pages.find? (fun y => y.seq == seq) = some x)
    (damaged : List Nat) :
    nandProgram i true damaged a = settleFlash { a with flash := afterProgram a.flash i seq (if x.fresh then 1 else 0) } := by
  have hx' : (dropNand a i).flash.pages.find? (fun y => y.seq == seq) = some x := hx
  simp only [nandProgram, ho, hw, hx', if_true]
  rfl

theorem nandErase_of_block {bg lane : Nat} (hw : o.what = .erase bg lane) : nandErase i true a =
    settleFlash (clearLane { dropNand a i with
      flash.erases := upsert (fun (e : Nat × Nat × Nat × Nat) => e.1 == o.channel && e.2.1 == o.lun && e.2.2.1 == o.block)
        (o.channel, o.lun, o.block, blockWear a.flash o.channel o.lun o.block + 1) a.flash.erases } bg lane) := by
  simp only [nandErase, ho, hw, if_true]
  rfl

/-- The operation `i` is issued again. -/
def nandRetried (a : Dev) (i : Nat) : Dev :=
  { a with flash.ops := updWhere (fun (x : NandOp) => x.id == i) (fun x => { x with retried := true, issued := a.tim.elapsed }) a.flash.ops }

theorem nandTimeout_of_first (hr : o.retried = false) (hlate : o.issued + nandLimit o.what ≤ a.tim.elapsed) :
    nandTimeout i a = nandRetried a i := by
  simp [nandTimeout, nandRetried, ho, hr, Nat.not_lt.2 hlate]

end

theorem mapCheckpoint_of_due {a : Dev} (h : checkpointDue a.flash = true) : mapCheckpoint a = startCheckpoint a := if_pos h

/-! ### Mounts (13 R299, R300) -/

/-- The device after a mount that ends in the media state `st` with nothing replayed. -/
def mountedAs (a : Dev) (st : Nat) : Dev := { a with flash.mounting := none, flash.state := st, flash.replayed := 0 }

section
variable {a : Dev} {who : Option Nat} (hm : a.flash.mounting = some who)
include hm

theorem mountComplete_unformatted {fmt : Bool} (hf : (fmt && a.flash.formatted) = false) (rec : Bool) (bad : List Nat)
    (absent : List (Nat × Nat)) : mountComplete fmt rec bad absent a = mountAnswer who (mountedAs a 0) 0 stMedia := by
  simp [mountComplete, mountedAs, hm, hf]

theorem mountComplete_uncheckpointed {fmt : Bool} (hf : (fmt && a.flash.formatted) = true) (bad : List Nat) (absent : List (Nat × Nat)) :
    mountComplete fmt false bad absent a = mountAnswer who (mountedAs a 4) 0 stMedia := by
  simp [mountComplete, mountedAs, hm, hf]

theorem mountComplete_replayed {fmt : Bool} (hf : (fmt && a.flash.formatted) = true) (bad : List Nat) (absent : List (Nat × Nat)) :
    mountComplete fmt true bad absent a =
      mountAnswer who (startCheckpoint (mountReplay bad absent a).1) (mountReplay bad absent a).2 stOk := by
  simp [mountComplete, hm, hf]

/-- The status and the device of a mount, by the records that it found. -/
theorem mountComplete_answers (fmt rec : Bool) (bad : List Nat) (absent : List (Nat × Nat)) : ∃ st,
    ((fmt && a.flash.formatted) = false → st = stMedia ∧ mountComplete fmt rec bad absent a = mountAnswer who (mountedAs a 0) 0 st) ∧
    ((fmt && a.flash.formatted) = true → rec = false → st = stMedia ∧
      mountComplete fmt rec bad absent a = mountAnswer who (mountedAs a 4) 0 st) ∧
    ((fmt && a.flash.formatted) = true → rec = true → st = stOk ∧
      mountComplete fmt rec bad absent a = mountAnswer who (startCheckpoint (mountReplay bad absent a).1) (mountReplay bad absent a).2 st) := by
  cases hf : fmt && a.flash.formatted with
  | false => exact ⟨stMedia, fun _ => ⟨rfl, mountComplete_unformatted hm hf rec bad absent⟩, nofun, nofun⟩
  | true =>
    cases rec with
    | false => exact ⟨stMedia, nofun, fun _ _ => ⟨rfl, mountComplete_uncheckpointed hm hf bad absent⟩, nofun⟩
    | true => exact ⟨stOk, nofun, nofun, fun _ _ => ⟨rfl, mountComplete_replayed hm hf bad absent⟩⟩

end

/-- A mount that is answered in stage 7 ends the stage (19 R441). -/
theorem mountRow_of_boot {fmt rec : Bool} {bad : List Nat} {absent : List (Nat × Nat)} {a b : Dev} (hb : mountComplete fmt rec bad absent a = b)
    (hs : b.boot.stage = 7) (hm : b.flash.mounting = none) : mountRow fmt rec bad absent a = { b with boot.bootDone := true } := by
  simp [mountRow, hb, hs, hm]

/-- A mount at boot that finds no format record tells of UNFORMATTED media. -/
theorem mountRow_unformatted_at_boot {a : Dev} (hm : a.flash.mounting = some none) (hs : a.boot.stage = 7) (rec : Bool) (bad : List Nat)
    (absent : List (Nat × Nat)) : mountRow false rec bad absent a =
      { raiseDev { a with flash.mounting := none, flash.state := 0, flash.replayed := 0 } 0x0816 [(1, 0), (8, 0), (8, 0)] with
        boot.bootDone := true } := by
  refine mountRow_of_boot (mountComplete_unformatted hm (Bool.false_and _) rec bad absent) ?_ ?_
  · rw [(raiseDev_sameBut _ _ _).boot]
    exact hs
  · rw [(raiseDev_sameBut _ _ _).flash]

/-- Settles O24: each command is its operation's equation above, with the health of the media noted. -/
theorem flashOperationsComplete : Obligations.FlashOperationsComplete := by
  unfold Obligations.FlashOperationsComplete
  refine ⟨fun ok bad j => does_noting (formatComplete ok bad) (fun _ => rfl) fun a hj => ?_,
    fun ok j => does_noting (sanitizeRow ok) (fun _ => rfl) fun a ⟨hj, hk⟩ => ?_,
    fun ok j => does_noting (sanitizeRow ok) (fun _ => rfl) fun a ⟨hj, hk⟩ => ?_,
    fun i bits o g cw n why => does_noting (nandRead i true bits g []) (fun _ => rfl) fun a ⟨ho, hw, hn⟩ => ?_,
    fun i bits found bad o g cw n why => does_noting (nandRead i false bits found bad) (fun _ => rfl) fun a ⟨ho, hw, hn⟩ => ?_,
    fun s i o seq x damaged ho hw hx _ => ?_,
    fun i o bg lane => does_noting (nandErase i true) (fun _ => rfl) fun a ⟨ho, hw⟩ => ?_,
    fun s i o dt ho hr hlate hpower => ?_,
    does_of mapCheckpoint (fun _ => rfl) fun _ _ => mapCheckpoint_of_due,
    fun rec bad absent => does_noting (mountRow false rec bad absent) (fun _ => rfl) fun a ⟨hm, hs⟩ => ?_,
    fun fmt rec bad absent who => does_noting (mountRow fmt rec bad absent) (fun _ => rfl) fun a hm => ?_⟩
  · exact ⟨afterFormat ok bad j a.flash, rfl, rfl, rfl, rfl, rfl, rfl, rfl, rfl, rfl, rfl,
      fun h => afterFormat_granules_of_failed h bad j a.flash, rfl, congrArg noteHealth (formatComplete_of_job hj ok bad)⟩
  · obtain ⟨f, hstate, hpages, hgroups, hparities, hops, hassigned, hjobs, hd⟩ := sanitizeRow_of_whole hj hk
    exact ⟨f, hstate, hpages, hgroups, hparities, hops, hassigned, hjobs, congrArg noteHealth hd⟩
  · exact ⟨granuleFreed a j, rfl, congrArg noteHealth (sanitizeRow_of_granule hj hk)⟩
  · exact congrArg noteHealth (nandRead_of_decoded ho hw hn bits)
  · exact ⟨readAgain a o g cw n why, rfl, congrArg noteHealth (nandRead_of_undecoded ho hw hn bits found bad)⟩
  · exact ⟨afterProgram s.dev.flash i seq (if x.fresh then 1 else 0), rfl, rfl, rfl, rfl, _, rfl, rfl,
      congrArg (fun b => settleHalt (noteHealth b)) (nandProgram_of_page ho hw hx damaged)⟩
  · exact ⟨_, rfl, congrArg noteHealth (nandErase_of_block ho hw)⟩
  · refine ⟨_, rfl, rfl, ?_⟩
    calc settleHalt (noteHealth (nandTimeout i (advance s.dev dt)))
      _ = settleHalt (noteHealth (nandRetried (advance s.dev dt) i)) := by rw [nandTimeout_of_first ho hr hlate]
      _ = noteHealth (nandRetried (advance s.dev dt) i) := settleHalt_noteHealth hpower
  · exact congrArg noteHealth (mountRow_unformatted_at_boot hm hs rec bad absent)
  · obtain ⟨st, hanswers⟩ := mountComplete_answers hm fmt rec bad absent
    exact ⟨mountComplete fmt rec bad absent a, st, rfl, hanswers⟩

end Sys2Proof.FlashOperations
end

section
/-!
The step (log entry 2): the command at the front of the queue runs, and an idle block lets 1 ns pass unless it is held in reset.
-/

namespace Sys2Proof.StepForm

open Sys2Proof.Machine

theorem step_cons {s : State} {c : Instr} {rest : List Instr} (h : s.pending = c :: rest) : step s = exec c { s with pending := rest } := by
  simp only [step, h]

theorem step_nil {s : State} (h : s.pending = []) : step s = .next (idle s) := by
  simp only [step, h]

theorem idle_of_inReset {s : State} (h : s.dev.boot.inReset = true) : idle s = s := by
  simp [idle, h]

theorem idle_of_running {s : State} (h : s.dev.boot.inReset = false) : idle s = { s with dev := advance s.dev 1 } := by
  simp [idle, h]

/-- Settles O1: the step by the front of the queue, the idle step by whether the block is held in reset. -/
theorem stepTakesTheFrontCommand : Obligations.StepTakesTheFrontCommand := by
  unfold Obligations.StepTakesTheFrontCommand
  exact ⟨fun _ _ _ => step_cons, fun _ => step_nil, fun _ => idle_of_inReset, fun _ => idle_of_running⟩

end Sys2Proof.StepForm
end

section
/-!
Counters (20 R449, R450): what counting leaves in the counter that counts, in every other one, and in the history.
-/

namespace Sys2Proof.Counters

open Sys2Proof.Machine

/-! ### Storing a counter -/

/-- Whether an entry of the counter list is the counter of a scope, unit and number. -/
def isCtr (scope unit num : Nat) (c : Ctr) : Bool := c.scope == scope && c.unit == unit && c.num == num

theorem isCtr_iff {scope unit num : Nat} {c : Ctr} : isCtr scope unit num c = true ↔ c.scope = scope ∧ c.unit = unit ∧ c.num = num := by
  simp [isCtr, and_assoc]

/-- What a search finds after an upsert whose entry it looks for. -/
theorem find?_upsert_same {α : Type} {p : α → Bool} {x : α} (hx : p x = true) (l : List α) : (upsert p x l).find? p = some x := by
  induction l with
  | nil => simp [upsert, hx]
  | cons y l ih =>
    by_cases hy : p y = true
    · simp [upsert, hy, hx]
    · simp [upsert, hy, ih]

/-- What a search finds after an upsert of an entry that it does not look for. -/
theorem find?_upsert_other {α : Type} {p q : α → Bool} {x : α} (hx : q x = false) (hpq : ∀ y, p y = true → q y = false) (l : List α) :
    (upsert p x l).find? q = l.find? q := by
  induction l with
  | nil => simp [upsert, hx]
  | cons y l ih =>
    by_cases hy : p y = true
    · simp [upsert, hy, hx, hpq y hy]
    · by_cases hq : q y = true <;> simp [upsert, hy, hq, ih]

theorem ctrGet_eq (d : Dev) (scope unit num : Nat) : ctrGet d scope unit num =
    (d.tur.ctrs.find? (isCtr scope unit num)).getD { scope := scope, unit := unit, num := num, val := 0, ovf := false } := rfl

theorem ctrPut_ctrs (d : Dev) (c : Ctr) : (ctrPut d c).tur.ctrs = upsert (isCtr c.scope c.unit c.num) c d.tur.ctrs := rfl

/-- A counter is listed under its own scope, unit and number. -/
theorem ctrGet_name (d : Dev) (scope unit num : Nat) :
    (ctrGet d scope unit num).scope = scope ∧ (ctrGet d scope unit num).unit = unit ∧ (ctrGet d scope unit num).num = num := by
  rw [ctrGet_eq]
  cases hf : d.tur.ctrs.find? (isCtr scope unit num) with
  | none => exact ⟨rfl, rfl, rfl⟩
  | some c => exact isCtr_iff.1 (List.find?_some hf)

theorem ctrGet_ctrPut_same {d : Dev} {c : Ctr} {scope unit num : Nat} (hc : c.scope = scope ∧ c.unit = unit ∧ c.num = num) :
    ctrGet (ctrPut d c) scope unit num = c := by
  obtain ⟨rfl, rfl, rfl⟩ := hc
  rw [ctrGet_eq, ctrPut_ctrs, find?_upsert_same (isCtr_iff.2 ⟨rfl, rfl, rfl⟩)]
  rfl

theorem ctrGet_ctrPut_other {d : Dev} {c : Ctr} {scope unit num : Nat} (hc : (scope, unit, num) ≠ (c.scope, c.unit, c.num)) :
    ctrGet (ctrPut d c) scope unit num = ctrGet d scope unit num := by
  have hx : isCtr scope unit num c = false := by
    rw [← Bool.not_eq_true, isCtr_iff]
    rintro ⟨rfl, rfl, rfl⟩
    exact hc rfl
  have hsame : ∀ y, isCtr c.scope c.unit c.num y = true → isCtr scope unit num y = false := fun y hy => by
    obtain ⟨h1, h2, h3⟩ := isCtr_iff.1 hy
    rw [← hx, isCtr, isCtr, h1, h2, h3]
  rw [ctrGet_eq, ctrPut_ctrs, find?_upsert_other hx hsame, ctrGet_eq]

/-! ### Events leave the counters -/

/-- Telling an event to the LDs that its scope names. -/
def told (a : Dev) (e : EventRec) : Dev :=
  match e.scope with
  | .device => fmPost ((List.range 16).foldl (fun acc n => evqPost acc n e) a) e
  | .part p => if partLd a p < 16 then evqPost a (partLd a p) e else fmPost a e
  | .ld n => evqPost a n e

theorem raiseRec_eq_told (d : Dev) (e : EventRec) : ∃ h next, raiseRec d e = told (EventRings.withHistory d h next) e := ⟨_, _, rfl⟩

theorem withHistory_ctrs (d : Dev) (h : List (Nat × EventRec)) (next : Nat) : (EventRings.withHistory d h next).tur.ctrs = d.tur.ctrs := rfl

theorem told_ctrs (a : Dev) (e : EventRec) : (told a e).tur.ctrs = a.tur.ctrs := by
  have hpost (a : Dev) (n : Nat) : (evqPost a n e).tur.ctrs = a.tur.ctrs := by rw [EventRings.evqPost_tur]
  have hfm (a : Dev) : (fmPost a e).tur.ctrs = a.tur.ctrs := by
    obtain ⟨queue, lost, h⟩ := EventRings.fmPost_tur a e
    rw [h]
  unfold told
  split
  · rw [hfm, EventHistory.foldl_keeps (p := fun a => a.tur.ctrs) hpost]
  · split
    · rw [hpost]
    · rw [hfm]
  · rw [hpost]

theorem raiseRec_ctrs (d : Dev) (e : EventRec) : (raiseRec d e).tur.ctrs = d.tur.ctrs := by
  obtain ⟨h, next, hraise⟩ := raiseRec_eq_told d e
  rw [hraise, told_ctrs, withHistory_ctrs]

theorem ctrGet_raise (d : Dev) (code obj : Nat) (sc : EvScope) (vals : List (Nat × Nat)) (scope unit num : Nat) :
    ctrGet (raise d code obj sc vals) scope unit num = ctrGet d scope unit num := by
  unfold ctrGet raise
  rw [raiseRec_ctrs]

/-! ### Counting -/

/-- The counter as a count of `n` leaves it. -/
def counted (c : Ctr) (scope num n : Nat) : Ctr :=
  if ctrWraps scope num then { c with val := (c.val + n) % 2 ^ 64 }
  else if ctrGauge scope num then { c with val := c.val + n }
  else if c.val + n ≤ sat48 then { c with val := c.val + n }
  else { c with val := sat48, ovf := true }

/-- A count stores the counter, and raises EV_COUNTER_SAT only where a SAT48 counter passes its limit for the first time. -/
theorem bump_cases (d : Dev) (scope unit num n : Nat) :
    (bump d scope unit num n = ctrPut d (counted (ctrGet d scope unit num) scope num n) ∧
      (ctrWraps scope num = true ∨ ctrGauge scope num = true ∨ (ctrGet d scope unit num).val + n ≤ sat48 ∨ (ctrGet d scope unit num).ovf = true)) ∨
    ((∃ obj sc vals, bump d scope unit num n = raise (ctrPut d (counted (ctrGet d scope unit num) scope num n)) 0x0B10 obj sc vals) ∧
      sat48 < (ctrGet d scope unit num).val + n ∧ (ctrGet d scope unit num).ovf = false) := by
  unfold bump counted
  by_cases hw : ctrWraps scope num = true
  · simp [hw]
  · by_cases hg : ctrGauge scope num = true
    · simp [hw, hg]
    · by_cases hn : (ctrGet d scope unit num).val + n ≤ sat48
      · simp [hw, hg, hn]
      · by_cases ho : (ctrGet d scope unit num).ovf = true
        · simp [hw, hg, hn, ho]
        · exact .inr ⟨⟨_, _, _, by simp only [hw, hg, hn, ho]; rfl⟩, by omega, by simpa using ho⟩

theorem counted_name (c : Ctr) (scope num n : Nat) :
    (counted c scope num n).scope = c.scope ∧ (counted c scope num n).unit = c.unit ∧ (counted c scope num n).num = c.num := by
  unfold counted
  split
  · exact ⟨rfl, rfl, rfl⟩
  · split
    · exact ⟨rfl, rfl, rfl⟩
    · split <;> exact ⟨rfl, rfl, rfl⟩

theorem ctrGet_bump_eq_ctrPut (d : Dev) (scope unit num n s u k : Nat) :
    ctrGet (bump d scope unit num n) s u k = ctrGet (ctrPut d (counted (ctrGet d scope unit num) scope num n)) s u k := by
  rcases bump_cases d scope unit num n with ⟨hb, -⟩ | ⟨⟨_, _, _, hb⟩, -⟩
  · rw [hb]
  · rw [hb, ctrGet_raise]

theorem ctrGet_bump_same (d : Dev) (scope unit num n : Nat) :
    ctrGet (bump d scope unit num n) scope unit num = counted (ctrGet d scope unit num) scope num n := by
  obtain ⟨h1, h2, h3⟩ := counted_name (ctrGet d scope unit num) scope num n
  obtain ⟨g1, g2, g3⟩ := ctrGet_name d scope unit num
  rw [ctrGet_bump_eq_ctrPut, ctrGet_ctrPut_same ⟨h1.trans g1, h2.trans g2, h3.trans g3⟩]

theorem ctrGet_bump_other {scope unit num s u k : Nat} (h : (s, u, k) ≠ (scope, unit, num)) (d : Dev) (n : Nat) :
    ctrGet (bump d scope unit num n) s u k = ctrGet d s u k := by
  obtain ⟨h1, h2, h3⟩ := counted_name (ctrGet d scope unit num) scope num n
  obtain ⟨g1, g2, g3⟩ := ctrGet_name d scope unit num
  rw [ctrGet_bump_eq_ctrPut, ctrGet_ctrPut_other (by rwa [h1, h2, h3, g1, g2, g3])]

/-- A SAT48 counter adds, stays at its limit, and keeps in OVF whether it ever passed that. -/
theorem counted_sat {scope num : Nat} (hw : ctrWraps scope num = false) (hg : ctrGauge scope num = false) (c : Ctr) (n : Nat) :
    (counted c scope num n).val = Nat.min (c.val + n) sat48 ∧ (counted c scope num n).ovf = (c.ovf || decide (sat48 < c.val + n)) := by
  by_cases hn : c.val + n ≤ sat48
  · simp [counted, hw, hg, hn]
  · simp [counted, hw, hg, hn, show sat48 ≤ c.val + n by omega, show sat48 < c.val + n by omega]

/-- The first time that a SAT48 counter passes its limit is an event; no other count is. -/
theorem bump_history {scope num : Nat} (hw : ctrWraps scope num = false) (hg : ctrGauge scope num = false) (d : Dev) (unit n : Nat) :
    ((ctrGet d scope unit num).val + n ≤ sat48 ∨ (ctrGet d scope unit num).ovf = true → (bump d scope unit num n).tur.history = d.tur.history) ∧
    (sat48 < (ctrGet d scope unit num).val + n → (ctrGet d scope unit num).ovf = false →
      ∃ e, (bump d scope unit num n).tur.history.getLast? = some e ∧ e.2.code = 0x0B10) := by
  rcases bump_cases d scope unit num n with ⟨hb, hc⟩ | ⟨⟨_, _, _, hb⟩, hn, ho⟩
  · refine ⟨fun _ => by rw [hb]; rfl, fun hn ho => ?_⟩
    simp only [hw, hg, ho, Bool.false_eq_true, false_or, or_false] at hc
    omega
  · refine ⟨fun h => ?_, fun _ _ => ⟨_, by rw [hb]; exact EventHistory.raiseRec_last _ _, rfl⟩⟩
    simp only [ho, Bool.false_eq_true, or_false] at h
    omega

theorem counted_wraps {scope num : Nat} (hw : ctrWraps scope num = true) (c : Ctr) (n : Nat) :
    (counted c scope num n).val = (c.val + n) % 2 ^ 64 := by
  simp [counted, hw]

/-- Settles O10: a count stores one counter, whose value and OVF the lemmas above give by the kind of counter. -/
theorem countersSaturate : Obligations.CountersSaturate := by
  unfold Obligations.CountersSaturate
  refine ⟨fun d scope unit num n hw hg => ?_, fun d scope unit num n hw => ?_, fun d scope unit num n s u k h => ctrGet_bump_other h d n,
    EventHistory.bump_sameBut⟩
  · obtain ⟨hval, hovf⟩ := counted_sat hw hg (ctrGet d scope unit num) n
    obtain ⟨hkeep, hlast⟩ := bump_history hw hg d unit n
    rw [ctrGet_bump_same]
    exact ⟨hval, hovf, hkeep, hlast⟩
  · rw [ctrGet_bump_same, counted_wraps hw]

end Sys2Proof.Counters
end

section
/-!
The verbs of checkpoints and of the buddy (14 R324-R331), and CKPT_STAGED: the device that each leaves where its checks pass.
-/

namespace Sys2Proof.CheckpointVerbs

open Sys2Proof.Machine ObjectVerbs

/-! ### CKPT_BEGIN, CKPT_STATUS and CKPT_DRAIN -/

theorem findCkpt_of_checkCkpt {d : Dev} {v : Verb} {c : Ckpt} (h : checkCkpt d v = .ok c) : findCkpt d (ckptCtx v) (fld v 16 8) = some c := by
  simp only [checkCkpt, bind_ok] at h
  obtain ⟨-, -, h⟩ := h
  split at h
  next c' hc =>
    obtain rfl : c' = c := by simpa using h
    exact hc
  · simp at h

theorem ckptBeginBody_ok {v : Verb} {a d : Dev} (h : ckptBeginBody v a = .ok d) : ∃ bs,
    (bitSet (fld v 26 1) 3 = true → argRead a v (fld v 32 8) (4 * fld v 28 4) = .ok bs) ∧ (bitSet (fld v 26 1) 3 = false → bs = []) ∧
    d = registerOp a v (.ckpt v.seq ((List.range (fld v 28 4)).map (fun i => fieldAt bs (4 * i) 4))) := by
  simp only [ckptBeginBody, bind_ok, ite_bind_ok, failId_ite] at h
  obtain ⟨-, -, bs, hbs, -, -, -, -, -, -, -, -, -, h⟩ := h
  refine ⟨bs, fun hlist => by simpa [hlist] using hbs, fun hlist => ?_, (Except.ok.inj h).symm⟩
  simpa [hlist, eq_comm] using hbs

theorem ckptStatusBody_ok {v : Verb} {a d : Dev} (h : ckptStatusBody v a = .ok d) : ∃ c, findCkpt a (ckptCtx v) (fld v 16 8) = some c ∧ c.state ≠ 2 ∧
    d = finishOk (if fld v 32 8 = 0 then a else outWrite a v (fld v 32 8) (manifestBytes a c)) v [(8, 1, c.state),
      (9, 1, (if c.mirrored then 1 else 0) + (if c.durable then 2 else 0) + (if c.hosted then 4 else 0) + (if c.signed then 8 else 0) +
        (if c.mirrorFailed then 16 else 0)),
      (12, 4, (c.shards.filter (·.staged)).length), (16, 8, c.region.getD 0), (24, 4, c.damaged), (28, 4, (manifestBytes a c).length)] := by
  simp only [ckptStatusBody, bind_ok, failSt_ite] at h
  obtain ⟨-, -, c, hc, _, hstate, -, -, -, -, -, h⟩ := h
  exact ⟨c, findCkpt_of_checkCkpt hc, bne_iff_ne.1 (eq_true_of_need hstate), (Except.ok.inj h).symm⟩

/-- The device after a drain to flash has been noted: the drain is answered at once where the flash copy is durable, else the copy goes on. -/
def drainBegun (b : Dev) (c : Ckpt) : Dev :=
  match findCkpt b c.ctx c.step with
  | some x => if x.durable then answerDrains b x stOk else regionCatchUp b c.ctx c.step
  | none => b

theorem ckptDrainBody_ok {v : Verb} {a d : Dev} (h : ckptDrainBody sendRelease v a = .ok d) :
    ∃ c, findCkpt a (ckptCtx v) (fld v 16 8) = some c ∧
    (fld v 26 1 = 3 → d = finishOk (ckptEnd sendRelease a c) v []) ∧
    (fld v 26 1 = 2 → c.state ≠ 2 ∧ ckptReadable a c = true ∧ regionBytes c ≤ fld v 40 8 ∧ ∃ h : HostDrain, h.who = waiterOf v ∧
      h.ld = partLd a (ctxPart c.ctx) ∧ h.addr = fld v 32 8 ∧ h.bytes = fld v 40 8 ∧
      d = finish (updCkpt a c.ctx c.step (fun x => { x with hosts := x.hosts ++ [h] })) v stDeferred 0xFF []) ∧
    (fld v 26 1 = 1 → c.state ≠ 2 ∧ ∃ a1 b, (c.region.isSome = true → a1 = a) ∧ (c.region = none → takeRegion a c = some a1) ∧
      b = finish (updCkpt a1 c.ctx c.step (fun x => { x with drainWaits := x.drainWaits ++ [waiterOf v] })) v stDeferred 0xFF [] ∧
      d = drainBegun b c) := by
  simp only [ckptDrainBody, bind_ok] at h
  obtain ⟨-, -, c, hc, h⟩ := h
  refine ⟨c, findCkpt_of_checkCkpt hc, fun hmode => ?_, fun hmode => ?_, fun hmode => ?_⟩ <;> simp only [hmode] at h
  · exact (Except.ok.inj h).symm
  · simp only [bind_ok] at h
    obtain ⟨_, hstate, _, hroom, h⟩ := h
    have hstate := eq_true_of_need hstate
    rw [Bool.and_eq_true, bne_iff_ne] at hstate
    exact ⟨hstate.1, hstate.2, of_decide_eq_true (eq_true_of_need hroom), _, rfl, rfl, rfl, rfl, (Except.ok.inj h).symm⟩
  · simp only [bind_ok] at h
    obtain ⟨_, hstate, -, -, h⟩ := h
    refine ⟨bne_iff_ne.1 (eq_true_of_need hstate), ?_⟩
    split at h
    · simp at h
    next a1 hregion =>
      refine ⟨a1, _, fun hr => ?_, fun hr => ?_, rfl, (Except.ok.inj h).symm⟩
      · simpa [hr, eq_comm] using hregion
      · simpa [hr] using hregion

/-! ### RESTORE -/

theorem restoreBody_ok {v : Verb} {a d : Dev} (h : restoreBody v a = .ok d) :
    ∃ r : RestoreOp, r.seq = v.seq ∧ r.stage = 0 ∧ r.data = [] ∧ r.status = stOk ∧
    r.ctx = (if v.admin then fieldAt r.prm 2 2 else v.ctx) ∧ r.base = fieldAt r.prm 8 8 ∧
    argRead a v (fld v 16 8) 128 = .ok r.prm ∧ d = registerOp { a with restores := a.restores ++ [r] } v (.restore v.seq) := by
  simp only [restoreBody, bind_ok] at h
  obtain ⟨-, -, bs, hbs, -, -, -, -, -, -, h⟩ := h
  exact ⟨{ seq := v.seq, ctx := if v.admin then fieldAt bs 2 2 else v.ctx, prm := bs, stage := 0, data := [], bad := [], base := fieldAt bs 8 8
           size := 0, status := stOk }, rfl, rfl, rfl, rfl, rfl, rfl, hbs, (Except.ok.inj h).symm⟩

/-! ### BUDDY_PAIR and BUDDY_UNPAIR -/

/-- A number that is given to a new QP changes only the count of the numbers given (16 R387). -/
theorem takeQpn_eq_some {a b : Dev} {n : Nat} (h : takeQpn a = some (n, b)) : b.net.qps = a.net.qps ∧ b.buddy = a.buddy ∧ b.boot = a.boot := by
  obtain ⟨e, -, h⟩ := Option.map_eq_some_iff.1 h
  obtain rfl := (Prod.mk.inj h).2
  exact ⟨rfl, rfl, rfl⟩

/-- The area that PREPARE gives the partner, where the device has none yet (14 R327). -/
def areaGiven (b : Buddy) (gib : Nat) (granules : List Nat) (key : Nat) : Buddy :=
  if b.area.isSome then b else { b with area := some gib, granules := granules, rkey := key }

theorem areaGiven_keeps (b : Buddy) (gib : Nat) (granules : List Nat) (key : Nat) :
    (areaGiven b gib granules key).area = some (b.area.getD gib) ∧
    (b.area ≠ none → areaGiven b gib granules key = b) ∧ (areaGiven b gib granules key).held = b.held ∧
    (areaGiven b gib granules key).peer = b.peer ∧ (areaGiven b gib granules key).reqs = b.reqs := by
  cases harea : b.area <;> simp [areaGiven, harea]

theorem drawNat_eq (d : Dev) : drawNat d = (Config.freeNat d.draws, { d with draws := d.draws + 1 }) := rfl

theorem buddyPairBody_prepare {v : Verb} {a d : Dev} (hmode : fld v 16 1 = 1) (h : buddyPairBody v a = .ok d) :
    ∃ (q : Qp) (b : Dev) (l : Buddy), takeQpn a = some (q.qpn, b) ∧ q.part = none ∧ q.sub = fld v 17 1 ∧ q.state = 0 ∧
    l.ports = a.buddy.ports ++ [⟨fld v 17 1, q.qpn, fld v 18 1, false, none⟩] ∧ l.area = some (a.buddy.area.getD (fld v 20 4)) ∧
    (a.buddy.area ≠ none → l = { a.buddy with ports := l.ports }) ∧ l.held = a.buddy.held ∧ l.peer = a.buddy.peer ∧ l.reqs = a.buddy.reqs ∧
    d = finishOk { b with draws := b.draws + 2, net.qps := a.net.qps ++ [q], buddy := l } v
      [(8, 4, q.qpn), (12, 4, q.startPsn), (16, 4, l.rkey), (20, 4, l.area.getD 0), (24, 8, a.boot.serial)] := by
  unfold buddyPairBody at h
  obtain ⟨-, -, h⟩ := bind_ok.1 h
  rw [if_pos hmode] at h
  obtain ⟨-, -, h⟩ := bind_ok.1 h
  obtain ⟨-, -, h⟩ := bind_ok.1 h
  split at h
  · simp at h
  next qpn b htake =>
    obtain ⟨hqps, hbuddy, hboot⟩ := takeQpn_eq_some htake
    simp -zeta only [drawNat_eq] at h
    obtain ⟨harea, hkeep, hheld, hpeer, hreqs⟩ := areaGiven_keeps b.buddy (fld v 20 4) ((freeDdr a).take (fld v 20 4 / 4))
      (Config.freeNat (b.draws + 1) % 2 ^ 32)
    refine ⟨newQp { b with draws := b.draws + 2 } qpn none 0 (fld v 17 1) (fld v 18 1) 4096 0 0 (Config.freeNat b.draws % 2 ^ 24), b,
      { areaGiven b.buddy (fld v 20 4) _ _ with ports := b.buddy.ports ++ [⟨fld v 17 1, qpn, fld v 18 1, false, none⟩] }, htake, rfl, rfl, rfl,
      congrArg (·.ports ++ _) hbuddy, hbuddy ▸ harea, fun hsome => by rw [hkeep (hbuddy ▸ hsome), hbuddy],
      hheld.trans (congrArg Buddy.held hbuddy), hpeer.trans (congrArg Buddy.peer hbuddy), hreqs.trans (congrArg Buddy.reqs hbuddy), ?_⟩
    rw [← hqps, ← hboot]
    cases hsome : b.buddy.area with
    | none =>
      rw [if_neg (by simp [hsome])] at h
      rw [areaGiven, if_neg (by simp [hsome])]
      exact (Except.ok.inj h).symm
    | some gib =>
      rw [if_pos (by simp [hsome])] at h
      rw [areaGiven, if_pos (by simp [hsome])]
      exact (Except.ok.inj h).symm

theorem buddyPairBody_connect {v : Verb} {a d : Dev} (hmode : fld v 16 1 = 2) (h : buddyPairBody v a = .ok d) :
    ∃ p q b c, buddyPort a (fld v 17 1) = some p ∧ findQp a p.qpn = some q ∧ q.state = 0 ∧
    (∀ x, a.buddy.peer = some x → x = fld v 56 8) ∧
    b = qpConnect (drawNat a).2 q 14 7 7 (fld v 24 4) (fld v 28 4) ((drawNat a).1 % 2 ^ 48) (fld v 40 16) 0 ∧
    c = keepRunning { b with
      buddy.ports := updWhere (fun (x : BuddyPort) => x.sub == fld v 17 1) (fun x => { x with connecting := some v.seq }) b.buddy.ports
      buddy.peer := some (fld v 56 8), buddy.peerRkey := fld v 32 4, buddy.lastRx := b.tim.elapsed } v ∧
    d = sendRequest c { p with connecting := some v.seq } 1 ⟨a.boot.serial, 0, 0, 0⟩ 0 (a.buddy.area.getD 0) [] := by
  unfold buddyPairBody at h
  obtain ⟨-, -, h⟩ := bind_ok.1 h
  rw [if_neg (by omega)] at h
  split at h
  · simp at h
  next p hp =>
    split at h
    · simp at h
    next q hq =>
      obtain ⟨_, hneed, h⟩ := bind_ok.1 h
      obtain ⟨hstate, hpeer⟩ := Bool.and_eq_true_iff.1 (eq_true_of_need hneed)
      exact ⟨p, q, _, _, hp, hq, beq_iff_eq.1 hstate, fun x hx => by simpa [hx] using hpeer, rfl, rfl, (Except.ok.inj h).symm⟩

/-- The buddy without ports, partner or request, and with the sealed mirrors only. -/
def unpaired (b : Buddy) : Buddy := { b with ports := [], peer := none, reqs := [], lost := false, held := b.held.filter (·.isSealed) }

/-- What BUDDY_UNPAIR leaves of the buddy: all of it but the area and the sealed mirrors, and those too with DROP_HELD. -/
theorem buddyUnpairBody_ok {v : Verb} {a d : Dev} (h : buddyUnpairBody v a = .ok d) : ∃ (b : Dev) (l : Buddy),
    b = (failMirrors (nextRelease a)).buddy.ports.foldl (fun x p => dropQp x p.qpn) (failMirrors (nextRelease a)) ∧ l.ports = [] ∧ l.peer = none ∧ l.reqs = [] ∧
    (bitSet (fld v 16 1) 0 = true → l.area = none ∧ l.held = [] ∧ l.granules = []) ∧
    (bitSet (fld v 16 1) 0 = false → l.area = b.buddy.area ∧ l.held = b.buddy.held.filter (·.isSealed) ∧ l.granules = b.buddy.granules) ∧
    d = finishOk { b with buddy := l, exch := if bitSet (fld v 16 1) 0 then memClear b.exch areaKey (2 ^ 40) else b.exch } v [] := by
  unfold buddyUnpairBody at h
  obtain ⟨-, -, h⟩ := bind_ok.1 h
  have hd := (Except.ok.inj h).symm
  cases hdrop : bitSet (fld v 16 1) 0 with
  | true =>
    rw [if_pos hdrop, if_pos hdrop] at hd
    exact ⟨_, { unpaired _ with held := [], area := none, granules := [] }, rfl, rfl, rfl, rfl, fun _ => ⟨rfl, rfl, rfl⟩, nofun, hd⟩
  | false =>
    rw [if_neg (by simp [hdrop]), if_neg (by simp [hdrop])] at hd
    exact ⟨_, unpaired _, rfl, rfl, rfl, rfl, nofun, fun _ => ⟨rfl, rfl, rfl⟩, hd⟩

/-! ### CKPT_STAGED -/

theorem ckptStaged_of_formed {send : Dev → Nat → Nat → Dev} {a a1 : Dev} {ctx step : Nat} {c : Ckpt} (hc : findCkpt a ctx step = some c)
    (hstate : c.state = 0) (hall : c.shards.all (·.staged) = true)
    (hroom : allocDdr a (ctxPart ctx) (roundUp (manifestSize c.signed c.shards.length) 16384) (ckptKey ctx step) 0 = some a1) :
    ckptStaged send ctx step a = send (regionSeal (raiseCkpt (updCkpt a1 ctx step (fun x => { x with state := 1 })) c 0x0910
      [(4, c.shards.length), (8, sumNat (c.shards.map (fun s => s.raw.length)))]) ctx step) ctx step := by
  simp only [ckptStaged, hc, hstate, hall, hroom]
  rfl

/-- Settles O25: each verb by its body where the checks pass, and CKPT_STAGED by its own rule. -/
theorem checkpointVerbsComplete : Obligations.CheckpointVerbsComplete := by
  unfold Obligations.CheckpointVerbsComplete
  refine ⟨verbDoes_of (fun _ _ => rfl) fun _ _ _ => ckptBeginBody_ok, verbDoes_of (fun _ _ => rfl) fun _ _ _ => ckptStatusBody_ok,
    verbDoes_of (fun _ _ => rfl) fun _ _ _ => ckptDrainBody_ok, verbDoes_of (fun _ _ => rfl) fun _ _ _ => restoreBody_ok,
    verbDoes_of (fun _ _ => rfl) fun _ _ _ h => ⟨fun hmode => buddyPairBody_prepare hmode h, fun hmode => buddyPairBody_connect hmode h⟩,
    verbDoes_of (fun _ _ => rfl) fun _ _ _ => buddyUnpairBody_ok, fun ctx step c a1 => does_of (ckptStaged sendManifest ctx step) (fun _ => rfl) ?_⟩
  rintro a - ⟨hc, hstate, hall, hroom⟩
  exact ckptStaged_of_formed hc hstate hall hroom

end Sys2Proof.CheckpointVerbs
end

section
/-!
Packets of peers (16 R369, R370; 14 R328): what sorting out a request by its PSN, an RDMA WRITE and a control message leave, said once for each of
their outcomes.
-/

namespace Sys2Proof.PeerPackets

open Sys2Proof.Machine

variable {h : RxHead} {a b : Dev} {q : Qp} {m data : List Byte} {va rkey n addr k left key i : Nat} {w : Option Window} {x : Window} {p : BuddyPort}
  {onImm : Nat → Nat → Nat → Dev → Dev}

/-! ### The place of a request -/

theorem inOrder_of_arrives (ha : arrives h a q b) (ok dup : Qp → Dev → Dev) : inOrder a h ok dup = ok q b := by
  obtain ⟨b0, hrx, hplace, rfl⟩ := ha
  simp only [inOrder, hrx, hplace]

theorem inOrder_of_ahead (hrx : rxPacket a h = (some q, b)) (hplace : psnPlace q h.psn = 1) (hnak : q.nakSent = false) (ok dup : Qp → Dev → Dev) :
    inOrder a h ok dup = sendNak (updQp (ceSeen b q h) q.qpn (fun x => { x with nakSent := true })) q.qpn .nakSeq := by
  simp only [inOrder, hrx, hplace, hnak, Bool.false_eq_true, if_false]

/-! ### RDMA WRITE -/

/-- The device after a packet of an RDMA WRITE has placed its bytes and taken its PSN. -/
def written (b : Dev) (q : Qp) (h : RxHead) (data : List Byte) (addr k left key : Nat) : Dev :=
  takeInOrder (updQp (exWrite b key data) q.qpn (fun x => { x with
    cur := if h.last then none else some (addr + data.length, k, left - data.length) })) q.qpn 1 h

section
variable (ha : arrives h a q b) (hcur : (if h.first then some (va, rkey, n) else q.cur) = some (addr, k, left)) (hfit : data.length ≤ left)
  (hlast : h.last = true → data.length = left)
include ha hcur hfit hlast

theorem writeReceive_placed (ht : rdmaTarget b q k addr left = some (key, w)) :
    writeReceive h va rkey n none data onImm a = written b q h data addr k left key := by
  have hlen : (decide (left < data.length) || h.last && left != data.length) = false := by simpa [hfit] using fun hl => (hlast hl).symm
  simp only [writeReceive, inOrder_of_arrives ha, hcur, hlen, ht]
  rfl

theorem writeReceive_denied (hpart : q.part.isSome = true) (ht : rdmaTarget b q k addr left = none) (imm : Option Nat) :
    writeReceive h va rkey n imm data onImm a = refuse b q.qpn .nakAccess := by
  have hlen : (decide (left < data.length) || h.last && left != data.length) = false := by simpa [hfit] using fun hl => (hlast hl).symm
  have hnone : (decide (left = 0) && q.part.isNone && h.first) = false := by simp [Option.ne_none_iff_isSome.2 hpart]
  simp only [writeReceive, inOrder_of_arrives ha, hcur, hlen, ht, hnone]
  rfl

end

section
variable (ha : arrives h a q b) (hcur : (if h.first then some (va, rkey, n) else q.cur) = some (addr, k, left)) (hlast : h.last = true)
  (hlen : data.length = left)
include ha hcur hlast hlen

theorem writeReceive_full (ht : rdmaTarget b q k addr left = some (key, some x)) (hl : launches x i = true)
    (hfull : 64 ≤ launchedJobs b x.id ∨ b.boot.powerFail = true) :
    writeReceive h va rkey n (some i) data onImm a = sendNak b q.qpn (.rnr 10000) := by
  have hfull : (decide (64 ≤ launchedJobs b x.id) || b.boot.powerFail) = true := by simpa using hfull
  subst hlen
  simp [writeReceive, inOrder_of_arrives ha, hcur, hlast, ht, hl, hfull]

theorem writeReceive_launched (ht : rdmaTarget b q k addr left = some (key, some x))
    (hroom : launches x i = true → launchedJobs b x.id < 64 ∧ b.boot.powerFail = false) :
    writeReceive h va rkey n (some i) data onImm a = launch (written b q h data addr k left key) x q i := by
  have hfull : (launches x i && (decide (64 ≤ launchedJobs b x.id) || b.boot.powerFail)) = false := by
    by_cases hl : launches x i = true
    · obtain ⟨hjobs, hpower⟩ := hroom hl
      simp [hpower, show ¬64 ≤ launchedJobs b x.id by omega]
    · simp [hl]
  subst hlen
  simp [writeReceive, inOrder_of_arrives ha, hcur, hlast, ht, hfull, written]

theorem writeReceive_buddy (ht : rdmaTarget b q k addr left = some (key, none)) :
    writeReceive h va rkey n (some i) data onImm a = onImm i q.qpn (key + data.length - areaKey) (written b q h data addr k left key) := by
  subst hlen
  simp [writeReceive, inOrder_of_arrives ha, hcur, hlast, ht, written]

end

/-! ### SEND -/

theorem sendReceive_of_partition (ha : arrives h a q b) (hpart : q.part.isSome = true) (found : List Byte → Dev → Dev) (type : Nat) :
    sendReceive found type h m a = refuse b q.qpn .nakInvalid := by
  simp only [sendReceive, inOrder_of_arrives ha, hpart, if_true]

theorem sendReceive_of_buddy {type : Nat} (ha : arrives h a q b) (hpart : q.part = none) (htype : type = 0 ∨ msgType m = type)
    (hp : (takeInOrder b q.qpn 1 h).buddy.ports.find? (fun x => x.qpn == q.qpn) = some p) (found : List Byte → Dev → Dev) :
    sendReceive found type h m a = onControl found p m (takeInOrder b q.qpn 1 h) := by
  have htype : (decide (type = 0) || decide (msgType m = type)) = true := by simpa using htype
  simp only [sendReceive, inOrder_of_arrives ha, hpart, Option.isSome_none, Bool.false_eq_true, if_false, hp, htype, if_true]

theorem sendReceive_of_message {type : Nat} (hm : msgArrives type h m a p b) (found : List Byte → Dev → Dev) :
    sendReceive found type h m a = onControl found p m b := by
  obtain ⟨q, c, ha, hpart, htype, hp, rfl⟩ := hm
  exact sendReceive_of_buddy ha hpart (.inr htype) hp found

theorem msgType_of_message {type : Nat} (hm : msgArrives type h m a p b) : msgType m = type := by
  obtain ⟨q, c, -, -, htype, -, -⟩ := hm
  exact htype

/-- The command of a control message, where the message arrives in order, does what the message's type says. -/
theorem does_message {c : Instr} {type : Nat} {pre post : Dev → Prop} (hx : ∀ s, exec c s = onDev (sendReceive restoreFound type h m) s)
    (hpre : ∀ a, pre a → msgArrives type h m a p b) (hpost : ∀ a, pre a → msgType m = type → post (onControl restoreFound p m b)) :
    Does c pre (fun _ d => post d) := by
  refine does_of _ hx fun a _ ha => ?_
  rw [sendReceive_of_message (hpre a ha)]
  exact hpost a ha (msgType_of_message (hpre a ha))

end Sys2Proof.PeerPackets
end

section
/-!
The buddy link (14 R327-R331): its control messages, its timers, and the messages that make, seal and find a mirror.
-/

namespace Sys2Proof.BuddyLink

open Sys2Proof.Machine PeerPackets

/-! ### Control messages that settle or answer -/

theorem onHelloAck_of_new {p : BuddyPort} (hup : p.connected = false) (hwait : p.connecting = none) (b : Dev) : onHelloAck p b = raiseDev { b with
    buddy.reqs := dropWhere (fun r => msgType r.msg == 1 && r.sub == p.sub) b.buddy.reqs
    buddy.ports := updWhere (fun x => x.sub == p.sub) (fun x => { x with connected := true, connecting := none }) b.buddy.ports
    buddy.lost := false } 0x0916 [(8, b.buddy.peer.getD 0), (1, p.sub)] := by
  simp only [onHelloAck, hup, hwait, Option.bind_none, Bool.false_eq_true, if_false]

theorem onFind_of_sealed {p : BuddyPort} {m : List Byte} {b : Dev} {x : HeldMirror} (hx : findHeld b (msgKey m) = some x) (hs : x.isSealed = true) :
    onFind p m b = sendAnswer b p 11 (msgKey m) 0 x.off x.bytes := by
  simp only [onFind, hx, hs, if_true]

theorem onFind_of_unknown {p : BuddyPort} {m : List Byte} {b : Dev} (hx : findHeld b (msgKey m) = none) :
    onFind p m b = sendAnswer b p 11 (msgKey m) 5 0 0 := by
  simp only [onFind, hx]

/-! ### Timers -/

theorem heartbeat_of_due {a : Dev} {dt : Nat} (hdue : (advance a dt).buddy.beatAt ≤ (advance a dt).tim.elapsed) (hports : connectedPorts a ≠ 0) :
    heartbeat dt a = (a.buddy.ports.filter (·.connected)).foldl (fun x p => sendAnswer x p 3 ⟨a.boot.serial, 0, 0, 0⟩ 0 0 0)
      { advance a dt with buddy.beatAt := (advance a dt).tim.elapsed + 1000000 } := by
  unfold heartbeat
  rw [if_neg]
  · rfl
  · rw [Bool.or_eq_true, decide_eq_true_iff, decide_eq_true_iff]
    exact not_or.2 ⟨Nat.not_lt.2 hdue, hports⟩

theorem resendRequest_of_due {a : Dev} {dt seq : Nat} {r : CtlReq} {p : BuddyPort} (hr : a.buddy.reqs.find? (fun x => x.seq == seq) = some r)
    (hdue : r.at' + 10000000 ≤ (advance a dt).tim.elapsed) (hleft : r.resent < 3) (hp : buddyPort a r.sub = some p) :
    resendRequest seq dt a = sendControl { advance a dt with
      buddy.reqs := updWhere (fun x => x.seq == seq) (fun x => { x with at' := (advance a dt).tim.elapsed, resent := x.resent + 1 }) a.buddy.reqs } p r.msg := by
  have hp : a.buddy.ports.find? (fun x => x.sub == r.sub) = some p := hp
  simp only [resendRequest, advance_buddy, hr, Nat.not_lt.2 hdue, Nat.not_le.2 hleft, if_false, buddyPort, hp]

theorem buddyLoss_of_silence {a : Dev} {dt : Nat} (hports : connectedPorts a ≠ 0) (hdue : a.buddy.lastRx + 100000000 ≤ (advance a dt).tim.elapsed) :
    buddyLoss dt a = failMirrors (raiseDev { advance a dt with
      buddy.ports := a.buddy.ports.map (fun p => { p with connected := false }), buddy.lost := true, buddy.reqs := []
      buddy.held := a.buddy.held.filter (·.isSealed) } 0x0915 [(8, a.buddy.peer.getD 0), (1, connectedPorts a)]) := by
  unfold buddyLoss
  rw [if_neg]
  · rfl
  · rw [Bool.or_eq_true, decide_eq_true_iff, decide_eq_true_iff]
    exact not_or.2 ⟨hports, Nat.not_lt.2 hdue⟩

/-- Settles O26: each control message by its type, each timer once it is due. -/
theorem buddyMessagesAndTimers : Obligations.BuddyMessagesAndTimers := by
  unfold Obligations.BuddyMessagesAndTimers
  refine ⟨fun h m p b => does_message (fun _ => rfl) (fun _ ha => ha) fun _ _ ht => ?_,
    fun h m p b => does_message (fun _ => rfl) (fun _ ha => ha.1) fun _ ⟨_, hup, hwait⟩ ht => ?_,
    fun h m p b => does_message (fun _ => rfl) (fun _ ha => ha) fun _ _ ht => ?_,
    fun h m p b => does_message (fun _ => rfl) (fun _ ha => ha) fun _ _ ht => ?_,
    fun h m p b => does_message (fun _ => rfl) (fun _ ha => ha) fun _ _ ht => ?_,
    fun h m p b x => does_message (fun _ => rfl) (fun _ ha => ha.1) fun _ ⟨_, hx, hs⟩ ht => ?_,
    fun h m p b => does_message (fun _ => rfl) (fun _ ha => ha.1) fun _ ⟨_, hx⟩ ht => ?_,
    fun dt => does_of (heartbeat dt) (fun _ => rfl) fun a _ ⟨hdue, hports⟩ => heartbeat_of_due hdue hports,
    fun n dt r p => does_of (resendRequest n dt) (fun _ => rfl) fun a _ ⟨hr, hdue, hleft, hp⟩ => resendRequest_of_due hr hdue hleft hp,
    fun dt => does_of (buddyLoss dt) (fun _ => rfl) fun a _ ⟨hports, hdue⟩ => buddyLoss_of_silence hports hdue⟩
  all_goals simp only [onControl, ht]
  · rfl
  · exact onHelloAck_of_new hup hwait b
  · rfl
  · exact onFind_of_sealed hx hs
  · exact onFind_of_unknown hx

end Sys2Proof.BuddyLink
end

section
/-!
The messages that make, seal and find a mirror (14 R329-R331), and the shard writes.
-/

namespace Sys2Proof.Mirrors

open Sys2Proof.Machine PeerPackets

variable {p : BuddyPort} {m : List Byte} {b : Dev} {c : Ckpt} {x : HeldMirror} {r : RestoreOp}

/-- The extent that OPEN asks for, at an offset of the area. -/
def openedMirror (m : List Byte) (off : Nat) : HeldMirror :=
  { serial := (msgKey m).serial, ctx := (msgKey m).ctx, lpart := (msgKey m).lpart, step := (msgKey m).step, off := off, bytes := msgBytes m, isSealed := false
    arrived := [], sealWait := none }

theorem onOpen_of_fits {off : Nat} (hnew : findHeld b (msgKey m) = none) (hroom : b.buddy.held.length < 256)
    (hfit : firstFit b.buddy.held ((b.buddy.area.getD 0) * 2 ^ 30) (msgBytes m) (b.buddy.held.length + 1) 0 = some off) :
    onOpen p m b = sendAnswer { b with buddy.held := b.buddy.held ++ [openedMirror m off] } p 5 (msgKey m) 0 off (msgBytes m) := by
  simp only [onOpen, hnew, Option.isSome_none, Bool.false_eq_true, if_false, Nat.not_le.2 hroom, hfit, openedMirror]

theorem onGrant_of_granted (hc : ckptOfKey (settleRequest b 4 (msgKey m)) (msgKey m) = some c) (hasked : c.mirror = 1) (hst : msgStatus m = 0) :
    onGrant m b = sendManifest ((List.range c.shards.length).foldl (fun a n => sendShard a c.ctx c.step n)
      (updCkpt (settleRequest b 4 (msgKey m)) c.ctx c.step (fun x => { x with mirror := 2, mirrorOff := msgOff m }))) c.ctx c.step := by
  simp only [onGrant, hc, hasked, hst, ne_eq, not_true_eq_false, if_false]

theorem onSeal_of_sealed (hx : findHeld b (msgKey m) = some x) (hs : x.isSealed = true) : onSeal p m b = sendAnswer b p 7 (msgKey m) 0 x.off x.bytes := by
  simp only [onSeal, hx, hs, if_true]

theorem onSealed_of_whole (hc : ckptOfKey (settleRequest b 6 (msgKey m)) (msgKey m) = some c) (hasked : c.mirror = 3) (hst : msgStatus m = 0) :
    onSealed m b = raiseCkpt (updCkpt (settleRequest b 6 (msgKey m)) c.ctx c.step (fun x => { x with mirror := 4, mirrored := true })) c 0x0911
      [(8, b.buddy.peer.getD 0)] := by
  simp only [onSealed, hc, hasked, hst, ne_eq, not_true_eq_false, if_false]
  rfl

theorem restoreFound_of_found (hr : b.restores.find? (fun r => r.stage == 5 && rKey r == msgKey m) = some r) (hst : msgStatus m = 0) :
    restoreFound m b = readMore b { r with base := msgOff m, size := msgBytes m } := by
  simp only [restoreFound, hr, hst, ne_eq, not_true_eq_false, if_false]

/-- Settles O27: each message by its type, and a shard write as a buddy WRITE with immediate. -/
theorem mirrorMessagesTakeEffect : Obligations.MirrorMessagesTakeEffect := by
  unfold Obligations.MirrorMessagesTakeEffect
  refine ⟨fun h m p b off => does_of _ (fun _ => rfl) fun a _ ⟨hm, hnew, hroom, hfit⟩ => ?_,
    fun h m p b c => does_message (fun _ => rfl) (fun _ ha => ha.1) fun _ ⟨_, hc, hasked, hst⟩ ht => ?_,
    fun h m p b x => does_message (fun _ => rfl) (fun _ ha => ha.1) fun _ ⟨_, hx, hs⟩ ht => ?_,
    fun h m p b c => does_message (fun _ => rfl) (fun _ ha => ha.1) fun _ ⟨_, hc, hasked, hst⟩ ht => ?_,
    fun h m p b r => does_message (fun _ => rfl) (fun _ ha => ha.1) fun _ ⟨_, hr, hst⟩ ht => ?_,
    fun h va rkey len imm payload q b key =>
      does_of (fun a => settleJobs (writeReceive h va rkey len (some imm) payload (fun i _ off => shardArrived i off) a)) (fun _ => rfl) ?_⟩
  · rw [sendReceive_of_message hm, onControl, msgType_of_message hm]
    exact ⟨openedMirror m off, rfl, rfl, rfl, rfl, rfl, rfl, rfl, onOpen_of_fits hnew hroom hfit⟩
  · rw [onControl, ht]
    exact onGrant_of_granted hc hasked hst
  · rw [onControl, ht]
    exact onSeal_of_sealed hx hs
  · rw [onControl, ht]
    exact onSealed_of_whole hc hasked hst
  · rw [onControl, ht]
    exact restoreFound_of_found (b := settleRequest b 10 (msgKey m)) hr hst
  · rintro a - ⟨ha, hfirst, hlast, hlen, ht⟩
    rw [writeReceive_buddy ha (by rw [if_pos hfirst]) hlast hlen ht, written, hlast]
    rfl

end Sys2Proof.Mirrors
end

section
/-!
The requests of peers (16 R370, R372), and what peers answer (16 R368, R369, R378).
-/

namespace Sys2Proof.PeerTraffic

open Sys2Proof.Machine PeerPackets

/-! ### READ requests -/

theorem readRequest_of_readable {h : RxHead} {va rkey len key : Nat} {a b : Dev} {q : Qp} {w : Option Window} (ha : arrives h a q b)
    (ht : rdmaTarget b q rkey va len = some (key, w)) (hr : ∀ x, w = some x → x.readOk = true) :
    readRequest h va rkey len a = updQp (readAnswer b q (h.psn % 2 ^ 24) key len) q.qpn (fun x => { x with
      expPsn := (x.expPsn + Nat.max 1 (ceilDiv len q.pmtu)) % 2 ^ 24, nakSent := false, msn := (x.msn + 1) % 2 ^ 24, ackDue := 0, ackSince := none }) := by
  cases w with
  | none => simp only [readRequest, inOrder_of_arrives ha, ht, if_true]
  | some x => simp only [readRequest, inOrder_of_arrives ha, ht, hr x rfl, if_true]

theorem readRequest_of_unreadable {h : RxHead} {va rkey len : Nat} {a b : Dev} {q : Qp} (ha : arrives h a q b)
    (ht : rdmaTarget b q rkey va len = none ∨ ∃ key x, rdmaTarget b q rkey va len = some (key, some x) ∧ x.readOk = false) :
    readRequest h va rkey len a = refuse b q.qpn .nakAccess := by
  rcases ht with ht | ⟨key, x, ht, hr⟩
  · simp only [readRequest, inOrder_of_arrives ha, ht, if_true]
  · simp only [readRequest, inOrder_of_arrives ha, ht, hr, Bool.false_eq_true, if_false, if_true]

/-- A launch is a WRITE with immediate whose immediate value names a kind. -/
theorem launches_kind {w : Window} {imm : Nat} (h : launches w imm = true) : 0 < imm / 2 ^ 28 := by
  simp only [launches, inR, Bool.and_eq_true, decide_eq_true_eq] at h
  omega

/-- Settles O32: each request by the outcome of its packets. -/
theorem peerRequestsAreServed : Obligations.PeerRequestsAreServed := by
  unfold Obligations.PeerRequestsAreServed
  refine ⟨fun h va rkey n data q b addr k left key w => does_of (writeReceive h va rkey n none data fun _ _ _ d => d) (fun _ => rfl) ?_,
    fun h va rkey n imm data q b addr k left key w => does_of
      (fun a => settleJobs (writeReceive h va rkey n (some imm) data (fun i _ off => shardArrived i off) a)) (fun _ => rfl) ?_,
    fun h va rkey n imm data q b addr k left key w => does_of
      (fun a => settleJobs (writeReceive h va rkey n (some imm) data (fun i _ off => shardArrived i off) a)) (fun _ => rfl) ?_,
    fun h va rkey n data q b addr k left hpart => does_of (writeReceive h va rkey n none data fun _ _ _ d => d) (fun _ => rfl) ?_,
    fun h va rkey len q b key w => does_of (readRequest h va rkey len) (fun _ => rfl) fun a _ ⟨ha, ht, hr⟩ => readRequest_of_readable ha ht hr,
    fun h va rkey len q b => does_of (readRequest h va rkey len) (fun _ => rfl) fun a _ ⟨ha, ht⟩ => readRequest_of_unreadable ha ht,
    fun h m q b => does_of (sendReceive restoreFound 0 h m) (fun _ => rfl) fun a _ ⟨ha, hpart⟩ => sendReceive_of_partition ha hpart _ _,
    fun h m q b p => does_of (sendReceive restoreFound 0 h m) (fun _ => rfl) fun a _ ⟨ha, hpart, hp⟩ =>
      sendReceive_of_buddy ha hpart (.inl rfl) hp _,
    fun h va rkey n data q b => does_of (writeReceive h va rkey n none data fun _ _ _ d => d) (fun _ => rfl) ?_⟩
  · rintro a - ⟨ha, hcur, hfit, hlast, ht⟩
    exact writeReceive_placed ha hcur hfit hlast ht
  · rintro a - ⟨ha, hcur, hlast, hlen, ht, hroom⟩
    rw [writeReceive_launched ha hcur hlast hlen ht fun hl => hroom (launches_kind hl), written, hlast]
    rfl
  · rintro a - ⟨ha, hcur, hlast, hlen, ht, hl, hfull⟩
    rw [writeReceive_full ha hcur hlast hlen ht hl hfull]
  · rintro a - ⟨ha, hcur, hfit, hlast, ht⟩
    exact writeReceive_denied ha hcur hfit hlast hpart ht none
  · rintro a - ⟨hrx, hplace, hnak⟩
    unfold writeReceive
    exact inOrder_of_ahead hrx hplace hnak _ _

/-! ### Answers -/

theorem readResponse_of_part {h : RxHead} {data : List Byte} {a b : Dev} {q : Qp} {r : ReadOut} (hrx : rxPacket a h = (some q, b))
    (hr : q.reads.find? (fun r => (r.psn + r.got.length / Nat.max 1 q.pmtu) % 2 ^ 24 == h.psn % 2 ^ 24) = some r)
    (hpart : ((r.got ++ data).take r.len).length < r.len) :
    readResponse h data a = updQp (ceSeen b q h) q.qpn (fun x => { x with
      reads := updWhere (fun y => y == r) (fun y => { y with got := (r.got ++ data).take r.len }) x.reads }) := by
  simp only [readResponse, hrx, hr, hpart, if_true]

theorem readResponse_of_whole {h : RxHead} {data : List Byte} {a b : Dev} {q : Qp} {r : ReadOut} {seq n : Nat} (hrx : rxPacket a h = (some q, b))
    (hr : q.reads.find? (fun r => (r.psn + r.got.length / Nat.max 1 q.pmtu) % 2 ^ 24 == h.psn % 2 ^ 24) = some r)
    (hwhole : ((r.got ++ data).take r.len).length = r.len) (hwhy : r.why = .restore seq n) :
    readResponse h data a = restoreData seq ((r.got ++ data).take r.len)
      (qpProgress (updQp (ceSeen b q h) q.qpn (fun x => { x with reads := dropWhere (fun y => y == r) x.reads })) q.qpn (h.psn % 2 ^ 24)) := by
  have hdone : ¬((r.got ++ data).take r.len).length < r.len := by omega
  simp only [readResponse, hrx, hr, hdone, if_false, hwhy]

section
variable {h : RxHead} {a b : Dev} {q y : Qp} (hrx : rxPacket a h = (some q, b))
include hrx

theorem ackReceive_of_taken : ackReceive h a = qpProgress (ceSeen b q h) q.qpn (h.psn % 2 ^ 24) := by
  simp only [ackReceive, hrx]

theorem nakReceive_sequence (t : Nat) : nakReceive h 0 t a =
    qpRetry (qpProgress (countSub (ceSeen b q h) q.sub 15 1) q.qpn ((h.psn + 2 ^ 24 - 1) % 2 ^ 24)) q.qpn 1 := by
  simp only [nakReceive, hrx]

/-- An RNR NAK first frees what it acknowledges; then it waits its time, or ends the QP. -/
theorem nakReceive_rnr {t : Nat} {d : Dev} (hd : d = qpProgress (countSub (ceSeen b q h) q.sub 15 1) q.qpn ((h.psn + 2 ^ 24 - 1) % 2 ^ 24))
    (hy : findQp d q.qpn = some y) : nakReceive h 1 t a =
    if y.rnrCfg ≠ 7 ∧ y.rnrLeft = 0 then qpError d q.qpn 2
    else updQp d q.qpn (fun x => { x with
      rnrLeft := if x.rnrCfg = 7 then x.rnrLeft else x.rnrLeft - 1, rnrUntil := some (d.tim.elapsed + t), ackStart := none }) := by
  subst hd
  simp only [nakReceive, hrx, hy, Bool.and_eq_true, decide_eq_true_eq]

theorem nakReceive_fatal {code : Nat} (hcode : 2 ≤ code) (t : Nat) :
    nakReceive h code t a = qpError (countSub (ceSeen b q h) q.sub 15 1) q.qpn 3 := by
  obtain ⟨n, rfl⟩ : ∃ n, code = n + 2 := ⟨code - 2, by omega⟩
  simp only [nakReceive, hrx]

theorem cnpReceive_of_taken {s : SubPort} (hs : findSub (countSub b q.sub 13 1) q.sub = some s) : cnpReceive h a =
    (let al := dyAdd (dyMul (dyOneMinus (dyNat 1) (orDefault s.cls.gShift 8)) q.alpha) ⟨1, orDefault s.cls.gShift 8⟩
    updQp (countSub b q.sub 13 1) q.qpn (fun x => { x with
      alpha := al, target := x.rate, rate := dyMax (dyNat (orDefault s.cls.rateMin 100)) (dyMul q.rate (dyOneMinus al 1)), quiet := 0, cnpSeen := true })) := by
  simp only [cnpReceive, hrx, hs]

end

/-- Settles O33: each answer by what it leaves of the QP. -/
theorem peerAnswersAreTaken : Obligations.PeerAnswersAreTaken := by
  unfold Obligations.PeerAnswersAreTaken
  refine ⟨fun h data q b r => does_of (readResponse h data) (fun _ => rfl) fun a _ ⟨hrx, hr, hpart⟩ => readResponse_of_part hrx hr hpart,
    fun h data q b r seq n => does_of (readResponse h data) (fun _ => rfl) fun a _ ⟨hrx, hr, hwhole, hwhy⟩ => readResponse_of_whole hrx hr hwhole hwhy,
    fun h q b => does_of (ackReceive h) (fun _ => rfl) fun a _ hrx => ackReceive_of_taken hrx,
    fun h t q b => does_of (nakReceive h 0 t) (fun _ => rfl) fun a _ hrx => nakReceive_sequence hrx t,
    fun h t q b y => does_of (nakReceive h 1 t) (fun _ => rfl) fun a _ ⟨hrx, hy, hleft⟩ => ?_,
    fun h t q b y => does_of (nakReceive h 1 t) (fun _ => rfl) fun a _ ⟨hrx, hy, hcfg, hleft⟩ => ?_,
    fun h code t q b hcode => does_of (nakReceive h code t) (fun _ => rfl) fun a _ hrx => nakReceive_fatal hrx hcode t,
    fun h q b s => does_of (cnpReceive h) (fun _ => rfl) fun a _ ⟨hrx, hs⟩ => cnpReceive_of_taken hrx hs⟩
  · rw [nakReceive_rnr hrx rfl hy, if_neg (by omega)]
  · rw [nakReceive_rnr hrx rfl hy, if_pos ⟨hcfg, hleft⟩]

end Sys2Proof.PeerTraffic
end

section
/-!
The other frames of a sub-port (16 R366, R377): what is answered, what is dropped and counted, and what PFC pauses.
-/

namespace Sys2Proof.OtherFrames

open Sys2Proof.Machine

variable {a : Dev} {s len : Nat} {x : SubPort}

theorem rxFrame_of_up (hx : findSub a s = some x) (hup : x.up = true) (len : Nat) :
    rxFrame a s len = (some x, countSub (countSub a s 1 1) s 3 len) := by
  simp only [rxFrame, hx, hup, if_true]

theorem arpRequest_of_own (hx : findSub a s = some x) (hup : x.up = true) (hip : x.ipv4 ≠ 0) (mac ip : Nat) :
    arpRequest s len mac ip x.ipv4 a = sendCtl (countSub (countSub a s 1 1) s 3 len) s (.arpReply mac ip) := by
  simp [arpRequest, rxFrame_of_up hx hup, hip]

theorem arpRequest_of_other {t : Nat} (hx : findSub a s = some x) (hup : x.up = true) (hip : x.ipv4 = 0 ∨ x.ipv4 ≠ t) (mac ip : Nat) :
    arpRequest s len mac ip t a = countSub (countSub (countSub a s 1 1) s 3 len) s 7 1 := by
  have hnot : (decide (x.ipv4 ≠ 0) && decide (x.ipv4 = t)) = false := by simpa [or_iff_not_imp_left] using hip
  simp only [arpRequest, rxFrame_of_up hx hup, hnot, Bool.false_eq_true, if_false]

theorem neighborSolicit_of_own (hx : findSub a s = some x) (hup : x.up = true) (hip : x.ipv6 ≠ 0) (mac ip : Nat) :
    neighborSolicit s len mac ip x.ipv6 a = sendCtl (countSub (countSub a s 1 1) s 3 len) s (.neighborAdv mac ip) := by
  simp [neighborSolicit, rxFrame_of_up hx hup, hip]

theorem neighborSolicit_of_other {t : Nat} (hx : findSub a s = some x) (hup : x.up = true) (hip : x.ipv6 = 0 ∨ x.ipv6 ≠ t) (mac ip : Nat) :
    neighborSolicit s len mac ip t a = countSub (countSub (countSub a s 1 1) s 3 len) s 7 1 := by
  have hnot : (decide (x.ipv6 ≠ 0) && decide (x.ipv6 = t)) = false := by simpa [or_iff_not_imp_left] using hip
  simp only [neighborSolicit, rxFrame_of_up hx hup, hnot, Bool.false_eq_true, if_false]

theorem otherFrame_of_up (hx : findSub a s = some x) (hup : x.up = true) (ok : Bool) :
    otherFrame s len ok a = countSub (countSub (countSub a s 1 1) s 3 len) s (if !ok then 5 else if 4224 < len then 6 else 7) 1 := by
  simp only [otherFrame, rxFrame_of_up hx hup]

/-! ### PFC -/

theorem countSub_sameBut (d : Dev) (s num n : Nat) : sameBut d (countSub d s num n) := EventHistory.bump_sameBut _ _ _ _ _

/-- The rate of a sub-port rests on the network's state only. -/
theorem subRate_congr {a b : Dev} (h : sameBut a b) (s : Nat) : subRate b s = subRate a s := by
  unfold subRate findPort
  rw [h]

/-- What PFC does to one class of a sub-port. -/
def pfcClass (now rate : Nat) (z : SubPort) (e : Nat × Nat) : SubPort :=
  if bitSet z.cls.pfcMask e.1 = false then z else if e.2 = 0 then pauseEnd z e.1 now
  else { pauseBegin z e.1 now with pauseUntil := setPair (pauseBegin z e.1 now).pauseUntil e.1 (now + quantaNs e.2 rate) }

theorem pfcReceive_of_up (hx : findSub a s = some x) (hup : x.up = true) {cs : List (Nat × Nat)} (hcs : ∀ y ∈ cs, y.1 < 8) :
    pfcReceive s len cs a = updSub (countSub (countSub (countSub a s 1 1) s 3 len) s 11 1) s
      (fun y => cs.foldl (pfcClass a.tim.elapsed (subRate a s)) y) := by
  have hb := sameBut_trans (sameBut_trans (countSub_sameBut a s 1 1) (countSub_sameBut _ s 3 len)) (countSub_sameBut _ s 11 1)
  simp only [pfcReceive, hx, hup, hb.tim, subRate_congr hb, Bool.not_true, Bool.false_eq_true, if_false]
  refine congrArg (updSub _ s) (funext fun y => List.foldl_ext _ _ y fun z e he => ?_)
  simp only [pfcClass, Nat.mod_eq_of_lt (hcs e he), Bool.not_eq_true']

/-- Settles O34: each frame by what it is for. -/
theorem otherFramesAreHandled : Obligations.OtherFramesAreHandled := by
  unfold Obligations.OtherFramesAreHandled
  exact ⟨fun s len mac ip x => does_of (arpRequest s len mac ip x.ipv4) (fun _ => rfl) fun a _ ⟨hx, hup, hip⟩ => arpRequest_of_own hx hup hip mac ip,
    fun s len mac ip t x => does_of (arpRequest s len mac ip t) (fun _ => rfl) fun a _ ⟨hx, hup, hip⟩ => arpRequest_of_other hx hup hip mac ip,
    fun s len mac ip x => does_of (neighborSolicit s len mac ip x.ipv6) (fun _ => rfl) fun a _ ⟨hx, hup, hip⟩ => neighborSolicit_of_own hx hup hip mac ip,
    fun s len ok x => does_of (otherFrame s len ok) (fun _ => rfl) fun a _ ⟨hx, hup⟩ => otherFrame_of_up hx hup ok,
    fun s len mac ip t x => does_of (neighborSolicit s len mac ip t) (fun _ => rfl) fun a _ ⟨hx, hup, hip⟩ => neighborSolicit_of_other hx hup hip mac ip,
    fun s len cs x => does_of (pfcReceive s len cs) (fun _ => rfl) fun a _ ⟨hx, hup, hcs⟩ => pfcReceive_of_up hx hup hcs⟩

end Sys2Proof.OtherFrames
end

section
/-!
The timers of a QP (16 R369, R378), each once it is due.
-/

namespace Sys2Proof.QpTimers

open Sys2Proof.Machine

/-- A guard that a timer ends early at: not where what it asks for is false and its time has come. -/
theorem not_guarded {c : Bool} {now due : Nat} (hc : c = false) (hdue : due ≤ now) : ¬(c || decide (now < due)) = true := by
  rw [hc, Bool.false_or, decide_eq_true_iff]
  omega

variable {a : Dev} {n dt t : Nat} {q : Qp}

theorem ackTimeout_of_due (hq : findQp (advance a dt) n = some q) (hrts : q.state = 1) (hstart : q.ackStart = some t)
    (hdue : t + 4096 * 2 ^ q.timeout ≤ (advance a dt).tim.elapsed) : ackTimeout n dt a = qpRetry (advance a dt) n 1 := by
  simp only [ackTimeout, hq, hstart, hrts, hdue, decide_true, Bool.and_self, if_true]

theorem rnrExpiry_of_due (hq : findQp (advance a dt) n = some q) (huntil : q.rnrUntil = some t) (hdue : t ≤ (advance a dt).tim.elapsed) :
    rnrExpiry n dt a = qpResend (updQp (advance a dt) n (fun x => { x with rnrUntil := none })) n := by
  simp only [rnrExpiry, hq, huntil, hdue, if_true]

theorem ackCoalesce_of_due (hq : findQp (advance a dt) n = some q) (hsince : q.ackSince = some t) (hdue : t + 2000 ≤ (advance a dt).tim.elapsed) :
    ackCoalesce n dt a = sendAck (advance a dt) n := by
  simp only [ackCoalesce, hq, hsince, hdue, if_true]

/-! ### Rate recovery -/

/-- The QP at the start of a recovery period: the settings that wait act, and alpha falls where no CNP came. -/
def periodBegun (q : Qp) (s : SubPort) : Qp := { q with
  alpha := if q.cnpSeen then q.alpha else dyMul (dyOneMinus (dyNat 1) (orDefault s.cls.gShift 8)) q.alpha
  cnpSeen := false, maxRate := q.newMax.getD q.maxRate, newMax := none, tIncAt := q.tIncAt + 1000 * orDefault s.cls.tIncUs 55 }

/-- The target of a QP at a recovery period: it rises after five quiet periods. -/
def periodTarget (q : Qp) (s : SubPort) (m : Dy) : Dy :=
  if 5 < q.quiet + 1 then dyMin m (dyAdd q.target (dyNat (orDefault s.cls.rAi 5000))) else q.target

section
variable {s : SubPort} {m : Dy} (hq : findQp (advance a dt) n = some q) (hs : findSub (advance a dt) q.sub = some s) (hrts : q.state = 1)
  (hdue : q.tIncAt ≤ (advance a dt).tim.elapsed) (hm : m = dyNat (qpMaxRate (advance a dt) (periodBegun q s)))
include hq hs hrts hdue hm

theorem tIncExpiry_of_full (hfull : dyLe m q.rate = true) :
    tIncExpiry n dt a = updQp (advance a dt) n (fun _ => { periodBegun q s with rate := dyMin q.rate m }) := by
  subst hm
  unfold tIncExpiry
  simp only [hq, hs]
  rw [if_neg (not_guarded (by simp [hrts]) hdue)]
  exact congrArg (fun y => updQp (advance a dt) n (fun _ => y)) (if_pos hfull)

theorem tIncExpiry_of_below (hbelow : dyLe m q.rate = false) :
    tIncExpiry n dt a = updQp (advance a dt) n (fun _ => { periodBegun q s with
      quiet := q.quiet + 1, target := periodTarget q s m, rate := dyMin m (dyMul (dyAdd q.rate (periodTarget q s m)) ⟨1, 1⟩) }) := by
  subst hm
  unfold tIncExpiry
  simp only [hq, hs]
  rw [if_neg (not_guarded (by simp [hrts]) hdue)]
  exact congrArg (fun y => updQp (advance a dt) n (fun _ => y)) (if_neg (Bool.eq_false_iff.1 hbelow))

end

/-! ### The pacer -/

theorem pacerRelease_of_due {p : Packet} {rest : List Packet} (hq : findQp (advance a dt) n = some q) (hout : q.outq = p :: rest) (hrts : q.state = 1)
    (hdue : q.readyAt ≤ (advance a dt).tim.elapsed) (hrnr : q.rnrUntil = none) (hroom : tracked p.kind = true → unackedBytes q + p.len ≤ 4 * 2 ^ 20) :
    pacerRelease n dt a = updSub (updQp (advance a dt) n (fun x => { x with
        outq := rest
        readyAt := (advance a dt).tim.elapsed + ceilDiv (p.len * 8000 * 2 ^ q.rate.e) (Nat.max 1 q.rate.m)
        unacked := if tracked p.kind then x.unacked ++ [p] else x.unacked
        ackStart := if tracked p.kind then some (x.ackStart.getD (advance a dt).tim.elapsed) else x.ackStart })) q.sub
      (fun s => putQueue s { queueOf s (qpQueue q) q.cls with
        frames := (queueOf s (qpQueue q) q.cls).frames ++ [{ pkt := p, at' := (advance a dt).tim.elapsed }] }) := by
  unfold pacerRelease
  simp only [hq, hout]
  rw [if_neg]
  have hroom : (tracked p.kind && decide (4 * 2 ^ 20 < unackedBytes q + p.len)) = false := by simpa using hroom
  rw [hroom, hrnr, Option.isSome_none, Bool.or_false, Bool.or_false]
  exact not_guarded (by simp [hrts]) hdue

/-- Settles O35: each timer once its time has come. -/
theorem qpTimersAct : Obligations.QpTimersAct := by
  unfold Obligations.QpTimersAct
  exact ⟨fun n dt q t => does_of (ackTimeout n dt) (fun _ => rfl) fun a _ ⟨hq, hrts, hstart, hdue⟩ => ackTimeout_of_due hq hrts hstart hdue,
    fun n dt q t => does_of (rnrExpiry n dt) (fun _ => rfl) fun a _ ⟨hq, huntil, hdue⟩ => rnrExpiry_of_due hq huntil hdue,
    fun n dt q t => does_of (ackCoalesce n dt) (fun _ => rfl) fun a _ ⟨hq, hsince, hdue⟩ => ackCoalesce_of_due hq hsince hdue,
    fun n dt q s => does_of (tIncExpiry n dt) (fun _ => rfl) fun a _ ⟨hq, hs, hrts, hdue⟩ =>
      ⟨tIncExpiry_of_full hq hs hrts hdue rfl, tIncExpiry_of_below hq hs hrts hdue rfl⟩,
    fun n dt q p rest => does_of (pacerRelease n dt) (fun _ => rfl) fun a _ ⟨hq, hout, hrts, hdue, hrnr, hroom⟩ =>
      pacerRelease_of_due hq hout hrts hdue hrnr hroom⟩

end Sys2Proof.QpTimers
end

section
/-!
The timers and buffers of a sub-port (16 R366, R377-R385, R392), and the training and the lanes of a port (16 R365, R386; 18 R425).
-/

namespace Sys2Proof.SubPortTimers

open Sys2Proof.Machine QpTimers

variable {a : Dev} {s dt t c : Nat} {x : SubPort}

/-! ### Frames that start -/

section
variable {f : Frame} {fs : List Frame} {q : EQueue} {e : Queued} {es : List Queued} (hx : findSub (advance a dt) s = some x) (hup : x.up = true)
  (hidle : x.busyUntil ≤ (advance a dt).tim.elapsed)
include hx hup hidle

theorem egressStart_control (hctl : x.ctl = f :: fs) :
    egressStart s dt a = startFrame (updSub (advance a dt) s (fun y => { y with ctl := fs })) s f (ctlLen f) := by
  unfold egressStart
  simp only [hx]
  rw [if_neg (not_guarded (by simp [hup]) hidle)]
  simp only [hctl]

theorem egressStart_queue (hctl : x.ctl = []) (hq : pickQueue x (subRate (advance a dt) s) (advance a dt).tim.elapsed = some q)
    (hframes : q.frames = e :: es) :
    egressStart s dt a = startFrame (updSub (advance a dt) s (fun y => { putQueue y { q with
        frames := es
        deficit := if es.isEmpty then 0 else q.deficit - countedLen q.shaper e.pkt.len
        shaper := shaperCharge q.shaper e.pkt.len
        txFrames := satAdd q.txFrames 1
        txBytes := (q.txBytes + e.pkt.len) % 2 ^ 64 } with
      turn := setPair y.turn q.cls q.part
      partShapers := upsert (fun (z : Nat × Shaper) => z.1 == q.part) (q.part, shaperCharge (partShaper x q.part) e.pkt.len) y.partShapers })) s
      (.rdma e.pkt) e.pkt.len := by
  unfold egressStart
  simp only [hx]
  rw [if_neg (not_guarded (by simp [hup]) hidle)]
  simp only [hctl, hq, hframes]

end

/-! ### Refills, gates, probes -/

theorem gateExpiry_of_due {g : Nat × Nat} (hx : findSub (advance a dt) s = some x) (hg : x.gates[x.gateIdx]? = some g)
    (hdue : x.gateStart + g.2 ≤ (advance a dt).tim.elapsed) :
    gateExpiry s dt a = updSub (advance a dt) s (fun y => gateAccount { y with
      gateIdx := if y.gateIdx + 1 = y.gates.length then 0 else y.gateIdx + 1, gateStart := y.gateStart + g.2 } (advance a dt).tim.elapsed) := by
  simp only [gateExpiry, hx, hg, Nat.not_lt.2 hdue, if_false]

theorem gateTakeover_of_due {p : PendGate} (hx : findSub (advance a dt) s = some x) (hp : x.pendGate = some p)
    (hdue : p.base ≤ (advance a dt).tim.now) :
    gateTakeover s dt a = deferredDone (updSub (advance a dt) s (fun y => gateAccount { y with
      gates := p.entries, gateIdx := 0, gateStart := (advance a dt).tim.elapsed, pendGate := none } (advance a dt).tim.elapsed))
      p.ring p.tag 0x0A09 stOk objDevice .device [] := by
  simp only [gateTakeover, hx, hp, Nat.not_lt.2 hdue, if_false]

theorem probeSample_of_due {p : Probe} (hx : findSub (advance a dt) s = some x) (hp : x.probe = some p) (hdue : p.next ≤ (advance a dt).tim.now) :
    probeSample s dt a = updSub (advance a dt) s (fun x => { (selected p.part p.mask).foldl
        (fun (b : SubPort) k => putQueue b (sampleQueue (advance a dt).tim.elapsed (queueOf b k.1 k.2))) x with
      probe := some { p with next := p.next + (((advance a dt).tim.now - p.next) / Nat.max 1 p.period + 1) * p.period } }) := by
  simp only [probeSample, hx, Option.bind_some, hp, Nat.not_lt.2 hdue, if_false]

/-! ### Priority flow control -/

theorem pauseExpiry_of_due (hx : findSub (advance a dt) s = some x) (hp : pairOf x.pauseUntil c = some t) (hdue : t ≤ (advance a dt).tim.elapsed) :
    pauseExpiry s c dt a = updSub (advance a dt) s (fun y => pauseEnd y c (advance a dt).tim.elapsed) := by
  simp only [pauseExpiry, hx, Option.bind_some, hp, hdue, if_true]

theorem xoffRefresh_of_due (hx : findSub (advance a dt) s = some x) (hp : pairOf x.xoff c = some t) (hdue : t ≤ (advance a dt).tim.elapsed) :
    xoffRefresh s c dt a = sendPfc (updSub (advance a dt) s (fun y => { y with
      xoff := setPair y.xoff c (t + quantaNs 0xFFFF (subRate (advance a dt) s) / 2) })) s c 0xFFFF := by
  simp only [xoffRefresh, hx, Option.bind_some, hp, hdue, if_true]

theorem pauseHeld_of_due (hx : findSub (advance a dt) s = some x) (hp : pairOf x.pauseSince c = some t)
    (hdue : t + 100000000 ≤ (advance a dt).tim.elapsed) (hnew : x.pauseHeld.contains c = false) :
    pauseHeld s c dt a = raiseDev (updSub (advance a dt) s (fun y => { y with pauseHeld := c :: y.pauseHeld })) 0x0A14 [(1, s / 4), (1, s % 4), (1, c)] := by
  unfold pauseHeld
  simp only [hx, hp, hnew, Bool.or_false, decide_eq_true_iff]
  rw [if_neg (Nat.not_lt.2 hdue)]

section
variable {p : Nat × Nat × Nat} {rest : List (Nat × Nat × Nat)} (hx : findSub a s = some x) (hin : x.ingress = p :: rest)
include hx hin

theorem ingressDrain_quiet (hoff : pairOf x.xoff p.1 = none) : ingressDrain s a = updSub a s (fun _ => { x with ingress := rest }) := by
  simp only [ingressDrain, hx, hin, hoff, Option.isSome_none, Bool.false_and, Bool.false_eq_true, if_false]

theorem ingressDrain_xon (hoff : (pairOf x.xoff p.1).isSome = true) (hlow : classBytes { x with ingress := rest } p.1 < x.cls.xonKib * 1024) :
    ingressDrain s a =
      sendPfc (updSub (updSub a s (fun _ => { x with ingress := rest })) s (fun z => { z with xoff := dropPair z.xoff p.1 })) s p.1 0 := by
  simp only [ingressDrain, hx, hin, hoff, hlow, decide_true, Bool.and_self, if_true]

end

/-! ### Training -/

theorem portSubs_of_whole {p : EPort} (h : p.split = 0) : portSubs p = [0] := by
  simp only [portSubs, h, ite_self]

section
variable {n : Nat} {p : EPort} (hp : findPort (advance a dt) n = some p) (hon : p.state ≠ 0) (hsplit : p.split = 0)
  (hx : findSub (advance a dt) (n * 4) = some x) (hdown : x.up = false)
include hp hon hsplit hx hdown

theorem portTrained_up {b : Dev} (hb : b = raiseDev (updSub (advance a dt) (n * 4) (fun y => { y with up := true, busyUntil := (advance a dt).tim.elapsed }))
    0x0A10 [(1, n), (1, 0), (2, portRate p)]) : portTrained n 1 dt a = updPort b n (fun y => { y with state := portStateOf b y }) := by
  rw [hb]
  simp only [portTrained, hp, hon, if_false, portSubs_of_whole hsplit, List.foldl_cons, List.foldl_nil, Nat.add_zero, hx, hdown, Bool.false_eq_true,
    show bitSet 1 0 = true from rfl, if_true]

theorem portTrained_failed {b : Dev} (hb : b = raiseDev (advance a dt) 0x0A11 [(1, n), (1, 0), (1, 2)]) :
    portTrained n 0 dt a = updPort b n (fun y => { y with state := portStateOf b y }) := by
  rw [hb]
  simp only [portTrained, hp, hon, if_false, portSubs_of_whole hsplit, List.foldl_cons, List.foldl_nil, Nat.add_zero, hx, hdown, Bool.false_eq_true,
    show bitSet 0 0 = false from rfl]

end

/-! ### Lanes -/

/-- The half of a port that a failed lane leaves. -/
def keptHalf (lane : Nat) : Nat := if lane < 4 then 1 else 0

theorem keptHalf_ne (lane : Nat) : lane / 4 ≠ keptHalf lane := by
  unfold keptHalf
  split <;> omega

theorem mem_upsert_lane {l lane : Nat} {ls : List Nat} : l ∈ upsert (· == lane) lane ls ↔ l = lane ∨ l ∈ ls := by
  induction ls with
  | nil => simp [upsert]
  | cons k ls ih =>
    by_cases hk : k = lane
    · simp [upsert, hk]
    · simp only [upsert, beq_iff_eq, hk, if_false, List.mem_cons, ih]
      tauto

/-- The half that goes on is clean where it was before this lane failed. -/
theorem keptHalf_clean (lane : Nat) (ls : List Nat) :
    ((upsert (· == lane) lane ls).all fun l => l / 4 != keptHalf lane) = true ↔ ∀ l ∈ ls, l / 4 ≠ keptHalf lane := by
  simp only [List.all_eq_true, mem_upsert_lane, bne_iff_ne]
  refine ⟨fun h l hl => h l (.inr hl), ?_⟩
  rintro h l (rfl | hl)
  · exact keptHalf_ne l
  · exact h l hl

/-- Whether a port goes on with the other half after a lane has failed (16 R365). -/
def degrades (p : EPort) (lane : Nat) : Prop := p.split = 0 ∧ p.degrade = true ∧ p.half = none ∧ ∀ l ∈ p.badLanes, l / 4 ≠ keptHalf lane

theorem degrades_iff (p : EPort) (lane : Nat) : (decide (p.split = 0) && p.degrade && p.half.isNone &&
    (upsert (· == lane) lane p.badLanes).all (fun l => l / 4 != keptHalf lane)) = true ↔ degrades p lane := by
  rw [Bool.and_eq_true, keptHalf_clean]
  simp [degrades, and_assoc]

section
variable {n lane u k : Nat} {p : EPort} (hp : findPort a n = some p) (hon : p.state ≠ 0)
  (hk : (portSubs p).find? (fun k => (subLanes p k).contains lane) = some k)
include hp hon hk

theorem laneFailed_down (hno : ¬degrades p lane) {b : Dev} (hb : b = subDown (updPort (countSub (countSub a (n * 4 + k) 9 c) (n * 4 + k) 10 u) n
    (fun _ => { p with badLanes := upsert (· == lane) lane p.badLanes })) (n * 4 + k) 1) :
    laneFailed n lane c u a = updPort b n (fun y => { y with state := portStateOf b y }) := by
  subst hb
  rw [← degrades_iff] at hno
  unfold laneFailed
  simp only [hp, hk, hon, if_false]
  exact if_neg hno

theorem laneFailed_degraded (hyes : degrades p lane) {b : Dev} (hb : b = countSub (countSub a (n * 4 + k) 9 c) (n * 4 + k) 10 u) :
    laneFailed n lane c u a = raiseDev (updPort (updSub b (n * 4 + k) (fun y => linkLost y b.tim.elapsed)) n
      (fun _ => { p with badLanes := upsert (· == lane) lane p.badLanes, half := some (keptHalf lane), state := 1 })) 0x0A12
      [(1, n), (1, lane), (1, keptHalf lane)] := by
  subst hb
  rw [← degrades_iff] at hyes
  unfold laneFailed
  simp only [hp, hk, hon, if_false]
  exact if_pos hyes

end

/-- The lanes of a port that is neither split nor degraded are those of its first sub-port. -/
theorem find_lane_of_whole {p : EPort} {lane : Nat} (hlane : lane < 8) (hsplit : p.split = 0) (hhalf : p.half = none) :
    (portSubs p).find? (fun k => (subLanes p k).contains lane) = some 0 := by
  simp [portSubs_of_whole hsplit, subLanes, hhalf, hsplit, rangeFrom, hlane]

/-- Settles O36: each timer once it is due, training by its outcome, and a lane by whether the port degrades. -/
theorem subPortTimersAndTraining : Obligations.SubPortTimersAndTraining := by
  unfold Obligations.SubPortTimersAndTraining
  exact ⟨fun s dt x f rest => does_of (egressStart s dt) (fun _ => rfl) fun a _ ⟨hx, hup, hidle, hctl⟩ => egressStart_control hx hup hidle hctl,
    fun s dt x q f rest => does_of (egressStart s dt) (fun _ => rfl) fun a _ ⟨hx, hup, hidle, hctl, hq, hframes⟩ =>
      egressStart_queue hx hup hidle hctl hq hframes,
    fun dt => does_of (refill dt) (fun _ => rfl) fun a _ hdue => ⟨_, rfl, if_neg (Nat.not_lt.2 hdue)⟩,
    fun s dt x g => does_of (gateExpiry s dt) (fun _ => rfl) fun a _ ⟨hx, hg, hdue⟩ => gateExpiry_of_due hx hg hdue,
    fun s dt x p => does_of (gateTakeover s dt) (fun _ => rfl) fun a _ ⟨hx, hp, hdue⟩ => gateTakeover_of_due hx hp hdue,
    fun s dt x p => does_of (probeSample s dt) (fun _ => rfl) fun a _ ⟨hx, hp, hdue⟩ => probeSample_of_due hx hp hdue,
    fun s c dt x t => does_of (pauseExpiry s c dt) (fun _ => rfl) fun a _ ⟨hx, hp, hdue⟩ => pauseExpiry_of_due hx hp hdue,
    fun s c dt x t => does_of (xoffRefresh s c dt) (fun _ => rfl) fun a _ ⟨hx, hp, hdue⟩ => xoffRefresh_of_due hx hp hdue,
    fun s c dt x t => does_of (pauseHeld s c dt) (fun _ => rfl) fun a _ ⟨hx, hp, hdue, hnew⟩ => pauseHeld_of_due hx hp hdue hnew,
    fun s x p rest => does_of (ingressDrain s) (fun _ => rfl) fun a _ ⟨hx, hin, hoff⟩ => ingressDrain_quiet hx hin hoff,
    fun s x p rest => does_of (ingressDrain s) (fun _ => rfl) fun a _ ⟨hx, hin, hoff, hlow⟩ => ingressDrain_xon hx hin hoff hlow,
    fun n dt p x => does_of (portTrained n 1 dt) (fun _ => rfl) fun a _ ⟨hp, hon, hsplit, hx, hdown⟩ => portTrained_up hp hon hsplit hx hdown rfl,
    fun n dt p x => does_of (portTrained n 0 dt) (fun _ => rfl) fun a _ ⟨hp, hon, hsplit, hx, hdown⟩ => portTrained_failed hp hon hsplit hx hdown rfl,
    fun n lane c u p k => does_of (ethLane n lane c u) (fun _ => rfl) fun a _ ⟨hp, hon, hno, hk⟩ =>
      congrArg (addReport · _ 1) (laneFailed_down hp hon hk hno rfl),
    fun n lane c u p hlane => does_of (ethLane n lane c u) (fun _ => rfl) fun a _ ⟨hp, hon, hdeg, hsplit, hhalf, hclean⟩ =>
      congrArg (addReport · _ 1) (laneFailed_degraded hp hon (find_lane_of_whole hlane hsplit hhalf) ⟨hsplit, hdeg, hhalf, hclean⟩ rfl)⟩

end Sys2Proof.SubPortTimers
end

section
/-!
The verbs of partitions and contexts (15 R343-R354, R357): the device that each leaves where its checks pass, and the ends of a rebinding and of a
zero-fill.
-/

namespace Sys2Proof.PartitionVerbs

open Sys2Proof.Machine ObjectVerbs

/-! ### PART_CREATE -/

theorem blockArg_zero {d : Dev} {v : Verb} {bs : List Byte} (h : blockArg d v 0 = .ok bs) : bs = [] := (Except.ok.inj h).symm

/-- The granules of HBM that the totals of a verb ask for: the lowest free ones of each stack. -/
theorem hbm_of_totals (a : Dev) (v : Verb) : ((List.range 8).zip (totalsOf v).hbm).flatMap (fun x => (freeHbm a x.1).take x.2) =
    (List.range 8).flatMap (fun st => (freeHbm a st).take (fld v (20 + st) 1)) := rfl

theorem partCreateBody_ok {v : Verb} {a d : Dev} (h : partCreateBody v a = .ok d) :
    ∃ (x : Part) (kh : List Byte), longestFree a 0x10 (a.pool.parts.map (·.num)) 0 32 = some x.num ∧
    x.bound = none ∧ x.groups = fld v 16 4 ∧ x.slots = fld v 32 4 ∧ x.lexicons = fld v 36 1 ∧ x.grammars = fld v 37 1 ∧ x.ports = fld v 38 1 ∧
    x.qps = fld v 40 2 ∧ x.windows = fld v 42 2 ∧ x.keyId = kh.take 32 ∧ x.phraseNext = 1 ∧ x.ending = false ∧ x.log = [] ∧
    x.ddr = (freeDdr a).take (fld v 28 2) ∧ x.hbm = (List.range 8).flatMap (fun st => (freeHbm a st).take (fld v (20 + st) 1)) ∧
    (fld v 44 2 = 0 → x.ownerKey = [] ∧ kh = List.replicate 64 0) ∧ (fld v 44 2 ≠ 0 → kh = sha512 x.ownerKey) ∧
    d = finishOk (measure { a with pool.parts := a.pool.parts ++ [x] } x.num 1 x.num 0 kh) v
      [(8, 1, x.num), (12, 4, x.hbm.length), (16, 16, leNat (kh.take 16))] := by
  unfold partCreateBody at h
  obtain ⟨-, -, h⟩ := bind_ok.1 h
  obtain ⟨key, hkey, h⟩ := bind_ok.1 h
  obtain ⟨-, -, h⟩ := bind_ok.1 h
  obtain ⟨-, -, h⟩ := bind_ok.1 h
  split at h
  · simp at h
  next p hp =>
    refine ⟨_, _, hp, rfl, rfl, rfl, rfl, rfl, rfl, rfl, rfl, rfl, rfl, rfl, rfl, rfl, hbm_of_totals a v, fun hn => ⟨?_, if_pos hn⟩, fun hn => if_neg hn,
      (Except.ok.inj h).symm⟩
    rw [hn] at hkey
    exact blockArg_zero hkey

/-! ### PART_DESTROY, PART_RESIZE and PART_BIND -/

theorem partDestroyBody_ok {v : Verb} {a d : Dev} (h : partDestroyBody v a = .ok d) : ∃ x, checkPart a v (fld v 16 1) 16 = .ok x ∧
    (let p := fld v 16 1
     let b := endObjects (endContexts (nextRelease a) p) p
     let c := stampFree { b with pool.parts := dropWhere (fun y => y.num == p) b.pool.parts, flash.assigned := b.flash.assigned.filter (fun y => y.1 != p) } 0x10 p
     d = settleClearing (finishOk (startClearing c p v.op x.hbm x.ddr (if bitSet (fld v 17 1) 0 then [] else partFlash a p) none none) v
       [(8, 4, x.hbm.length), (12, 4, x.ddr.length)]) c.pool.clearSeq) := by
  unfold partDestroyBody at h
  obtain ⟨-, -, h⟩ := bind_ok.1 h
  obtain ⟨x, hx, h⟩ := bind_ok.1 h
  exact ⟨x, hx, (Except.ok.inj h).symm⟩

theorem partResizeBody_ok {v : Verb} {a d : Dev} (h : partResizeBody v a = .ok d) :
    d = registerOp a v (.resize v.seq) ∧ ∃ x, checkPart a v (fld v 46 1) 46 = .ok x ∧ totalsCheck a (some x) (totalsOf v) = .ok () := by
  unfold partResizeBody at h
  obtain ⟨-, -, h⟩ := bind_ok.1 h
  obtain ⟨x, hx, h⟩ := bind_ok.1 h
  obtain ⟨_, htotals, h⟩ := bind_ok.1 h
  exact ⟨(Except.ok.inj h).symm, x, hx, htotals⟩

theorem partBindBody_ok {v : Verb} {a d : Dev} (h : partBindBody v a = .ok d) : ∃ x, checkPart a v (fld v 16 1) 16 = .ok x ∧
    (x.bound = (if fld v 17 1 = 0xFF then none else some (fld v 17 1)) → d = finishOk a v [(8, 8, a.clk.count)]) ∧
    (x.bound ≠ (if fld v 17 1 = 0xFF then none else some (fld v 17 1)) → d = registerOp a v (.rebind v.seq)) := by
  unfold partBindBody at h
  obtain ⟨-, -, h⟩ := bind_ok.1 h
  obtain ⟨x, hx, h⟩ := bind_ok.1 h
  obtain ⟨-, -, h⟩ := bind_ok.1 h
  refine ⟨x, hx, fun hsame => ?_, fun hother => ?_⟩
  · rw [if_pos hsame] at h
    exact (Except.ok.inj h).symm
  · rw [if_neg hother] at h
    exact (Except.ok.inj h).symm

/-! ### REBIND_SWITCH -/

theorem rebindSwitch_of_listed {a : Dev} {p : Nat} {r : Rebind} {x : Part} (hr : a.pool.rebinds.find? (fun y => y.part == p) = some r)
    (hx : findPart a p = some x) : rebindSwitch p a =
    (let b := (partRings a p).foldl (recopyRing (holdLd p x.bound) (holdLd p r.newLd)) a
    let c := updPart { b with
      pool.rebinds := dropWhere (fun y => y.part == p) b.pool.rebinds
      tur.rings := updWhere (fun y => !y.admin && y.part == p) (fun y => { y with ld := holdLd p r.newLd, holding := false }) b.tur.rings } p
      (fun y => { y with bound := r.newLd })
    let e := match r.newLd with | some n => setLastLd c p n | none => c
    let t := detachTexts (abortHostDrains (if x.bound.isNone then freeAllocs e (allocKey 0x2001 p) else e) p) p
    let g := if t.1 = 0 then t.2 else raise t.2 0x0511 (objPart p) (.part p) [(1, 1), (4, t.1)]
    let k := raise g 0x0211 (objPart p) (.part p) [(1, p), (1, x.bound.getD 0xFF), (1, r.newLd.getD 0xFF), (4, r.rings)]
    finishSeq ((partRings k p).foldl (fun z y => settleRing (drainHeld 65536 z y.num) y.num) k) r.seq stOk
      [(8, 8, r.point), (16, 4, r.rings), (20, 4, t.1)]) := by
  unfold rebindSwitch
  rw [hr, hx] <;> rfl

/-- Settles O28: each verb by its body where the checks pass, and the end of a rebinding. -/
theorem partitionVerbsComplete : Obligations.PartitionVerbsComplete := by
  unfold Obligations.PartitionVerbsComplete
  refine ⟨verbDoes_of (fun _ _ => rfl) fun _ _ _ => partCreateBody_ok, verbDoes_of (fun _ _ => rfl) fun _ _ _ => partDestroyBody_ok,
    verbDoes_of (fun _ _ => rfl) fun _ _ _ => partResizeBody_ok, verbDoes_of (fun _ _ => rfl) fun _ _ _ => partBindBody_ok,
    fun p r x => does_of (rebindSwitch p) (fun _ => rfl) ?_⟩
  rintro a - ⟨hr, hx⟩
  exact rebindSwitch_of_listed hr hx

end Sys2Proof.PartitionVerbs
end

section
/-!
SCRUB of what belongs to no partition (15 R349): the clearing that it starts belongs to no partition, which the model writes as partition 32.
-/

namespace Sys2Proof.DeviceScrub

open Sys2Proof.Machine Sys2Proof.Tests

theorem scrubCheck_device {v : Verb} {a : Dev} {sc : Option Nat} (hscope : fld v 16 1 = 0) (h : scrubCheck v a = .ok sc) : sc = none := by
  unfold scrubCheck at h
  obtain ⟨-, -, h⟩ := bind_ok.1 h
  rw [if_neg (by omega)] at h
  exact (Except.ok.inj h).symm

/-- SCRUB with SCOPE 0 starts the clearing of every free granule, for partition 32. -/
theorem scrubBody_device {v : Verb} {a d : Dev} (hscope : fld v 16 1 = 0) (h : scrubBody v a = .ok d) :
    d = settleClearing (startClearing (finish a v stDeferred 0xFF []) 32 v.op ((List.range 8).flatMap (freeHbm a)) (freeDdr a) []
      (some (v.ring, fld v 4 4)) none) a.pool.clearSeq := by
  unfold scrubBody at h
  obtain ⟨sc, hsc, h⟩ := bind_ok.1 h
  obtain rfl := scrubCheck_device hscope hsc
  exact (Except.ok.inj h).symm

/-- A clearing that has just started with granules of HBM is listed for its partition, and does not end at once. -/
theorem clearings_of_startClearing {f : Dev} (hnone : f.pool.clearings = []) (p op : Nat) {hbm : List (Nat × Nat)} (hhbm : hbm ≠ []) (ddr : List Nat)
    (who : Option (Nat × Nat)) :
    (settleClearing (startClearing f p op hbm ddr [] who none) f.pool.clearSeq).pool.clearings.map (·.part) = [p] := by
  have hlist : (startClearing f p op hbm ddr [] who none).pool.clearings = [{ rel := f.pool.clearSeq, part := p, op := op, hbm := hbm, ddr := ddr
                                                                              hbmAll := hbm.length, ddrAll := ddr.length, flash := [], who := who
                                                                              sanitize := none }] := by
    rw [startClearing, hnone]
    rfl
  obtain ⟨g, gs, rfl⟩ := List.exists_cons_of_ne_nil hhbm
  simp [settleClearing, hlist]

/-- The partition under which a clearing of all free granules is listed, where no other is in progress. -/
theorem part_of_deviceClearing {a : Dev} (hnone : a.pool.clearings = []) (hfree : (List.range 8).flatMap (freeHbm a) ≠ []) (v : Verb) (p : Nat)
    (who : Option (Nat × Nat)) :
    (settleClearing (startClearing (finish a v stDeferred 0xFF []) p v.op ((List.range 8).flatMap (freeHbm a)) (freeDdr a) [] who none)
      a.pool.clearSeq).pool.clearings.map (·.part) = [p] := by
  have hpool : (finish a v stDeferred 0xFF []).pool = a.pool := (EventHistory.finish_sameBut _ _ _ _ _).pool
  rw [← hpool]
  exact clearings_of_startClearing (by rw [hpool, hnone]) p v.op hfree (freeDdr a) who

/-- A SCRUB of what belongs to no partition leaves no clearing of partition 0. -/
theorem scrubBody_ne_part0 {v : Verb} {a d : Dev} (hscope : fld v 16 1 = 0) (hnone : a.pool.clearings = [])
    (hfree : (List.range 8).flatMap (freeHbm a) ≠ []) (hbody : scrubBody v a = .ok d) :
    d ≠ settleClearing (startClearing (finish a v stDeferred 0xFF []) 0 v.op ((List.range 8).flatMap (freeHbm a)) (freeDdr a) []
      (some (v.ring, fld v 4 4)) none) a.pool.clearSeq := by
  intro hd
  have h0 := part_of_deviceClearing hnone hfree v 0 (some (v.ring, fld v 4 4))
  rw [← hd, scrubBody_device hscope hbody, part_of_deviceClearing hnone hfree] at h0
  exact absurd h0 (by decide)

/-- A READY device before its SCRUB of what belongs to no partition. -/
def scrubDev : Dev := startVerb (stateOf (withVerb ready (verbOf 0x0207 []))).dev (verbOf 0x0207 [])

theorem scrubDev_freeHbm : (List.range 8).flatMap (freeHbm scrubDev) ≠ [] := by
  decide +kernel

/-- Refutes O29: it says that SCRUB with SCOPE 0 starts a clearing of partition 0, but what it clears belongs to no partition (15 R349), and the
clearing is listed under partition 32, as in `scrubDev`. -/
theorem not_contextAndScrubComplete : ¬ Obligations.ContextAndScrubComplete := by
  unfold Obligations.ContextAndScrubComplete
  rintro ⟨-, -, hscrub, -⟩
  obtain ⟨-, -, hscrubs, -⟩ := witness_ContextAndScrubComplete
  obtain ⟨hruns, e, he⟩ := runs_holds hscrubs
  obtain ⟨d, -, hd, -, hpost⟩ := hscrub _ 9 _ hruns ((passes_iff _).2 ⟨e, he⟩)
  have hscope : fld (verbOf 0x0207 []) 16 1 = 0 := by decide +kernel
  exact scrubBody_ne_part0 hscope (a := scrubDev) rfl scrubDev_freeHbm hd (hpost hscope)

end Sys2Proof.DeviceScrub
end

section
/-!
The verbs of ports, queue pairs and windows (16 R386-R388), and of their traffic (16 R389-R392): the device that each leaves where its checks pass.
-/

namespace Sys2Proof.PortVerbs

open Sys2Proof.Machine ObjectVerbs

/-! ### PORT_SET -/

theorem portSetBody_ok {v : Verb} {a d : Dev} (h : portSetBody v a = .ok d) : ∃ p b bs, findPort a (fld v 16 1 / 4) = some p ∧
    blockArg a v (if fld v 17 1 ≤ 3 then 256 else 0) = .ok bs ∧ d = finishOk b v (portReport b (fld v 16 1 / 4)) ∧
    (fld v 17 1 = 1 → portUsed a (fld v 16 1 / 4) = false ∧ p.state = 0 ∧ b = updPort a (fld v 16 1 / 4) (fun x => { x with
      configured := true, split := fieldAt bs 0 1, media := fieldAt bs 1 1, autoneg := bitSet (fieldAt bs 2 1) 0
      degrade := bitSet (fieldAt bs 2 1) 1, half := none })) ∧
    (fld v 17 1 = 2 → p.configured = true ∧ b = updSub a (fld v 16 1) (fun x => { x with
      mac := fieldAt bs 8 6, vlan := fieldAt bs 14 2, ipv4 := fieldAt bs 16 4, ipv6 := fieldAt bs 20 16 })) ∧
    (fld v 17 1 = 3 → p.configured = true ∧ b = updSub a (fld v 16 1) (fun x => { x with newCls := some (classCfgOf bs) })) ∧
    (fld v 17 1 = 4 → p.configured = true ∧ b = if p.state = 0 then updPort a (fld v 16 1 / 4) (fun x => { x with state := 1 }) else a) ∧
    (fld v 17 1 = 5 → portUsed a (fld v 16 1 / 4) = false ∧
      b = updPort (portStop a (fld v 16 1 / 4)) (fld v 16 1 / 4) (fun x => { x with state := 0, half := none, badLanes := [] })) := by
  unfold portSetBody at h
  obtain ⟨-, -, h⟩ := bind_ok.1 h
  obtain ⟨bs, hbs, h⟩ := bind_ok.1 h
  cases hp : findPort a (fld v 16 1 / 4) with
  | none => simp [hp] at h
  | some p =>
    simp only [hp] at h
    split at h
    next hact =>
      obtain ⟨_, hused, h⟩ := bind_ok.1 h
      obtain ⟨_, hstate, h⟩ := bind_ok.1 h
      refine ⟨p, _, bs, rfl, hbs, (Except.ok.inj h).symm, fun _ => ⟨eq_false_of_need_not hused, by simpa using eq_true_of_need hstate, rfl⟩, ?_, ?_, ?_, ?_⟩
      all_goals omega
    next hact =>
      obtain ⟨_, hconf, h⟩ := bind_ok.1 h
      refine ⟨p, _, bs, rfl, hbs, (Except.ok.inj h).symm, ?_, fun _ => ⟨by simpa using eq_true_of_need hconf, rfl⟩, ?_, ?_, ?_⟩
      all_goals omega
    next hact =>
      obtain ⟨_, hconf, h⟩ := bind_ok.1 h
      refine ⟨p, _, bs, rfl, hbs, (Except.ok.inj h).symm, ?_, ?_, fun _ => ⟨by simpa using eq_true_of_need hconf, rfl⟩, ?_, ?_⟩
      all_goals omega
    next hact =>
      obtain ⟨_, hconf, h⟩ := bind_ok.1 h
      refine ⟨p, _, bs, rfl, hbs, (Except.ok.inj h).symm, ?_, ?_, ?_, fun _ => ⟨by simpa using eq_true_of_need hconf, rfl⟩, ?_⟩
      all_goals omega
    next h1 h2 h3 h4 =>
      obtain ⟨_, hused, h⟩ := bind_ok.1 h
      exact ⟨p, _, bs, rfl, hbs, (Except.ok.inj h).symm, fun hact => absurd hact h1, fun hact => absurd hact h2, fun hact => absurd hact h3,
        fun hact => absurd hact h4, fun _ => ⟨eq_false_of_need_not hused, rfl⟩⟩

/-! ### Queue pairs -/

theorem qpCreateBody_ok {v : Verb} {a d : Dev} (h : qpCreateBody v a = .ok d) :
    ∃ (p : Part) (n : Nat) (b : Dev) (q : Qp), findPart a (ctxPart (ctxField v)) = some p ∧ takeQpn a = some (n, b) ∧
    (a.net.qps.filter (fun x => x.part == some p.num)).length < p.qps ∧
    q = newQp (drawNat b).2 n (some p.num) (ctxField v) (fld v 16 1) (fld v 17 1) (512 * 2 ^ fld v 18 1) (fld v 19 1) (fld v 20 4) ((drawNat b).1 % 2 ^ 24) ∧
    q.state = 0 ∧
    d = finishOk (setOwner { (drawNat b).2 with net.qps := (drawNat b).2.net.qps ++ [q] } 0x0D (n % 16384) (ctxField v)) v [(8, 4, n), (12, 4, q.startPsn)] := by
  unfold qpCreateBody at h
  obtain ⟨-, -, h⟩ := bind_ok.1 h
  obtain ⟨-, -, h⟩ := bind_ok.1 h
  obtain ⟨-, -, h⟩ := bind_ok.1 h
  split at h
  · simp at h
  next p hp =>
    obtain ⟨_, hroom, h⟩ := bind_ok.1 h
    split at h
    · simp at h
    next n b hn =>
      exact ⟨p, n, b, _, hp, hn, by simpa using eq_true_of_need hroom, rfl, rfl, (Except.ok.inj h).symm⟩

theorem qpModifyBody_ok {v : Verb} {a d : Dev} (h : qpModifyBody v a = .ok d) : ∃ q b psn, checkQp a v = .ok q ∧
    d = finishOk b v [(8, 1, match findQp b q.qpn with | some x => x.state | none => 0), (12, 4, psn)] ∧
    (fld v 20 1 = 1 → q.state = 0 ∧ psn = 0 ∧ b = qpConnect a q (fld v 21 1) (fld v 22 1 % 8) (fld v 22 1 / 8) (fld v 24 4) (fld v 28 4) (fld v 32 6)
      (fld v 40 16) (fld v 38 2)) ∧
    (fld v 20 1 = 2 → psn = 0 ∧ b = qpError a q.qpn 4) ∧
    (fld v 20 1 = 3 → q.state = 2 ∧ psn = (drawNat a).1 % 2 ^ 24 ∧
      b = updQp (drawNat a).2 q.qpn (fun x => { x with state := 0, startPsn := psn, nextPsn := psn })) ∧
    (fld v 20 1 = 4 → psn = 0 ∧ b = updQp a q.qpn (fun x => { x with newMax := some (fld v 24 4) })) := by
  unfold qpModifyBody at h
  obtain ⟨-, -, h⟩ := bind_ok.1 h
  obtain ⟨q, hq, h⟩ := bind_ok.1 h
  dsimp only at h
  split at h
  next hmode =>
    obtain ⟨_, hstate, h⟩ := bind_ok.1 h
    refine ⟨q, _, _, hq, (Except.ok.inj h).symm, fun _ => ⟨by simpa using eq_true_of_need hstate, rfl, rfl⟩, ?_, ?_, ?_⟩
    all_goals omega
  next hmode =>
    refine ⟨q, _, _, hq, (Except.ok.inj h).symm, ?_, fun _ => ⟨rfl, rfl⟩, ?_, ?_⟩
    all_goals omega
  next hmode =>
    obtain ⟨_, hstate, h⟩ := bind_ok.1 h
    refine ⟨q, _, _, hq, (Except.ok.inj h).symm, ?_, ?_, fun _ => ⟨by simpa using eq_true_of_need hstate, rfl, rfl⟩, ?_⟩
    all_goals omega
  next h1 h2 h3 =>
    exact ⟨q, _, _, hq, (Except.ok.inj h).symm, fun hmode => absurd hmode h1, fun hmode => absurd hmode h2, fun hmode => absurd hmode h3,
      fun _ => ⟨rfl, rfl⟩⟩

theorem qpDestroyBody_ok {v : Verb} {a d : Dev} (h : qpDestroyBody v a = .ok d) : ∃ q, checkQp a v = .ok q ∧
    a.net.windows.any (fun w => w.qpn == q.qpn) = false ∧ d = finishOk (dropQp (nextRelease a) q.qpn) v [] := by
  unfold qpDestroyBody at h
  obtain ⟨-, -, h⟩ := bind_ok.1 h
  obtain ⟨q, hq, h⟩ := bind_ok.1 h
  obtain ⟨_, hfree, h⟩ := bind_ok.1 h
  exact ⟨q, hq, eq_false_of_need_not hfree, (Except.ok.inj h).symm⟩

/-! ### Windows -/

theorem windowOpenBody_ok {v : Verb} {a d : Dev} (h : windowOpenBody v a = .ok d) :
    ∃ (q : Qp) (id r : Nat) (bs : List Byte) (b c : Dev) (w : Window), checkQp a v = .ok q ∧ q.state ≠ 2 ∧
    longestFree a 0x0E (a.net.windows.map (·.id)) 0 65535 = some id ∧
    allocMost a (ctxPart (ctxField v)) (fld v 20 4 * 1024) (allocKey 0x0E id) 0 = some b ∧
    r = (drawNat b).1 % 2 ^ 16 ∧ (bs, c) = drawBytes (drawNat b).2 (fld v 20 4 * 1024) ∧
    w = { id := id, part := ctxPart (ctxField v), ctx := ctxField v, qpn := q.qpn, size := fld v 20 4 * 1024, va := fld v 48 8, rkey := id * 2 ^ 16 + r
          cq := bitSet (fld v 26 1) 0, ret := bitSet (fld v 26 1) 1, readOk := bitSet (fld v 26 1) 2, prio := fld v 26 1 / 8 % 4, ring := fld v 28 2
          raddr := fld v 32 8, rrkey := fld v 40 4, closed := false, closing := none, done := 0, returned := [] } ∧
    d = finishOk (setOwner (exWrite { c with net.windows := c.net.windows ++ [w] } (windowKey id) bs) 0x0E id (ctxField v)) v [(8, 2, id), (12, 4, w.rkey)] := by
  unfold windowOpenBody at h
  obtain ⟨-, -, h⟩ := bind_ok.1 h
  obtain ⟨q, hq, h⟩ := bind_ok.1 h
  obtain ⟨-, -, h⟩ := bind_ok.1 h
  rw [failId_ite] at h
  obtain ⟨-, -, h⟩ := bind_ok.1 h.2
  obtain ⟨-, -, h⟩ := bind_ok.1 h
  split at h
  · simp at h
  obtain ⟨-, -, h⟩ := bind_ok.1 h
  obtain ⟨-, -, h⟩ := bind_ok.1 h
  split at h
  · simp at h
  next id hid =>
    split at h
    · simp at h
    next b hb =>
      obtain ⟨_, hstate, h⟩ := bind_ok.1 h
      exact ⟨q, id, _, _, b, _, _, hq, bne_iff_ne.1 (eq_true_of_need hstate), hid, hb, rfl, rfl, rfl, (Except.ok.inj h).symm⟩

theorem windowCloseBody_ok {v : Verb} {a d : Dev} (h : windowCloseBody v a = .ok d) : fld v 16 2 ≠ 0xFFFF ∧
    d = settleWindow (keepRunning (updWindow (nextRelease a) (fld v 16 2) (fun w => { w with closed := true, closing := some v.seq })) v) (fld v 16 2) := by
  unfold windowCloseBody at h
  obtain ⟨-, -, h⟩ := bind_ok.1 h
  obtain ⟨hid, h⟩ := (failId_ite ..).1 h
  obtain ⟨-, -, h⟩ := bind_ok.1 h
  exact ⟨hid, (Except.ok.inj h).symm⟩

/-- Settles O30: each verb by its body where the checks pass. -/
theorem portQpAndWindowVerbsComplete : Obligations.PortQpAndWindowVerbsComplete := by
  unfold Obligations.PortQpAndWindowVerbsComplete
  exact ⟨verbDoes_of (fun _ _ => rfl) fun _ _ _ => portSetBody_ok, verbDoes_of (fun _ _ => rfl) fun _ _ _ => qpCreateBody_ok,
    verbDoes_of (fun _ _ => rfl) fun _ _ _ => qpModifyBody_ok, verbDoes_of (fun _ _ => rfl) fun _ _ _ => qpDestroyBody_ok,
    verbDoes_of (fun _ _ => rfl) fun _ _ _ => windowOpenBody_ok, verbDoes_of (fun _ _ => rfl) fun _ _ _ => windowCloseBody_ok⟩

/-! ### Shapers, meters and gate lists -/

/-- The setting of a shaper that a verb brings. -/
def shaperCfgOf (v : Verb) : ShaperCfg :=
  { cir := fld v 20 4, cbs := fld v 24 4, pir := fld v 28 4, pbs := fld v 32 4, overhead := toSigned 8 (fld v 19 1) }

theorem shaperSetBody_ok {v : Verb} {a d : Dev} (h : shaperSetBody v a = .ok d) :
    ∃ (p : Part) (c : ShaperCfg) (f : SubPort → SubPort), checkPart a v (fld v 17 1) 17 = .ok p ∧ c = shaperCfgOf v ∧
    d = keepRunning { updSub a (fld v 16 1) f with net.shaperWaits := a.net.shaperWaits ++ [v.seq] } v ∧
    (fld v 18 1 = 8 → ∀ x, f x = { x with
      partShapers := upsert (fun (z : Nat × Shaper) => z.1 == p.num) (p.num, { partShaper x p.num with new := some c }) x.partShapers }) ∧
    (fld v 18 1 ≠ 8 → ∀ x, f x = putQueue x { queueOf x p.num (fld v 18 1) with
      shaper := { (queueOf x p.num (fld v 18 1)).shaper with new := some c }
      newQuantum := if fld v 36 4 = 0 then (queueOf x p.num (fld v 18 1)).newQuantum else some (fld v 36 4) }) := by
  unfold shaperSetBody at h
  obtain ⟨-, -, h⟩ := bind_ok.1 h
  obtain ⟨p, hp, h⟩ := bind_ok.1 h
  obtain ⟨-, -, h⟩ := bind_ok.1 h
  exact ⟨p, _, _, hp, rfl, (Except.ok.inj h).symm, fun ht x => if_pos ht, fun ht x => if_neg ht⟩

theorem policerSetBody_ok {v : Verb} {a d : Dev} (h : policerSetBody v a = .ok d) : ∃ (p : Part) (m : Meter), checkPart a v (fld v 17 1) 17 = .ok p ∧
    m = { part := p.num, cls := fld v 18 1, mode := fld v 19 1 % 4, aware := bitSet (fld v 19 1) 2, cir := fld v 20 4, cbs := fld v 24 4
          pir := fld v 28 4, pbs := fld v 32 4, yellow := fld v 36 1, red := fld v 37 1, tc := 0, tp := 0, last := a.tim.elapsed } ∧
    d = keepRunning { a with net.meterWaits := a.net.meterWaits ++ [(fld v 16 1, { seq := v.seq, meter := m })] } v := by
  unfold policerSetBody at h
  obtain ⟨-, -, h⟩ := bind_ok.1 h
  obtain ⟨p, hp, h⟩ := bind_ok.1 h
  obtain ⟨-, -, h⟩ := bind_ok.1 h
  exact ⟨p, _, hp, rfl, (Except.ok.inj h).symm⟩

theorem gateListBody_ok {v : Verb} {a d : Dev} (h : gateListBody v a = .ok d) : ∃ (x : SubPort) (bs : List Byte) (g : Option Gather),
    findSub a (fld v 16 1) = some x ∧ blockArg a v (8 * fld v 22 2) = .ok bs ∧
    g = gatherPart x (fld v 17 1) (fld v 18 2) (gateEntries bs (fld v 20 2) (fld v 22 2)).1 ∧
    (bitSet (fld v 17 1) 1 = false → d = finishOk (updSub a (fld v 16 1) (fun y => { y with gather := g })) v []) ∧
    (bitSet (fld v 17 1) 1 = true →
      d = finish (updSub (match x.pendGate with | some q => deferredDone a q.ring q.tag 0x0A09 stAborted objDevice .device [] | none => a) (fld v 16 1)
        (fun y => { y with
          pendGate := some { base := fld v 24 8, entries := (g.map gatherList).getD [], ring := v.ring, tag := fld v 4 4 }
          gather := none })) v stDeferred 0xFF [(8, 8, fld v 24 8)]) := by
  unfold gateListBody at h
  obtain ⟨-, -, h⟩ := bind_ok.1 h
  obtain ⟨bs, hbs, h⟩ := bind_ok.1 h
  split at h
  · simp at h
  next x hx =>
    refine ⟨x, bs, _, hx, hbs, rfl, fun hfinal => ?_, fun hfinal => ?_⟩
    · rw [if_pos (by simp [hfinal])] at h
      exact (Except.ok.inj h).symm
    · rw [if_neg (by simp [hfinal])] at h
      exact (Except.ok.inj h).symm

/-! ### Statistics and sampling -/

/-- The device after QUEUE_STATS has written its blocks and, with its flag, cleared the histograms. -/
def statsTaken (a : Dev) (v : Verb) (x : SubPort) (p : Nat) : Dev :=
  let out := outWrite a v (fld v 24 8) (((List.range 8).filter (bitSet (fld v 18 1))).flatMap (statsBlock x a.tim.elapsed p))
  if bitSet (fld v 19 1) 0 then
    updSub out (fld v 16 1) (fun y => ((List.range 8).filter (bitSet (fld v 18 1))).foldl (fun (z : SubPort) c => putQueue z (clearHist (queueOf z p c))) y)
  else out

theorem findPort_statsTaken (a : Dev) (v : Verb) (x : SubPort) (p n : Nat) : findPort (statsTaken a v x p) n = findPort a n := by
  have hports (off : Nat) (bs : List Byte) : (outWrite a v off bs).net.ports = a.net.ports := by rw [(outWrite_sameBut a v off bs).net]
  unfold findPort statsTaken
  dsimp only
  split
  · exact congrArg (List.find? _) (hports _ _)
  · rw [hports]

theorem queueStatsBody_ok {v : Verb} {a d : Dev} (h : queueStatsBody v a = .ok d) :
    ∃ p x b, checkPart a v (fld v 17 1) 17 = .ok p ∧ findSub a (fld v 16 1) = some x ∧
    (let out := outWrite a v (fld v 24 8) (((List.range 8).filter (bitSet (fld v 18 1))).flatMap (statsBlock x a.tim.elapsed p.num))
     (bitSet (fld v 19 1) 0 = false → b = out) ∧
     (bitSet (fld v 19 1) 0 = true → b = updSub out (fld v 16 1) (fun y => ((List.range 8).filter (bitSet (fld v 18 1))).foldl
       (fun (z : SubPort) c => putQueue z (clearHist (queueOf z p.num c))) y)) ∧
     d = finishOk b v [(8, 1, match findPort b (fld v 16 1 / 4) with | some z => z.state | none => 0)]) := by
  unfold queueStatsBody at h
  obtain ⟨-, -, h⟩ := bind_ok.1 h
  obtain ⟨p, hp, h⟩ := bind_ok.1 h
  obtain ⟨-, -, h⟩ := bind_ok.1 h
  obtain ⟨-, h⟩ := (failSt_ite ..).1 h
  split at h
  · simp at h
  next x hx =>
    refine ⟨p, x, statsTaken a v x p.num, hp, hx, fun hclear => if_neg (Bool.eq_false_iff.1 hclear), fun hclear => if_pos hclear, ?_⟩
    rw [findPort_statsTaken]
    exact (Except.ok.inj h).symm

theorem probeSetBody_ok {v : Verb} {a d : Dev} (h : probeSetBody v a = .ok d) : ∃ f : SubPort → SubPort, d = finishOk (updSub a (fld v 16 1) f) v [] ∧
    ∀ x, f x = { (if bitSet (fld v 19 1) 0 then (selected (fld v 17 1) (fld v 18 1)).foldl
        (fun (z : SubPort) k => putQueue z (clearHist (queueOf z k.1 k.2))) x else x) with
      probe := if fld v 20 4 = 0 then none
        else some { part := fld v 17 1, mask := fld v 18 1, period := fld v 20 4, next := a.tim.now + fld v 20 4 } } := by
  unfold probeSetBody at h
  obtain ⟨-, -, h⟩ := bind_ok.1 h
  obtain ⟨-, -, h⟩ := bind_ok.1 h
  exact ⟨_, (Except.ok.inj h).symm, fun x => rfl⟩

/-- Settles O31: each verb by its body where the checks pass. -/
theorem trafficVerbsComplete : Obligations.TrafficVerbsComplete := by
  unfold Obligations.TrafficVerbsComplete
  exact ⟨verbDoes_of (fun _ _ => rfl) fun _ _ _ => shaperSetBody_ok, verbDoes_of (fun _ _ => rfl) fun _ _ _ => policerSetBody_ok,
    verbDoes_of (fun _ _ => rfl) fun _ _ _ => gateListBody_ok, verbDoes_of (fun _ _ => rfl) fun _ _ _ => queueStatsBody_ok,
    verbDoes_of (fun _ _ => rfl) fun _ _ _ => probeSetBody_ok⟩

end Sys2Proof.PortVerbs
end

section
/-!
The verbs of repair and tests (18 R423-R425, R428-R430), and the ends of refetches and tests and the failures of lanes (18 R417, R418, R421, R422,
R428).
-/

namespace Sys2Proof.Repair

open Sys2Proof.Machine ObjectVerbs

/-! ### The repair map -/

theorem repairLoadBody_ok {v : Verb} {a d : Dev} (h : repairLoadBody v a = .ok d) : ∃ (bs head : List Byte) (all : List (Nat × Defect)),
    blockArg a v (16 * fld v 20 4 + (if bitSet (fld v 24 1) 0 then 64 else 0)) = .ok bs ∧
    (head, all) = mapPart a (fld v 16 4) (fld v 20 4) (bitSet (fld v 24 1) 0) bs ∧ fieldAt head 8 8 = a.boot.serial ∧
    (bitSet (fld v 24 1) 1 = false → d = finishOk { a with rep.gathered := some head, rep.parts := all } v []) ∧
    (bitSet (fld v 24 1) 1 = true → d = finishOk (mapFinal { a with rep.gathered := some head, rep.parts := all } head (all.map (·.2))) v []) := by
  unfold repairLoadBody at h
  obtain ⟨-, -, h⟩ := bind_ok.1 h
  obtain ⟨bs, hbs, h⟩ := bind_ok.1 h
  obtain ⟨_, hserial, h⟩ := bind_ok.1 h
  dsimp only at h
  refine ⟨bs, (mapPart a _ _ _ bs).1, (mapPart a _ _ _ bs).2, hbs, rfl, beq_iff_eq.1 (eq_true_of_need hserial), fun hfinal => ?_, fun hfinal => ?_⟩
  · rw [if_neg (Bool.eq_false_iff.1 hfinal)] at h
    exact (Except.ok.inj h).symm
  · rw [if_pos hfinal] at h
    exact (Except.ok.inj h).symm

theorem repairReportBody_ok {v : Verb} {a d : Dev} (h : repairReportBody v a = .ok d) : ∃ es, es = ((reportHeld a).drop (fld v 16 4)).take
      (if v.ring = 16 then Nat.min 252 (fld v 32 4 / 16) else fld v 32 4 / 16) ∧
    d = finishOk (outWrite a v (fld v 24 8) (es.flatMap (fun e => entryBytes e.defect e.flags e.clause))) v
      ([(8, 4, (reportHeld a).length), (12, 4, es.length)] ++ repairCounts a) := by
  unfold repairReportBody at h
  obtain ⟨-, -, h⟩ := bind_ok.1 h
  obtain ⟨-, h⟩ := (failSt_ite ..).1 h
  exact ⟨_, rfl, (Except.ok.inj h).symm⟩

/-! ### Tests, QUIESCE and RESUME -/

theorem testBody_ok {v : Verb} {a d : Dev} (h : testBody v a = .ok d) : d = keepRunning { a with rep.tests := a.rep.tests ++ [
    { seq := v.seq, op := v.op, scope := fld v 16 1, unit := fld v 20 4, done := 0, failed := 0, entries := 0, start := a.tim.elapsed
      left := if v.op = 0x0106 && fld v 16 1 < 2 then testCores a (fld v 16 1) (fld v 20 4) else [], wait := !(fld v 16 1 < 3 || a.tur.quiesced) }] } v := by
  unfold testBody at h
  obtain ⟨-, -, h⟩ := bind_ok.1 h
  obtain ⟨-, -, h⟩ := bind_ok.1 h
  obtain ⟨-, -, h⟩ := bind_ok.1 h
  obtain ⟨-, -, h⟩ := bind_ok.1 h
  exact (Except.ok.inj h).symm

theorem quiesceBody_ok {v : Verb} {a d : Dev} (h : quiesceBody v a = .ok d) :
    (a.tur.quiesced = true → d = finishOk a v []) ∧ (a.tur.quiesced = false → d = registerOp a v (.quiesce v.seq)) := by
  unfold quiesceBody at h
  obtain ⟨-, -, h⟩ := bind_ok.1 h
  refine ⟨fun hq => ?_, fun hq => ?_⟩ <;> rw [hq] at h <;> exact (Except.ok.inj h).symm

theorem resumeBody_ok {v : Verb} {a d : Dev} (h : resumeBody v a = .ok d) :
    (a.tur.quiesced = false → d = finishOk a v []) ∧ (a.tur.quiesced = true → d = registerOp a v (.resume v.seq)) := by
  unfold resumeBody at h
  obtain ⟨-, -, h⟩ := bind_ok.1 h
  refine ⟨fun hq => ?_, fun hq => ?_⟩ <;> rw [hq] at h <;> exact (Except.ok.inj h).symm

/-- Settles O37: each verb by its body where the checks pass. -/
theorem repairVerbsComplete : Obligations.RepairVerbsComplete := by
  unfold Obligations.RepairVerbsComplete
  exact ⟨verbDoes_of (fun _ _ => rfl) fun _ _ _ => repairLoadBody_ok, verbDoes_of (fun _ _ => rfl) fun _ _ _ => repairReportBody_ok,
    verbDoes_of (fun _ _ => rfl) fun _ _ _ => testBody_ok, verbDoes_of (fun _ _ => rfl) fun _ _ _ => testBody_ok,
    verbDoes_of (fun _ _ => rfl) fun _ _ _ => quiesceBody_ok, verbDoes_of (fun _ _ => rfl) fun _ _ _ => resumeBody_ok⟩

/-! ### Refetches -/

section
variable {a : Dev} {id : Nat} {r : Refetch} (hr : a.arr.refetches.find? (fun x => x.id == id) = some r)
include hr

theorem refetchComplete_phrase_read (hkind : r.kind = 0) (hard : List (Nat × Defect)) (pages : Nat) {c : Dev}
    (hc : c = (hard.filter (fun h => r.sectors.contains h.1)).foldl (fun b h => countHard (hardSector b r.part r.obj r.tier h.1) h.2)
      ((r.sectors.filter (fun s => !hard.any (fun h => h.1 == s))).foldl (fun b s => setPoison b r.part r.obj r.tier s false)
        { a with arr.refetches := dropWhere (fun (x : Refetch) => x.id == id) a.arr.refetches })) :
    refetchComplete id true hard pages a =
      reissueItems (noteRefetch c (objRef 2 (match findPhrase c r.part r.obj with | some x => x.ctx | none => r.part * 64) r.obj)
        r.part r.src r.sectors.length) r.part r.obj := by
  rw [hc]
  simp only [refetchComplete, hr, hkind]
  rfl

theorem refetchComplete_phrase_lost (hkind : r.kind = 0) (hard : List (Nat × Defect)) (pages : Nat) {x : Phrase} (hx : findPhrase a r.part r.obj = some x) :
    refetchComplete id false hard pages a = reissueItems (r.sectors.foldl (fun b s => phraseDamaged b x s)
      { a with arr.refetches := dropWhere (fun (y : Refetch) => y.id == id) a.arr.refetches }) r.part r.obj := by
  have hx : findPhrase { a with arr.refetches := dropWhere (fun (y : Refetch) => y.id == id) a.arr.refetches } r.part r.obj = some x := hx
  simp only [refetchComplete, hr, hkind, hx]
  rfl

/-- What the end of a refetch of something that is no phrase leaves. -/
def refetchEnded (b : Dev) (r : Refetch) (ok : Bool) (pages : Nat) : Dev :=
  if r.kind = 3 then raiseDev b 0x0817 [(4, r.obj), (8, pages)]
  else if ok then noteRefetch b (objIn (if r.kind = 1 then 6 else if r.kind = 2 then 10 else 7) r.part r.obj) r.part r.src r.sectors.length
  else if r.kind = 1 then weightDamaged b r.obj 0 0
  else if r.kind = 2 then updIndex b r.obj (fun x => { x with state := 3 })
  else kernelDamaged b r.obj 0

theorem refetchComplete_other (hkind : r.kind ≠ 0) (ok : Bool) (hard : List (Nat × Defect)) (pages : Nat) : refetchComplete id ok hard pages a =
    refetchEnded { a with arr.refetches := dropWhere (fun (x : Refetch) => x.id == id) a.arr.refetches } r ok pages := by
  simp only [refetchComplete, hr]
  split
  next h0 => exact absurd h0 hkind
  next h1 => simp [refetchEnded, h1]
  next h2 => simp [refetchEnded, h2]
  next h3 => simp [refetchEnded, h3]
  next h0 h1 h2 h3 => simp only [refetchEnded, if_neg h1, if_neg h2, if_neg h3]

end

/-! ### Tests that end -/

theorem testComplete_of_due {a : Dev} {c p dt : Nat} {pass : Bool} {h : HeldCore}
    (hh : (advance a dt).arr.held.find? (fun x => x.cluster == c && x.pos == p) = some h) (hdue : h.since + 2000000 ≤ (advance a dt).tim.elapsed) :
    ∃ b e : Dev,
      b = bump { advance a dt with arr.held := dropWhere (fun (x : HeldCore) => x.cluster == c && x.pos == p) (advance a dt).arr.held } 0 0 10 1 ∧
      e = (if pass = true then b else if c = 256 then retireFc b p else retireCore b c p h.why) ∧
      (h.verb = none → testComplete c p pass dt a = e) ∧
      (∀ seq, h.verb = some seq → ∃ z, z = updTest e seq (fun t => { t with
          done := t.done + 1, failed := t.failed + (if pass = true then 0 else 1)
          entries := t.entries + (e.rep.report.length - b.rep.report.length) }) ∧
        testComplete c p pass dt a = match z.rep.tests.find? (fun t => t.seq == seq) with
          | some t => if t.left.isEmpty then endTest z t stOk else z
          | none => z) := by
  refine ⟨_, _, rfl, rfl, fun hverb => ?_, fun seq hverb => ⟨_, rfl, ?_⟩⟩
  all_goals
    unfold testComplete
    simp only [hh, hverb]
    exact if_neg (Nat.not_lt.2 hdue)

/-! ### Lanes -/

theorem laneRepair_of_new {a : Dev} {link mod lane : Nat} (hnew : a.rep.lanes.any (fun l => l.1 == link && l.2.1 == mod && l.2.2.1 == lane) = false) :
    ∃ (spare width : Nat) (b : Dev),
      b = { a with rep.lanes := a.rep.lanes ++ [(link, mod, lane, spare)] } ∧
      spare = (if 0 < moduleSpares a link mod then (Config.moduleSpares link mod - moduleSpares a link mod) % 255 else 255) ∧
      width = (if b.rep.lanes.any (fun l => l.1 == link && l.2.1 == mod && l.2.2.2 == 255) then 32 else 64) ∧
      laneRepair link mod lane a = addReport (raiseDev b 0x0154 [(1, link), (1, mod), (1, lane), (1, moduleSpares b link mod), (1, width)])
        { kind := 6, unit := link, loc := mod * 256 + lane, spare := if spare = 255 then 0 else spare } 1 :=
  ⟨_, _, _, rfl, rfl, rfl, if_neg (Bool.eq_false_iff.1 hnew)⟩

/-- Settles O38: a refetch by what it fetched, a test by its core, a lane by whether it has failed before. -/
theorem repairEventsTakeEffect : Obligations.RepairEventsTakeEffect := by
  unfold Obligations.RepairEventsTakeEffect
  exact ⟨fun id hard pages r => does_of (fun a => settleJobs (refetchComplete id true hard pages a)) (fun _ => rfl) fun a _ ⟨hr, hkind⟩ =>
      ⟨_, rfl, congrArg settleJobs (refetchComplete_phrase_read hr hkind hard pages rfl)⟩,
    fun id hard pages r x => does_of (fun a => settleJobs (refetchComplete id false hard pages a)) (fun _ => rfl) fun a _ ⟨hr, hkind, hx⟩ =>
      congrArg settleJobs (refetchComplete_phrase_lost hr hkind hard pages hx),
    fun id ok hard pages r => does_of (fun a => settleJobs (refetchComplete id ok hard pages a)) (fun _ => rfl) fun a _ ⟨hr, hkind⟩ =>
      congrArg settleJobs (refetchComplete_other hr hkind ok hard pages),
    fun c p pass dt h => does_of (testComplete c p pass dt) (fun _ => rfl) fun a _ ⟨hh, hdue⟩ => testComplete_of_due hh hdue,
    fun link mod lane => does_of (laneRepair link mod lane) (fun _ => rfl) fun a _ hnew => laneRepair_of_new hnew⟩

end Sys2Proof.Repair
end

section
/-!
The verbs that answer what the device holds (20 R452, R454-R458; 22 R486, R488, R489).
-/

namespace Sys2Proof.InformationVerbs

open Sys2Proof.Machine ObjectVerbs

/-! ### COUNTERS_READ -/

theorem noteThrottle_tim (d : Dev) : (noteThrottle d).tim = d.tim := by
  unfold noteThrottle
  dsimp only
  split
  · rfl
  · exact EventHistory.foldl_keeps (p := Dev.tim) (fun a st => (EventHistory.bump_sameBut a 3 st 6 _).tim) _ _

/-- A read without flags clears no counter. -/
theorem foldl_ctrClear_none (cs : List Ctr) (d : Dev) : cs.foldl (fun acc c => ctrClear acc c false false) d = d := by
  induction cs with
  | nil => rfl
  | cons c cs ih => exact ih

theorem countersReadBody_ok {live : Bool} {v : Verb} {a d : Dev} (h : countersReadBody live v a = .ok d) :
    let nums := (rangeFrom (fld v 20 2) (fld v 22 2)).filter (fun n => decide (n ≤ ctrLast (fld v 16 1)))
    let cs := nums.map (ctrGet (noteThrottle a) (fld v 16 1) (fld v 18 2))
    let b := cs.foldl (fun acc c => ctrClear acc c (bitSet (fld v 17 1) 0) (bitSet (fld v 17 1) 1)) (noteThrottle a)
    (fld v 17 1 = 0 → b = noteThrottle a) ∧
    d = finishOk (outWrite b v (fld v 24 8) (cs.flatMap ctrRecord)) v
      [(8, 2, nums.length), (10, 2, ctrLast (fld v 16 1)), (12, 4, (cs.filter (·.ovf)).length), (16, 8, a.tim.now)] := by
  unfold countersReadBody at h
  obtain ⟨-, -, h⟩ := bind_ok.1 h
  obtain ⟨-, -, h⟩ := bind_ok.1 h
  obtain ⟨-, h⟩ := (failSt_ite ..).1 h
  refine ⟨fun hflags => ?_, ?_⟩
  · rw [hflags]
    exact foldl_ctrClear_none _ _
  · rw [← noteThrottle_tim]
    exact (Except.ok.inj h).symm

/-! ### LOG_READ -/

theorem logReadBody_measurement {v : Verb} {a d : Dev} (hlog : fld v 16 1 = 1) (h : logReadBody v a = .ok d) :
    ∃ p, checkPart a v (fld v 18 2) 18 = .ok p ∧
    (let es := (p.log.filter (fun e => decide (fld v 20 8 ≤ e.num))).take (fld v 28 4)
     let oldest := p.logNext - p.log.length
     d = finishOk (outWrite a v (fld v 32 8) (padTo p.logBase 64 ++ es.flatMap (fun e => padTo e.bytes 80))) v [(8, 4, es.length),
       (12, 8, match es.getLast? with | some e => e.num + 1 | none => Nat.max (fld v 20 8) oldest), (20, 8, oldest), (28, 4, oldest)]) := by
  unfold logReadBody at h
  obtain ⟨-, -, h⟩ := bind_ok.1 h
  rw [if_pos hlog] at h
  obtain ⟨p, hp, h⟩ := bind_ok.1 h
  obtain ⟨-, h⟩ := (failSt_ite ..).1 h
  exact ⟨p, hp, (Except.ok.inj h).symm⟩

theorem logReadBody_history {v : Verb} {a d : Dev} (hlog : fld v 16 1 = 2) (h : logReadBody v a = .ok d) :
    let es := historyRead a v (fld v 20 8) (fld v 28 4)
    let oldest := a.tur.histNext - a.tur.history.length
    d = finishOk (outWrite a v (fld v 32 8) (es.flatMap (fun x => eventBytes x.2 0 x.1))) v [(8, 4, es.length),
      (12, 8, match es.getLast? with | some x => x.1 + 1 | none => Nat.max (fld v 20 8) oldest), (20, 8, oldest), (28, 4, oldest)] := by
  unfold logReadBody at h
  obtain ⟨-, -, h⟩ := bind_ok.1 h
  rw [if_neg (by omega)] at h
  obtain ⟨-, h⟩ := (failSt_ite ..).1 h
  exact (Except.ok.inj h).symm

/-! ### EVENT_MASK -/

/-- Whether a mask is one of an LD in a range of codes. -/
def maskIn (ld lo hi : Nat) (m : Nat × Nat) : Bool := m.1 == ld && decide (lo ≤ m.2) && decide (m.2 ≤ hi)

/-- The masks after EVENT_MASK. -/
def masksAfter (act ld lo hi : Nat) (masks : List (Nat × Nat)) : List (Nat × Nat) :=
  match act with
  | 1 => masks.filter (fun m => !maskIn ld lo hi m) ++ ((rangeFrom lo (hi + 1 - lo)).filter (fun c => !unmaskable c)).map (fun c => (ld, c))
  | 2 => masks.filter (fun m => !maskIn ld lo hi m)
  | _ => masks

theorem mem_rangeFrom {lo hi c : Nat} : c ∈ rangeFrom lo (hi + 1 - lo) ↔ lo ≤ c ∧ c ≤ hi := by
  simp only [rangeFrom, List.mem_map, List.mem_range]
  exact ⟨fun ⟨i, hi, hc⟩ => by omega, fun h => ⟨c - lo, by omega, by omega⟩⟩

theorem maskIn_iff {ld lo hi n c : Nat} : maskIn ld lo hi (n, c) = true ↔ n = ld ∧ lo ≤ c ∧ c ≤ hi := by
  simp [maskIn, and_assoc]

theorem mem_unmasked {ld lo hi : Nat} {m : Nat × Nat} {masks : List (Nat × Nat)} :
    m ∈ masks.filter (fun m => !maskIn ld lo hi m) ↔ m ∈ masks ∧ maskIn ld lo hi m = false := by
  simp [List.mem_filter]

theorem mem_newMasks {ld lo hi n c : Nat} : (n, c) ∈ ((rangeFrom lo (hi + 1 - lo)).filter (fun c => !unmaskable c)).map (fun c => (ld, c)) ↔
    maskIn ld lo hi (n, c) = true ∧ unmaskable c = false := by
  simp only [List.mem_map, List.mem_filter, mem_rangeFrom, Prod.mk.injEq, maskIn_iff, Bool.not_eq_true']
  constructor
  · rintro ⟨k, ⟨hk, hu⟩, rfl, rfl⟩
    exact ⟨⟨rfl, hk⟩, hu⟩
  · rintro ⟨⟨rfl, hc⟩, hu⟩
    exact ⟨c, ⟨hc, hu⟩, rfl, rfl⟩

/-- Masks outside the range that EVENT_MASK names stay as they are. -/
theorem mem_masksAfter_outside {act ld lo hi n c : Nat} (hout : maskIn ld lo hi (n, c) = false) (masks : List (Nat × Nat)) :
    (n, c) ∈ masksAfter act ld lo hi masks ↔ (n, c) ∈ masks := by
  unfold masksAfter
  split
  · rw [List.mem_append, mem_unmasked, mem_newMasks]
    simp [hout]
  · simp [hout]
  · rfl

theorem mem_masksAfter_suppress {ld lo hi c : Nat} (hin : maskIn ld lo hi (ld, c) = true) (masks : List (Nat × Nat)) :
    (ld, c) ∈ masksAfter 1 ld lo hi masks ↔ unmaskable c = false := by
  rw [masksAfter, List.mem_append, mem_unmasked, mem_newMasks]
  simp [hin]

theorem not_mem_masksAfter_restore {ld lo hi c : Nat} (hin : maskIn ld lo hi (ld, c) = true) (masks : List (Nat × Nat)) :
    (ld, c) ∉ masksAfter 2 ld lo hi masks := by
  rw [masksAfter, mem_unmasked]
  simp [hin]

theorem eventMaskBody_ok {v : Verb} {a d : Dev} (h : eventMaskBody v a = .ok d) : ∃ masks,
    d = finishOk { a with tur.masks := masks } v
      [(8, 4, (masks.filter (fun m => m.1 == fld v 16 2 && decide (fld v 20 2 ≤ m.2) && decide (m.2 ≤ fld v 22 2))).length),
       (12, 4, (masks.filter (fun m => m.1 == fld v 16 2)).length)] ∧
    (fld v 18 1 = 3 → masks = a.tur.masks) ∧
    (∀ ld c, (ld ≠ fld v 16 2 ∨ c < fld v 20 2 ∨ fld v 22 2 < c) → ((ld, c) ∈ masks ↔ (ld, c) ∈ a.tur.masks)) ∧
    (fld v 18 1 = 1 → ∀ c, fld v 20 2 ≤ c → c ≤ fld v 22 2 → ((fld v 16 2, c) ∈ masks ↔ unmaskable c = false)) ∧
    (fld v 18 1 = 2 → ∀ c, fld v 20 2 ≤ c → c ≤ fld v 22 2 → (fld v 16 2, c) ∉ masks) := by
  unfold eventMaskBody at h
  obtain ⟨-, -, h⟩ := bind_ok.1 h
  obtain ⟨-, h⟩ := (failId_ite ..).1 h
  refine ⟨masksAfter (fld v 18 1) (fld v 16 2) (fld v 20 2) (fld v 22 2) a.tur.masks, (Except.ok.inj h).symm, fun hact => ?_, fun ld c hout => ?_,
    fun hact c hlo hhi => ?_, fun hact c hlo hhi => ?_⟩
  · rw [hact]
    rfl
  · refine mem_masksAfter_outside ?_ _
    rw [← Bool.not_eq_true, maskIn_iff]
    omega
  · rw [hact]
    exact mem_masksAfter_suppress (maskIn_iff.2 ⟨rfl, hlo, hhi⟩) _
  · rw [hact]
    exact not_mem_masksAfter_restore (maskIn_iff.2 ⟨rfl, hlo, hhi⟩) _

/-! ### THERMAL_HISTORY, DEVICE_INFO and configuration -/

theorem thermalHistoryBody_ok {v : Verb} {a d : Dev} (h : thermalHistoryBody v a = .ok d) :
    ∃ b, d = finishOk b v [(8, 1, (hottest a).1), (10, 2, tempBits (hottest a).2), (16, 8, a.therm.seconds)] ∧
    (bitSet (fld v 16 1) 0 = false → b = outWrite a v (fld v 24 8) (thermalOut a)) ∧
    (bitSet (fld v 16 1) 0 = true → b = { outWrite a v (fld v 24 8) (thermalOut a) with
      therm.sensors := (outWrite a v (fld v 24 8) (thermalOut a)).therm.sensors.map (fun x => { x with
        bins := List.replicate 24 0, peak := x.current, peakTime := a.tim.now }) }) := by
  unfold thermalHistoryBody at h
  obtain ⟨-, -, h⟩ := bind_ok.1 h
  obtain ⟨-, h⟩ := (failId_ite ..).1 h
  obtain ⟨-, h⟩ := (failSt_ite ..).1 h
  exact ⟨_, (Except.ok.inj h).symm, fun hkeep => if_neg (Bool.eq_false_iff.1 hkeep), fun hclear => if_pos hclear⟩

theorem deviceInfoBody_ok {v : Verb} {a d : Dev} (h : deviceInfoBody v a = .ok d) : d = finishOk (outWrite a v (fld v 24 8) (infoBlock a v)) v
    [(8, 8, a.boot.serial), (16, 2, (clustersIn a).length), (18, 1, a.boot.stage), (19, 1, a.boot.identity), (20, 4, granulesShown a),
     (24, 2, if 7 ≤ a.boot.stage ∧ a.boot.stage ≠ 10 then (freeDdr a).length else 0)] := by
  unfold deviceInfoBody at h
  obtain ⟨-, -, h⟩ := bind_ok.1 h
  obtain ⟨-, h⟩ := (failSt_ite ..).1 h
  simpa only [Bool.and_eq_true, decide_eq_true_eq] using (Except.ok.inj h).symm

theorem configSetBody_ok {v : Verb} {a d : Dev} (h : configSetBody v a = .ok d) :
    (fld v 16 1 = 1 → d = finishOk { a with tur.config := fld v 32 8, tur.configClause := a.clk.count } v [(8, 8, a.tur.config), (16, 8, a.clk.count)]) ∧
    (fld v 16 1 = 2 → d = finishOk { a with tur.label := fld v 32 16, tur.labelClause := a.clk.count } v
      [(8, 8, a.tur.label % 2 ^ 64), (16, 8, a.clk.count)]) := by
  unfold configSetBody at h
  obtain ⟨-, -, h⟩ := bind_ok.1 h
  obtain ⟨-, h⟩ := (failWith_ite ..).1 h
  refine ⟨fun hitem => ?_, fun hitem => ?_⟩
  · rw [if_pos hitem, if_pos hitem] at h
    exact (Except.ok.inj h).symm
  · rw [if_neg (by omega), if_neg (by omega)] at h
    exact (Except.ok.inj h).symm

theorem configGetBody_ok {v : Verb} {a d : Dev} (h : configGetBody v a = .ok d) :
    (fld v 16 1 = 1 → d = finishOk a v [(8, 8, a.tur.config), (24, 8, a.tur.configClause)]) ∧
    (fld v 16 1 ≠ 1 → d = finishOk a v [(8, 16, a.tur.label), (24, 8, a.tur.labelClause)]) := by
  unfold configGetBody at h
  obtain ⟨-, -, h⟩ := bind_ok.1 h
  refine ⟨fun hitem => ?_, fun hitem => ?_⟩
  · rw [if_pos hitem] at h
    exact (Except.ok.inj h).symm
  · rw [if_neg hitem] at h
    exact (Except.ok.inj h).symm

/-- Settles O39: each verb by its body where the checks pass. -/
theorem informationVerbsComplete : Obligations.InformationVerbsComplete := by
  unfold Obligations.InformationVerbsComplete
  exact ⟨verbDoes_of (fun _ _ => rfl) fun _ _ _ => countersReadBody_ok,
    verbDoes_of (fun _ _ => rfl) fun _ _ _ h => ⟨fun hlog => logReadBody_measurement hlog h, fun hlog => logReadBody_history hlog h⟩,
    verbDoes_of (fun _ _ => rfl) fun _ _ _ => eventMaskBody_ok, verbDoes_of (fun _ _ => rfl) fun _ _ _ => thermalHistoryBody_ok,
    verbDoes_of (fun _ _ => rfl) fun _ _ _ => deviceInfoBody_ok, verbDoes_of (fun _ _ => rfl) fun _ _ _ => configSetBody_ok,
    verbDoes_of (fun _ _ => rfl) fun _ _ _ => configGetBody_ok⟩

end Sys2Proof.InformationVerbs
end

section
/-!
Throttling and the telemetry of temperature (20 R458; 21 R468-R471).
-/

namespace Sys2Proof.Throttling

open Sys2Proof.Machine

/-! ### Power samples -/

/-- Package power with one more sample, of which the last ten count. -/
def sampled (t : Therm) (watts now : Nat) : Therm := { t with power := (watts :: t.power).take 10, powerAt := some now }

/-- What a sample makes of the requests, by the sum of the last ten: half a level for each 10 ms above 1,800 W or below 1,700 W (21 R469). -/
def powerJudged (t : Therm) (now : Nat) : Therm :=
  if t.power.length < 10 then t
  else if 18000 < sumNat t.power then { t with
    above := some (t.above.getD now), under := none
    byPower := if t.byPower = 0 then 1 else if t.above.getD now + 10000000 ≤ now then 2 else t.byPower }
  else if sumNat t.power < 17000 then
    if t.under.getD now + 10000000 ≤ now then { t with above := none, under := some now, byPower := t.byPower - 1 }
    else { t with above := none, under := some (t.under.getD now) }
  else { t with above := none, under := none }

section
variable {t : Therm} {now : Nat}

theorem powerJudged_few (hlen : t.power.length < 10) : powerJudged t now = t := if_pos hlen

theorem powerJudged_above (hlen : 10 ≤ t.power.length) (habove : 18000 < sumNat t.power) : powerJudged t now = { t with
    above := some (t.above.getD now), under := none
    byPower := if t.byPower = 0 then 1 else if t.above.getD now + 10000000 ≤ now then 2 else t.byPower } := by
  rw [powerJudged, if_neg (Nat.not_lt.2 hlen), if_pos habove]

theorem powerJudged_below (hlen : 10 ≤ t.power.length) (hbelow : sumNat t.power < 17000) : powerJudged t now =
    if t.under.getD now + 10000000 ≤ now then { t with above := none, under := some now, byPower := t.byPower - 1 }
    else { t with above := none, under := some (t.under.getD now) } := by
  rw [powerJudged, if_neg (Nat.not_lt.2 hlen), if_neg (by omega), if_pos hbelow]

theorem powerJudged_between (hlen : 10 ≤ t.power.length) (hlow : 17000 ≤ sumNat t.power) (hhigh : sumNat t.power ≤ 18000) :
    powerJudged t now = { t with above := none, under := none } := by
  rw [powerJudged, if_neg (Nat.not_lt.2 hlen), if_neg (Nat.not_lt.2 hhigh), if_neg (Nat.not_lt.2 hlow)]

end

theorem powerSample_early {a : Dev} {dt t : Nat} (ht : a.therm.powerAt = some t) (hearly : (advance a dt).tim.elapsed < t + 100000) (w : Nat) :
    powerSample dt w a = advance a dt := by
  simp only [powerSample, advance_therm, ht, decide_eq_true hearly, if_true]

theorem powerSample_taken {a : Dev} {dt : Nat}
    (hdue : a.therm.powerAt = none ∨ ∃ t, a.therm.powerAt = some t ∧ t + 100000 ≤ (advance a dt).tim.elapsed) (w : Nat) :
    powerSample dt w a = { advance a dt with therm := powerJudged (sampled a.therm w (advance a dt).tim.elapsed) (advance a dt).tim.elapsed } := by
  simp only [powerSample, advance_therm]
  refine (if_neg ?_).trans ?_
  · rcases hdue with h | ⟨t, h, hle⟩ <;> rw [h]
    · exact Bool.false_ne_true
    · exact ne_true_of_eq_false (decide_eq_false (Nat.not_lt.2 hle))
  · by_cases hlen : (sampled a.therm w (advance a dt).tim.elapsed).power.length < 10
    · rw [powerJudged_few hlen]
      unfold sampled at hlen
      simp only [powerAvg, if_pos hlen]
      rfl
    · unfold powerJudged
      rw [if_neg hlen]
      unfold sampled at hlen
      simp only [powerAvg, if_neg hlen]
      rfl

/-! ### Requests, the trip and the history -/

theorem throtAssert_of_long {ns : Nat} (h : 1000 ≤ ns) (a : Dev) : throtAssert ns a = { a with therm.byPin := true } := if_neg (Nat.not_lt.2 h)

theorem throtAssert_of_short {ns : Nat} (h : ns < 1000) (a : Dev) : throtAssert ns a = a := if_pos h

theorem thermalTrip_of_reached {a : Dev} {n : Nat} {t : Int} (hn : n < 14) (ht : tempLimit n 3 ≤ t) (hfirst : a.therm.trip = false)
    (ha : answering a = true) : thermalTrip n t a =
    powerFail 1 (raiseDev { a with therm.trip := true, outs.pins := a.outs.pins ++ [(1, a.tim.elapsed, false)] } 0x0170
      [(1, 3), (1, 1), (1, n), (4, ofSigned 32 t)]) := by
  have hnot : (decide (14 ≤ n) || decide (t < tempLimit n 3) || a.therm.trip || !answering a) = false := by
    simp [hfirst, ha, hn, ht]
  unfold thermalTrip
  rw [if_neg (Bool.eq_false_iff.1 hnot)]

theorem secondTick_of_second {a : Dev} (hdue : a.therm.seconds < a.tim.elapsed / 1000000000) (hseen : a.therm.seen = true) :
    secondTick a = tickChannels { a with
      therm.seconds := a.therm.seconds + 1
      therm.sensors := a.therm.sensors.map (fun x => { x with
        bins := x.bins.set (tempBin (x.second.getD x.current)) (satAdd (nth x.bins (tempBin (x.second.getD x.current)) 0) 1), second := none }) } := by
  rw [secondTick, if_pos hdue, thermalTick, if_pos hdue, hseen]
  rfl

theorem secondTick_of_none {a : Dev} (h : a.tim.elapsed / 1000000000 ≤ a.therm.seconds) : secondTick a = a := if_neg (Nat.not_lt.2 h)

/-- Settles O55: each input by its guard. -/
theorem throttlingTakesEffect : Obligations.ThrottlingTakesEffect := by
  unfold Obligations.ThrottlingTakesEffect
  refine ⟨fun ns hns => does_of (throtAssert ns) (fun _ => rfl) fun a _ _ => throtAssert_of_long hns a,
    fun ns hns => does_of (throtAssert ns) (fun _ => rfl) fun a _ _ => throtAssert_of_short hns a,
    does_of throtRelease (fun _ => rfl) fun a _ _ => rfl,
    fun dt w t => does_of (powerSample dt w) (fun _ => rfl) fun a _ ⟨ht, hearly⟩ => powerSample_early ht hearly w,
    fun dt w => does_of (powerSample dt w) (fun _ => rfl) fun a _ hdue => ⟨_, _, rfl, powerSample_taken hdue w, ?_⟩,
    fun dt => does_of (reqExpiry dt) (fun _ => rfl) fun a _ _ => rfl,
    fun n t s hn ht hfirst ha => ?_,
    fun dt => does_of (fun a => secondTick (advance a dt)) (fun _ => rfl) fun a _ ⟨hdue, hseen⟩ => secondTick_of_second (a := advance a dt) hdue hseen,
    fun dt => does_of (fun a => secondTick (advance a dt)) (fun _ => rfl) fun a _ h => secondTick_of_none (a := advance a dt) h⟩
  · exact ⟨powerJudged_few, powerJudged_above, fun hlen hbelow hlong => (powerJudged_below hlen hbelow).trans (if_pos hlong),
      fun hlen hbelow hshort => (powerJudged_below hlen hbelow).trans (if_neg (Nat.not_le.2 hshort)), powerJudged_between⟩
  · intro d
    have hexec : exec (.thermalTrip n t) s = onPower (thermalTrip n t) s := rfl
    rw [hexec, onPower, thermalTrip_of_reached hn ht hfirst ha]

end Sys2Proof.Throttling
end

section
/-!
The stages of a boot: firmware mailbox, identity, firmware, self-test and training (19 R438-R441; 15 R356, R357; 18 R428).
-/

namespace Sys2Proof.BootStages

open Sys2Proof.Machine

/-! ### The firmware mailbox -/

/-- Who may use the firmware mailbox: MCTP, or an LD whose link is up (19 R438). -/
def Reaches (who : Nat) (a : Dev) : Prop := who = 17 ∨ (who < 16 ∧ 0 < a.cxl.width)

theorem bootBox_of_reaches {who : Nat} {a : Dev} (h : Reaches who a) (op : Nat) (f : Dev) :
    bootBox who op a f = if a.boot.stage = 0 then f else reply a who op rcUnsupported [] :=
  if_pos (by simpa [Reaches] using h)

/-- Another sender has claimed the mailbox. -/
def claimedByOther (who : Nat) (claimed : Option Nat) : Bool :=
  match claimed with
  | some w => w != who
  | none => false

theorem claimedByOther_of_free {who : Nat} {claimed : Option Nat} (h : claimed = none ∨ claimed = some who) : claimedByOther who claimed = false := by
  rcases h with rfl | rfl <;> simp [claimedByOther]

section
variable {who slot off : Nat} {data : List Byte} {a : Dev}

theorem transferFw_busy {k act : Nat} (hother : who ≠ k) (hr : Reaches who a) (hs : a.boot.stage = 0) (hk : a.boot.claimed = some k) :
    mbTransferFw who act slot off data a = reply a who 0x0201 rcBusy [] := by
  have hc : claimedByOther who a.boot.claimed = true := by simp [claimedByOther, hk, Ne.symm hother]
  rw [mbTransferFw, bootBox_of_reaches hr, if_pos hs]
  exact if_pos hc

theorem transferFw_abort (hr : Reaches who a) (hs : a.boot.stage = 0) (hc : claimedByOther who a.boot.claimed = false) :
    mbTransferFw who 4 slot off data a = reply { a with boot.transfer := none, boot.claimed := none } who 0x0201 rcOk [] := by
  rw [mbTransferFw, bootBox_of_reaches hr, if_pos hs]
  exact if_neg (ne_true_of_eq_false hc)

/-- A first part, whole (`act` 0) or the first of several (`act` 1): the mailbox is claimed and the part stored or kept (19 R438). -/
theorem transferFw_first {act : Nat} (hact : act = 0 ∨ act = 1) (hr : Reaches who a) (hs : a.boot.stage = 0)
    (hc : claimedByOther who a.boot.claimed = false) (ht : a.boot.transfer = none) (hslot : 1 ≤ slot ∧ slot ≤ 4) (hdata : data ≠ [])
    (hfits : data.length ≤ slotLimit slot) :
    mbTransferFw who act slot 0 data a =
      reply (if act = 0 then putSlot { a with boot.claimed := some who } slot data
        else { a with boot.claimed := some who, boot.transfer := some (slot, data) }) who 0x0201 rcOk [] := by
  have hlimit : ¬slotLimit slot < data.length := Nat.not_lt.2 hfits
  have hrange : ¬(slot = 0 ∨ 4 < slot) := by omega
  rw [mbTransferFw, bootBox_of_reaches hr, if_pos hs]
  refine (if_neg (ne_true_of_eq_false hc)).trans ?_
  rcases hact with rfl | rfl <;> simp [ht, hrange, hlimit, hdata]

/-- A later part continues the last one (`act` 2), or ends it (`act` 3). -/
theorem transferFw_next {act k : Nat} {got : List Byte} (hact : act = 2 ∨ act = 3) (hr : Reaches who a) (hs : a.boot.stage = 0)
    (hc : claimedByOther who a.boot.claimed = false) (ht : a.boot.transfer = some (k, got)) (hoff : off * 128 = got.length)
    (hfits : got.length + data.length ≤ slotLimit k) :
    mbTransferFw who act slot off data a =
      reply (if act = 3 then putSlot a k (got ++ data) else { a with boot.transfer := some (k, got ++ data) }) who 0x0201 rcOk [] := by
  have hlimit : ¬slotLimit k < got.length + data.length := Nat.not_lt.2 hfits
  rw [mbTransferFw, bootBox_of_reaches hr, if_pos hs]
  refine (if_neg (ne_true_of_eq_false hc)).trans ?_
  rcases hact with rfl | rfl <;> simp [ht, hoff, hlimit]

/-- With an image in slot 1 and no part on its way, activating verifies the image (19 R439). -/
theorem activateFw_verifies (hr : Reaches who a) (hs : a.boot.stage = 0) (hc : claimedByOther who a.boot.claimed = false)
    (ht : a.boot.transfer = none) (himage : bootSlot a 1 ≠ []) :
    mbActivateFw who 1 a =
      if rsaVerify Config.firmwareKey (Config.fwBody (bootSlot a 1)) (Config.fwSignature (bootSlot a 1)) = true then
        reply { a with
          boot.claimed := none, boot.stage := 2, boot.fwDigest := sha512 (bootSlot a 1 ++ bootSlot a 2)
          boot.fwSecurity := Config.fwSecurity (bootSlot a 1) % 2 ^ 16, boot.fwVersion := Config.fwVersion (bootSlot a 1) % 2 ^ 64 } who 0x0202 rcOk []
      else reply { a with boot.claimed := none } who 0x0202 0x0A [] := by
  rw [mbActivateFw, bootBox_of_reaches hr, if_pos hs]
  refine (if_neg (ne_true_of_eq_false hc)).trans ?_
  cases hv : rsaVerify Config.firmwareKey (Config.fwBody (bootSlot a 1)) (Config.fwSignature (bootSlot a 1)) <;> simp [ht, himage]

end

/-! ### Identity -/

/-- The device once its key is derived: stage 3, with the key and the checked chain (15 R356, R357). -/
def withIdentity (a : Dev) (key : List Byte) (ok : Bool) : Dev := { a with
  boot.stage := 3, boot.ifMajor := 1, boot.ifMinor := Config.fwMinor (bootSlot a 1) % 256, boot.identity := if ok then 2 else 1, boot.publicKey := key
  boot.serial := fieldAt (bootSlot a 3) 0 8, boot.chain := if ok then bootSlot a 4 else [] }

/-- The public key of the last certificate in slot 4. -/
def leafKey (a : Dev) : List Byte := spkiOf (leafOf (bootSlot a 4).length (bootSlot a 4))

theorem identityDerived_of_key {a : Dev} {key : List Byte} (hs : a.boot.stage = 2) (hlen : (bootSlot a 3).length = 4096)
    (hkey : Config.identityKey (bootSlot a 3) = some key) {ok : Bool} (hok : (!(bootSlot a 4).isEmpty && leafKey a == key) = ok) {c : Dev}
    (hc : (if (bootSlot a 4).isEmpty || ok then withIdentity a key ok else
      raiseDev (withIdentity a key ok) 0x0131 [(8, (bootSlot a 4).length), (16, leNat ((sha512 (leafKey a)).take 16))]) = c) :
    identityDerived a = raiseDev c 0x0130 [(1, c.boot.identity), (16, leNat ((sha512 key).take 16))] := by
  have hmatch : (if (bootSlot a 3).length = 4096 then Config.identityKey (bootSlot a 3) else none) = some key := (if_pos hlen).trans hkey
  rw [identityDerived, if_neg (by simp [hs])]
  dsimp only
  rw [hmatch]
  dsimp only
  rw [← hc, ← hok]
  unfold leafKey withIdentity
  rfl

/-! ### Training -/

theorem range_map_nth {l : List Nat} {n : Nat} (h : l.length = n) : (List.range n).map (fun i => nth l i 0 - 0) = l := by
  subst h
  refine List.ext_getElem (by simp) fun i h1 h2 => ?_
  simp [nth, List.getElem?_eq_getElem h2]

/-- The device after training that found `pop` and no failure (19 R441). -/
def trainedWith (d : Dev) (pop : Option (Nat × Nat)) (mts granules : Nat) : Dev := { d with
  boot.stage := 7
  boot.ddrChannels := match pop with | some x => x.2 | none => 0
  boot.ddrDpc := match pop with | some x => x.1 | none => 0
  boot.ddrMts := if pop.isSome then mts else 0
  pool.ddrGranules := if pop.isSome then granules else 0 }

theorem trainingDone_of_clean {modules : List Dimm} {mts n luns : Nat} {silent : List (Nat × Nat)} {a d b : Dev} (hs : a.boot.stage = 6)
    (hd : (if (bootSlot a 2).isEmpty then a else findNand luns silent a) = d) (hlen : d.pool.hbmGranules.length = 8) {granules : Nat}
    (hcap : ddrCapacity modules n (d.rep.mapEntries.any (fun x => x.kind == 5)) = granules ∨ ddrTrained modules mts = none)
    (hb : holdExch (trainedWith d (ddrTrained modules mts) mts granules) = some b) :
    trainingDone modules mts n luns silent [] a =
      if (bootSlot d 2).isEmpty || b.pool.ddrGranules = 0 then { b with boot.bootDone := true } else { b with flash.mounting := some none } := by
  have hddr : (if (ddrTrained modules mts).isSome then ddrCapacity modules n (d.rep.mapEntries.any (fun x => x.kind == 5)) else 0) =
      if (ddrTrained modules mts).isSome then granules else 0 := by
    rcases hcap with h | h
    · rw [h]
    · rw [h]
      rfl
  have hsame : { d with
      boot.stage := 7
      boot.ddrChannels := match ddrTrained modules mts with | some x => x.2 | none => 0
      boot.ddrDpc := match ddrTrained modules mts with | some x => x.1 | none => 0
      boot.ddrMts := if (ddrTrained modules mts).isSome then mts else 0
      pool.ddrGranules := if (ddrTrained modules mts).isSome then ddrCapacity modules n (d.rep.mapEntries.any (fun x => x.kind == 5)) else 0
      rep.pcs := d.rep.pcs ++ []
      pool.hbmGranules := (List.range 8).map (fun st => nth d.pool.hbmGranules st 0 - 0) } =
      trainedWith d (ddrTrained modules mts) mts granules := by
    rw [hddr, range_map_nth hlen, List.append_nil]
    rfl
  rw [trainingDone, if_neg (by simp [hs])]
  dsimp only
  rw [hd]
  refine Eq.trans ?_ (congrArg (fun x : Dev => if ((bootSlot d 2).isEmpty || decide (x.pool.ddrGranules = 0)) = true then { x with boot.bootDone := true }
    else { x with flash.mounting := some none }) (show (holdExch (trainedWith d (ddrTrained modules mts) mts granules)).getD
      (trainedWith d (ddrTrained modules mts) mts granules) = b by rw [hb]; rfl))
  rw [← hsame]
  rfl

theorem ddrTrained_of_population {ms : List Dimm} {mts k ch : Nat} (hpop : ddrPopulation ms = some (k, ch)) (hlow : 4800 ≤ mts)
    (hhigh : mts ≤ if k = 2 then 5200 else 6400) : ddrTrained ms mts = some (k, ch) := by
  rw [ddrTrained, hpop, Option.filter_some, decide_eq_true hlow, decide_eq_true hhigh]
  rfl

theorem ddrTrained_of_none {ms : List Dimm} {mts : Nat} (h : ddrPopulation ms = none ∨ mts < 4800) : ddrTrained ms mts = none := by
  rcases h with h | h
  · rw [ddrTrained, h]; rfl
  · unfold ddrTrained
    refine Option.filter_eq_none_iff.2 fun x _ => ?_
    simp [Nat.not_le.2 h]

theorem ddrCapacity_whole (ms : List Dimm) (n : Nat) : ddrCapacity ms n false = sumNat (ms.map (·.gib)) / 4 := rfl

/-! ### Self-test -/

theorem any_die_out_iff {out : List Nat} :
    (List.range 4).any (fun die => (rangeFrom (die * 64) 64).all (fun c => out.contains c)) = true ↔ ∃ die < 4, ∀ k < 64, die * 64 + k ∈ out := by
  simp [rangeFrom, Nat.add_comm]

theorem bootSelftestDone_of_stage {defects : List Defect} {fail : Bool} {slots : List Nat} {units : Nat} {a c : Dev} (hs : a.boot.stage = 5)
    (hc : (touchedClusters (defects.foldl applyDefect { a with rep.noSlots := slots, rep.noUnits := units })).foldl settleCluster
      (defects.foldl applyDefect { a with rep.noSlots := slots, rep.noUnits := units }) = c) :
    bootSelftestDone defects fail slots units a =
      { c with boot.stage := if fail = true ∨ ∃ die < 4, ∀ k < 64, die * 64 + k ∈ c.arr.out then 10 else 6 } := by
  rw [bootSelftestDone, if_neg (by simp [hs])]
  dsimp only
  rw [hc]
  simp only [Bool.or_eq_true, any_die_out_iff]

/-! ### The obligation -/

/-- Settles O54: the mailbox by who has claimed it, and each later event by the stage it finds. -/
theorem bootStagesFollow : Obligations.BootStagesFollow := by
  unfold Obligations.BootStagesFollow
  refine ⟨fun w => does_of (mbFwInfo w) (fun _ => rfl) fun a _ ⟨hr, hs⟩ => (bootBox_of_reaches hr _ _).trans (if_pos hs),
    fun w => does_of (mbFwInfo w) (fun _ => rfl) fun a _ ⟨hr, hs⟩ => (bootBox_of_reaches hr _ _).trans (if_neg hs),
    fun w slot data => does_of (mbTransferFw w 0 slot 0 data) (fun _ => rfl) fun a _ ⟨hr, hs, hc, ht, hlow, hhigh, hdata, hfits⟩ =>
      transferFw_first (.inl rfl) hr hs (claimedByOther_of_free hc) ht ⟨hlow, hhigh⟩ hdata hfits,
    fun w slot data => does_of (mbTransferFw w 1 slot 0 data) (fun _ => rfl) fun a _ ⟨hr, hs, hc, ht, hlow, hhigh, hdata, hfits⟩ =>
      transferFw_first (.inr rfl) hr hs (claimedByOther_of_free hc) ht ⟨hlow, hhigh⟩ hdata hfits,
    fun w slot off data k got => does_of (mbTransferFw w 2 slot off data) (fun _ => rfl) fun a _ ⟨hr, hs, hc, ht, hoff, hfits⟩ =>
      transferFw_next (.inl rfl) hr hs (claimedByOther_of_free (.inr hc)) ht hoff hfits,
    fun w slot off data k got => does_of (mbTransferFw w 3 slot off data) (fun _ => rfl) fun a _ ⟨hr, hs, hc, ht, hoff, hfits⟩ =>
      transferFw_next (.inr rfl) hr hs (claimedByOther_of_free (.inr hc)) ht hoff hfits,
    fun w slot off data => does_of (mbTransferFw w 4 slot off data) (fun _ => rfl) fun a _ ⟨hr, hs, hc⟩ =>
      transferFw_abort hr hs (claimedByOther_of_free hc),
    fun w k act slot off data hother => does_of (mbTransferFw w act slot off data) (fun _ => rfl) fun a _ ⟨hr, hs, hk⟩ =>
      transferFw_busy hother hr hs hk,
    fun w => does_of (mbActivateFw w 1) (fun _ => rfl) fun a _ ⟨hr, hs, hc, ht, himage, hv⟩ =>
      (activateFw_verifies hr hs (claimedByOther_of_free hc) ht himage).trans (if_pos hv),
    fun w => does_of (mbActivateFw w 1) (fun _ => rfl) fun a _ ⟨hr, hs, hc, ht, himage, hv⟩ =>
      (activateFw_verifies hr hs (claimedByOther_of_free hc) ht himage).trans (if_neg (ne_true_of_eq_false hv)),
    does_of identityDerived (fun _ => rfl) fun a _ ⟨hs, hlen⟩ => ?_,
    fun key => does_of identityDerived (fun _ => rfl) fun a _ ⟨hs, hlen, hkey⟩ => ?_,
    does_of firmwareStarted (fun _ => rfl) fun a _ hs => if_neg (by simp [hs]),
    does_of firmwareStarted (fun _ => rfl) fun a _ hs => if_pos hs,
    fun defects fail slots units => does_of (bootSelftestDone defects fail slots units) (fun _ => rfl) fun a _ hs =>
      ⟨_, _, rfl, rfl, bootSelftestDone_of_stage hs rfl⟩,
    fun defects fail slots units => does_of (bootSelftestDone defects fail slots units) (fun _ => rfl) fun a _ hs => if_pos hs,
    fun modules mts n luns silent k ch b hpop hlow hhigh => does_of (trainingDone modules mts n luns silent []) (fun _ => rfl)
      fun a _ ⟨hs, hlen, hslot, hranks, hb⟩ => ?_,
    fun modules mts n luns silent k ch b hpop hlow hhigh => does_of (trainingDone modules mts n luns silent []) (fun _ => rfl)
      fun a _ ⟨hs, _, hslot, hranks, hlen, hslot', hb, hddr⟩ => ?_,
    fun modules mts n luns silent b hnone => does_of (trainingDone modules mts n luns silent []) (fun _ => rfl)
      fun a _ ⟨hs, hlen, hslot, hb⟩ => ?_,
    fun modules mts n luns silent failed => does_of (trainingDone modules mts n luns silent failed) (fun _ => rfl) fun a _ hs => if_pos hs⟩
  · rw [identityDerived, if_neg (by simp [hs])]
    simp only [if_neg hlen]
  · cases hok : (!(bootSlot a 4).isEmpty && leafKey a == key) with
    | true =>
      have hboth : bootSlot a 4 ≠ [] ∧ leafKey a = key := by simpa using hok
      refine ⟨withIdentity a key true, ?_, fun _ => ?_, fun _ hne => absurd hboth.2 hne⟩
      · unfold leafKey at hboth
        simp only [if_pos hboth]
        rfl
      · exact identityDerived_of_key hs hlen hkey hok (by rw [Bool.or_true, if_pos rfl])
    | false =>
      have hnot : ¬(bootSlot a 4 ≠ [] ∧ leafKey a = key) := by simpa using hok
      refine ⟨withIdentity a key false, ?_, fun h => ?_, fun hchain _ => ?_⟩
      · unfold leafKey at hnot
        simp only [if_neg hnot]
        rfl
      · have hempty : bootSlot a 4 = [] := h.resolve_right hnot
        exact identityDerived_of_key hs hlen hkey hok (by rw [hempty]; rfl)
      · rw [identityDerived_of_key hs hlen hkey hok (if_neg (by simp [hchain])), (raiseDev_sameBut _ _ _).boot, leafKey]
  · have hd : (if (bootSlot a 2).isEmpty then a else findNand luns silent a) = a := if_pos (by simp [hslot])
    rw [trainingDone_of_clean (b := b) hs hd hlen (.inl (by rw [hranks, ddrCapacity_whole]))
      (by rw [ddrTrained_of_population hpop hlow hhigh]; exact hb), hslot]
    rfl
  · have hd : (if (bootSlot a 2).isEmpty then a else findNand luns silent a) = findNand luns silent a := if_neg (by simp [hslot])
    rw [trainingDone_of_clean (b := b) hs hd hlen (.inl (by rw [hranks, ddrCapacity_whole]))
      (by rw [ddrTrained_of_population hpop hlow hhigh]; exact hb)]
    exact if_neg (by simp [hslot', hddr])
  · have hd : (if (bootSlot a 2).isEmpty then a else findNand luns silent a) = a := if_pos (by simp [hslot])
    rw [trainingDone_of_clean (b := b) (granules := 0) hs hd hlen (.inr (ddrTrained_of_none hnone))
      (by rw [ddrTrained_of_none hnone]; exact hb), hslot]
    rfl

end Sys2Proof.BootStages
end

section
/-!
The CXL attachment: the link and its resets, configuration space, mailbox and FM API commands, sanitizing and the tunnel (17 R397-R410).
-/

namespace Sys2Proof.CxlAttachment

open Sys2Proof.Machine

/-! ### The link and its resets -/

theorem linkDown_of_up {a : Dev} (h : a.cxl.width ≠ 0) :
    linkDown a = raiseDev { a with cxl.width := 0, cxl.lds := a.cxl.lds.map resetIo } 0x0141 [(1, 1)] := if_neg h

theorem linkUp_of_width {w : Nat} (hw : w = 16 ∨ w = 8 ∨ w = 4) (root : Bool) (bound : Nat) (a : Dev) :
    linkUp w root bound a = if 0 < a.cxl.width then { a with cxl.width := w } else
      raiseDev { a with
        cxl.width := w
        cxl.lds := ((List.range a.cxl.lds.length).zip a.cxl.lds).map (fun p => { p.2 with bound := if root = true then p.1 == 0 else bitSet bound p.1 })
        tur.singleLd := root } 0x0142 [(1, w), (2, 32)] := by
  rcases hw with rfl | rfl | rfl <;> exact if_neg (by decide)

theorem updLd_tur (a : Dev) (n : Nat) (f : CxlLd → CxlLd) : (updLd a n f).tur = a.tur := by
  unfold updLd
  split <;> rfl

theorem flr_of_found {a : Dev} {n : Nat} {x : CxlLd} {q : Evq} (hx : findLd a n = some x) (hq : a.tur.evqs[n]? = some q) :
    flr n a = raiseDev { updLd a n resetIo with tur.evqs := setNth a.tur.evqs n (evqReset q) } 0x0141 [(1, 3), (1, n)] := by
  simp -zeta only [flr, hx, hq]
  dsimp only
  rw [updLd_tur]

theorem laneFailure_of_wide {a : Dev} (h : 4 < a.cxl.width) :
    laneFailure a = raiseDev { a with cxl.width := a.cxl.width / 2 } 0x0140 [(1, a.cxl.width), (1, a.cxl.width / 2)] :=
  (if_neg (by omega)).trans (if_neg (Nat.not_le.2 h))

theorem laneFailure_of_narrow {a : Dev} (h : 0 < a.cxl.width) (h4 : a.cxl.width ≤ 4) : laneFailure a = linkDown a :=
  (if_neg (by omega)).trans (if_pos h4)

/-- A decoder commits where it is the next of two and its range is in units of 256 MiB (17 R400). -/
theorem hdmCommit_of_found {a : Dev} {n : Nat} {x : CxlLd} (hx : findLd a n = some x) (i base size : Nat) :
    hdmCommit n i base size a = if i < 2 ∧ i = x.hdm.length ∧ base % 2 ^ 28 = 0 ∧ size % 2 ^ 28 = 0 ∧ size ≠ 0 then
      updLd a n (fun y => { y with hdm := y.hdm ++ [⟨base, size, true⟩] }) else a := by
  rw [hdmCommit, hx]
  refine if_congr ?_ rfl rfl
  simp [and_assoc]

/-- Settles O47: each event and each write by its guard. -/
theorem linkAndConfiguration : Obligations.LinkAndConfiguration := by
  unfold Obligations.LinkAndConfiguration
  refine ⟨does_of linkDown (fun _ => rfl) fun a _ h => linkDown_of_up h,
    fun w root bound hw => does_of (linkUp w root bound) (fun _ => rfl) fun a _ h =>
      ⟨_, rfl, (linkUp_of_width hw root bound a).trans (if_neg (by omega))⟩,
    fun w root bound hw => does_of (linkUp w root bound) (fun _ => rfl) fun a _ h => (linkUp_of_width hw root bound a).trans (if_pos h),
    does_of (hotReset none) (fun _ => rfl) fun a _ _ => rfl,
    fun n => does_of (hotReset (some n)) (fun _ => rfl) fun a _ _ => rfl,
    fun n x q => does_of (flr n) (fun _ => rfl) fun a _ ⟨hx, hq⟩ => flr_of_found hx hq,
    does_of laneFailure (fun _ => rfl) fun a _ h => laneFailure_of_wide h,
    does_of laneFailure (fun _ => rfl) fun a _ ⟨h, h4⟩ => (laneFailure_of_narrow h h4).trans (linkDown_of_up (Nat.pos_iff_ne_zero.1 h)),
    fun n v => does_of (configWrite n .command v) (fun _ => rfl) fun a _ _ => rfl,
    fun n v => does_of (configWrite n .bar0 v) (fun _ => rfl) fun a _ _ => rfl,
    fun n v => does_of (configWrite n .bar2 v) (fun _ => rfl) fun a _ _ => rfl,
    fun n v => does_of (configWrite n .msixControl v) (fun _ => rfl) fun a _ _ => rfl,
    fun n vec addr data m hvec => does_of (msixWrite n vec addr data m) (fun _ => rfl) fun a _ _ => if_pos hvec,
    fun n i base size x => does_of (hdmCommit n i base size) (fun _ => rfl) fun a _ ⟨hx, hok⟩ => (hdmCommit_of_found hx i base size).trans (if_pos hok),
    fun n i base size x => does_of (hdmCommit n i base size) (fun _ => rfl) fun a _ ⟨hx, hnot⟩ => (hdmCommit_of_found hx i base size).trans (if_neg hnot)⟩

/-! ### Mailbox commands -/

/-- A mailbox command of an LD that is there runs where the link is up (17 R407). -/
theorem mailbox_of_up {a : Dev} {n : Nat} {x : CxlLd} (h : findLd a n = some x ∧ 0 < a.cxl.width) (f : CxlLd → Dev) : mailbox n a f = f x := by
  rw [mailbox, h.1]
  exact if_pos h.2

section
variable {a : Dev} {n : Nat} {x : CxlLd} (h : findLd a n = some x ∧ 0 < a.cxl.width)
include h

theorem mbSetAlert_of_range {valid life : Nat} (hvalid : valid < 4) (hlife : life ≤ 100) (e : Nat) (t : Int) :
    mbSetAlert n valid e life t a = reply (updLd a n (fun y => { y with
      lifeWarn := if bitSet valid 0 then (if bitSet e 0 then some life else none) else y.lifeWarn
      tempWarn := if bitSet valid 1 then (if bitSet e 1 then some t else none) else y.tempWarn })) n 0x4202 rcOk [] :=
  (mailbox_of_up h _).trans (if_neg (by simp [hvalid, hlife]))

theorem mbGetRecords_of_log {log : Nat} (hlog : log < 4) :
    mbGetRecords n log a = reply (drawBytes a 80).2 n 0x0100 rcOk ([byte (if 31 < (eventLog x log).length then 2 else 0)] ++ List.replicate 19 0 ++
      natLe ((eventLog x log).take 31).length 2 ++ List.replicate 10 0 ++ ((eventLog x log).take 31).flatMap (fun r => cxlRecordBytes r (drawBytes a 80).1)) :=
  (mailbox_of_up h _).trans (if_neg (Nat.not_le.2 hlog))

theorem mbClearRecords_of_oldest {log : Nat} (hlog : log < 4) {all : Bool} {hs : List Nat}
    (hall : all = true ∨ (hs ≠ [] ∧ ((eventLog x log).take hs.length).map (·.handle) = hs)) :
    mbClearRecords n log all hs a = reply (updLd a n (fun y =>
      if log = 1 then { y with warnLog := if all = true then [] else (eventLog x log).drop hs.length }
      else if log = 2 then { y with failLog := if all = true then [] else (eventLog x log).drop hs.length } else y)) n 0x0101 rcOk [] := by
  refine (mailbox_of_up h _).trans ((if_neg (Nat.not_le.2 hlog)).trans ?_)
  cases all with
  | true => rfl
  | false =>
    obtain ⟨hne, hold⟩ := hall.resolve_left Bool.false_ne_true
    exact (if_neg Bool.false_ne_true).trans (if_pos (by simp [hold, hne]))

theorem mbSetPolicy_of_legal {p : List Nat} (hlen : p.length = 4) (hlegal : p.all (fun b => decide (b < 256) && decide (b % 4 < 2)) = true) :
    mbSetPolicy n p a = reply (updLd a n (fun y => { y with intPolicy := p })) n 0x0103 rcOk [] :=
  (mailbox_of_up h _).trans (if_pos (by rw [hlen, hlegal]; rfl))

theorem mbGetLog_of_range {off len : Nat} (hlen : off + len ≤ 60) :
    mbGetLog n celId off len a = reply (drawBytes a 30).2 n 0x0401 rcOk (((((List.range 15).zip mailboxOps).flatMap
      (fun y => natLe y.2 2 ++ ((drawBytes a 30).1.drop (2 * y.1)).take 2)).drop off).take len) :=
  (mailbox_of_up h _).trans (if_neg (by simpa [mailboxOps] using hlen))

end

/-- Settles O48: each command of an LD that its host reaches, by its operand check. -/
theorem mailboxCommandsAnswer : Obligations.MailboxCommandsAnswer := by
  unfold Obligations.MailboxCommandsAnswer
  refine ⟨fun n x => does_of (mbIdentify n) (fun _ => rfl) fun a _ h => mailbox_of_up h _,
    fun n x => does_of (mbHealth n) (fun _ => rfl) fun a _ h => mailbox_of_up h _,
    fun n x => does_of (mbGetAlert n) (fun _ => rfl) fun a _ h => mailbox_of_up h _,
    fun n x valid e life t hvalid hlife => does_of (mbSetAlert n valid e life t) (fun _ => rfl) fun a _ h => mbSetAlert_of_range h hvalid hlife e t,
    fun n x log hlog => does_of (mbGetRecords n log) (fun _ => rfl) fun a _ h => mbGetRecords_of_log h hlog,
    fun n x log all hs hlog => does_of (mbClearRecords n log all hs) (fun _ => rfl) fun a _ ⟨hx, hup, hall⟩ =>
      mbClearRecords_of_oldest ⟨hx, hup⟩ hlog hall,
    fun n x => does_of (mbGetPolicy n) (fun _ => rfl) fun a _ h => mailbox_of_up h _,
    fun n x p => does_of (mbSetPolicy n p) (fun _ => rfl) fun a _ ⟨hx, hup, hlen, hlegal⟩ => mbSetPolicy_of_legal ⟨hx, hup⟩ hlen hlegal,
    fun n x => does_of (mbLogs n) (fun _ => rfl) fun a _ h => mailbox_of_up h _,
    fun n x off len hlen => does_of (mbGetLog n celId off len) (fun _ => rfl) fun a _ h => mbGetLog_of_range h hlen,
    fun n x op hop => ?_⟩
  simp only [List.mem_cons, List.not_mem_nil, or_false] at hop
  rcases hop with rfl | rfl | rfl | rfl | rfl
  · exact does_of (mbSetAlert n 4 0 0 0) (fun _ => rfl) fun a _ h => mailbox_of_up h _
  · exact does_of (mbGetRecords n 4) (fun _ => rfl) fun a _ h => mailbox_of_up h _
  · exact does_of (mbClearRecords n 4 true []) (fun _ => rfl) fun a _ h => mailbox_of_up h _
  · exact does_of (mbSetPolicy n []) (fun _ => rfl) fun a _ h => mailbox_of_up h _
  · exact does_of (mbGetLog n [] 0 0) (fun _ => rfl) fun a _ h => mailbox_of_up h _

/-! ### Poison and sanitizing -/

theorem mbSanitize_of_idle {a : Dev} {n : Nat} {x : CxlLd} (h : findLd a n = some x ∧ 0 < a.cxl.width) (hidle : x.sanitizing = false) :
    mbSanitize n a = reply (exZero (((a.pool.parts.filter (fun p => p.bound == some n)).map (·.num)).foldl (sanitizeScrub n)
      (updLd a n (fun y => { y with sanitizing := true }))) (exKey n controlArea) (exSize a n - controlArea)) n 0x4400 rcBackground [] :=
  (mailbox_of_up h _).trans (if_neg (ne_true_of_eq_false hidle))

theorem sanitizeFinished_of_ended {a : Dev} {n : Nat} {x : CxlLd} (hx : findLd a n = some x) (hruns : x.sanitizing = true)
    (hverbs : a.tur.verbs.any (fun v => v.ring == 0xFFFF && v.ld == n) = false) (hclear : a.pool.clearings.any (fun c => c.sanitize == some n) = false) :
    sanitizeFinished n a = updLd a n (fun y => { y with sanitizing := false }) := by
  rw [sanitizeFinished, hx]
  exact if_pos (by rw [hruns, hverbs, hclear]; rfl)

/-- Settles O49: a Sanitize by whether one runs already. -/
theorem sanitizeAndPoisonList : Obligations.SanitizeAndPoisonList := by
  unfold Obligations.SanitizeAndPoisonList
  exact ⟨fun n start len x => does_of (mbPoisonList n start len) (fun _ => rfl) fun a _ h => ⟨_, _, rfl, rfl, mailbox_of_up h _⟩,
    fun n x => does_of (mbSanitize n) (fun _ => rfl) fun a _ ⟨hx, hup, hidle⟩ => ⟨_, rfl, mbSanitize_of_idle ⟨hx, hup⟩ hidle⟩,
    fun n x => does_of (mbSanitize n) (fun _ => rfl) fun a _ ⟨hx, hup, hruns⟩ => (mailbox_of_up ⟨hx, hup⟩ _).trans (if_pos hruns),
    fun n x => does_of (sanitizeFinished n) (fun _ => rfl) fun a _ ⟨hx, hruns, hverbs, hclear⟩ => sanitizeFinished_of_ended hx hruns hverbs hclear⟩

/-! ### FM API commands -/

/-- The LDs with the ranges that Set LD Allocations leaves pending. -/
def withRanges (a : Dev) (start : Nat) (ms : List (Nat × Nat)) : Dev :=
  ((rangeFrom start ms.length).zip ms).foldl (fun e x => updLd e x.1 (fun y => { y with newM := some x.2 })) a

/-- The ranges in effect once what is pending has taken effect. -/
def rangesAfter (c : Dev) : List (Nat × Nat) := c.cxl.lds.map (fun x => x.newM.getD (x.m1, x.m2))

theorem fmSetAlloc_of_fits {a b : Dev} {start : Nat} {ms : List (Nat × Nat)} (hfew : start + ms.length ≤ 16) (hne : ms ≠ []) (hok : ms.all rangesOk = true)
    (h1 : sumNat ((rangesAfter (withRanges a start ms)).map (·.1)) ≤ 256) (h2 : sumNat ((rangesAfter (withRanges a start ms)).map (·.2)) ≤ 2048)
    (hfree : ∀ n m, (n, m) ∈ (rangeFrom start ms.length).zip ms → resizeBusy a n m = false) (hb : holdExch (withRanges a start ms) = some b) :
    fmSetAlloc start ms a = reply b 16 0x5402 rcOk ([byte ms.length, byte start, 0, 0] ++ ms.flatMap (fun m => natLe m.1 8 ++ natLe m.2 8)) := by
  have hlegal : (decide (start + ms.length ≤ 16) && !ms.isEmpty && ms.all rangesOk && decide (sumNat ((rangesAfter (withRanges a start ms)).map (·.1)) ≤ 256) &&
      decide (sumNat ((rangesAfter (withRanges a start ms)).map (·.2)) ≤ 2048)) = true := by
    simp only [decide_eq_true hfew, hok, decide_eq_true h1, decide_eq_true h2, Bool.and_true, Bool.true_and, Bool.not_eq_true', List.isEmpty_eq_false_iff]
    exact hne
  have hidle : (((rangeFrom start ms.length).zip ms).filter (fun x => match findLd a x.1 with | some y => (y.m1, y.m2) != x.2 | none => false)).any
      (fun x => resizeBusy a x.1 x.2) = false :=
    List.any_eq_false.2 fun x hx => ne_true_of_eq_false (hfree x.1 x.2 (List.mem_of_mem_filter hx))
  unfold rangesAfter withRanges at hlegal
  unfold withRanges at hb
  simp only [fmSetAlloc]
  rw [hlegal, hb]
  exact (if_neg Bool.false_ne_true).trans (if_neg (ne_true_of_eq_false hidle))

theorem fmSetQos_of_range {q : Qos} (hcontrol : q.control < 4) (hmoderate : q.moderate ≤ 100) (hsevere : q.severe ≤ 100) (hinterval : q.interval < 256)
    (hbasis : q.basis < 65536) (hcollection : q.collection < 256) (a : Dev) :
    fmSetQos q a = reply { a with cxl.qos := q } 16 0x5404 rcOk (qosBytes q) :=
  if_pos (by simp [hcontrol, hmoderate, hsevere, hinterval, hbasis, hcollection])

theorem setFractions_of_range {start : Nat} {fs : List Nat} (hfew : start + fs.length ≤ 16) (hne : fs ≠ []) (hsmall : ∀ f ∈ fs, f < 256) (a : Dev) (op : Nat)
    (put : Nat → CxlLd → CxlLd) (get : CxlLd → Nat) :
    setFractions a op start fs put get =
      reply (((rangeFrom start fs.length).zip fs).foldl (fun c y => updLd c y.1 (put y.2)) a) 16 op rcOk
        (fractions (((rangeFrom start fs.length).zip fs).foldl (fun c y => updLd c y.1 (put y.2)) a) start fs.length get) :=
  if_neg (by simpa [hne, Nat.not_lt.2 hfew] using hsmall)

/-- Settles O50: queries answer the settings, and settings in range are stored. -/
theorem fmCommandsAnswer : Obligations.FmCommandsAnswer := by
  unfold Obligations.FmCommandsAnswer
  exact ⟨does_of fmLdInfo (fun _ => rfl) fun a _ _ => rfl,
    fun start count hs => does_of (fmGetAlloc start count) (fun _ => rfl) fun a _ _ => if_neg (Nat.not_le.2 hs),
    fun start ms b hfew hne hok => does_of (fmSetAlloc start ms) (fun _ => rfl) fun a _ ⟨h1, h2, hfree, hb⟩ =>
      fmSetAlloc_of_fits hfew hne hok h1 h2 hfree hb,
    does_of fmGetQos (fun _ => rfl) fun a _ _ => rfl,
    fun q hcontrol hmoderate hsevere hinterval hbasis hcollection => does_of (fmSetQos q) (fun _ => rfl) fun a _ _ =>
      fmSetQos_of_range hcontrol hmoderate hsevere hinterval hbasis hcollection a,
    does_of fmQosStatus (fun _ => rfl) fun a _ _ => rfl,
    fun start count hs => does_of (fmGetAllocBw start count) (fun _ => rfl) fun a _ _ => if_neg (Nat.not_le.2 hs),
    fun start fs hfew hne hsmall => does_of (fmSetAllocBw start fs) (fun _ => rfl) fun a _ _ => setFractions_of_range hfew hne hsmall a _ _ _,
    fun start count hs => does_of (fmGetLimit start count) (fun _ => rfl) fun a _ _ => if_neg (Nat.not_le.2 hs),
    fun start fs hfew hne hsmall => does_of (fmSetLimit start fs) (fun _ => rfl) fun a _ _ => setFractions_of_range hfew hne hsmall a _ _ _⟩

/-! ### The tunnel -/

/-- With ring 16 open, a submission of at most 4,096 bytes is taken or answered as full, by the verbs that are open (17 R410). -/
theorem tunnelSubmit_of_open {a : Dev} {block : List Byte} (hlen : block.length ≤ 4096) {r : Ring} (hr : findRing a 16 = some r) (e : Entry) :
    tunnelSubmit e block a = if 63 ≤ hubLoad a then tunnelSay a 0 rcOk (tunnelReply 2 0 0 [] []) else { a with
      tur.hub := a.tur.hub ++ [⟨e, block, a.tur.submitSeq⟩], tur.hubWaits := a.tur.hubWaits ++ [⟨a.tur.submitSeq, a.tim.elapsed, true⟩]
      tur.submitSeq := a.tur.submitSeq + 1 } := by
  rw [tunnelSubmit, if_neg (Nat.not_lt.2 hlen), if_neg (by simp [hr])]

theorem tunnelCollect_of_held {a : Dev} {tag i : Nat} {h : HubHeld} (hi : a.tur.hubHeld.findIdx? (fun h => tag == 0 || h.tag == tag) = some i)
    (hh : a.tur.hubHeld[i]? = some h) :
    tunnelCollect tag a = tunnelSay { a with tur.hubHeld := a.tur.hubHeld.eraseIdx i } 0 rcOk (tunnelReply 0 h.block.length 0 h.cpl h.block) := by
  simp only [tunnelCollect, hi, hh]

theorem tunnelCollect_of_none {a : Dev} {tag : Nat} (hi : a.tur.hubHeld.findIdx? (fun h => tag == 0 || h.tag == tag) = none) :
    tunnelCollect tag a = tunnelSay a 0 rcOk (tunnelReply 3 0 0 [] []) := by
  simp only [tunnelCollect, hi]

theorem tunnelEvents_of_range {want : Nat} (hpos : 0 < want) (hmax : want ≤ 62) (a : Dev) :
    tunnelEvents want a = tunnelSay { a with tur.fmQueue := a.tur.fmQueue.drop want } 0 rcOk (putBytes
      (tunnelReply (if (a.tur.fmQueue.take want).isEmpty then 3 else 0) 0 (a.tur.fmQueue.take want).length [] ((a.tur.fmQueue.take want).flatMap id))
      48 (natLe a.tur.fmLost 8)) :=
  if_neg (by simp [hmax]; omega)

theorem tunnelExpiry_of_waited {a : Dev} {n dt : Nat} {w : HubWait} (hw : a.tur.hubWaits.find? (fun w => w.submit == n) = some w) (hwaits : w.waiting = true)
    (hdue : w.at' + 1000000000 ≤ (advance a dt).tim.elapsed) :
    tunnelExpiry n dt a = tunnelSay { advance a dt with
      tur.hubWaits := updWhere (fun x => x.submit == n) (fun x => { x with waiting := false }) a.tur.hubWaits } n rcOk (tunnelReply 1 0 0 [] []) := by
  simp only [tunnelExpiry, advance_tur, hw, hwaits, decide_eq_true hdue, Bool.and_self, if_true]

/-- Settles O51: a submission by ring 16's load, and each answer by what is held. -/
theorem tunnelCommandsAnswer : Obligations.TunnelCommandsAnswer := by
  unfold Obligations.TunnelCommandsAnswer
  exact ⟨fun e block r hlen => does_of (tunnelSubmit e block) (fun _ => rfl) fun a _ ⟨hr, hload⟩ =>
      (tunnelSubmit_of_open hlen hr e).trans (if_neg (Nat.not_le.2 hload)),
    fun e block r hlen => does_of (tunnelSubmit e block) (fun _ => rfl) fun a _ ⟨hr, hload⟩ => (tunnelSubmit_of_open hlen hr e).trans (if_pos hload),
    fun e block => does_of (tunnelSubmit e block) (fun _ => rfl) fun a _ hlong => if_pos hlong,
    fun tag i h => does_of (tunnelCollect tag) (fun _ => rfl) fun a _ ⟨hi, hh⟩ => tunnelCollect_of_held hi hh,
    fun tag => does_of (tunnelCollect tag) (fun _ => rfl) fun a _ hi => tunnelCollect_of_none hi,
    fun want hpos hmax => does_of (tunnelEvents want) (fun _ => rfl) fun a _ _ => ⟨_, rfl, tunnelEvents_of_range hpos hmax a⟩,
    fun n dt w => does_of (tunnelExpiry n dt) (fun _ => rfl) fun a _ ⟨hw, hwaits, hdue⟩ => tunnelExpiry_of_waited hw hwaits hdue⟩

end Sys2Proof.CxlAttachment
end

section
/-!
DOE objects and the attestation requests of SPDM 1.2, in their order and before their turn (15 R356-R358; 17 R396).
-/

namespace Sys2Proof.Attestation

open Sys2Proof.Machine

/-! ### DOE -/

theorem not_closed_of_open {a : Dev} {who : Nat} (h : doeOpen a who = true) : ¬(!doeOpen a who) = true := by simp [h]

theorem doeDiscovery_of_open {a : Dev} {who : Nat} (h : doeOpen a who = true) (i : Nat) : doeDiscovery who i a = doeReply a who 0
    (if i = 0 then natLe 1 2 ++ [0, 1] else if i = 1 then natLe 1 2 ++ [1, 2] else if i = 2 then natLe 0x1E98 2 ++ [2, 0] else natLe 0xFFFF 2 ++ [0, 0]) := by
  match i with
  | 0 => exact if_neg (not_closed_of_open h)
  | 1 => exact if_neg (not_closed_of_open h)
  | 2 => exact if_neg (not_closed_of_open h)
  | k + 3 => exact if_neg (not_closed_of_open h)

theorem cdatAccess_of_entry {a : Dev} {who h : Nat} (hopen : doeOpen a who = true) (hh : h ≤ Config.cdatEntries who % 256) {m : Nat × Nat}
    (hm : (match findLd a who with | some x => (x.m1, x.m2) | none => (0, 0)) = m) :
    cdatAccess who h a = doeReply a who 2 ([0, 0] ++
      natLe (if h + 1 < Config.cdatEntries who % 256 + 1 then h + 1 else 0xFFFF) 2 ++ Config.cdatEntry who m.1 m.2 h) := by
  subst hm
  rw [cdatAccess, if_neg (not_closed_of_open hopen)]
  exact if_pos (Nat.lt_succ_of_le hh)

/-! ### SPDM requests -/

/-- The message is one of version 1.2 with this code and enough bytes (15 R358). -/
def WellFormed (req : List Byte) (code len : Nat) : Prop := len ≤ req.length ∧ fieldAt req 0 1 = 0x12 ∧ fieldAt req 1 1 = code

section
variable {a : Dev} {who code stage len : Nat} {req : List Byte}

theorem spdmRun_in_turn (hopen : doeOpen a who = true) (hreq : WellFormed req code len) (hstage : stage ≤ (spdmOf a who).stage) (f : Spdm → Dev) :
    spdmRun who code stage len req a f = f (spdmOf a who) := by
  obtain ⟨hlen, hver, hcode⟩ := hreq
  exact (if_neg (not_closed_of_open hopen)).trans ((if_neg (by simp [hlen, hver, hcode])).trans (if_neg (Nat.not_lt.2 hstage)))

theorem spdmRun_before_turn (hopen : doeOpen a who = true) (hreq : WellFormed req code len) (hstage : (spdmOf a who).stage < stage) (f : Spdm → Dev) :
    spdmRun who code stage len req a f = spdmError a who 4 := by
  obtain ⟨hlen, hver, hcode⟩ := hreq
  exact (if_neg (not_closed_of_open hopen)).trans ((if_neg (by simp [hlen, hver, hcode])).trans (if_pos hstage))

theorem getVersion_of_open (hopen : doeOpen a who = true) (hlen : 4 ≤ req.length) (hver : fieldAt req 0 1 = 0x10) (hcode : fieldAt req 1 1 = 0x84) :
    getVersion who req a = spdmSay (spdmPut a ⟨who, 1, req ++ ([0x10, 0x04, 0, 0, 0, 1] ++ natLe 0x1200 2), [], []⟩) who
      ([0x10, 0x04, 0, 0, 0, 1] ++ natLe 0x1200 2) :=
  (if_neg (not_closed_of_open hopen)).trans (if_neg (by simp [hlen, hver, hcode]))

theorem getCapabilities_in_turn (hopen : doeOpen a who = true) (hreq : WellFormed req 0xE1 20) (hstage : (spdmOf a who).stage = 1) {rsp : List Byte}
    (hrsp : [0x12, 0x61, 0, 0, 0] ++ (drawBytes a 9).1.take 1 ++ [0, 0] ++ natLe 0x16 4 ++ (drawBytes a 9).1.drop 1 = rsp) :
    getCapabilities who req a =
      spdmSay (spdmPut (drawBytes a 9).2 { spdmOf a who with stage := 2, vca := (spdmOf a who).vca ++ req ++ rsp }) who rsp := by
  subst hrsp
  exact (spdmRun_in_turn hopen hreq hstage.ge _).trans (if_neg (not_not.2 hstage))

theorem negotiate_in_turn (hopen : doeOpen a who = true) (hreq : WellFormed req 0xE3 32) (hstage : (spdmOf a who).stage = 2) {rsp : List Byte}
    (hrsp : [0x12, 0x63, 0, 0] ++ natLe 36 2 ++ [byte (fieldAt req 6 1 &&& 1), 0] ++ natLe (if fieldAt req 6 1 &&& 1 = 1 then 8 else 0) 4 ++
      natLe (fieldAt req 8 4 &&& 0x40) 4 ++ natLe (fieldAt req 12 4 &&& 4) 4 ++ List.replicate 16 0 = rsp) :
    negotiate who req a = spdmSay (spdmPut a { spdmOf a who with
      stage := if fieldAt req 8 4 &&& 0x40 = 0x40 ∧ fieldAt req 12 4 &&& 4 = 4 then 3 else 2
      vca := (spdmOf a who).vca ++ req ++ rsp }) who rsp := by
  subst hrsp
  rw [negotiate, spdmRun_in_turn hopen hreq hstage.ge, if_neg (not_not.2 hstage)]
  simp only [Bool.and_eq_true, decide_eq_true_iff]

theorem getDigests_in_turn (hopen : doeOpen a who = true) (hreq : WellFormed req 0x81 4) (hstage : 3 ≤ (spdmOf a who).stage) (hslot : slotFilled a = true) :
    getDigests who req a = spdmSay (spdmPut a { spdmOf a who with
      certs := (spdmOf a who).certs ++ req ++ ([0x12, 0x01, 0, 1] ++ sha512 (certChain a)) }) who ([0x12, 0x01, 0, 1] ++ sha512 (certChain a)) :=
  (spdmRun_in_turn hopen hreq hstage _).trans (if_neg (by simp [hslot]))

theorem getCertificate_in_turn (hopen : doeOpen a who = true) (hreq : WellFormed req 0x82 8) (hzero : fieldAt req 2 1 = 0) (hstage : 3 ≤ (spdmOf a who).stage)
    (hslot : slotFilled a = true) (hoff : fieldAt req 4 2 < (certChain a).length) {part rsp : List Byte}
    (hpart : ((certChain a).drop (fieldAt req 4 2)).take (fieldAt req 6 2) = part)
    (hrsp : [0x12, 0x02, 0, 0] ++ natLe part.length 2 ++ natLe ((certChain a).length - fieldAt req 4 2 - part.length) 2 ++ part = rsp) :
    getCertificate who req a = spdmSay (spdmPut a { spdmOf a who with certs := (spdmOf a who).certs ++ req ++ rsp }) who rsp := by
  subst hpart hrsp
  exact (spdmRun_in_turn hopen hreq hstage _).trans (if_neg (by simp [hzero, hslot, hoff]))

/-- The blocks that the summary of a challenge covers. -/
def summarized (a : Dev) (who kind : Nat) : List (Nat × List Byte) :=
  if kind = 1 then (measBlocks a who).filter (fun x => decide (x.1 < 4)) else measBlocks a who

theorem challenge_in_turn (hopen : doeOpen a who = true) (hreq : WellFormed req 0x83 36) (hzero : fieldAt req 2 1 = 0) (hkind : fieldAt req 3 1 ∈ [0, 1, 255])
    (hstage : 3 ≤ (spdmOf a who).stage) (hslot : slotFilled a = true) (hsign : canSign a = true) {head : List Byte}
    (hhead : [0x12, 0x03, 0, 1] ++ sha512 (certChain a) ++ (drawBytes a 32).1 ++
      (if fieldAt req 3 1 = 0 then [] else sha512 ((summarized a who (fieldAt req 3 1)).flatMap (·.2))) ++ natLe 0 2 = head) :
    challenge who req a = spdmSay (spdmPut (drawBytes (drawBytes a 32).2 64).2 { spdmOf a who with certs := [] }) who (head ++
      identitySign a.boot.publicKey (drawBytes (drawBytes a 32).2 64).1
        (spdmSigned ctxChallenge ((spdmOf a who).vca ++ (spdmOf a who).certs ++ req ++ head))) := by
  subst hhead
  have hk : fieldAt req 3 1 = 0 ∨ fieldAt req 3 1 = 1 ∨ fieldAt req 3 1 = 255 := by simpa using hkind
  refine (spdmRun_in_turn hopen hreq hstage _).trans ((if_neg ?_).trans (if_neg (by simp [hslot, hsign])))
  simp only [hzero]
  rcases hk with hk | hk | hk <;> simp [hk]

/-! ### Measurements -/

/-- The blocks that a request of operation `op` asks for: none, all, or one (15 Table 15-4). -/
def selected (a : Dev) (who op : Nat) : List (Nat × List Byte) :=
  if op = 0 then [] else if op = 255 then measBlocks a who else (measBlocks a who).filter (fun x => x.1 == op)

/-- An operation other than the count selects something where it asks for all blocks or for one that is there. -/
theorem selected_ne_nil {op : Nat} (h : op = 0 ∨ op = 255 ∨ (measBlocks a who).any (fun x => x.1 == op) = true) (hop : op ≠ 0) : selected a who op ≠ [] := by
  rw [selected, if_neg hop]
  split
  · exact List.cons_ne_nil _ _
  · next hall =>
    obtain ⟨x, hx, heq⟩ := List.any_eq_true.1 ((h.resolve_left hop).resolve_left hall)
    exact List.ne_nil_of_mem (List.mem_filter.2 ⟨hx, heq⟩)

/-- The answer to GET_MEASUREMENTS up to its signature. -/
def measHead (a : Dev) (who op : Nat) : List Byte :=
  [0x12, 0x60, byte (if op = 0 then (measBlocks a who).length else 0), 0, byte (selected a who op).length] ++
    natLe ((selected a who op).flatMap (·.2)).length 3 ++ (selected a who op).flatMap (·.2) ++ (drawBytes a 32).1 ++ natLe 0 2

theorem getMeasurements_in_turn (hopen : doeOpen a who = true) (hreq : WellFormed req 0xE0 4) (hstage : 3 ≤ (spdmOf a who).stage)
    (hsigned : bitSet (fieldAt req 2 1) 0 = true → 37 ≤ req.length ∧ fieldAt req 36 1 = 0 ∧ canSign a = true ∧ slotFilled a = true)
    (hsel : fieldAt req 3 1 = 0 ∨ fieldAt req 3 1 = 255 ∨ (measBlocks a who).any (fun x => x.1 == fieldAt req 3 1) = true) {head : List Byte}
    (hhead : measHead a who (fieldAt req 3 1) = head) :
    getMeasurements who req a = if bitSet (fieldAt req 2 1) 0 = true then
        spdmSay (spdmPut (drawBytes (drawBytes a 32).2 64).2 { spdmOf a who with meas := [] }) who (head ++
          identitySign a.boot.publicKey (drawBytes (drawBytes a 32).2 64).1 (spdmSigned ctxMeasure ((spdmOf a who).vca ++ ((spdmOf a who).meas ++ req ++ head))))
      else spdmSay (spdmPut (drawBytes (drawBytes a 32).2 64).2 { spdmOf a who with meas := (spdmOf a who).meas ++ req ++ head }) who head := by
  subst hhead
  have hfields : ¬(bitSet (fieldAt req 2 1) 0 && (decide (req.length < 37) || decide (fieldAt req 36 1 ≠ 0))) = true := by
    intro h
    obtain ⟨hs, hbad⟩ := (Bool.and_eq_true_iff ..).1 h
    obtain ⟨hlen, hslot, -, -⟩ := hsigned hs
    simp [hslot, Nat.not_lt.2 hlen] at hbad
  have hsome : ¬(decide (fieldAt req 3 1 ≠ 0) && (selected a who (fieldAt req 3 1)).isEmpty) = true := by
    intro h
    obtain ⟨hop, hnone⟩ := (Bool.and_eq_true_iff ..).1 h
    exact selected_ne_nil hsel (of_decide_eq_true hop) (List.isEmpty_iff.1 hnone)
  have hkey : ¬(bitSet (fieldAt req 2 1) 0 && (!canSign a || !slotFilled a)) = true := by
    intro h
    obtain ⟨hs, hbad⟩ := (Bool.and_eq_true_iff ..).1 h
    obtain ⟨-, -, hsign, hslot⟩ := hsigned hs
    simp [hsign, hslot] at hbad
  exact (spdmRun_in_turn hopen hreq hstage _).trans ((if_neg hfields).trans ((if_neg hsome).trans (if_neg hkey)))

end

/-- Settles O52: each request by the stage of the requester's exchange. -/
theorem attestationRequestsAnswered : Obligations.AttestationRequestsAnswered := by
  unfold Obligations.AttestationRequestsAnswered
  refine ⟨fun who i => does_of (doeDiscovery who i) (fun _ => rfl) fun a _ hopen => doeDiscovery_of_open hopen i,
    fun who h hh => does_of (cdatAccess who h) (fun _ => rfl) fun a _ hopen => ⟨_, rfl, cdatAccess_of_entry hopen hh rfl⟩,
    fun who req hlen hver hcode => does_of (getVersion who req) (fun _ => rfl) fun a _ hopen => getVersion_of_open hopen hlen hver hcode,
    fun who req hlen hver hcode => does_of (getCapabilities who req) (fun _ => rfl) fun a _ ⟨hopen, hstage⟩ =>
      ⟨_, rfl, getCapabilities_in_turn hopen ⟨hlen, hver, hcode⟩ hstage rfl⟩,
    fun who req hlen hver hcode => does_of (negotiate who req) (fun _ => rfl) fun a _ ⟨hopen, hstage⟩ =>
      ⟨_, rfl, negotiate_in_turn hopen ⟨hlen, hver, hcode⟩ hstage rfl⟩,
    fun who req hlen hver hcode => does_of (getDigests who req) (fun _ => rfl) fun a _ ⟨hopen, hstage, hslot⟩ =>
      getDigests_in_turn hopen ⟨hlen, hver, hcode⟩ hstage hslot,
    fun who req hlen hver hcode hzero => does_of (getCertificate who req) (fun _ => rfl) fun a _ ⟨hopen, hstage, hslot, hoff⟩ =>
      ⟨_, _, rfl, rfl, getCertificate_in_turn hopen ⟨hlen, hver, hcode⟩ hzero hstage hslot hoff rfl rfl⟩,
    fun who req hlen hver hcode hzero hkind => does_of (challenge who req) (fun _ => rfl) fun a _ ⟨hopen, hstage, hslot, hsign⟩ =>
      ⟨_, _, rfl, rfl, challenge_in_turn hopen ⟨hlen, hver, hcode⟩ hzero hkind hstage hslot hsign rfl⟩,
    fun who req hlen hver hcode => does_of (getMeasurements who req) (fun _ => rfl) fun a _ ⟨hopen, hstage, hsigned, hsel⟩ => ?_,
    fun who req hlen hver hcode => does_of (getMeasurements who req) (fun _ => rfl) fun a _ ⟨hopen, hstage⟩ =>
      spdmRun_before_turn hopen ⟨hlen, hver, hcode⟩ hstage _⟩
  have hanswer := getMeasurements_in_turn hopen ⟨hlen, hver, hcode⟩ hstage hsigned hsel rfl
  exact ⟨selected a who (fieldAt req 3 1), measHead a who (fieldAt req 3 1), rfl, rfl,
    fun h => hanswer.trans (if_neg (ne_true_of_eq_false h)), fun h => hanswer.trans (if_pos h)⟩

end Sys2Proof.Attestation
end
